-- ==== Sys2Proof/Word.lean ====
section
/-! DEFINITION. The word types of the block (R13, R15): a byte, a 32-bit register word, a 64-bit word. -/
namespace Sys2Proof

/-- A byte. -/
abbrev Byte := BitVec 8

/-- A register word: every register is 32 bits wide (R15). -/
abbrev Word := BitVec 32

/-- A 64-bit word (sampler seeds, digest keys, serials). -/
abbrev Word64 := BitVec 64

end Sys2Proof
end

