-- ==== Sys2Proof/Syntax.lean ====
section
/-! DEFINITION. The commands of the block: one constructor of `Instr` per row of spec/opcode_table.json. No row gives bits
or fields, so each constructor's operands are what the row's rules say the event carries: who it happens to, and the
outcome of whatever lies outside Colea (a measurement, a unit's data, a requester's words) (assumption log 1). -/
namespace Sys2Proof

/-- Physical tile, by page index (R31). -/
abbrev TileIx := Fin 144
/-- Logical tile L0 to L127 (R21). -/
abbrev LogIx := Fin 128
abbrev StackIx := Fin 24
abbrev PortIx := Fin 48
abbrev DieIx := Fin 25
abbrev CtxIx := Fin 16
abbrev PartIx := Fin 4
/-- Clock domain, numbered by R486. -/
abbrev DomainIx := Fin 41
/-- Colea function id (R430). -/
abbrev FnIx := Fin 5
/-- Router port 0 to 3 (R507). -/
abbrev RPort := Fin 4

/-- The two worlds (R425). -/
inductive World | secure | nonSecure
deriving DecidableEq, Repr

/-- Access path of a register access (R481). CMP copies: 0 to 3 the open sessions, 4 to 11 the unauthenticated sources. -/
inductive Path | host | core | cmp (copy : Fin 12)
deriving DecidableEq, Repr

/-- One register access: path, BAR offset, and whether it is one aligned 32-bit access (R15). -/
structure Acc where
  path : Path
  off : Nat
  aligned : Bool := true
deriving DecidableEq, Repr

/-- A Bellows agent: die index and agent number (R53, R54). -/
structure AgentIx where
  die : DieIx
  agent : Fin 32
deriving DecidableEq, Repr

/-- An order-free digest: two lanes modulo 2^61 - 1 (R155). -/
structure Ofd where
  lane0 : Nat
  lane1 : Nat
deriving DecidableEq, Repr

/-- Causes of a check failure (R98). -/
inductive Cause | residue | converter | indexParity | operandParity | checker
deriving DecidableEq, Repr

/-- Kinds of command, as eligibility (R121) and the Anvil format order (R280) need them. -/
inductive CmdKind | bi8 | bi4 | sp24 | bf16 | fp8 | vector | move | link | barrier | reconfig
deriving DecidableEq, Repr

/-- A memory region named by a command (R163, R173, R428). -/
structure MemRegion where
  base : Nat
  length : Nat
deriving DecidableEq, Repr

/-- An operand's source (R99): a region of external memory; tile SRAM (`writesIt`: the command writes the region it reads); a dataflow
queue with the tokens that the command consumes from it, and their bytes, which the context's replay window may or may not hold (R206). -/
inductive OperandSrc | external (region : MemRegion) | resident (writesIt : Bool) | queue (q : Fin 256) (tokens bytes : Nat)
deriving DecidableEq, Repr

/-- A command as issued to a logical tile (R121, R202); `streams` is the number of its output streams (R169), `e0` its output scale
(R85). -/
structure Cmd where
  ctx : CtxIx
  seq : Word
  step : Word
  kind : CmdKind
  tag : Word
  idempotent : Bool
  hold : Bool
  gated : Bool
  sources : List OperandSrc
  captureBytes : Nat
  startCopy : Bool
  handles : List Nat
  passes : Nat
  streams : Nat
  e0 : BitVec 8
deriving DecidableEq, Repr

/-- What the comparators' two rails show (R103). -/
inductive Rails | proper | neither | both
deriving DecidableEq, Repr

/-- One pass as the lanes see it (R84 to R89): the execution of the command that it belongs to; mantissas, of four bits where `a4` or `b4`
says so; block exponents; prior output; the accumulators as they leave for output conversion; what a corrupted checksum path adds to
predicted residues, by row and by column (R91); the comparators' rails, and whether they report agreement falsely (R104). -/
structure PassIn where
  seq : Word
  pass : Fin 65536
  exec : Nat
  a4 : Bool
  b4 : Bool
  a : List (List Byte)
  alpha : List (List Byte)
  b : List (List Byte)
  beta : List (List Byte)
  c0 : List (List Word64)
  acc : List (List Word64)
  skewRow : List (Nat × Int)
  skewCol : List (Nat × Int)
  rails : Rails
  falseAgree : Bool
deriving DecidableEq, Repr

/-- Where a pass mismatches (R90): how many rows and columns, the first of each, their syndromes, single_element. -/
structure Location where
  rows : Nat
  cols : Nat
  row : Nat
  col : Nat
  rowSynd : Nat
  colSynd : Nat
  single : Bool
deriving DecidableEq, Repr

/-- A word of the tile's SRAM that a command has written (R214, R215): its address in words of 8 bytes, whether all of it was written, and the Slag
code that the data brought, 0 for none. -/
structure SramWord where
  addr : Nat
  covers : Bool
  code : Fin 8
deriving DecidableEq, Repr

/-- The output stream of a command as the tile warden digests it (R161): unit width, byte offset of its first byte in the stream or in its
handle's region, its bytes, and the words of the tile's own SRAM that it wrote. -/
structure StreamOut where
  width : Fin 4
  offset : Nat
  data : List Byte
  words : List SramWord
deriving DecidableEq, Repr

/-- The counts of R108 that a token adds to. -/
inductive ConsKind | dispatched | dropped | received | returned
deriving DecidableEq, Repr

/-- Placement of the expert (R109). -/
inductive Placement | localExpert | remoteExpert | serving
deriving DecidableEq, Repr

/-- An expert key (R108): context, layer, expert. -/
structure ConsKey where
  ctx : CtxIx
  layer : Fin 4096
  expert : Fin 1024
deriving DecidableEq, Repr

/-- A token arriving at a tile (R207, R236). -/
structure Token where
  ctx : CtxIx
  step : Word
  queue : Nat
  pos : Nat
  epoch : Fin 16
  marked : Bool
  mustDrain : Bool
  cons : Option (ConsKey × ConsKind × Placement)
deriving DecidableEq, Repr

/-- A write at a stack (R164 to R166, R171, R215): the handle it is tagged with, 0 for none; where it goes; its bytes with their enables;
the execution that issued it, as tile, command and execution number, none for a write of no tile; the Slag code it carries. -/
structure TagWrite where
  handle : Fin 256
  ctx : CtxIx
  step : Word
  addr : Nat
  bytes : List (Byte × Bool)
  src : Option (TileIx × Word × Nat)
  slag : Option (Fin 8)
deriving DecidableEq, Repr

/-- What the scrub engine of a stack read of its part of a region (R173): byte offset in the region, bytes, the addresses at which a
read met an uncorrectable error, and the instant at which the read ended. -/
structure ScrubPart where
  stack : StackIx
  offset : Nat
  data : List Byte
  errors : List Nat
  ended : Nat
deriving DecidableEq, Repr

/-- An edge of the wait-for graph (R228). -/
structure Edge where
  ctx : CtxIx
  queue : Nat
  producer : LogIx
  consumer : LogIx
  full : Bool
  pos : Word
  capacity : Nat
deriving DecidableEq, Repr

/-- The items that a tile warden reports for a shadow comparison (R133, R134). -/
structure CmpItems where
  seq : Word
  ofd : Ofd
  bytes : List Nat
  residue : Fin 3
  converterOk : Bool
  parityOk : Bool
  ordinal : Nat
  hold : Bool
deriving DecidableEq, Repr

/-- The role in which a tile reports comparison items. -/
inductive DigestRole | primary | shadow | arbiter
deriving DecidableEq, Repr

/-- Supply and clock samples around a test (R261, R287): two core-supply samples in 0.1 mV, two effective-clock samples in
MHz, droop count during the run. -/
structure EnvWindow where
  supply0 : Nat
  supply1 : Nat
  clock0 : Nat
  clock1 : Nat
  droops : Nat
deriving DecidableEq, Repr

/-- What a warden's report says (R55, R56): the events that wardens and routers report to the Hearth. -/
inductive Rep
  | residueTransient (t : TileIx) (ctx : CtxIx) (cause : Cause) (pass row col : Nat)
  | residueRepeat (t : TileIx) (ctx : CtxIx) (seq : Word) (cause : Cause) (pass row col : Nat)
  | residueInputSuspect (t : TileIx) (ctx : CtxIx) (step seq : Word) (cause : Cause) (pass row col : Nat) (first : Nat)
  | residueNonidem (t : TileIx) (ctx : CtxIx) (step seq : Word) (cause : Cause) (pass row col : Nat)
  | residueNoReplay (t : TileIx) (ctx : CtxIx) (step seq : Word) (cause : Cause) (pass row col : Nat)
  | checkerFault (t : TileIx) (ctx : CtxIx) (pass row col : Nat)
  | tileWatchdog (t : TileIx) (ctx : CtxIx) (seq : Word)
  | epochDrain (t : TileIx) (ctx : CtxIx) (step : Word)
  | slagTile (t : TileIx) (code addr : Nat)
  | slagStack (n : StackIx) (code addr : Nat)
  | controlUE (unitType index : Nat)
  | pathParity (n : StackIx) (addr : Nat)
  | slagConsumed (t : TileIx) (ctx : CtxIx) (step seq : Word) (code : Nat)
  | shadowDigest (t : TileIx) (role : DigestRole) (primary : TileIx) (items : CmpItems)
  | latch (n : StackIx) (handle : Fin 256) (step : Word) (ofd : Ofd) (count : Nat) (flags : Nat) (keySet : Fin 4)
  | accumFault (n : StackIx) (handle : Nat) (step : Word) (keySet : Fin 4)
  | edge (e : Edge)
  | edgeGone (ctx : CtxIx) (queue : Nat) (producer consumer : LogIx)
  | portResync (unitType index discard : Nat)
  | portDead (die : DieIx) (port : RPort) (timeout : Bool)
  | unitNoresp (t : TileIx)
  | hbmRow (n : StackIx) (repaired : Bool) (row column dq : Nat) (w : EnvWindow)
  | domainLate (d : DomainIx)
  | wardenFailed (a : AgentIx)
deriving DecidableEq, Repr

/-- Bellows message classes (R53). -/
inductive MsgClass | report | command | response | register
deriving DecidableEq, Repr

/-- Flit kinds, for flit errors (R52). -/
inductive FlitKind | head | body | tail
deriving DecidableEq, Repr

/-- What a message bears on the wire besides its row's own fields (R53): the level field; an unassigned opcode, where it carries one in
place of its row's; the CRC of its TAIL, none where an ABORT ended it. -/
structure Wire where
  level : Fin 16
  opcode : Option (BitVec 8)
  tail : Option (BitVec 16)
deriving DecidableEq, Repr

/-- Opcodes of R55. -/
def assignedOps : List Nat := [0x01, 0x02, 0x03, 0x10, 0x11, 0x20, 0x30, 0x40, 0x41, 0x42]

/-- The envelope of a Bellows message at its receiver (R53): where to, where from, seq. -/
structure Env where
  dst : AgentIx
  srcDie : DieIx
  srcAgent : Fin 32
  seq : Fin 64
  wire : Wire
deriving DecidableEq, Repr

/-- A message at a router (R53, R66): the port it arrives on, none for the die's own agents; `alternate` is the die at which the HEAD was
marked alternate (R50), none for a HEAD marked primary. -/
structure Head where
  port : Option RPort
  destDie : Fin 32
  destAgent : Fin 32
  src : AgentIx
  bodyCount : Fin 16
  alternate : Option DieIx
  error : Option FlitKind
deriving DecidableEq, Repr

/-- Who sent a message whose response or timeout arrives: the Hearth core, or a warden. -/
inductive Sender | hearth | warden (a : AgentIx)
deriving DecidableEq, Repr

/-- A CENSUS_REPLY (R82). Of an agent: kind, page index, stepping, levels, self-test flags. Of a router: mask and ports. -/
inductive CensusBody
  | agent (stepping minLevel maxLevel : Nat) (selfTestFailed : Bool)
  | router (mask : BitVec 32) (ports : List (Option (DieIx × Bool)))
deriving DecidableEq, Repr

/-- A failing cell of the Hearth memory test (R266). -/
structure MemFail where
  addr : Nat
  bit : Nat
deriving DecidableEq, Repr

/-- What stage 0 finds (R266, R358, R517): memory tests, the two NVM devices, the MRAM header copies, the strap. -/
structure Stage0In where
  coreMem : Option MemFail
  recorderMem : Option MemFail
  norAnswers : Bool
  mramAnswers : Bool
  headersGood : Bool
  sgmii : Bool
deriving DecidableEq, Repr

/-- Outcome of one domain's power-up at stage 3 (R306, R76). -/
inductive DomainRes | ok | late | notLocked | gridFail
deriving DecidableEq, Repr

/-- A failing array of a memory BIST run (R266): its number within the warden's unit, word address and bit of its first failing cell, failing
cells, whether the repair held in the retest, and its redundancy, used and left. -/
structure ArrayFail where
  array : Nat
  word : Nat
  bit : Nat
  cells : Nat
  repaired : Bool
  rowsUsed : Nat
  rowsLeft : Nat
  colsUsed : Nat
  colsLeft : Nat
deriving DecidableEq, Repr

/-- One logic and memory BIST run on a tile (R263 to R266): the MISR values observed, by slice and checkpoint, of which one not listed equals its
expected signature; the failing arrays; the redundancy of the tile's SRAM after the run, used and left. -/
structure BistRun where
  window : EnvWindow
  misrs : List (Fin 8 × Fin 64 × Word64)
  arrays : List ArrayFail
  rowsUsed : Nat
  rowsLeft : Nat
  colsUsed : Nat
  colsLeft : Nat
deriving DecidableEq, Repr

/-- A stack test (R267, R268): sensor reading in quarter degrees, failing rows as (row address, repair resource left,
column, DQ bit), whether the port answered, the repair resources that the stack then reports available (sPPR, hPPR), and the samples of its die. -/
structure StackTest where
  stack : StackIx
  temp : Int
  rows : List (Nat × Bool × Nat × Nat)
  answers : Bool
  sppr : Nat
  hppr : Nat
  window : EnvWindow
deriving DecidableEq, Repr

/-- Memory BIST of the arrays outside tiles (R265): the unit, the samples of the run, and its failing arrays. -/
inductive ArrayUnit | mesh (cd : Fin 8) | stack (n : StackIx) | port (p : PortIx)
deriving DecidableEq, Repr

structure ArrayRes where
  unit : ArrayUnit
  window : EnvWindow
  fails : List ArrayFail
deriving DecidableEq, Repr

/-- Results of start-up BIST (R260, R270). -/
structure Stage4In where
  tiles : List (TileIx × BistRun)
  arrays : List ArrayRes
  stackTests : List StackTest
deriving DecidableEq, Repr

/-- Training of one unit at stage 5 (R308). -/
inductive TrainRes
  | saved | savedRejectedThenFull | full | failed | savedRejectedThenFailed | noPeer
deriving DecidableEq, Repr

/-- Phases of stage 6 (R310 to R312): fetch and broadcast, with what the Anvil image says of itself (R284); one repair decision. -/
inductive Stage6Phase
  | fetch (kernels : BitVec 12) (version : Nat)
  | repair
deriving DecidableEq, Repr

/-- A firmware chunk with its header (R310): 16-bit index, 32-bit length. -/
structure FwChunk where
  gen : BitVec 16
  index : Nat
  length : Nat
  crc : Word
  data : List Byte
deriving DecidableEq, Repr

/-- The end of one Anvil kernel (R278), with the samples of its tile's region (R287). -/
structure KernelRes where
  kernel : Fin 12
  ofd : Ofd
  expected : Ofd
  countsEqual : Bool
  checksPass : Bool
  conservationOk : Bool
  skipped : Bool
  invalid : Bool
  aborted : Bool
  window : EnvWindow
deriving DecidableEq, Repr

/-- A received identity block (R448). -/
structure Identity where
  serial : Word64
  coords : Word
  port : Byte
  grade : Byte
  gens : List Byte
  chipGen : Byte
  flags : Byte
deriving DecidableEq, Repr

/-- A received fence notice (R462). -/
structure FenceNotice where
  scope : Fin 7
  senderPort : Byte
  serial : Word64
  coords : Word
  genBefore : Byte
  genAfter : Byte
  gens : List Byte
  entries : List (BitVec 16 × Word)
deriving DecidableEq, Repr

/-- A data-plane frame on a tensor port (R454, R218, R391); a read asks for `bytes` (R216). -/
structure Frame where
  tag : BitVec 16
  destPkg : Nat
  gen : Byte
  stamp : BitVec 16
  ctx : CtxIx
  isWrite : Bool
  bytes : Nat
deriving DecidableEq, Repr

/-- A resident region in a context descriptor (R205, R209). -/
inductive Backing | const | commitThrough | none
deriving DecidableEq, Repr

structure Region where
  lt : LogIx
  bytes : Nat
  policy : Backing
deriving DecidableEq, Repr

/-- A context descriptor (R99, R112, R121, R122, R205, R206, R235, R454); `limits` are the credit limits that it declares, by consuming
logical tile and queue, in tokens. -/
structure CtxDesc where
  jobTag : BitVec 16
  step : Word
  seed : Word64
  shadowOff : Bool
  noticeOnly : Bool
  creditFallback : Bool
  replayWindow : Nat
  regions : List Region
  unretained : List LogIx
  limits : List (LogIx × Fin 256 × Nat)
deriving DecidableEq, Repr

/-- What a step barrier of a context brings (R109, R126, R184): the step just ended, measures of the step, and the stall and
traffic counts that the drift counters take. -/
structure Barrier where
  ctx : CtxIx
  step : Word
  shadowBusy : Nat
  stepTime : Nat
  refresh : Nat
  retry : Nat
  check : Nat
  scrub : Nat
  observed : Bool
deriving DecidableEq, Repr

/-- The sender of a CMP message (R466): its address, the session it names, whether it carries a tag, whether magic, length
and tag are good, and its sequence. -/
structure CmpHdr where
  addr : Nat
  session : Word
  auth : Bool
  good : Bool
  seq : Word
deriving DecidableEq, Repr

/-- How a host command reaches Colea: the command window (R413), or a CMP COMMAND (R470). -/
inductive Via | window (aligned64 : Bool) | cmp (h : CmpHdr)
deriving DecidableEq, Repr

/-- The header of a host command (R412). `ctx` counts when `operator` is clear. `badOperand`: the bytes of the command hold an
operand outside its range (R7, R420); the operands beside this header are then not looked at. -/
structure Hdr where
  via : Via
  seq : Word
  operator : Bool
  ctx : CtxIx
  noMsix : Bool
  badOperand : Bool
deriving DecidableEq, Repr

/-- OFD_REGISTER and scrub operands (R163, R173). -/
structure OfdDecl where
  ctx : CtxIx
  region : MemRegion
  width : Fin 4
  indexBase : Nat
  keySet : Fin 4
deriving DecidableEq, Repr

/-- A member's copy of a replicated region as it is registered (R178): STATIC with the host's version, or STEPPED with the region's handle and
the step stride. -/
inductive ReplicaCopy
  | static (d : OfdDecl) (version : Word)
  | stepped (handle : Fin 256) (stride : Word)
deriving DecidableEq, Repr

/-- A member's copy of a replicated region (R178), as its host has registered it: STATIC with the host's version and what the interval's scrub
read, or STEPPED with the region's handle and the step stride. -/
inductive ReplicaReg
  | static (d : OfdDecl) (version : Word) (parts : List ScrubPart)
  | stepped (handle : Fin 256) (stride : Word)
deriving DecidableEq, Repr

/-- WATCH_SET operands (R393). -/
inductive WatchSel
  | tag (layer operator : Fin 4096) (streams : BitVec 8) (length : Nat)
  | address (base length : Nat)
deriving DecidableEq, Repr

structure WatchDecl where
  part : PartIx
  ctx : CtxIx
  step : Word
  sel : WatchSel
  dump : MemRegion
deriving DecidableEq, Repr

/-- A tile named in ANVIL_RUN (R281). -/
inductive TileName | phys (t : TileIx) | logical (l : LogIx)
deriving DecidableEq, Repr

/-- A region-table entry (R301). -/
inductive Purpose | firmware | anvil | spill (p : PartIx) | snapshot | general
deriving DecidableEq, Repr

structure RegionEntry where
  base : Nat
  length : Nat
  control : Bool
  owner : World
  purpose : Purpose
deriving DecidableEq, Repr

/-- Port roles (R301). -/
inductive Role | tensor | ethernet | storage
deriving DecidableEq, Repr

structure PortRole where
  role : Role
  reserved : Bool
deriving DecidableEq, Repr

/-- A routing-table entry (R457, R458). -/
structure Route where
  tag : BitVec 16
  dest : Fin 4096
  primary : PortIx
  alternate : Option PortIx
deriving DecidableEq, Repr

/-- A slice-filter entry (R455, R458). -/
structure Slice where
  tag : BitVec 16
  rx : Bool
  tx : Bool
  coords : Word
deriving DecidableEq, Repr

/-- The sparing requests (R197). -/
inductive SpareReq | fence | ret | retire | unretire
deriving DecidableEq, Repr

/-- An expected-wiring entry (R450). -/
structure WireExp where
  port : PortIx
  peer : Bool
  coords : Word
  farPort : Byte
  reach : Fin 4
deriving DecidableEq, Repr

/-- A snapshot scope (R251, R398). -/
inductive SnapScope | package | partitions (mask : BitVec 4) | tiles (ts : List TileIx)
deriving DecidableEq, Repr

/-- The host commands of R419, as a CMP COMMAND carries them. -/
inductive HostCmd
  | nop
  | txnBegin
  | itemRegion (ix : Fin 64) (e : Option RegionEntry)
  | itemPortRole (p : PortIx) (r : PortRole)
  | itemRoute (ix : Fin 1024) (r : Option Route)
  | itemSlice (p : PortIx) (ix : Fin 16) (e : Option Slice)
  | itemSparing (r : SpareReq) (t : TileIx)
  | txnCommit (step : Bool)
  | txnAbort
  | fnEnable (f : FnIx)
  | fnDisable (f : FnIx)
  | contextKill (c : CtxIx)
  | removeAck
  | resetPartition (p : PartIx)
  | resetComputePart
  | resetChip
  | boundaryStop (parts : BitVec 4) (step : Bool)
  | boundaryResume
  | escRelease
  | snapshot (scope : SnapScope)
  | snapCopy (buffer : Fin 2) (offset length : Nat)
  | snapRelease (buffer : Fin 2)
  | ofdRegister (d : OfdDecl)
  | ofdRelease (handle : Fin 256)
  | ofdRead (handle : Fin 256)
  | scrubDigest (d : OfdDecl)
  | ofdVerify (d : OfdDecl) (expected : Ofd) (count : Nat)
  | anvilRun (tiles : List TileName) (kernels : BitVec 12) (times : Nat)
  | obsCtxRead (c : CtxIx)
  | watchSet (w : WatchDecl)
  | watchRelease (part : PartIx) (wp : Fin 8)
  | bad (opcode : BitVec 16)
deriving DecidableEq, Repr

/-- One parity or path point of R113; `control` is the class of data in flight that no region of memory gives (R213). -/
inductive ParityPoint | memoryWrite (n : StackIx) | linkEgress (p : PortIx) (control : Bool) | tileWrite (t : TileIx) (control : Bool)
deriving DecidableEq, Repr

/-- The warden through which a reply returns into a compute domain (R217). -/
inductive ReplyVia | stack (n : StackIx) | link (p : PortIx)
deriving DecidableEq, Repr

/-- A sensor reading of a housekeeping round (R326, R328), in quarter degrees. -/
inductive Sensor
  | tile (t : TileIx) | hotspot (cd : Fin 8) (k : Fin 4) | io (d : Fin 16) (k : Fin 2) | anchor (k : Fin 2)
  | stack (n : StackIx)
deriving DecidableEq, Repr

/-- A unit of the thermal classes (R330). -/
inductive ThermalUnit | region (g : Fin 16) | stack (n : StackIx) | io (d : Fin 16) | anchor
deriving DecidableEq, Repr

/-- What one PMBus round returns for a channel (R341, R521): READ_VIN and READ_VOUT in mV, READ_IIN and READ_IOUT in 10 mA, READ_PIN in W, the
temperature in quarters of a degree. -/
structure PmbRead where
  channel : Fin 32
  answers : Bool
  pecGood : Bool
  statusWord : BitVec 16
  vin : Nat
  iin : Nat
  pin : Nat
  vout : Nat
  iout : Nat
  temp : Int
deriving DecidableEq, Repr

/-- Outcome of a sensor round beyond the readings: supply, clock, droop per die (R328). -/
structure DieSample where
  die : DieIx
  supply : Nat
  clock : Nat
  droops : Nat
deriving DecidableEq, Repr

/-- A BIST run, a stack test or an array test repeated after an INVALID result (R262). -/
inductive Retry | tile (t : TileIx) (r : BistRun) | stack (r : StackTest) | array (r : ArrayRes)
deriving DecidableEq, Repr

/-- The commands and events of the block, in the order of spec/opcode_table.json but for some without operands, which stand last. -/
inductive Instr
  | standbyPowerGood (i : Stage0In)
  | standbyPowerLoss
  | stage1Authentication
  | stage2HearthBoot
  | mainInputGood (failedAgents : List AgentIx)
  | mainPowerTimeout
  | censusAgentTimeout (a : AgentIx)
  | stage3DomainPower
  | domainPowerGood (d : DomainIx) (r : DomainRes)
  | alignGridPoint (late : List DomainIx)
  | stage4Bist (i : Stage4In)
  | bistInvalidRetry (r : Retry)
  | stage5Training (stackRes : List (StackIx × TrainRes)) (portRes : List (PortIx × TrainRes × List Nat))
  | linkWaitExpiry (p : PortIx)
  | stage6Payload (ph : Stage6Phase)
  | fwChunkReceive (t : TileIx) (c : FwChunk)
  | stage7Topology
  | wiringWaitExpiry
  | stage8Anvil (rs : List (TileIx × List KernelRes))
  | stage9Ready
  | trainingRecordDone (ok : Bool)
  | coreWatchdogExpiry (digestOk : Bool)
  | hearthRestartComplete
  | heartbeat (path : Path) (value : Word)
  | refclkLoss
  | reportSend (a : AgentIx)
  | reportDropped (a : AgentIx) (r : Rep)
  | routerForward (die : DieIx) (h : Head) (others : List Head)
  | regRead (e : Env) (offset : Nat) (path : Fin 4)
  | regWrite (e : Env) (offset : Nat) (path : Fin 4) (data : Word)
  | blockRead (e : Env) (offset : Nat) (count : Nat)
  | report (a : AgentIx) (r : Rep) (w : Wire)
  | reportData (a : AgentIx) (r : Rep) (part : Nat) (w : Wire)
  | reportTaken
  | response (who : Sender) (a : AgentIx) (cls : MsgClass) (seq : Fin 64) (status : Fin 16)
  | responseTimeout (who : Sender) (a : AgentIx) (cls : MsgClass)
  | reportResendTimer (a : AgentIx)
  | censusProbe (e : Env) (b : CensusBody)
  | censusReply (a : AgentIx) (b : CensusBody)
  | levelSet (e : Env) (level : Fin 16) (timeout : Nat)
  | unitWaitExpiry (a : AgentIx)
  | unitTakesCommand (a : AgentIx)
  | aliveLow (die : DieIx) (port : RPort)
  | handshakeTimeout (die : DieIx) (port : RPort)
  | portErrorSample
  | hardlineFault (d : DomainIx) (line : Fin 4)
  | portResetSeen (a : AgentIx) (unread : Nat)
  | portOpen (a : AgentIx)
  | commandIssue (l : LogIx) (c : Cmd)
  | commandStart (t : TileIx) (seq : Word)
  | passCheckResult (t : TileIx) (p : PassIn)
  | indexParityError (t : TileIx) (seq : Word) (pass exec : Nat)
  | operandParityError (t : TileIx) (seq : Word) (pass exec : Nat)
  | converterMismatch (t : TileIx) (seq : Word) (pass exec : Nat)
  | checkerInjection (t : TileIx) (row : Fin 128) (col : Fin 96) (d : Nat)
  | reexecResult (t : TileIx) (seq : Word) (failed : Bool) (cause : Cause) (pass : Nat) (l : Location)
  | selfFenceTimer (t : TileIx)
  | commandComplete (t : TileIx) (seq : Word) (outs : List StreamOut)
  | commandCommit (t : TileIx) (seq : Word)
  | taggedWrite (n : StackIx) (w : TagWrite)
  | tokenArrival (t : TileIx) (k : Token)
  | stepBarrier (b : Barrier)
  | samplerUpdate (t : TileIx) (c : CtxIx) (seed : Word64) (r : Fin 16)
  | startCopyDone (t : TileIx) (waited : Nat)
  | multicastOverrun (t : TileIx)
  | holdWaitExpiry (t : TileIx) (seq : Word)
  | arbitrationStart
  | captureCopyDone (slot : Fin 2) (ofd : Ofd) (parityError : Bool)
  | watchPeriodExpiry (t : TileIx)
  | tileFenceCommand (t : TileIx) (reason : Nat)
  | fenceUnconfirmed (t : TileIx)
  | replacementStart
  | reloadComplete (slot : Fin 2) (slag : Option CtxIx)
  | spareRecordWriteDone (ok : Bool)
  | spareRecordRetry
  | hbmUncorrectable (n : StackIx) (addr : Nat)
  | tileSramUE (t : TileIx) (addr : Nat) (control : Bool)
  | pathParityFail (p : ParityPoint) (addr : Nat)
  | slagConsumed (t : TileIx) (seq : Word) (code addr : Nat)
  | dataReplyArrival (via : ReplyVia) (dom : Fin 16) (gen : Byte) (ctx : CtxIx)
  | remoteGoneAnswer (p : PortIx) (selfReset : Bool) (bytes : Nat)
  | genHoldoffExpiry
  | tileWatchdogExpiry (t : TileIx)
  | contextWatchdogExpiry (c : CtxIx)
  | partitionWatchdogExpiry (p : PartIx)
  | chipWatchdogExpiry
  | edgeReport (t : TileIx) (e : Edge)
  | edgeWithdraw (t : TileIx) (e : Edge)
  | knotTimeoutExpiry (stillBlocked : Bool) (entries : Nat)
  | spillRead (c : CtxIx) (queue : Nat) (pos : Word)
  | reconfiguration (t : TileIx) (seq : Word)
  | reconfigCommit (t : TileIx) (windowExpired : Bool) (leftover : Nat) (mustDrain : Option (CtxIx × Word))
  | contextKill (h : Hdr) (c : CtxIx)
  | contextKillCommand (t : TileIx) (c : CtxIx)
  | killTimeout (t : TileIx) (c : CtxIx)
  | quarantineExpiry (c : CtxIx)
  | resetComplete
  | resetBoundExpiry
  | escHoldExpiry
  | escRelease (h : Hdr)
  | snapshot (h : Hdr) (scope : SnapScope)
  | snapshotUnitTimeout (buffer : Fin 2) (a : AgentIx)
  | snapshotComplete (buffer : Fin 2)
  | snapshotWriteTimeout (buffer : Fin 2)
  | snapCopy (h : Hdr) (buffer : Fin 2) (offset length : Nat)
  | snapRelease (h : Hdr) (buffer : Fin 2)
  | fenceNoticeReceive (p : PortIx) (n : FenceNotice)
  | boundaryStop (h : Hdr) (parts : BitVec 4) (step : Bool)
  | boundaryCutReached
  | bstopTimeout
  | boundaryResume (h : Hdr)
  | bistSlotOpen
  | handOverComplete (slot : Option (Fin 8))
  | bistResult (r : BistRun) (t : TileIx)
  | handBackComplete (slot : Option (Fin 8))
  | returnTestRetry (t : TileIx) (r : BistRun)
  | bistDiag (t : TileIx) (pattern : Nat)
  | hbmRowSlice (n : StackIx) (temp : Int) (fails : List (Fin 16 × Bool × Nat × Nat)) (lost : List Nat) (w : EnvWindow)
  | anvilRun (h : Hdr) (tiles : List TileName) (kernels : BitVec 12) (times : Nat)
  | anvilRunStart
  | anvilCoverTimeout
  | anvilKernelResult (slot : Fin 8) (r : KernelRes)
  | txnBegin (h : Hdr)
  | txnItemRegion (h : Hdr) (ix : Fin 64) (e : Option RegionEntry)
  | txnItemPortRole (h : Hdr) (p : PortIx) (r : PortRole)
  | txnItemRoute (h : Hdr) (ix : Fin 1024) (r : Option Route)
  | txnItemSliceFilter (h : Hdr) (p : PortIx) (ix : Fin 16) (e : Option Slice)
  | txnItemSparing (h : Hdr) (r : SpareReq) (t : TileIx)
  | txnCommitImmediate (h : Hdr)
  | txnCommitStep (h : Hdr)
  | txnAbort (h : Hdr)
  | txnTimeoutExpiry (w : World)
  | transactionalRegisterWrite (a : Acc) (v : Word)
  | fnEnable (h : Hdr) (f : FnIx)
  | fnDisable (h : Hdr) (f : FnIx)
  | fnStartComplete (f : FnIx) (ok : Bool)
  | fnStopComplete (f : FnIx)
  | nop (h : Hdr)
  | removeAck (h : Hdr)
  | resetRequestPartition (h : Hdr) (p : PartIx)
  | resetRequestComputePart (h : Hdr)
  | resetRequestChip (h : Hdr)
  | ofdRegister (h : Hdr) (d : OfdDecl)
  | ofdRelease (h : Hdr) (handle : Fin 256)
  | ofdRead (h : Hdr) (handle : Fin 256)
  | scrubDigest (h : Hdr) (d : OfdDecl)
  | ofdVerify (h : Hdr) (d : OfdDecl) (expected : Ofd) (count : Nat)
  | scrubStart
  | scrubComplete (parts : List ScrubPart)
  | digestLatchCommand (n : StackIx) (c : CtxIx) (step : Word)
  | bankLatch (n : StackIx) (c : CtxIx) (step : Word) (kat : List Ofd)
  | replicaInterval (group : Word) (r : ReplicaReg)
  | digestExchange (m : CmpHdr) (group : Word) (member : Fin 16) (version : Word) (keySet : Fin 4) (ofd : Ofd) (count : Nat)
    (status : Fin 9)
  | obsCtxRead (h : Hdr) (c : CtxIx)
  | watchSet (h : Hdr) (w : WatchDecl)
  | watchRelease (h : Hdr) (part : PartIx) (wp : Fin 8)
  | watchCopyDone (part : PartIx) (wp : Fin 8) (bytes : Nat)
  | watchHoldExpiry (part : PartIx) (wp : Fin 8) (bytes : Nat)
  | pcSample (t : TileIx) (pc : Word) (stall : Option (Fin 8))
  | traceBlockClaim (part : PartIx) (writer : Nat)
  | traceBlockCloseTimer (part : PartIx) (writer : Nat)
  | traceTimeRecord
  | traceRecordDrop (part : PartIx) (writer : Nat) (count : Nat)
  | linkFrameReceive (p : PortIx) (f : Frame)
  | linkFrameSend (p : PortIx) (t : TileIx) (f : Frame)
  | linkTrained (p : PortIx) (floors : List Nat)
  | identityBlockReceive (p : PortIx) (i : Identity)
  | linkLossOfSignal (p : PortIx)
  | linkRetrainTimer (p : PortIx) (trained farEnd : Bool) (floors : List Nat)
  | laneMarginCheck (p : PortIx) (lanes : List (Nat × Nat))
  | linkAlarmCheck (p : PortIx) (fec retry : Nat)
  | sensorRound (readings : List (Sensor × Int)) (dies : List DieSample)
  | thermalGraceExpiry (u : ThermalUnit)
  | temperTick (g : Fin 16)
  | tripAssert (x : Sensor) (temp : Int)
  | stackTripSample (n : StackIx) (temp : Int)
  | stackTripConfirm (n : StackIx) (temp : Int)
  | sensorReadRequest (a : Acc) (v : Word) (temp : Option Int)
  | pmbusRound (rs : List PmbRead)
  | powerAverage
  | powerGraceExpiry
  | powerFloorExpiry
  | powerFailWarn
  | attnRequest
  | hostNoticeWaitExpiry
  | removalPowerDownDone
  | hostFullReset (perst : Bool)
  | pmStateChange (d3 : Bool)
  | backgroundFlush
  | flushComplete (ok : Bool) (duration : Nat)
  | headerWriteTimer
  | storeRetry (ok : Bool)
  | recFlushReq (a : Acc) (v : Word)
  | recFreeze (a : Acc) (v : Word)
  | freezeLimitExpiry
  | recErase (a : Acc) (v : Word)
  | eraseOverwriteDone
  | hrtCmdCtrlWrite (a : Acc) (v : Word)
  | hrtNtcConsWrite (a : Acc) (v : Word)
  | hrtIrqCauseClear (a : Acc) (v : Word)
  | hrtTbCapture (a : Acc) (v : Word)
  | hrtConsSelWrite (a : Acc) (v : Word)
  | twdJnlSelWrite (a : Acc) (v : Word)
  | twdCheckInjectWrite (a : Acc) (v : Word)
  | blwDeadClear (a : Acc) (v : Word)
  | blwRspTimeoutWrite (a : Acc) (v : Word)
  | obsFullEnWrite (a : Acc) (v : Word)
  | counterLowRead (a : Acc)
  | counterHighRead (a : Acc)
  | rcRead (a : Acc)
  | registerWrite (a : Acc) (v : Word)
  | hello (m : CmpHdr) (lowest highest : BitVec 16) (features : Word)
  | sessionOpen (m : CmpHdr) (ephemeral nonce : List Byte) (index : Nat) (key signature : List Byte)
  | sessionClose (m : CmpHdr)
  | sessionIdleExpiry (slot : Fin 4)
  | cmpStatus (m : CmpHdr)
  | recordRead (m : CmpHdr) (first : Word) (count : Nat)
  | cmpRegRead (m : CmpHdr) (offs : List Nat)
  | cmpRegWrite (m : CmpHdr) (pairs : List (Nat × Word))
  | snapshotRead (m : CmpHdr) (buffer : Fin 2) (offset : Nat)
  | cmpCommand (m : CmpHdr) (c : HostCmd)
  | setCoordinates (m : CmpHdr) (coords : Word)
  | wiringSet (m : CmpHdr) (part count : Nat) (entries : List WireExp)
  | replicaDeclare (m : CmpHdr) (group : Word) (members : List Word) (self : Fin 16) (interval : Nat)
  | imageWrite (m : CmpHdr) (offset : Nat) (data : List Byte)
  | imageArm (m : CmpHdr) (autoConfirm : Bool)
  | imageConfirm (m : CmpHdr)
  | rollbackCommit (m : CmpHdr)
  | keyRevoke (m : CmpHdr) (slot : Fin 4)
  | removeRequest (m : CmpHdr)
  | mainOn (m : CmpHdr)
  | eventSubscribe (m : CmpHdr) (addr port : Nat) (mask : Word)
  | eventAck (m : CmpHdr) (event : Word)
  | eventResendTimer
  | i3cPointerWrite (bytes : List Byte)
  | i3cPrivateRead (len : Nat)
  | entdaa (addr : Fin 128)
  | setdasa (static : Fin 128) (addr : Fin 128)
  | ibiRetryTimer (accepted : Bool)
  | contextAssigned (c : CtxIx) (d : CtxDesc)
  | badOpcode (h : Hdr) (opcode : BitVec 16)
  | rstdaa
  | getpid
  | getbcr
  | getdcr
  | getstatus
  | getmxds
  | enec
  | disec
  | refclkReturn
  | pcieLinkTrained
  | mainPathRemoved
deriving DecidableEq, Repr

end Sys2Proof
end

