-- ==== Sys2Proof/Config.lean ====
section
/-! DEFINITION. The free values of the model: constants without a body, one for each value that the spec leaves open
(assumption log 3 and the rows it names). Nothing in Lean can evaluate them. -/
namespace Sys2Proof.Config

/-- SHA-384 as the hard-wired engine computes it (R298): an external standard, left uninterpreted (log 4). -/
opaque sha384 : List Byte → BitVec 384

/-- ECDSA P-384 verification (R298, R469): key bytes, signature bytes, digest (log 4). -/
opaque ecdsaVerify : List Byte → List Byte → BitVec 384 → Bool

/-- The layout of these setting values is not stated (R301, log 5). GRADE: assembly grade 0 T9-D, 1 T9-W, 2 T9-F, and whether L112. -/
opaque gradeOf : List Byte → Nat × Bool

/-- REGION_TABLE: the entries in order (R301, log 5). -/
opaque regionsOf : List Byte → List RegionEntry

/-- The bytes 8 to 15 of a transaction bank entry, for the item kinds whose body has no stated layout, by the kind and the fields (log 5). -/
opaque bodyByte : List Nat → Nat → Byte

/-- PORT_ROLES: the roles of ports 0 upward (R301, log 5). -/
opaque rolesOf : List Byte → List (Nat × Bool)

/-- BRINGUP: main wait in s, wiring wait in s, wiring check, training age limit in days, FULL stack tests always (R301, log 5). -/
opaque bringupOf : List Byte → Nat × Nat × Nat × Nat × Bool

/-- HOTPLUG: host notice wait in ms (R301, log 5). -/
opaque hotplugOf : List Byte → Nat

/-- The seed that the Hearth draws from the time base (R123): how is not stated (log 6). -/
opaque drawnSeed : Nat → Word64

/-- The 32-byte HELLO nonce (R468) (log 7). -/
opaque nonce : Nat → List Byte

/-- Colea's own ephemeral public key of a session (R469) (log 7). -/
opaque ephemeralKey : Nat → List Byte

/-- The session number that Colea answers (R469) (log 7). -/
opaque sessionNumber : Nat → Word

/-- Larenvar's 16-bit manufacturer field of the provisional ID (R518): value not given (log 8). -/
opaque manufacturer : BitVec 16

/-- The I3C bus characteristics register (R518): value not given (log 8). -/
opaque bcr : Byte

/-- The I3C device characteristics register (R518): value not given (log 8). -/
opaque dcr : Byte

/-- The I3C target status word of GETSTATUS (R518): value not given; it may depend on the pending interrupts (log 8). -/
opaque targetStatus : Nat → BitVec 16

/-- The pseudo-channel, bank, row and column that an address stands for in SWD_ECC_LAST (R502): the mapping is not stated
(log 12). -/
opaque eccLocation : Nat → Word

/-- Whether a stack holds part of a memory region: stack, base, length. How regions lie over the stacks is not stated
(log 13). -/
opaque holdsPart : Nat → Nat → Nat → Bool

/-- Words of a unit's own state that a snapshot reads and that Colea does not hold (R399): program counters, queue depths and the
like, by draw and index (log 14). -/
opaque unitWord : Nat → Nat → Word

/-- When a hard line arrives at a domain, in fortieths of a nanosecond after it is driven: at most 40 ns (R72), by draw and domain
(log 15). -/
opaque stopArrival : Nat → Nat → Fin 1601

/-- Whether STOP takes effect 3 cycles after an arrival on a clock edge, and not 2 (R72), by draw and domain (log 15). -/
opaque stopEffect : Nat → Nat → Fin 2

/-- Corrected FEC symbols and uncorrectable code words of a port in the second that an alarm check averages (R504): the check's
measures are a ratio, and the symbols per second are not stated (log 17). -/
opaque fecCounts : Nat → Nat × Nat

/-- Trace records of a writer that a partition or compute-part reset finds on the mesh and loses (R403), by draw and writer (log 28). -/
opaque meshRecords : Nat → Nat → Nat

/-- Cycles of a grid period for which an engine waits on its port because of reason changes and samples, by draw and tile (R402, log 28). -/
opaque obsPortWait : Nat → Nat → Nat

/-- What a measuring register reads whose events no command carries: by draw and register (log 18). -/
opaque measured : Nat → Nat → Word

/-- Cycles of a grid period in which the command RUNNING on a tile waits for a reason of R378 other than throttle: by draw, tile
and reason code. When a unit stalls is not Colea's to know (log 21). -/
opaque stallCycles : Nat → Nat → Nat → Nat

/-- Which of several requests present together at a router is granted first (R68): by draw and number waiting (log 59). -/
opaque grant : Nat → Nat → Nat

/-- Flits that a command for a unit takes in its warden port (R78): the spec gives a unit command no length; by draw (log 60). -/
opaque unitFlits : Nat → Fin 13

/-- The digest of a capture as it arrives at its shadow (R130): the operand bytes are no command's to carry; by shadow, command and
instant (log 66). -/
opaque captureOfd : TileIx → Cmd → Nat → Nat × Nat

/-- The state of the inputs of an unresolved case (R142): whether the re-read capture shows a parity error, and whether the scrub of the
source regions finds one; by draw (log 67). -/
opaque inputState : Nat → Bool × Bool

/-- Bytes that a RUNNING command has written on streams 0, 1, 2, on the rest together, and to resident regions (R203): by draw, journal slot
and place (log 79). -/
opaque partWritten : Nat → Nat → Nat → Nat

/-- MiB that a stack has still to read of its part of a running scrub (R187): how a region lies over the stacks is not stated (log 13,
log 80); by draw and stack. -/
opaque scrubLeft : Nat → Nat → Nat

/-- How many MRAM writes of a flush have landed when standby power is lost in it (R369): by draw (log 108). -/
opaque landed : Nat → Nat

/-- Bytes that a running erase overwrite has written since the header last took its progress (R368): by the header's write sequence
(log 108). -/
opaque eraseProgress : Nat → Nat

end Sys2Proof.Config
end

