-- ==== Sys2Proof/Machine/RegTable.lean ====
section
/-! DEFINITION. The register catalogue: every register of the BAR that the spec tables (R15, R16, R477 to R508 and the
tables they name), with its offset, access code, reset value, defined bits, and what stands behind a selector. -/
namespace Sys2Proof.Machine

abbrev TWD_RES_STATUS : Nat := 0x200
abbrev TWD_RES_LOC : Nat := 0x204
abbrev TWD_RES_SYND : Nat := 0x208
abbrev TWD_RES_SEQ : Nat := 0x20C
abbrev TWD_RES_PASS : Nat := 0x210
abbrev TWD_RES_CHECKED_LO : Nat := 0x214
abbrev TWD_RES_CHECKED_HI : Nat := 0x218
abbrev TWD_RES_UNCHECKED : Nat := 0x21C
abbrev TWD_RES_TRANSIENT : Nat := 0x220
abbrev TWD_RES_REPEAT : Nat := 0x224
abbrev TWD_IDX_PARITY : Nat := 0x228
abbrev TWD_CONV_MISMATCH : Nat := 0x22C
abbrev TWD_CHECK_INJECT : Nat := 0x230
abbrev TWD_INJECT_COL : Nat := 0x234
abbrev TWD_INJECT_INTERVAL : Nat := 0x238
abbrev TWD_INJECT_COUNT : Nat := 0x23C
abbrev HRT_SHD_STATE : Nat := 0x7000
abbrev HRT_SHD_LIMITS : Nat := 0x7004
abbrev HRT_SHD_POLICY : Nat := 0x7008
abbrev HRT_SHD_HOLD_WAIT : Nat := 0x700C
abbrev HRT_SHD_EPSILON : Nat := 0x7010
abbrev HRT_SHD_WATCH : Nat := 0x7014
abbrev HRT_SHD_RATE : Nat := 0x7018
abbrev HRT_SHD_CTX_SEL : Nat := 0x701C
abbrev HRT_SHD_CTX_EFF_RATE : Nat := 0x7020
abbrev HRT_SHD_CTX_NCMD : Nat := 0x7024
abbrev HRT_SHD_CTX_HORIZON : Nat := 0x7028
abbrev HRT_SHD_SEED_LO : Nat := 0x702C
abbrev HRT_SHD_SEED_HI : Nat := 0x7030
abbrev HRT_SHD_SAMPLED_LO : Nat := 0x7034
abbrev HRT_SHD_SAMPLED_HI : Nat := 0x7038
abbrev HRT_SHD_MISSED_BUSY : Nat := 0x703C
abbrev HRT_SHD_TOO_LARGE : Nat := 0x7040
abbrev HRT_SHD_PREEMPTED : Nat := 0x7044
abbrev HRT_SHD_SAME_DIE : Nat := 0x7048
abbrev HRT_SHD_DISAGREE : Nat := 0x704C
abbrev HRT_SHD_ARB_STATUS : Nat := 0x7050
abbrev TWD_SHD_STATUS : Nat := 0x240
abbrev TWD_SHD_SEQ : Nat := 0x244
abbrev TWD_SHD_SLOTS : Nat := 0x248
abbrev TWD_SHD_ORDINAL : Nat := 0x24C
abbrev TWD_SHD_START_WAIT : Nat := 0x250
abbrev TWD_SHD_ABANDONED : Nat := 0x254
abbrev HRT_OFD_KEYSEL : Nat := 0x8000
abbrev HRT_OFD_KEY_LO : Nat := 0x8004
abbrev HRT_OFD_KEY_HI : Nat := 0x8008
abbrev HRT_OFD_HANDLES : Nat := 0x800C
abbrev HRT_OFD_TAG_MISS : Nat := 0x8010
abbrev HRT_SCRUB_STATE : Nat := 0x8014
abbrev HRT_SCRUB_BUDGET : Nat := 0x8018
abbrev HRT_SCRUB_PROGRESS : Nat := 0x801C
abbrev HRT_REPLICA_INTERVAL : Nat := 0x8020
abbrev HRT_REPLICA_STATUS : Nat := 0x8024
abbrev HRT_DRIFT_SEL : Nat := 0x8028
abbrev HRT_DRIFT_STEP : Nat := 0x802C
abbrev HRT_DRIFT_SOURCES : Nat := 0x8030
abbrev HRT_DRIFT_REFRESH : Nat := 0x8034
abbrev HRT_DRIFT_RETRY : Nat := 0x8038
abbrev HRT_DRIFT_THROTTLE : Nat := 0x803C
abbrev HRT_DRIFT_CHECK : Nat := 0x8040
abbrev HRT_DRIFT_PLACE : Nat := 0x8044
abbrev HRT_DRIFT_SCRUB : Nat := 0x8048
abbrev SWD_OFD_SEL : Nat := 0x400
abbrev SWD_OFD_FLAGS : Nat := 0x404
abbrev SWD_OFD_L0_LO : Nat := 0x408
abbrev SWD_OFD_L0_HI : Nat := 0x40C
abbrev SWD_OFD_L1_LO : Nat := 0x410
abbrev SWD_OFD_L1_HI : Nat := 0x414
abbrev SWD_OFD_COUNT_LO : Nat := 0x418
abbrev SWD_OFD_COUNT_HI : Nat := 0x41C
abbrev SWD_OFD_TAG_MISS : Nat := 0x420
abbrev SWD_OFD_KAT : Nat := 0x424
abbrev SWD_SCRUB_STATUS : Nat := 0x428
abbrev TWD_OFD_SEL : Nat := 0x260
abbrev TWD_OFD_L0_LO : Nat := 0x264
abbrev TWD_OFD_L0_HI : Nat := 0x268
abbrev TWD_OFD_L1_LO : Nat := 0x26C
abbrev TWD_OFD_L1_HI : Nat := 0x270
abbrev TWD_OFD_MERGED : Nat := 0x274
abbrev HRT_SPARE_EPOCH : Nat := 0xB000
abbrev HRT_SPARE_STATUS : Nat := 0xB004
abbrev HRT_SPARE_COUNTS : Nat := 0xB008
abbrev HRT_FENCE_LAST : Nat := 0xB00C
abbrev HRT_FENCE_LATENCY : Nat := 0xB010
abbrev HRT_REPLACE_LATENCY : Nat := 0xB014
abbrev HRT_REPLACE_COUNT : Nat := 0xB018
abbrev HRT_SPARE_RECORD : Nat := 0xB01C
abbrev HRT_GEN : Nat := 0xB020
abbrev HRT_GEN_PART : Nat := 0xB024
abbrev HRT_GEN_HOLDOFF : Nat := 0xB028
abbrev HRT_GEN_STALE_LO : Nat := 0xB02C
abbrev HRT_GEN_STALE_HI : Nat := 0xB030
abbrev HRT_SLAG_CONSUMED : Nat := 0xB034
abbrev HRT_REMOTE_GONE : Nat := 0xB038
abbrev HRT_FP_PHYS : Nat := 0xB100
abbrev HRT_FP_LOGICAL : Nat := 0xB400
abbrev TWD_FENCE : Nat := 0x280
abbrev TWD_GEN : Nat := 0x284
abbrev TWD_DUP_DISCARD : Nat := 0x288
abbrev TWD_SLAG_LAST : Nat := 0x28C
abbrev TWD_SLAG_CONSUMED : Nat := 0x290
abbrev TWD_JNL_SEL : Nat := 0x2F0
abbrev TWD_JNL_HEAD : Nat := 0x2F4
abbrev TWD_JNL_WORD : Nat := 0x300
abbrev SWD_SLAG_MARKED : Nat := 0x440
abbrev SWD_SLAG_ADDR_LO : Nat := 0x444
abbrev SWD_SLAG_ADDR_HI : Nat := 0x448
abbrev SWD_STALE_DROP : Nat := 0x44C
abbrev HRT_WDOG_TILE : Nat := 0x9000
abbrev HRT_WDOG_CTX : Nat := 0x9004
abbrev HRT_WDOG_PART : Nat := 0x9008
abbrev HRT_WDOG_CHIP : Nat := 0x900C
abbrev HRT_KNOT_TIMEOUT : Nat := 0x9010
abbrev HRT_KNOT_EDGE : Nat := 0x9014
abbrev HRT_SPILL_SIZE : Nat := 0x9018
abbrev HRT_SPILL_QUANTUM : Nat := 0x901C
abbrev HRT_SPILL_USE : Nat := 0x9020
abbrev HRT_KNOT_LAST : Nat := 0x9024
abbrev HRT_KNOT_COUNT : Nat := 0x9028
abbrev HRT_DRAIN_WINDOW : Nat := 0x902C
abbrev HRT_KILL_TIMEOUT : Nat := 0x9030
abbrev HRT_ESC_HOLD : Nat := 0x9034
abbrev HRT_ESC_STATUS : Nat := 0x9038
abbrev HRT_ESC_CAUSE : Nat := 0x903C
abbrev HRT_ESC_COUNTS : Nat := 0x9040
abbrev HRT_ESC_REPEAT : Nat := 0x9044
abbrev HRT_PC_POLICY : Nat := 0x9048
abbrev HRT_PARTITION_MAP : Nat := 0x904C
abbrev HRT_BSTOP_TIMEOUT : Nat := 0x9050
abbrev HRT_BSTOP_STATUS : Nat := 0x9054
abbrev HRT_SNAP_STATUS : Nat := 0x9058
abbrev HRT_SMEAR : Nat := 0x905C
abbrev TWD_WDOG : Nat := 0x380
abbrev TWD_QSEL : Nat := 0x384
abbrev TWD_QSTATE : Nat := 0x388
abbrev TWD_QPOS : Nat := 0x38C
abbrev TWD_SPILLED : Nat := 0x390
abbrev TWD_EPOCH : Nat := 0x394
abbrev TWD_EPOCH_DISCARD : Nat := 0x398
abbrev HRT_BIST_STATE : Nat := 0xB800
abbrev HRT_BIST_INTERVAL : Nat := 0xB804
abbrev HRT_BIST_NEXT : Nat := 0xB808
abbrev HRT_BIST_ROTATION : Nat := 0xB80C
abbrev HRT_BIST_ROT_TIME : Nat := 0xB810
abbrev HRT_BIST_SKIPPED : Nat := 0xB814
abbrev HRT_BIST_INVALID : Nat := 0xB818
abbrev HRT_BIST_DIE_HOLD : Nat := 0xB81C
abbrev HRT_HBM_SLICE_INTERVAL : Nat := 0xB820
abbrev HRT_HBM_PPR_POLICY : Nat := 0xB824
abbrev HRT_ANVIL_STATUS : Nat := 0xB828
abbrev HRT_ANVIL_IMAGE : Nat := 0xB82C
abbrev HRT_ANVIL_FAILS : Nat := 0xB830
abbrev TWD_BIST_STATUS : Nat := 0x3A0
abbrev TWD_BIST_PATTERN : Nat := 0x3A4
abbrev TWD_BIST_SIG_LO : Nat := 0x3A8
abbrev TWD_BIST_SIG_HI : Nat := 0x3AC
abbrev TWD_MBIST_ADDR : Nat := 0x3B0
abbrev TWD_MBIST_BIT : Nat := 0x3B4
abbrev TWD_MBIST_REPAIR : Nat := 0x3B8
abbrev TWD_ANVIL_STATUS : Nat := 0x3BC
abbrev TWD_ANVIL_RUNS : Nat := 0x3C0
abbrev SWD_HBM_TEST : Nat := 0x460
abbrev SWD_HBM_FAIL_ADDR : Nat := 0x464
abbrev SWD_HBM_FAIL_BIT : Nat := 0x468
abbrev SWD_HBM_PPR : Nat := 0x46C
abbrev SWD_HBM_SLICES_LO : Nat := 0x470
abbrev SWD_HBM_SLICES_HI : Nat := 0x474
abbrev SWD_HBM_WEAK_ROWS : Nat := 0x478
abbrev SWD_HBM_ROT_TIME : Nat := 0x47C
abbrev HRT_BU_STATE : Nat := 0x6000
abbrev HRT_BU_IMAGE : Nat := 0x6004
abbrev HRT_BU_SLOT : Nat := 0x6008
abbrev HRT_BU_POWER_CYCLES : Nat := 0x600C
abbrev HRT_BU_STAGE_END : Nat := 0x6010
abbrev HRT_BU_STAGE_DETAIL : Nat := 0x6014
abbrev HRT_BU_POWER : Nat := 0x6060
abbrev HRT_BU_FW : Nat := 0x6064
abbrev HRT_BU_TRAIN : Nat := 0x6068
abbrev HRT_BU_TOPO : Nat := 0x606C
abbrev HRT_BU_WAITS : Nat := 0x6070
abbrev HRT_BU_HOST_WAIT : Nat := 0x6074
abbrev HRT_BU_TRAIN_AGE : Nat := 0x6078
abbrev TWD_FW_STATUS : Nat := 0x3D0
abbrev TWD_FW_CRC_REJECT : Nat := 0x3D4
abbrev TWD_FW_BITMAP : Nat := 0x3E0
abbrev HRT_THM_STATE : Nat := 0x4000
abbrev HRT_THM_CLASS_SEL : Nat := 0x4004
abbrev HRT_THM_LIMITS : Nat := 0x4008
abbrev HRT_THM_GRACE : Nat := 0x400C
abbrev HRT_THM_GRACE_MAX : Nat := 0x4010
abbrev HRT_THM_TEMPER : Nat := 0x4014
abbrev HRT_THM_GROUP_SEL : Nat := 0x4018
abbrev HRT_THM_GROUP : Nat := 0x401C
abbrev HRT_SNS_SEL : Nat := 0x4020
abbrev HRT_SNS_REQ : Nat := 0x4024
abbrev HRT_SNS_VALUE : Nat := 0x4028
abbrev HRT_THM_COUNTS : Nat := 0x402C
abbrev HRT_THM_RATIO : Nat := 0x4040
abbrev HRT_THM_REGION_TEMP : Nat := 0x4060
abbrev HRT_PWR_LIMIT : Nat := 0x4080
abbrev HRT_PWR_GRACE : Nat := 0x4084
abbrev HRT_PWR_INPUT : Nat := 0x4088
abbrev HRT_PMB_SEL : Nat := 0x408C
abbrev HRT_PMB_MAP : Nat := 0x4090
abbrev HRT_PMB_READ0 : Nat := 0x4094
abbrev HRT_PMB_READ1 : Nat := 0x4098
abbrev HRT_PF_STATUS : Nat := 0x409C
abbrev HRT_PF_FLUSH_TIME : Nat := 0x40A0
abbrev DWD_SNS : Nat := 0x100
abbrev DWD_RATIO : Nat := 0x110
abbrev DWD_TRIP : Nat := 0x114
abbrev DWD_DROOP : Nat := 0x118
abbrev DWD_SUPPLY : Nat := 0x11C
abbrev REC_STATUS : Nat := 0x5000
abbrev REC_HEAD_SEQ : Nat := 0x5004
abbrev REC_HEAD_IDX : Nat := 0x5008
abbrev REC_FLUSH_SEQ : Nat := 0x500C
abbrev REC_FREEZE : Nat := 0x5010
abbrev REC_FREEZE_LIMIT : Nat := 0x5014
abbrev REC_FREEZE_DROP : Nat := 0x5018
abbrev REC_HOLD : Nat := 0x501C
abbrev REC_THROTTLE_DROP : Nat := 0x5020
abbrev REC_OVERRUN : Nat := 0x5024
abbrev REC_FLUSH_REQ : Nat := 0x5028
abbrev REC_FLUSH_TIME : Nat := 0x502C
abbrev REC_NOTIFY : Nat := 0x5030
abbrev REC_WINDOW_SRC : Nat := 0x5034
abbrev REC_STORE_ERR : Nat := 0x5038
abbrev REC_ERASE : Nat := 0x503C
abbrev REC_SEALED : Nat := 0x5040
abbrev REC_OPTIME_LO : Nat := 0x5044
abbrev REC_OPTIME_HI : Nat := 0x5048
abbrev OBS_TRACE_STATE : Nat := 0xD000
abbrev OBS_TRACE_CFG : Nat := 0xD004
abbrev OBS_TRACE_PT_SEL : Nat := 0xD008
abbrev OBS_TRACE_BASE_LO : Nat := 0xD00C
abbrev OBS_TRACE_BASE_HI : Nat := 0xD010
abbrev OBS_TRACE_SIZE : Nat := 0xD014
abbrev OBS_TRACE_BLOCKS : Nat := 0xD018
abbrev OBS_TRACE_LOST_LO : Nat := 0xD01C
abbrev OBS_TRACE_LOST_HI : Nat := 0xD020
abbrev OBS_LINK_STAMP : Nat := 0xD024
abbrev OBS_FULL_EN : Nat := 0xD028
abbrev OBS_WATCH_STATE : Nat := 0xD02C
abbrev OBS_WATCH_SEL : Nat := 0xD030
abbrev OBS_WATCH_STATUS : Nat := 0xD034
abbrev OBS_WATCH_STEP : Nat := 0xD038
abbrev OBS_WATCH_BYTES : Nat := 0xD03C
abbrev OBS_WATCH_HOLD : Nat := 0xD040
abbrev OBS_TAG_FORM : Nat := 0xD044
abbrev TWD_LC_BUSY_LO : Nat := 0x100
abbrev TWD_LC_BUSY_HI : Nat := 0x104
abbrev TWD_LC_STALL_LO : Nat := 0x108
abbrev TWD_LC_STALL_HI : Nat := 0x10C
abbrev TWD_LC_IDLE_LO : Nat := 0x110
abbrev TWD_LC_IDLE_HI : Nat := 0x114
abbrev TWD_LC_ERR_LO : Nat := 0x118
abbrev TWD_LC_ERR_HI : Nat := 0x11C
abbrev TWD_OBS_STATE : Nat := 0x120
abbrev TWD_OBS_PORT_WAIT : Nat := 0x124
abbrev TWD_TRACE_DROP : Nat := 0x128
abbrev TWD_TRACE_BUF : Nat := 0x12C
abbrev TWD_CTX_SEL : Nat := 0x130
abbrev TWD_CTX_LO : Nat := 0x134
abbrev TWD_CTX_HI : Nat := 0x138
abbrev TWD_FC_LO : Nat := 0x140
abbrev TWD_FC_HI : Nat := 0x144
abbrev LWD_MSG_TX : Nat := 0x100
abbrev LWD_MSG_RX : Nat := 0x104
abbrev LWD_TS_STATE : Nat := 0x108
abbrev LWD_TS_MISMATCH : Nat := 0x10C
abbrev LWD_TS_DROP : Nat := 0x110
abbrev HRT_CMD_RSP_BASE_LO : Nat := 0x800
abbrev HRT_CMD_RSP_BASE_HI : Nat := 0x804
abbrev HRT_CMD_CTRL : Nat := 0x808
abbrev HRT_CMD_NEXT_SEQ : Nat := 0x80C
abbrev HRT_CMD_INTAKE : Nat := 0x810
abbrev HRT_CMD_DROPPED : Nat := 0x814
abbrev HRT_NTC_BASE_LO : Nat := 0x818
abbrev HRT_NTC_BASE_HI : Nat := 0x81C
abbrev HRT_NTC_PROD : Nat := 0x820
abbrev HRT_NTC_CONS : Nat := 0x824
abbrev HRT_NTC_LOST : Nat := 0x828
abbrev HRT_IRQ_CAUSE : Nat := 0x82C
abbrev HRT_IRQ_MASK : Nat := 0x830
abbrev HRT_CMD_BADSEQ : Nat := 0x834
abbrev HRT_CMD_BADSEQ_COUNT : Nat := 0x838
abbrev TXN_NS_STATUS : Nat := 0x2000
abbrev TXN_S_STATUS : Nat := 0x2004
abbrev TXN_NS_AGE : Nat := 0x2008
abbrev TXN_NS_FAIL : Nat := 0x200C
abbrev TXN_S_FAIL : Nat := 0x2010
abbrev TXN_TIMEOUT : Nat := 0x2014
abbrev TXN_CFG_EPOCH : Nat := 0x2018
abbrev TXN_CFG_STATUS : Nat := 0x201C
abbrev TXN_COMMITS : Nat := 0x2020
abbrev TXN_ROLLBACKS : Nat := 0x2024
abbrev TXN_REFUSED : Nat := 0x2028
abbrev HRT_WORLD_MAP : Nat := 0x3000
abbrev HRT_WORLD_REGION_SEL : Nat := 0x3004
abbrev HRT_WORLD_REGION : Nat := 0x3008
abbrev HRT_WORLD_REGION_LO : Nat := 0x300C
abbrev HRT_WORLD_REGION_HI : Nat := 0x3010
abbrev HRT_FN_LOCK : Nat := 0x3014
abbrev HRT_FN_SEL : Nat := 0x3018
abbrev HRT_FN_STATE : Nat := 0x301C
abbrev HRT_WORLD_DENIED : Nat := 0x3020
abbrev HRT_TOPO_COORD : Nat := 0xC000
abbrev HRT_TOPO_SERIAL_LO : Nat := 0xC004
abbrev HRT_TOPO_SERIAL_HI : Nat := 0xC008
abbrev HRT_TOPO_WIRING : Nat := 0xC00C
abbrev HRT_CMP_CFG : Nat := 0xC010
abbrev HRT_CMP_VERSION : Nat := 0xC014
abbrev HRT_CMP_FEATURES : Nat := 0xC018
abbrev HRT_CMP_SESSIONS : Nat := 0xC01C
abbrev HRT_CMP_EVENTQ : Nat := 0xC020
abbrev HRT_JOB_ADMIT : Nat := 0xC024
abbrev HRT_ROUTE_USE : Nat := 0xC028
abbrev HRT_TOPO_PORT : Nat := 0xC100
abbrev HRT_TOPO_FAR : Nat := 0xC104
abbrev HRT_TOPO_EXP : Nat := 0xC400
abbrev HRT_TOPO_EXP_PORT : Nat := 0xC404
abbrev LWD_FAR_SERIAL_LO : Nat := 0x200
abbrev LWD_FAR_SERIAL_HI : Nat := 0x204
abbrev LWD_FAR_ID : Nat := 0x208
abbrev LWD_POLICY : Nat := 0x20C
abbrev LWD_SLICE : Nat := 0x220
abbrev LWD_SLICE_DROP : Nat := 0x260
abbrev LWD_EGRESS_DROP : Nat := 0x264
abbrev LWD_REMOTE_WRITE_DROP : Nat := 0x268
abbrev LWD_NOTICE_DUP : Nat := 0x26C
abbrev HRT_ID : Nat := 0x0
abbrev HRT_GRADE : Nat := 0x4
abbrev HRT_LEVEL : Nat := 0x8
abbrev HRT_STATUS : Nat := 0xC
abbrev HRT_ACCESS_ERR : Nat := 0x10
abbrev HRT_ACCESS_LAST : Nat := 0x14
abbrev HRT_HL_SUMMARY : Nat := 0x18
abbrev HRT_HL_SEL : Nat := 0x1C
abbrev HRT_HL_STATE : Nat := 0x20
abbrev HRT_CONS_SEL : Nat := 0x100
abbrev HRT_CONS_KEY : Nat := 0x104
abbrev HRT_CONS_STEP : Nat := 0x108
abbrev HRT_CONS_D : Nat := 0x10C
abbrev HRT_CONS_X : Nat := 0x110
abbrev HRT_CONS_V : Nat := 0x114
abbrev HRT_CONS_T : Nat := 0x118
abbrev HRT_CONS_RESULT : Nat := 0x11C
abbrev HRT_CONS_TABLE : Nat := 0x120
abbrev HRT_CONS_MISMATCH : Nat := 0x124
abbrev HRT_TB_LO : Nat := 0xA000
abbrev HRT_TB_HI : Nat := 0xA004
abbrev HRT_TB_ORIGIN_LO : Nat := 0xA008
abbrev HRT_TB_ORIGIN_HI : Nat := 0xA00C
abbrev HRT_TB_ALIGN_LO : Nat := 0xA010
abbrev HRT_TB_ALIGN_HI : Nat := 0xA014
abbrev HRT_TB_REFCLK : Nat := 0xA018
abbrev HRT_TB_CAPTURE : Nat := 0xA01C
abbrev HRT_TB_CAP_TB_LO : Nat := 0xA020
abbrev HRT_TB_CAP_TB_HI : Nat := 0xA024
abbrev HRT_TB_CAP_OPTIME_LO : Nat := 0xA028
abbrev HRT_TB_CAP_OPTIME_HI : Nat := 0xA02C
abbrev HRT_TB_CAP_TRACE_LO : Nat := 0xA030
abbrev HRT_TB_CAP_TRACE_HI : Nat := 0xA034
abbrev HRT_TB_CAP_GEN : Nat := 0xA038
abbrev HRT_SQ_WDOG : Nat := 0x800000
abbrev HRT_SQ_HEARTBEAT : Nat := 0x800004
abbrev HRT_SQ_RESTART : Nat := 0x800008
abbrev HRT_SQ_DIGEST_SEL : Nat := 0x80000C
abbrev HRT_SQ_DIGEST : Nat := 0x800010
abbrev HRT_SV_NOR_SEG : Nat := 0x800040
abbrev TWD_ID : Nat := 0x0
abbrev TWD_STATUS : Nat := 0x4
abbrev TWD_REPORT_DROP : Nat := 0x8
abbrev TWD_SRC_ERR : Nat := 0xC
abbrev TWD_PORT_STATE : Nat := 0x10
abbrev TWD_PORT_DISCARD : Nat := 0x14
abbrev TWD_PORT_WAIT : Nat := 0x18
abbrev TWD_NORESP : Nat := 0x1C
abbrev TWD_ABANDON : Nat := 0x20
abbrev TWD_TAP : Nat := 0x24
abbrev TWD_CONS_SEL : Nat := 0x450
abbrev TWD_CONS_KEY : Nat := 0x454
abbrev TWD_CONS_STEP : Nat := 0x458
abbrev TWD_CONS_D : Nat := 0x45C
abbrev TWD_CONS_X : Nat := 0x460
abbrev TWD_CONS_V : Nat := 0x464
abbrev TWD_CONS_T : Nat := 0x468
abbrev TWD_CONS_BANK : Nat := 0x46C
abbrev SWD_ECC_CE_LO : Nat := 0x100
abbrev SWD_ECC_CE_HI : Nat := 0x104
abbrev SWD_ECC_UE : Nat := 0x108
abbrev SWD_ECC_LAST : Nat := 0x10C
abbrev SWD_ECC_LAST_INFO : Nat := 0x110
abbrev SWD_PATROL : Nat := 0x114
abbrev SWD_PATROL_PROG : Nat := 0x118
abbrev SWD_REFRESH_DELAY : Nat := 0x11C
abbrev SWD_REFRESH_RATE : Nat := 0x120
abbrev SWD_1500 : Nat := 0x124
abbrev SWD_STACK_STATE : Nat := 0x128
abbrev LWD_LANE_SEL : Nat := 0x140
abbrev LWD_LANE : Nat := 0x144
abbrev LWD_FEC_CORR_LO : Nat := 0x148
abbrev LWD_FEC_CORR_HI : Nat := 0x14C
abbrev LWD_FEC_UNCORR : Nat := 0x150
abbrev LWD_RETRY : Nat := 0x154
abbrev LWD_LINK_STATE : Nat := 0x158
abbrev LWD_FAR_GEN : Nat := 0x180
abbrev LWD_GEN_CTRL : Nat := 0x184
abbrev LWD_GEN_DROP : Nat := 0x188
abbrev LWD_STALE_REPLY : Nat := 0x18C
abbrev LWD_REMOTE_GONE : Nat := 0x190
abbrev LWD_REMOTE_GONE_SELF : Nat := 0x194
abbrev LWD_NOTICE : Nat := 0x198
abbrev LWD_ROUTE_SEL : Nat := 0x1A0
abbrev LWD_ROUTE_KEY : Nat := 0x1A4
abbrev LWD_ROUTE_PORTS : Nat := 0x1A8
abbrev DWD_DOMAIN_SEL : Nat := 0x140
abbrev DWD_DOMAIN : Nat := 0x144
abbrev DWD_DOMAIN_GEN : Nat := 0x148
abbrev DWD_QUENCH : Nat := 0x14C
abbrev DWD_ISLAND : Nat := 0x150
abbrev DWD_SELFTEST : Nat := 0x154
abbrev DWD_POWER_FAIL : Nat := 0x158
abbrev BLW_ID : Nat := 0x800
abbrev BLW_AGENTS : Nat := 0x804
abbrev BLW_PORT_SEL : Nat := 0x808
abbrev BLW_PORT : Nat := 0x80C
abbrev BLW_PORT_FLITERR : Nat := 0x810
abbrev BLW_PORT_SINK : Nat := 0x814
abbrev BLW_PORT_TIES : Nat := 0x818
abbrev BLW_PORT_MSGS_LO : Nat := 0x81C
abbrev BLW_PORT_MSGS_HI : Nat := 0x820
abbrev BLW_DEAD_CLEAR : Nat := 0x824
abbrev BLW_ROUTE_ALT : Nat := 0x828
abbrev BLW_RSP_TIMEOUT : Nat := 0x880
abbrev BLW_PORT_ERR_THRESH : Nat := 0x884
abbrev BLW_HEARTH_RETRY : Nat := 0x888
abbrev BLW_HEARTH_ABANDON : Nat := 0x88C
abbrev BLW_HEARTH_REPORTQ : Nat := 0x890
abbrev TWD_TEMP : Nat := 0x440
abbrev SWD_TEMP : Nat := 0x480

/-- Read and write behaviour of R16. -/
inductive Code | ro | rw | wo | w1c | rc
deriving DecidableEq, Repr

/-- Half of a 64-bit pair (R19). -/
inductive Half | none | low | high
deriving DecidableEq, Repr

/-- One catalogue row: `count` registers `stride` bytes apart; `mask` the defined bits; `fixed` the read-only bits of a
writable register; `sel` the selector in front of it (in the same page); `perPath` a selector or a latched value of
which every path has its own copy (R481, R496). -/
structure RegRow where
  off : Nat
  count : Nat
  stride : Nat
  code : Code
  sec : Bool
  reset : Word
  mask : Word
  fixed : Word
  txn : Bool
  sel : Option Nat
  perPath : Bool
  half : Half
deriving DecidableEq, Repr

/-- The Hearth page (R484). Part 0. -/
def hearthRows0 : List RegRow := [
  ⟨HRT_ID, 1, 4, .ro, false, 0xC01E0100, 0xFFFFFFFF, 0x0, false, none, false, .none⟩,
  ⟨HRT_GRADE, 1, 4, .ro, false, 0x0, 0xFFFFFF13, 0x0, false, none, false, .none⟩,
  ⟨HRT_LEVEL, 1, 4, .ro, false, 0x0, 0xFFFFFFFF, 0x0, false, none, false, .none⟩,
  ⟨HRT_STATUS, 1, 4, .ro, false, 0x0, 0xFC00FFFF, 0x0, false, none, false, .none⟩,
  ⟨HRT_ACCESS_ERR, 1, 4, .rc, false, 0x0, 0xFFFFFFFF, 0x0, false, none, false, .none⟩,
  ⟨HRT_ACCESS_LAST, 1, 4, .ro, false, 0x0, 0xF8FFFFFF, 0x0, false, none, false, .none⟩,
  ⟨HRT_HL_SUMMARY, 1, 4, .ro, false, 0x0, 0xFF0F, 0x0, false, none, false, .none⟩,
  ⟨HRT_HL_SEL, 1, 4, .rw, false, 0x0, 0x3F, 0x0, false, none, true, .none⟩,
  ⟨HRT_HL_STATE, 1, 4, .ro, false, 0x0, 0xFF01FF, 0x0, false, some HRT_HL_SEL, false, .none⟩,
  ⟨HRT_CONS_SEL, 1, 4, .rw, false, 0x0, 0xFFF, 0x0, false, none, true, .none⟩,
  ⟨HRT_CONS_KEY, 1, 4, .ro, false, 0x0, 0xFFFFFFC3, 0x0, false, none, true, .none⟩,
  ⟨HRT_CONS_STEP, 1, 4, .ro, false, 0x0, 0xFFFFFFFF, 0x0, false, none, true, .none⟩,
  ⟨HRT_CONS_D, 1, 4, .ro, false, 0x0, 0xFFFFFFFF, 0x0, false, none, true, .none⟩,
  ⟨HRT_CONS_X, 1, 4, .ro, false, 0x0, 0xFFFFFFFF, 0x0, false, none, true, .none⟩,
  ⟨HRT_CONS_V, 1, 4, .ro, false, 0x0, 0xFFFFFFFF, 0x0, false, none, true, .none⟩,
  ⟨HRT_CONS_T, 1, 4, .ro, false, 0x0, 0xFFFFFFFF, 0x0, false, none, true, .none⟩,
  ⟨HRT_CONS_RESULT, 1, 4, .ro, false, 0x0, 0xF0000003, 0x0, false, none, true, .none⟩,
  ⟨HRT_CONS_TABLE, 1, 4, .ro, false, 0x0, 0x1FFFFFFF, 0x0, false, none, false, .none⟩,
  ⟨HRT_CONS_MISMATCH, 1, 4, .rc, false, 0x0, 0xFFFFFFFF, 0x0, false, none, false, .none⟩,
  ⟨HRT_CMD_RSP_BASE_LO, 1, 4, .rw, false, 0x0, 0xFFFFC000, 0x0, false, none, false, .low⟩,
  ⟨HRT_CMD_RSP_BASE_HI, 1, 4, .rw, false, 0x0, 0xFFFFFFFF, 0x0, false, none, false, .high⟩,
  ⟨HRT_CMD_CTRL, 1, 4, .rw, false, 0x0, 0xFF03, 0xFF00, false, none, false, .none⟩,
  ⟨HRT_CMD_NEXT_SEQ, 1, 4, .ro, false, 0x0, 0xFFFFFFFF, 0x0, false, none, false, .none⟩,
  ⟨HRT_CMD_INTAKE, 1, 4, .ro, false, 0x40, 0x1FF7F, 0x0, false, none, false, .none⟩]

/-- The Hearth page (R484). Part 1. -/
def hearthRows1 : List RegRow := [
  ⟨HRT_CMD_DROPPED, 1, 4, .rc, false, 0x0, 0xFFFFFFFF, 0x0, false, none, false, .none⟩,
  ⟨HRT_NTC_BASE_LO, 1, 4, .rw, false, 0x0, 0xFFFFC000, 0x0, false, none, false, .low⟩,
  ⟨HRT_NTC_BASE_HI, 1, 4, .rw, false, 0x0, 0xFFFFFFFF, 0x0, false, none, false, .high⟩,
  ⟨HRT_NTC_PROD, 1, 4, .ro, false, 0x0, 0xFFFFFFFF, 0x0, false, none, false, .none⟩,
  ⟨HRT_NTC_CONS, 1, 4, .rw, false, 0x0, 0xFFFFFFFF, 0x0, false, none, false, .none⟩,
  ⟨HRT_NTC_LOST, 1, 4, .rc, false, 0x0, 0xFFFFFFFF, 0x0, false, none, false, .none⟩,
  ⟨HRT_IRQ_CAUSE, 1, 4, .w1c, false, 0x0, 0xFFFF, 0x0, false, none, false, .none⟩,
  ⟨HRT_IRQ_MASK, 1, 4, .rw, false, 0x0, 0xFFFF, 0x0, false, none, false, .none⟩,
  ⟨HRT_CMD_BADSEQ, 1, 4, .ro, false, 0x0, 0xFFFFFFFF, 0x0, false, none, false, .none⟩,
  ⟨HRT_CMD_BADSEQ_COUNT, 1, 4, .rc, false, 0x0, 0xFFFFFFFF, 0x0, false, none, false, .none⟩,
  ⟨TXN_NS_STATUS, 1, 4, .ro, false, 0x0, 0xE1FFFFFF, 0x0, false, none, false, .none⟩,
  ⟨TXN_S_STATUS, 1, 4, .ro, true, 0x0, 0xE1FFFFFF, 0x0, false, none, false, .none⟩,
  ⟨TXN_NS_AGE, 1, 4, .ro, false, 0x0, 0x3FF, 0x0, false, none, false, .none⟩,
  ⟨TXN_NS_FAIL, 1, 4, .ro, false, 0x0, 0xFFFFFFFF, 0x0, false, none, false, .none⟩,
  ⟨TXN_S_FAIL, 1, 4, .ro, true, 0x0, 0xFFFFFFFF, 0x0, false, none, false, .none⟩,
  ⟨TXN_TIMEOUT, 1, 4, .rw, true, 0x64, 0x3FF, 0x0, true, none, false, .none⟩,
  ⟨TXN_CFG_EPOCH, 1, 4, .ro, false, 0x0, 0xFFFFFFFF, 0x0, false, none, false, .none⟩,
  ⟨TXN_CFG_STATUS, 1, 4, .ro, false, 0x0, 0x80000000, 0x0, false, none, false, .none⟩,
  ⟨TXN_COMMITS, 1, 4, .rc, false, 0x0, 0xFFFFFFFF, 0x0, false, none, false, .none⟩,
  ⟨TXN_ROLLBACKS, 1, 4, .rc, false, 0x0, 0xFFFFFFFF, 0x0, false, none, false, .none⟩,
  ⟨TXN_REFUSED, 1, 4, .rc, false, 0x0, 0xFFFFFFFF, 0x0, false, none, false, .none⟩,
  ⟨HRT_WORLD_MAP, 1, 4, .rw, true, 0x3, 0xF, 0x0, true, none, false, .none⟩,
  ⟨HRT_WORLD_REGION_SEL, 1, 4, .rw, false, 0x0, 0x3F, 0x0, false, none, true, .none⟩,
  ⟨HRT_WORLD_REGION, 1, 4, .ro, false, 0x0, 0xFFFFFFFF, 0x0, false, some HRT_WORLD_REGION_SEL, false, .none⟩]

/-- The Hearth page (R484). Part 2. -/
def hearthRows2 : List RegRow := [
  ⟨HRT_WORLD_REGION_LO, 1, 4, .ro, false, 0x0, 0xFFF00000, 0x0, false, some HRT_WORLD_REGION_SEL, false, .low⟩,
  ⟨HRT_WORLD_REGION_HI, 1, 4, .ro, false, 0x0, 0xFFFFFFFF, 0x0, false, some HRT_WORLD_REGION_SEL, false, .high⟩,
  ⟨HRT_FN_LOCK, 1, 4, .rw, true, 0x0, 0x1F, 0x0, true, none, false, .none⟩,
  ⟨HRT_FN_SEL, 1, 4, .rw, false, 0x0, 0x7, 0x0, false, none, true, .none⟩,
  ⟨HRT_FN_STATE, 1, 4, .ro, false, 0x0, 0xFFFF0007, 0x0, false, some HRT_FN_SEL, false, .none⟩,
  ⟨HRT_WORLD_DENIED, 1, 4, .rc, false, 0x0, 0xFFFFFFFF, 0x0, false, none, false, .none⟩,
  ⟨HRT_THM_STATE, 1, 4, .ro, false, 0x0, 0xFCFFFFFF, 0x0, false, none, false, .none⟩,
  ⟨HRT_THM_CLASS_SEL, 1, 4, .rw, false, 0x0, 0x3, 0x0, false, none, true, .none⟩,
  ⟨HRT_THM_LIMITS, 1, 4, .rw, true, 0x6E68615C, 0xFFFFFFFF, 0xFF000000, true, some HRT_THM_CLASS_SEL, false, .none⟩,
  ⟨HRT_THM_GRACE, 1, 4, .rw, false, 0xFA, 0x1FFF, 0x0, false, none, false, .none⟩,
  ⟨HRT_THM_GRACE_MAX, 1, 4, .rw, true, 0x1388, 0x1FFF, 0x0, true, none, false, .none⟩,
  ⟨HRT_THM_TEMPER, 1, 4, .rw, true, 0x40064, 0xF03FF, 0x0, true, none, false, .none⟩,
  ⟨HRT_THM_GROUP_SEL, 1, 4, .rw, false, 0x0, 0x7, 0x0, false, none, true, .none⟩,
  ⟨HRT_THM_GROUP, 1, 4, .rw, false, 0xA, 0x8000007F, 0x0, false, some HRT_THM_GROUP_SEL, false, .none⟩,
  ⟨HRT_SNS_SEL, 1, 4, .rw, false, 0x0, 0xFFFF, 0x0, false, none, true, .none⟩,
  ⟨HRT_SNS_REQ, 1, 4, .wo, false, 0x0, 0x1, 0x0, false, none, false, .none⟩,
  ⟨HRT_SNS_VALUE, 1, 4, .ro, false, 0x0, 0xC000FFFF, 0x0, false, some HRT_SNS_SEL, false, .none⟩,
  ⟨HRT_THM_COUNTS, 1, 4, .ro, false, 0x0, 0xFFFFFFFF, 0x0, false, none, false, .none⟩,
  ⟨HRT_THM_RATIO, 8, 4, .ro, false, 0x1010, 0xDFDF, 0x0, false, none, false, .none⟩,
  ⟨HRT_THM_REGION_TEMP, 8, 4, .ro, false, 0x0, 0xFFFFFFFF, 0x0, false, none, false, .none⟩,
  ⟨HRT_PWR_LIMIT, 1, 4, .rw, true, 0xD48, 0xFFF, 0x0, true, none, false, .none⟩,
  ⟨HRT_PWR_GRACE, 1, 4, .rw, false, 0xFA, 0x1FFF, 0x0, false, none, false, .none⟩,
  ⟨HRT_PWR_INPUT, 1, 4, .ro, false, 0x0, 0xFFFFFFFF, 0x0, false, none, false, .none⟩,
  ⟨HRT_PMB_SEL, 1, 4, .rw, false, 0x0, 0x1F, 0x0, false, none, true, .none⟩]

/-- The Hearth page (R484). Part 3. -/
def hearthRows3 : List RegRow := [
  ⟨HRT_PMB_MAP, 1, 4, .rw, true, 0xFF, 0xFFFF00FF, 0x0, true, some HRT_PMB_SEL, false, .none⟩,
  ⟨HRT_PMB_READ0, 1, 4, .ro, false, 0x0, 0xFFFFFFFF, 0x0, false, some HRT_PMB_SEL, false, .none⟩,
  ⟨HRT_PMB_READ1, 1, 4, .ro, false, 0x0, 0xFFFFFFFF, 0x0, false, some HRT_PMB_SEL, false, .none⟩,
  ⟨HRT_PF_STATUS, 1, 4, .ro, false, 0x0, 0xC000FFFF, 0x0, false, none, false, .none⟩,
  ⟨HRT_PF_FLUSH_TIME, 1, 4, .ro, false, 0x0, 0xFFFFFFFF, 0x0, false, none, false, .none⟩,
  ⟨REC_STATUS, 1, 4, .ro, false, 0x0, 0xF800FFFF, 0x0, false, none, false, .none⟩,
  ⟨REC_HEAD_SEQ, 1, 4, .ro, false, 0x0, 0xFFFFFFFF, 0x0, false, none, false, .none⟩,
  ⟨REC_HEAD_IDX, 1, 4, .ro, false, 0x0, 0x7FFF, 0x0, false, none, false, .none⟩,
  ⟨REC_FLUSH_SEQ, 1, 4, .ro, false, 0x0, 0xFFFFFFFF, 0x0, false, none, false, .none⟩,
  ⟨REC_FREEZE, 1, 4, .rw, false, 0x0, 0x1, 0x0, false, none, false, .none⟩,
  ⟨REC_FREEZE_LIMIT, 1, 4, .rw, false, 0x3E8, 0x3FFF, 0x0, false, none, false, .none⟩,
  ⟨REC_FREEZE_DROP, 1, 4, .rc, false, 0x0, 0xFFFFFFFF, 0x0, false, none, false, .none⟩,
  ⟨REC_HOLD, 1, 4, .ro, false, 0x0, 0x1FFFFF, 0x0, false, none, false, .none⟩,
  ⟨REC_THROTTLE_DROP, 1, 4, .rc, false, 0x0, 0xFFFFFFFF, 0x0, false, none, false, .none⟩,
  ⟨REC_OVERRUN, 1, 4, .rc, false, 0x0, 0xFFFFFFFF, 0x0, false, none, false, .none⟩,
  ⟨REC_FLUSH_REQ, 1, 4, .wo, false, 0x0, 0x1, 0x0, false, none, false, .none⟩,
  ⟨REC_FLUSH_TIME, 1, 4, .ro, false, 0x0, 0xFFFFFFFF, 0x0, false, none, false, .none⟩,
  ⟨REC_NOTIFY, 1, 4, .rw, false, 0x2, 0x7, 0x0, false, none, false, .none⟩,
  ⟨REC_WINDOW_SRC, 1, 4, .rw, false, 0x0, 0xF, 0x0, false, none, true, .none⟩,
  ⟨REC_STORE_ERR, 1, 4, .rc, false, 0x0, 0xFFFFFFFF, 0x0, false, none, false, .none⟩,
  ⟨REC_ERASE, 1, 4, .wo, true, 0x0, 0xFFFF0003, 0x0, false, none, false, .none⟩,
  ⟨REC_SEALED, 1, 4, .ro, false, 0x0, 0xF87FFFFF, 0x0, false, none, false, .none⟩,
  ⟨REC_OPTIME_LO, 1, 4, .ro, false, 0x0, 0xFFFFFFFF, 0x0, false, none, false, .low⟩,
  ⟨REC_OPTIME_HI, 1, 4, .ro, false, 0x0, 0xFFFFFFF, 0x0, false, none, false, .high⟩]

/-- The Hearth page (R484). Part 4. -/
def hearthRows4 : List RegRow := [
  ⟨HRT_BU_STATE, 1, 4, .ro, false, 0x0, 0xFFC0FFFF, 0x0, false, none, false, .none⟩,
  ⟨HRT_BU_IMAGE, 1, 4, .ro, false, 0x0, 0xFFFFFFFF, 0x0, false, none, false, .none⟩,
  ⟨HRT_BU_SLOT, 1, 4, .ro, false, 0x0, 0x3FFFFFFF, 0x0, false, none, false, .none⟩,
  ⟨HRT_BU_POWER_CYCLES, 1, 4, .ro, false, 0x0, 0xFFFFFF, 0x0, false, none, false, .none⟩,
  ⟨HRT_BU_STAGE_END, 10, 8, .ro, false, 0xFFFFFFFF, 0xFFFFFFFF, 0x0, false, none, false, .none⟩,
  ⟨HRT_BU_STAGE_DETAIL, 10, 8, .ro, false, 0x0, 0xFFFFFFFF, 0x0, false, none, false, .none⟩,
  ⟨HRT_BU_POWER, 1, 4, .ro, false, 0x0, 0xFF000000, 0x0, false, none, false, .none⟩,
  ⟨HRT_BU_FW, 1, 4, .ro, false, 0x0, 0xFFFFFFFF, 0x0, false, none, false, .none⟩,
  ⟨HRT_BU_TRAIN, 1, 4, .ro, false, 0x0, 0xFFFFFFFF, 0x0, false, none, false, .none⟩,
  ⟨HRT_BU_TOPO, 1, 4, .ro, false, 0x0, 0xC0FFFFFF, 0x0, false, none, false, .none⟩,
  ⟨HRT_BU_WAITS, 1, 4, .rw, true, 0xA050, 0x3FFFF3, 0x0, true, none, false, .none⟩,
  ⟨HRT_BU_HOST_WAIT, 1, 4, .rw, false, 0x1F4, 0x7FF, 0x0, false, none, false, .none⟩,
  ⟨HRT_BU_TRAIN_AGE, 1, 4, .rw, true, 0x1E, 0x1FF, 0x0, true, none, false, .none⟩,
  ⟨HRT_SHD_STATE, 1, 4, .ro, false, 0x0, 0xFFFF0007, 0x0, false, none, false, .none⟩,
  ⟨HRT_SHD_LIMITS, 1, 4, .rw, true, 0x40C03, 0xF0F0F, 0x0, true, none, false, .none⟩,
  ⟨HRT_SHD_POLICY, 1, 4, .rw, false, 0x546, 0x15FF, 0x0, true, none, false, .none⟩,
  ⟨HRT_SHD_HOLD_WAIT, 1, 4, .rw, false, 0x32, 0xFFFF, 0x0, true, none, false, .none⟩,
  ⟨HRT_SHD_EPSILON, 1, 4, .rw, false, 0x9, 0x1F, 0x0, false, none, false, .none⟩,
  ⟨HRT_SHD_WATCH, 1, 4, .rw, true, 0x48, 0x3FF, 0x0, true, none, false, .none⟩,
  ⟨HRT_SHD_RATE, 1, 4, .ro, false, 0x0, 0xFFFFFF, 0x0, false, none, false, .none⟩,
  ⟨HRT_SHD_CTX_SEL, 1, 4, .rw, false, 0x0, 0xF, 0x0, false, none, true, .none⟩,
  ⟨HRT_SHD_CTX_EFF_RATE, 1, 4, .ro, false, 0x0, 0xFFFFFFFF, 0x0, false, some HRT_SHD_CTX_SEL, false, .none⟩,
  ⟨HRT_SHD_CTX_NCMD, 1, 4, .ro, false, 0x0, 0xFFFF, 0x0, false, some HRT_SHD_CTX_SEL, false, .none⟩,
  ⟨HRT_SHD_CTX_HORIZON, 1, 4, .ro, false, 0xFFFFFFFF, 0xFFFFFFFF, 0x0, false, some HRT_SHD_CTX_SEL, false, .none⟩]

/-- The Hearth page (R484). Part 5. -/
def hearthRows5 : List RegRow := [
  ⟨HRT_SHD_SEED_LO, 1, 4, .ro, false, 0x0, 0xFFFFFFFF, 0x0, false, some HRT_SHD_CTX_SEL, false, .low⟩,
  ⟨HRT_SHD_SEED_HI, 1, 4, .ro, false, 0x0, 0xFFFFFFFF, 0x0, false, some HRT_SHD_CTX_SEL, false, .high⟩,
  ⟨HRT_SHD_SAMPLED_LO, 1, 4, .ro, false, 0x0, 0xFFFFFFFF, 0x0, false, none, false, .low⟩,
  ⟨HRT_SHD_SAMPLED_HI, 1, 4, .ro, false, 0x0, 0xFFFFFFFF, 0x0, false, none, false, .high⟩,
  ⟨HRT_SHD_MISSED_BUSY, 1, 4, .rc, false, 0x0, 0xFFFFFFFF, 0x0, false, none, false, .none⟩,
  ⟨HRT_SHD_TOO_LARGE, 1, 4, .rc, false, 0x0, 0xFFFFFFFF, 0x0, false, none, false, .none⟩,
  ⟨HRT_SHD_PREEMPTED, 1, 4, .rc, false, 0x0, 0xFFFFFFFF, 0x0, false, none, false, .none⟩,
  ⟨HRT_SHD_SAME_DIE, 1, 4, .rc, false, 0x0, 0xFFFFFFFF, 0x0, false, none, false, .none⟩,
  ⟨HRT_SHD_DISAGREE, 1, 4, .rc, false, 0x0, 0xFFFFFFFF, 0x0, false, none, false, .none⟩,
  ⟨HRT_SHD_ARB_STATUS, 1, 4, .ro, false, 0x0, 0xFF03, 0x0, false, none, false, .none⟩,
  ⟨HRT_OFD_KEYSEL, 1, 4, .rw, false, 0x0, 0x7, 0x0, false, none, false, .none⟩,
  ⟨HRT_OFD_KEY_LO, 1, 4, .rw, false, 0x0, 0xFFFFFFFF, 0x0, true, some HRT_OFD_KEYSEL, false, .low⟩,
  ⟨HRT_OFD_KEY_HI, 1, 4, .rw, false, 0x0, 0xFFFFFFFF, 0x0, true, some HRT_OFD_KEYSEL, false, .high⟩,
  ⟨HRT_OFD_HANDLES, 1, 4, .ro, false, 0xFF, 0xFFFF, 0x0, false, none, false, .none⟩,
  ⟨HRT_OFD_TAG_MISS, 1, 4, .rc, false, 0x0, 0xFFFFFFFF, 0x0, false, none, false, .none⟩,
  ⟨HRT_SCRUB_STATE, 1, 4, .ro, false, 0x0, 0xFFFFFF07, 0x0, false, none, false, .none⟩,
  ⟨HRT_SCRUB_BUDGET, 1, 4, .rw, false, 0x14, 0x7F, 0x0, false, none, false, .none⟩,
  ⟨HRT_SCRUB_PROGRESS, 1, 4, .ro, false, 0x0, 0xFFFFFFFF, 0x0, false, none, false, .none⟩,
  ⟨HRT_REPLICA_INTERVAL, 1, 4, .rw, false, 0x258, 0x1FFFF, 0x0, false, none, false, .none⟩,
  ⟨HRT_REPLICA_STATUS, 1, 4, .ro, false, 0x0, 0xFFFFFFFF, 0x0, false, none, false, .none⟩,
  ⟨HRT_DRIFT_SEL, 1, 4, .rw, false, 0x0, 0xF, 0x0, false, none, true, .none⟩,
  ⟨HRT_DRIFT_STEP, 1, 4, .ro, false, 0x0, 0xFFFFFFFF, 0x0, false, some HRT_DRIFT_SEL, false, .none⟩,
  ⟨HRT_DRIFT_SOURCES, 1, 4, .ro, false, 0x0, 0x1FF, 0x0, false, some HRT_DRIFT_SEL, false, .none⟩,
  ⟨HRT_DRIFT_REFRESH, 1, 4, .ro, false, 0x0, 0xFFFFFFFF, 0x0, false, some HRT_DRIFT_SEL, false, .none⟩]

/-- The Hearth page (R484). Part 6. -/
def hearthRows6 : List RegRow := [
  ⟨HRT_DRIFT_RETRY, 1, 4, .ro, false, 0x0, 0xFFFFFFFF, 0x0, false, some HRT_DRIFT_SEL, false, .none⟩,
  ⟨HRT_DRIFT_THROTTLE, 1, 4, .ro, false, 0x0, 0xFFFFFFFF, 0x0, false, some HRT_DRIFT_SEL, false, .none⟩,
  ⟨HRT_DRIFT_CHECK, 1, 4, .ro, false, 0x0, 0xFFFFFFFF, 0x0, false, some HRT_DRIFT_SEL, false, .none⟩,
  ⟨HRT_DRIFT_PLACE, 1, 4, .ro, false, 0x0, 0xFFFFFFFF, 0x0, false, some HRT_DRIFT_SEL, false, .none⟩,
  ⟨HRT_DRIFT_SCRUB, 1, 4, .ro, false, 0x0, 0xFFFFFFFF, 0x0, false, some HRT_DRIFT_SEL, false, .none⟩,
  ⟨HRT_WDOG_TILE, 1, 4, .rw, false, 0xA, 0x3FF, 0x0, true, none, false, .none⟩,
  ⟨HRT_WDOG_CTX, 1, 4, .rw, false, 0x64, 0x3FFF, 0x0, true, none, false, .none⟩,
  ⟨HRT_WDOG_PART, 1, 4, .rw, false, 0x1F4, 0x7FFF, 0x0, true, none, false, .none⟩,
  ⟨HRT_WDOG_CHIP, 1, 4, .rw, false, 0x7D0, 0xFFFF, 0x0, true, none, false, .none⟩,
  ⟨HRT_KNOT_TIMEOUT, 1, 4, .rw, false, 0xC8, 0x3FFF, 0x0, true, none, false, .none⟩,
  ⟨HRT_KNOT_EDGE, 1, 4, .rw, false, 0x32, 0x3FF, 0x0, true, none, false, .none⟩,
  ⟨HRT_SPILL_SIZE, 1, 4, .rw, true, 0x40, 0x1FFF, 0x0, true, none, false, .none⟩,
  ⟨HRT_SPILL_QUANTUM, 1, 4, .rw, false, 0x40, 0x7FF, 0x0, true, none, false, .none⟩,
  ⟨HRT_SPILL_USE, 1, 4, .ro, false, 0x0, 0xFFFFFFFF, 0x0, false, none, false, .none⟩,
  ⟨HRT_KNOT_LAST, 1, 4, .ro, false, 0x0, 0xF00FF0FF, 0x0, false, none, false, .none⟩,
  ⟨HRT_KNOT_COUNT, 1, 4, .rc, false, 0x0, 0xFFFFFFFF, 0x0, false, none, false, .none⟩,
  ⟨HRT_DRAIN_WINDOW, 1, 4, .rw, false, 0x14, 0x3FF, 0x0, true, none, false, .none⟩,
  ⟨HRT_KILL_TIMEOUT, 1, 4, .rw, false, 0x5, 0x3F, 0x0, true, none, false, .none⟩,
  ⟨HRT_ESC_HOLD, 1, 4, .rw, false, 0x0, 0x7FF, 0x0, false, none, false, .none⟩,
  ⟨HRT_ESC_STATUS, 1, 4, .ro, false, 0x0, 0xFFC007FF, 0x0, false, none, false, .none⟩,
  ⟨HRT_ESC_CAUSE, 1, 4, .ro, false, 0x0, 0xFFFFFFFF, 0x0, false, none, false, .none⟩,
  ⟨HRT_ESC_COUNTS, 1, 4, .ro, false, 0x0, 0xFFFFFFFF, 0x0, false, none, false, .none⟩,
  ⟨HRT_ESC_REPEAT, 1, 4, .rw, true, 0x3C, 0xFFF, 0x0, true, none, false, .none⟩,
  ⟨HRT_PC_POLICY, 1, 4, .rw, true, 0x1, 0xFF01, 0xFF00, true, none, false, .none⟩]

/-- The Hearth page (R484). Part 7. -/
def hearthRows7 : List RegRow := [
  ⟨HRT_PARTITION_MAP, 1, 4, .ro, false, 0x0, 0xFFFF, 0x0, false, none, false, .none⟩,
  ⟨HRT_BSTOP_TIMEOUT, 1, 4, .rw, false, 0x32, 0x3FF, 0x0, false, none, false, .none⟩,
  ⟨HRT_BSTOP_STATUS, 1, 4, .ro, false, 0x0, 0xE00000FF, 0x0, false, none, false, .none⟩,
  ⟨HRT_SNAP_STATUS, 1, 4, .ro, false, 0x0, 0xF00001FF, 0x0, false, none, false, .none⟩,
  ⟨HRT_SMEAR, 1, 4, .ro, false, 0x0, 0xFFFFFFFF, 0x0, false, none, false, .none⟩,
  ⟨HRT_TB_LO, 1, 4, .ro, false, 0x0, 0xFFFFFFFF, 0x0, false, none, false, .low⟩,
  ⟨HRT_TB_HI, 1, 4, .ro, false, 0x0, 0xFFFFFFFF, 0x0, false, none, false, .high⟩,
  ⟨HRT_TB_ORIGIN_LO, 1, 4, .ro, false, 0x0, 0xFFFFFFFF, 0x0, false, none, false, .low⟩,
  ⟨HRT_TB_ORIGIN_HI, 1, 4, .ro, false, 0x0, 0xFFFFFFFF, 0x0, false, none, false, .high⟩,
  ⟨HRT_TB_ALIGN_LO, 1, 4, .ro, false, 0x0, 0xFFFFFFFF, 0x0, false, none, false, .low⟩,
  ⟨HRT_TB_ALIGN_HI, 1, 4, .ro, false, 0x0, 0xFFFFFFFF, 0x0, false, none, false, .high⟩,
  ⟨HRT_TB_REFCLK, 1, 4, .ro, false, 0x0, 0x8000FFFF, 0x0, false, none, false, .none⟩,
  ⟨HRT_TB_CAPTURE, 1, 4, .wo, false, 0x0, 0x1, 0x0, false, none, false, .none⟩,
  ⟨HRT_TB_CAP_TB_LO, 1, 4, .ro, false, 0x0, 0xFFFFFFFF, 0x0, false, none, true, .low⟩,
  ⟨HRT_TB_CAP_TB_HI, 1, 4, .ro, false, 0x0, 0xFFFFFFFF, 0x0, false, none, true, .high⟩,
  ⟨HRT_TB_CAP_OPTIME_LO, 1, 4, .ro, false, 0x0, 0xFFFFFFFF, 0x0, false, none, true, .low⟩,
  ⟨HRT_TB_CAP_OPTIME_HI, 1, 4, .ro, false, 0x0, 0xFFFFFFF, 0x0, false, none, true, .high⟩,
  ⟨HRT_TB_CAP_TRACE_LO, 1, 4, .ro, false, 0x0, 0xFFFFFFFF, 0x0, false, none, true, .low⟩,
  ⟨HRT_TB_CAP_TRACE_HI, 1, 4, .ro, false, 0x0, 0x8000FFFF, 0x0, false, none, true, .high⟩,
  ⟨HRT_TB_CAP_GEN, 1, 4, .ro, false, 0x0, 0xFF, 0x0, false, none, true, .none⟩,
  ⟨HRT_SPARE_EPOCH, 1, 4, .ro, false, 0x0, 0xFFFFFFFF, 0x0, false, none, false, .none⟩,
  ⟨HRT_SPARE_STATUS, 1, 4, .ro, false, 0x0, 0x80FFFFFF, 0x0, false, none, false, .none⟩,
  ⟨HRT_SPARE_COUNTS, 1, 4, .ro, false, 0x0, 0xFFFFFF, 0x0, false, none, false, .none⟩,
  ⟨HRT_FENCE_LAST, 1, 4, .ro, false, 0x0, 0xFFFFFFFF, 0x0, false, none, false, .none⟩]

/-- The Hearth page (R484). Part 8. -/
def hearthRows8 : List RegRow := [
  ⟨HRT_FENCE_LATENCY, 1, 4, .ro, false, 0x0, 0xFFFFFFFF, 0x0, false, none, false, .none⟩,
  ⟨HRT_REPLACE_LATENCY, 1, 4, .ro, false, 0x0, 0xFFFFFFFF, 0x0, false, none, false, .none⟩,
  ⟨HRT_REPLACE_COUNT, 1, 4, .rc, false, 0x0, 0xFFFFFFFF, 0x0, false, none, false, .none⟩,
  ⟨HRT_SPARE_RECORD, 1, 4, .ro, false, 0x0, 0x8000FFFF, 0x0, false, none, false, .none⟩,
  ⟨HRT_GEN, 1, 4, .ro, false, 0x0, 0xFF, 0x0, false, none, false, .none⟩,
  ⟨HRT_GEN_PART, 1, 4, .ro, false, 0x0, 0xFFFFFFFF, 0x0, false, none, false, .none⟩,
  ⟨HRT_GEN_HOLDOFF, 1, 4, .rw, true, 0x96, 0x3FF03FF, 0x3FF0000, true, none, false, .none⟩,
  ⟨HRT_GEN_STALE_LO, 1, 4, .ro, false, 0x0, 0xFFFFFFFF, 0x0, false, none, false, .low⟩,
  ⟨HRT_GEN_STALE_HI, 1, 4, .ro, false, 0x0, 0xFFFFFFFF, 0x0, false, none, false, .high⟩,
  ⟨HRT_SLAG_CONSUMED, 1, 4, .rc, false, 0x0, 0xFFFFFFFF, 0x0, false, none, false, .none⟩,
  ⟨HRT_REMOTE_GONE, 1, 4, .rc, false, 0x0, 0xFFFFFFFF, 0x0, false, none, false, .none⟩,
  ⟨HRT_FP_PHYS, 144, 4, .ro, false, 0xFF, 0xFFFF00FF, 0x0, false, none, false, .none⟩,
  ⟨HRT_FP_LOGICAL, 128, 4, .ro, false, 0x0, 0x800000FF, 0x0, false, none, false, .none⟩,
  ⟨HRT_BIST_STATE, 1, 4, .ro, false, 0x0, 0xFFFF0007, 0x0, false, none, false, .none⟩,
  ⟨HRT_BIST_INTERVAL, 1, 4, .rw, false, 0xA, 0x3FF, 0x0, false, none, false, .none⟩,
  ⟨HRT_BIST_NEXT, 1, 4, .ro, false, 0xFF00, 0xFFFF, 0x0, false, none, false, .none⟩,
  ⟨HRT_BIST_ROTATION, 1, 4, .ro, false, 0x0, 0xFFFFFFFF, 0x0, false, none, false, .none⟩,
  ⟨HRT_BIST_ROT_TIME, 1, 4, .ro, false, 0x0, 0xFFFFFFFF, 0x0, false, none, false, .none⟩,
  ⟨HRT_BIST_SKIPPED, 1, 4, .rc, false, 0x0, 0xFFFFFFFF, 0x0, false, none, false, .none⟩,
  ⟨HRT_BIST_INVALID, 1, 4, .rc, false, 0x0, 0xFFFFFFFF, 0x0, false, none, false, .none⟩,
  ⟨HRT_BIST_DIE_HOLD, 1, 4, .ro, false, 0x0, 0x1FFFFFF, 0x0, false, none, false, .none⟩,
  ⟨HRT_HBM_SLICE_INTERVAL, 1, 4, .rw, false, 0x64, 0x3FFF, 0x0, false, none, false, .none⟩,
  ⟨HRT_HBM_PPR_POLICY, 1, 4, .rw, true, 0x2, 0x7, 0x0, true, none, false, .none⟩,
  ⟨HRT_ANVIL_STATUS, 1, 4, .ro, false, 0x0, 0xFFFF0F, 0x0, false, none, false, .none⟩]

/-- The Hearth page (R484). Part 9. -/
def hearthRows9 : List RegRow := [
  ⟨HRT_ANVIL_IMAGE, 1, 4, .ro, false, 0x0, 0xFFFF0FFF, 0x0, false, none, false, .none⟩,
  ⟨HRT_ANVIL_FAILS, 1, 4, .rc, false, 0x0, 0xFFFFFFFF, 0x0, false, none, false, .none⟩,
  ⟨HRT_TOPO_COORD, 1, 4, .ro, false, 0xFFFFFFFF, 0xFFFFFFFF, 0x0, false, none, false, .none⟩,
  ⟨HRT_TOPO_SERIAL_LO, 1, 4, .ro, false, 0x0, 0xFFFFFFFF, 0x0, false, none, false, .low⟩,
  ⟨HRT_TOPO_SERIAL_HI, 1, 4, .ro, false, 0x0, 0xFFFFFFFF, 0x0, false, none, false, .high⟩,
  ⟨HRT_TOPO_WIRING, 1, 4, .ro, false, 0x0, 0x80FFFFFF, 0x0, false, none, false, .none⟩,
  ⟨HRT_CMP_CFG, 1, 4, .rw, true, 0xC5B60000, 0xFFFF0000, 0x0, true, none, false, .none⟩,
  ⟨HRT_CMP_VERSION, 1, 4, .ro, false, 0x2000202, 0xFFFFFFFF, 0x0, false, none, false, .none⟩,
  ⟨HRT_CMP_FEATURES, 1, 4, .ro, false, 0x3F, 0x3F, 0x0, false, none, false, .none⟩,
  ⟨HRT_CMP_SESSIONS, 1, 4, .ro, false, 0x0, 0xE300FFFF, 0x0, false, none, false, .none⟩,
  ⟨HRT_CMP_EVENTQ, 1, 4, .ro, false, 0x0, 0xFFFF01FF, 0x0, false, none, false, .none⟩,
  ⟨HRT_JOB_ADMIT, 1, 4, .ro, false, 0x0, 0x8000FFFF, 0x0, false, none, false, .none⟩,
  ⟨HRT_ROUTE_USE, 1, 4, .ro, false, 0x0, 0x7FF, 0x0, false, none, false, .none⟩,
  ⟨HRT_TOPO_PORT, 48, 8, .ro, false, 0x6000000, 0xDF0000FF, 0x0, false, none, false, .none⟩,
  ⟨HRT_TOPO_FAR, 48, 8, .ro, false, 0xFFFFFFFF, 0xFFFFFFFF, 0x0, false, none, false, .none⟩,
  ⟨HRT_TOPO_EXP, 48, 8, .ro, false, 0xFFFFFFFF, 0xFFFFFFFF, 0x0, false, none, false, .none⟩,
  ⟨HRT_TOPO_EXP_PORT, 48, 8, .ro, false, 0x0, 0xC3FF, 0x0, false, none, false, .none⟩,
  ⟨OBS_TRACE_STATE, 1, 4, .ro, false, 0x0, 0xFFFF0007, 0x0, false, none, false, .none⟩,
  ⟨OBS_TRACE_CFG, 1, 4, .rw, false, 0x312FFFF, 0xFFFFFFF, 0x0, false, none, false, .none⟩,
  ⟨OBS_TRACE_PT_SEL, 1, 4, .rw, false, 0x0, 0x3, 0x0, false, none, true, .none⟩,
  ⟨OBS_TRACE_BASE_LO, 1, 4, .rw, false, 0x0, 0xFFFFF000, 0x0, false, some OBS_TRACE_PT_SEL, false, .low⟩,
  ⟨OBS_TRACE_BASE_HI, 1, 4, .rw, false, 0x0, 0xFFFFFFFF, 0x0, false, some OBS_TRACE_PT_SEL, false, .high⟩,
  ⟨OBS_TRACE_SIZE, 1, 4, .rw, false, 0x0, 0x7FFF, 0x0, false, some OBS_TRACE_PT_SEL, false, .none⟩,
  ⟨OBS_TRACE_BLOCKS, 1, 4, .ro, false, 0x0, 0xFFFFFFFF, 0x0, false, some OBS_TRACE_PT_SEL, false, .none⟩]

/-- The Hearth page (R484). Part 10. -/
def hearthRows10 : List RegRow := [
  ⟨OBS_TRACE_LOST_LO, 1, 4, .ro, false, 0x0, 0xFFFFFFFF, 0x0, false, some OBS_TRACE_PT_SEL, false, .low⟩,
  ⟨OBS_TRACE_LOST_HI, 1, 4, .ro, false, 0x0, 0xFFFFFFFF, 0x0, false, some OBS_TRACE_PT_SEL, false, .high⟩,
  ⟨OBS_LINK_STAMP, 1, 4, .rw, false, 0x8, 0xF, 0x0, false, none, false, .none⟩,
  ⟨OBS_FULL_EN, 1, 4, .rw, false, 0x0, 0xF, 0x0, false, none, false, .none⟩,
  ⟨OBS_WATCH_STATE, 1, 4, .ro, false, 0x0, 0xFFFF0007, 0x0, false, none, false, .none⟩,
  ⟨OBS_WATCH_SEL, 1, 4, .rw, false, 0x0, 0x1F, 0x0, false, none, true, .none⟩,
  ⟨OBS_WATCH_STATUS, 1, 4, .ro, false, 0x0, 0xF8F00000, 0x0, false, some OBS_WATCH_SEL, false, .none⟩,
  ⟨OBS_WATCH_STEP, 1, 4, .ro, false, 0x0, 0xFFFFFFFF, 0x0, false, some OBS_WATCH_SEL, false, .none⟩,
  ⟨OBS_WATCH_BYTES, 1, 4, .ro, false, 0x0, 0xFFFFFFFF, 0x0, false, some OBS_WATCH_SEL, false, .none⟩,
  ⟨OBS_WATCH_HOLD, 1, 4, .rw, false, 0x32, 0x3FF, 0x0, false, none, false, .none⟩,
  ⟨OBS_TAG_FORM, 1, 4, .ro, false, 0x0, 0xF, 0x0, false, none, false, .none⟩]

def hearthRows : List RegRow := hearthRows0 ++ hearthRows1 ++ hearthRows2 ++ hearthRows3 ++ hearthRows4 ++ hearthRows5 ++ hearthRows6 ++ hearthRows7 ++ hearthRows8 ++ hearthRows9 ++ hearthRows10

/-- The secure view from 0x080_0000 (R490, R491). Part 0. -/
def seqRows0 : List RegRow := [
  ⟨HRT_SQ_WDOG, 1, 4, .rw, true, 0x14, 0xFF, 0x0, false, none, false, .none⟩,
  ⟨HRT_SQ_HEARTBEAT, 1, 4, .wo, true, 0x0, 0xFFFFFFFF, 0x0, false, none, false, .none⟩,
  ⟨HRT_SQ_RESTART, 1, 4, .ro, true, 0x3FFF, 0xFFFFFFFF, 0x0, false, none, false, .none⟩,
  ⟨HRT_SQ_DIGEST_SEL, 1, 4, .rw, true, 0x1, 0x7, 0x0, false, none, true, .none⟩,
  ⟨HRT_SQ_DIGEST, 12, 4, .ro, true, 0x0, 0xFFFFFFFF, 0x0, false, some HRT_SQ_DIGEST_SEL, false, .none⟩,
  ⟨HRT_SV_NOR_SEG, 1, 4, .rw, true, 0x0, 0x8000000F, 0x80000000, false, none, false, .none⟩]

def seqRows : List RegRow := seqRows0

/-- The tile warden page (R499). Part 0. -/
def tileRows0 : List RegRow := [
  ⟨TWD_ID, 1, 4, .ro, false, 0x0, 0xFFFFFFFF, 0x0, false, none, false, .none⟩,
  ⟨TWD_STATUS, 1, 4, .ro, false, 0x40000000, 0xFE00FF00, 0x0, false, none, false, .none⟩,
  ⟨TWD_REPORT_DROP, 1, 4, .rc, false, 0x0, 0xFFFFFFFF, 0x0, false, none, false, .none⟩,
  ⟨TWD_SRC_ERR, 1, 4, .rc, false, 0x0, 0xFFFFFFFF, 0x0, false, none, false, .none⟩,
  ⟨TWD_PORT_STATE, 1, 4, .ro, false, 0x40000000, 0xC000FFFF, 0x0, false, none, false, .none⟩,
  ⟨TWD_PORT_DISCARD, 1, 4, .rc, false, 0x0, 0xFFFFFFFF, 0x0, false, none, false, .none⟩,
  ⟨TWD_PORT_WAIT, 1, 4, .rc, false, 0x0, 0xFFFFFFFF, 0x0, false, none, false, .none⟩,
  ⟨TWD_NORESP, 1, 4, .rc, false, 0x0, 0xFFFFFFFF, 0x0, false, none, false, .none⟩,
  ⟨TWD_ABANDON, 1, 4, .rc, false, 0x0, 0xFFFFFFFF, 0x0, false, none, false, .none⟩,
  ⟨TWD_TAP, 1, 4, .ro, false, 0x0, 0x80000000, 0x0, false, none, false, .none⟩,
  ⟨TWD_LC_BUSY_LO, 1, 4, .ro, false, 0x0, 0xFFFFFFFF, 0x0, false, none, false, .low⟩,
  ⟨TWD_LC_BUSY_HI, 1, 4, .ro, false, 0x0, 0xFFFF, 0x0, false, none, false, .high⟩,
  ⟨TWD_LC_STALL_LO, 1, 4, .ro, false, 0x0, 0xFFFFFFFF, 0x0, false, none, false, .low⟩,
  ⟨TWD_LC_STALL_HI, 1, 4, .ro, false, 0x0, 0xFFFF, 0x0, false, none, false, .high⟩,
  ⟨TWD_LC_IDLE_LO, 1, 4, .ro, false, 0x0, 0xFFFFFFFF, 0x0, false, none, false, .low⟩,
  ⟨TWD_LC_IDLE_HI, 1, 4, .ro, false, 0x0, 0xFFFF, 0x0, false, none, false, .high⟩,
  ⟨TWD_LC_ERR_LO, 1, 4, .ro, false, 0x0, 0xFFFFFFFF, 0x0, false, none, false, .low⟩,
  ⟨TWD_LC_ERR_HI, 1, 4, .ro, false, 0x0, 0xFFFF, 0x0, false, none, false, .high⟩,
  ⟨TWD_OBS_STATE, 1, 4, .ro, false, 0x0, 0xFF0000FF, 0x0, false, none, false, .none⟩,
  ⟨TWD_OBS_PORT_WAIT, 1, 4, .rc, false, 0x0, 0xFFFFFFFF, 0x0, false, none, false, .none⟩,
  ⟨TWD_TRACE_DROP, 1, 4, .rc, false, 0x0, 0xFFFFFFFF, 0x0, false, none, false, .none⟩,
  ⟨TWD_TRACE_BUF, 1, 4, .ro, false, 0x0, 0x3FF, 0x0, false, none, false, .none⟩,
  ⟨TWD_CTX_SEL, 1, 4, .rw, false, 0x0, 0xFF, 0x0, false, none, true, .none⟩,
  ⟨TWD_CTX_LO, 1, 4, .ro, false, 0x0, 0xFFFFFFFF, 0x0, false, some TWD_CTX_SEL, false, .low⟩]

/-- The tile warden page (R499). Part 1. -/
def tileRows1 : List RegRow := [
  ⟨TWD_CTX_HI, 1, 4, .ro, false, 0x0, 0xFFFF, 0x0, false, some TWD_CTX_SEL, false, .high⟩,
  ⟨TWD_FC_LO, 8, 8, .ro, false, 0x0, 0xFFFFFFFF, 0x0, false, none, false, .low⟩,
  ⟨TWD_FC_HI, 8, 8, .ro, false, 0x0, 0xFFFF, 0x0, false, none, false, .high⟩,
  ⟨TWD_RES_STATUS, 1, 4, .ro, false, 0x0, 0xFF000000, 0x0, false, none, false, .none⟩,
  ⟨TWD_RES_LOC, 1, 4, .ro, false, 0x0, 0xFFFF7F7F, 0x0, false, none, false, .none⟩,
  ⟨TWD_RES_SYND, 1, 4, .ro, false, 0x0, 0x9FFF1FFF, 0x0, false, none, false, .none⟩,
  ⟨TWD_RES_SEQ, 1, 4, .ro, false, 0x0, 0xFFFFFFFF, 0x0, false, none, false, .none⟩,
  ⟨TWD_RES_PASS, 1, 4, .ro, false, 0x0, 0xFFFF, 0x0, false, none, false, .none⟩,
  ⟨TWD_RES_CHECKED_LO, 1, 4, .ro, false, 0x0, 0xFFFFFFFF, 0x0, false, none, false, .low⟩,
  ⟨TWD_RES_CHECKED_HI, 1, 4, .ro, false, 0x0, 0xFFFFFFFF, 0x0, false, none, false, .high⟩,
  ⟨TWD_RES_UNCHECKED, 1, 4, .rc, false, 0x0, 0xFFFFFFFF, 0x0, false, none, false, .none⟩,
  ⟨TWD_RES_TRANSIENT, 1, 4, .rc, false, 0x0, 0xFFFFFFFF, 0x0, false, none, false, .none⟩,
  ⟨TWD_RES_REPEAT, 1, 4, .rc, false, 0x0, 0xFFFFFFFF, 0x0, false, none, false, .none⟩,
  ⟨TWD_IDX_PARITY, 1, 4, .rc, false, 0x0, 0xFFFFFFFF, 0x0, false, none, false, .none⟩,
  ⟨TWD_CONV_MISMATCH, 1, 4, .rc, false, 0x0, 0xFFFFFFFF, 0x0, false, none, false, .none⟩,
  ⟨TWD_CHECK_INJECT, 1, 4, .rw, true, 0x0, 0x83FFE07F, 0x0, false, none, false, .none⟩,
  ⟨TWD_INJECT_COL, 1, 4, .rw, true, 0x0, 0x7F, 0x0, false, none, false, .none⟩,
  ⟨TWD_INJECT_INTERVAL, 1, 4, .rw, true, 0x14, 0x1F, 0x0, false, none, false, .none⟩,
  ⟨TWD_INJECT_COUNT, 1, 4, .rc, false, 0x0, 0xFFFFFFFF, 0x0, false, none, false, .none⟩,
  ⟨TWD_SHD_STATUS, 1, 4, .ro, false, 0x5, 0xFF0F, 0x0, false, none, false, .none⟩,
  ⟨TWD_SHD_SEQ, 1, 4, .ro, false, 0x0, 0xFFFFFFFF, 0x0, false, none, false, .none⟩,
  ⟨TWD_SHD_SLOTS, 1, 4, .ro, false, 0x0, 0x3FFFFFF, 0x0, false, none, false, .none⟩,
  ⟨TWD_SHD_ORDINAL, 1, 4, .ro, false, 0x0, 0xFFFFF, 0x0, false, none, false, .none⟩,
  ⟨TWD_SHD_START_WAIT, 1, 4, .rc, false, 0x0, 0xFFFFFFFF, 0x0, false, none, false, .none⟩]

/-- The tile warden page (R499). Part 2. -/
def tileRows2 : List RegRow := [
  ⟨TWD_SHD_ABANDONED, 1, 4, .rc, false, 0x0, 0xFFFFFFFF, 0x0, false, none, false, .none⟩,
  ⟨TWD_OFD_SEL, 1, 4, .rw, false, 0x0, 0x7, 0x0, false, none, true, .none⟩,
  ⟨TWD_OFD_L0_LO, 1, 4, .ro, false, 0x0, 0xFFFFFFFF, 0x0, false, some TWD_OFD_SEL, false, .low⟩,
  ⟨TWD_OFD_L0_HI, 1, 4, .ro, false, 0x0, 0x1FFFFFFF, 0x0, false, some TWD_OFD_SEL, false, .high⟩,
  ⟨TWD_OFD_L1_LO, 1, 4, .ro, false, 0x0, 0xFFFFFFFF, 0x0, false, some TWD_OFD_SEL, false, .low⟩,
  ⟨TWD_OFD_L1_HI, 1, 4, .ro, false, 0x0, 0x1FFFFFFF, 0x0, false, some TWD_OFD_SEL, false, .high⟩,
  ⟨TWD_OFD_MERGED, 1, 4, .rc, false, 0x0, 0xFFFFFFFF, 0x0, false, none, false, .none⟩,
  ⟨TWD_FENCE, 1, 4, .ro, false, 0x0, 0xC0FF0000, 0x0, false, none, false, .none⟩,
  ⟨TWD_GEN, 1, 4, .ro, false, 0x0, 0xFF, 0x0, false, none, false, .none⟩,
  ⟨TWD_DUP_DISCARD, 1, 4, .rc, false, 0x0, 0xFFFFFFFF, 0x0, false, none, false, .none⟩,
  ⟨TWD_SLAG_LAST, 1, 4, .ro, false, 0x0, 0x7FFFF, 0x0, false, none, false, .none⟩,
  ⟨TWD_SLAG_CONSUMED, 1, 4, .rc, false, 0x0, 0xFFFFFFFF, 0x0, false, none, false, .none⟩,
  ⟨TWD_JNL_SEL, 1, 4, .rw, false, 0x0, 0x7F, 0x0, false, none, true, .none⟩,
  ⟨TWD_JNL_HEAD, 1, 4, .ro, false, 0x0, 0x3FFFFF, 0x0, false, none, false, .none⟩,
  ⟨TWD_JNL_WORD, 32, 4, .ro, false, 0x0, 0xFFFFFFFF, 0x0, false, none, true, .none⟩,
  ⟨TWD_WDOG, 1, 4, .ro, false, 0x0, 0x80FFFFFF, 0x0, false, none, false, .none⟩,
  ⟨TWD_QSEL, 1, 4, .rw, false, 0x0, 0xFF, 0x0, false, none, false, .none⟩,
  ⟨TWD_QSTATE, 1, 4, .ro, false, 0x0, 0xFE0FFFFF, 0x0, false, some TWD_QSEL, false, .none⟩,
  ⟨TWD_QPOS, 1, 4, .ro, false, 0x0, 0xFFFFFFFF, 0x0, false, some TWD_QSEL, false, .none⟩,
  ⟨TWD_SPILLED, 1, 4, .ro, false, 0x0, 0xFFFFFFFF, 0x0, false, none, false, .none⟩,
  ⟨TWD_EPOCH, 1, 4, .ro, false, 0x0, 0xFF, 0x0, false, none, false, .none⟩,
  ⟨TWD_EPOCH_DISCARD, 1, 4, .rc, false, 0x0, 0xFFFFFFFF, 0x0, false, none, false, .none⟩,
  ⟨TWD_BIST_STATUS, 1, 4, .ro, false, 0x0, 0xF8FFFFFF, 0x0, false, none, false, .none⟩,
  ⟨TWD_BIST_PATTERN, 1, 4, .ro, false, 0x0, 0xFFFF, 0x0, false, none, false, .none⟩]

/-- The tile warden page (R499). Part 3. -/
def tileRows3 : List RegRow := [
  ⟨TWD_BIST_SIG_LO, 1, 4, .ro, false, 0x0, 0xFFFFFFFF, 0x0, false, none, false, .low⟩,
  ⟨TWD_BIST_SIG_HI, 1, 4, .ro, false, 0x0, 0xFFFFFFFF, 0x0, false, none, false, .high⟩,
  ⟨TWD_MBIST_ADDR, 1, 4, .ro, false, 0x0, 0xFFFFFFFF, 0x0, false, none, false, .none⟩,
  ⟨TWD_MBIST_BIT, 1, 4, .ro, false, 0x0, 0xFFFF007F, 0x0, false, none, false, .none⟩,
  ⟨TWD_MBIST_REPAIR, 1, 4, .ro, false, 0x0, 0xFFFFFFFF, 0x0, false, none, false, .none⟩,
  ⟨TWD_ANVIL_STATUS, 1, 4, .ro, false, 0x0, 0xF0FFFFFF, 0x0, false, none, false, .none⟩,
  ⟨TWD_ANVIL_RUNS, 1, 4, .rc, false, 0x0, 0xFFFFFFFF, 0x0, false, none, false, .none⟩,
  ⟨TWD_FW_STATUS, 1, 4, .ro, false, 0x0, 0xC3FFFFFF, 0x0, false, none, false, .none⟩,
  ⟨TWD_FW_CRC_REJECT, 1, 4, .rc, false, 0x0, 0xFFFFFFFF, 0x0, false, none, false, .none⟩,
  ⟨TWD_FW_BITMAP, 16, 4, .ro, false, 0x0, 0xFFFFFFFF, 0x0, false, none, false, .none⟩,
  ⟨TWD_TEMP, 1, 4, .ro, false, 0x0, 0xFFFFFFFF, 0x0, false, none, false, .none⟩,
  ⟨TWD_CONS_SEL, 1, 4, .rw, false, 0x0, 0xFF, 0x0, false, none, true, .none⟩,
  ⟨TWD_CONS_KEY, 1, 4, .ro, false, 0x0, 0xFFFFFFC1, 0x0, false, some TWD_CONS_SEL, false, .none⟩,
  ⟨TWD_CONS_STEP, 1, 4, .ro, false, 0x0, 0xFFFFFFFF, 0x0, false, some TWD_CONS_SEL, false, .none⟩,
  ⟨TWD_CONS_D, 1, 4, .ro, false, 0x0, 0xFFFFFFFF, 0x0, false, some TWD_CONS_SEL, false, .none⟩,
  ⟨TWD_CONS_X, 1, 4, .ro, false, 0x0, 0xFFFFFFFF, 0x0, false, some TWD_CONS_SEL, false, .none⟩,
  ⟨TWD_CONS_V, 1, 4, .ro, false, 0x0, 0xFFFFFFFF, 0x0, false, some TWD_CONS_SEL, false, .none⟩,
  ⟨TWD_CONS_T, 1, 4, .ro, false, 0x0, 0xFFFFFFFF, 0x0, false, some TWD_CONS_SEL, false, .none⟩,
  ⟨TWD_CONS_BANK, 1, 4, .ro, false, 0x0, 0xFFFF3FFF, 0x0, false, none, false, .none⟩]

def tileRows : List RegRow := tileRows0 ++ tileRows1 ++ tileRows2 ++ tileRows3

/-- The stack warden page (R501), without the common header. Part 0. -/
def stackRows0 : List RegRow := [
  ⟨SWD_ECC_CE_LO, 1, 4, .ro, false, 0x0, 0xFFFFFFFF, 0x0, false, none, false, .low⟩,
  ⟨SWD_ECC_CE_HI, 1, 4, .ro, false, 0x0, 0xFFFFFFFF, 0x0, false, none, false, .high⟩,
  ⟨SWD_ECC_UE, 1, 4, .rc, false, 0x0, 0xFFFFFFFF, 0x0, false, none, false, .none⟩,
  ⟨SWD_ECC_LAST, 1, 4, .ro, false, 0x0, 0xFFFFFFFF, 0x0, false, none, false, .none⟩,
  ⟨SWD_ECC_LAST_INFO, 1, 4, .ro, false, 0x0, 0xC0FF00FF, 0x0, false, none, false, .none⟩,
  ⟨SWD_PATROL, 1, 4, .rw, false, 0x18, 0xFF, 0x0, false, none, false, .none⟩,
  ⟨SWD_PATROL_PROG, 1, 4, .ro, false, 0x0, 0xFFFFFFFF, 0x0, false, none, false, .none⟩,
  ⟨SWD_REFRESH_DELAY, 1, 4, .rc, false, 0x0, 0xFFFFFFFF, 0x0, false, none, false, .none⟩,
  ⟨SWD_REFRESH_RATE, 1, 4, .ro, false, 0x0, 0x3, 0x0, false, none, false, .none⟩,
  ⟨SWD_1500, 1, 4, .ro, false, 0x0, 0xC0FFFFFF, 0x0, false, none, false, .none⟩,
  ⟨SWD_STACK_STATE, 1, 4, .ro, false, 0x0, 0xC0000000, 0x0, false, none, false, .none⟩,
  ⟨SWD_OFD_SEL, 1, 4, .rw, false, 0x0, 0x1FF, 0x0, false, none, true, .none⟩,
  ⟨SWD_OFD_FLAGS, 1, 4, .ro, false, 0x0, 0x3F, 0x0, false, some SWD_OFD_SEL, false, .none⟩,
  ⟨SWD_OFD_L0_LO, 1, 4, .ro, false, 0x0, 0xFFFFFFFF, 0x0, false, some SWD_OFD_SEL, false, .low⟩,
  ⟨SWD_OFD_L0_HI, 1, 4, .ro, false, 0x0, 0x1FFFFFFF, 0x0, false, some SWD_OFD_SEL, false, .high⟩,
  ⟨SWD_OFD_L1_LO, 1, 4, .ro, false, 0x0, 0xFFFFFFFF, 0x0, false, some SWD_OFD_SEL, false, .low⟩,
  ⟨SWD_OFD_L1_HI, 1, 4, .ro, false, 0x0, 0x1FFFFFFF, 0x0, false, some SWD_OFD_SEL, false, .high⟩,
  ⟨SWD_OFD_COUNT_LO, 1, 4, .ro, false, 0x0, 0xFFFFFFFF, 0x0, false, some SWD_OFD_SEL, false, .low⟩,
  ⟨SWD_OFD_COUNT_HI, 1, 4, .ro, false, 0x0, 0xFFFF, 0x0, false, some SWD_OFD_SEL, false, .high⟩,
  ⟨SWD_OFD_TAG_MISS, 1, 4, .rc, false, 0x0, 0xFFFFFFFF, 0x0, false, none, false, .none⟩,
  ⟨SWD_OFD_KAT, 1, 4, .ro, false, 0x0, 0xFFFFFFFF, 0x0, false, none, false, .none⟩,
  ⟨SWD_SCRUB_STATUS, 1, 4, .ro, false, 0x0, 0xFFFFFFFF, 0x0, false, none, false, .none⟩,
  ⟨SWD_SLAG_MARKED, 1, 4, .rc, false, 0x0, 0xFFFFFFFF, 0x0, false, none, false, .none⟩,
  ⟨SWD_SLAG_ADDR_LO, 1, 4, .ro, false, 0x0, 0xFFFFFFFF, 0x0, false, none, false, .low⟩]

/-- The stack warden page (R501), without the common header. Part 1. -/
def stackRows1 : List RegRow := [
  ⟨SWD_SLAG_ADDR_HI, 1, 4, .ro, false, 0x0, 0x7FFFF, 0x0, false, none, false, .high⟩,
  ⟨SWD_STALE_DROP, 1, 4, .rc, false, 0x0, 0xFFFFFFFF, 0x0, false, none, false, .none⟩,
  ⟨SWD_HBM_TEST, 1, 4, .ro, false, 0x0, 0xF800FFFF, 0x0, false, none, false, .none⟩,
  ⟨SWD_HBM_FAIL_ADDR, 1, 4, .ro, false, 0x0, 0xFFFFFFFF, 0x0, false, none, false, .none⟩,
  ⟨SWD_HBM_FAIL_BIT, 1, 4, .ro, false, 0x0, 0xFFFF, 0x0, false, none, false, .none⟩,
  ⟨SWD_HBM_PPR, 1, 4, .ro, false, 0x0, 0xFFFFFFFF, 0x0, false, none, false, .none⟩,
  ⟨SWD_HBM_SLICES_LO, 1, 4, .ro, false, 0x0, 0xFFFFFFFF, 0x0, false, none, false, .low⟩,
  ⟨SWD_HBM_SLICES_HI, 1, 4, .ro, false, 0x0, 0xFFFFFFFF, 0x0, false, none, false, .high⟩,
  ⟨SWD_HBM_WEAK_ROWS, 1, 4, .ro, false, 0x0, 0x1FF, 0x0, false, none, false, .none⟩,
  ⟨SWD_HBM_ROT_TIME, 1, 4, .ro, false, 0x0, 0xFFFFFFFF, 0x0, false, none, false, .none⟩,
  ⟨SWD_TEMP, 1, 4, .ro, false, 0x0, 0xFFFFFFFF, 0x0, false, none, false, .none⟩]

def stackRows : List RegRow := stackRows0 ++ stackRows1

/-- The link warden page (R503), without the common header. Part 0. -/
def linkRows0 : List RegRow := [
  ⟨LWD_MSG_TX, 1, 4, .ro, false, 0x0, 0xFFFFFFFF, 0x0, false, none, false, .none⟩,
  ⟨LWD_MSG_RX, 1, 4, .ro, false, 0x0, 0xFFFFFFFF, 0x0, false, none, false, .none⟩,
  ⟨LWD_TS_STATE, 1, 4, .ro, false, 0x0, 0x8000000F, 0x0, false, none, false, .none⟩,
  ⟨LWD_TS_MISMATCH, 1, 4, .rc, false, 0x0, 0xFFFFFFFF, 0x0, false, none, false, .none⟩,
  ⟨LWD_TS_DROP, 1, 4, .rc, false, 0x0, 0xFFFFFFFF, 0x0, false, none, false, .none⟩,
  ⟨LWD_LANE_SEL, 1, 4, .rw, false, 0x0, 0x7, 0x0, false, none, true, .none⟩,
  ⟨LWD_LANE, 1, 4, .ro, false, 0x0, 0x80FFFFFF, 0x0, false, some LWD_LANE_SEL, false, .none⟩,
  ⟨LWD_FEC_CORR_LO, 1, 4, .ro, false, 0x0, 0xFFFFFFFF, 0x0, false, none, false, .low⟩,
  ⟨LWD_FEC_CORR_HI, 1, 4, .ro, false, 0x0, 0xFFFFFFFF, 0x0, false, none, false, .high⟩,
  ⟨LWD_FEC_UNCORR, 1, 4, .rc, false, 0x0, 0xFFFFFFFF, 0x0, false, none, false, .none⟩,
  ⟨LWD_RETRY, 1, 4, .rc, false, 0x0, 0xFFFFFFFF, 0x0, false, none, false, .none⟩,
  ⟨LWD_LINK_STATE, 1, 4, .ro, false, 0x0, 0xFC00FFFF, 0x0, false, none, false, .none⟩,
  ⟨LWD_FAR_GEN, 1, 4, .ro, false, 0x0, 0xFFFFFFFF, 0x0, false, none, false, .none⟩,
  ⟨LWD_GEN_CTRL, 1, 4, .rw, true, 0x1, 0x1, 0x0, true, none, false, .none⟩,
  ⟨LWD_GEN_DROP, 1, 4, .rc, false, 0x0, 0xFFFFFFFF, 0x0, false, none, false, .none⟩,
  ⟨LWD_STALE_REPLY, 1, 4, .rc, false, 0x0, 0xFFFFFFFF, 0x0, false, none, false, .none⟩,
  ⟨LWD_REMOTE_GONE, 1, 4, .rc, false, 0x0, 0xFFFFFFFF, 0x0, false, none, false, .none⟩,
  ⟨LWD_REMOTE_GONE_SELF, 1, 4, .rc, false, 0x0, 0xFFFFFFFF, 0x0, false, none, false, .none⟩,
  ⟨LWD_NOTICE, 1, 4, .ro, false, 0xFFFF0000, 0xFFFFFFFF, 0x0, false, none, false, .none⟩,
  ⟨LWD_ROUTE_SEL, 1, 4, .rw, false, 0x0, 0x3FF, 0x0, false, none, true, .none⟩,
  ⟨LWD_ROUTE_KEY, 1, 4, .ro, false, 0x0, 0xFFFF0FFF, 0x0, false, some LWD_ROUTE_SEL, false, .none⟩,
  ⟨LWD_ROUTE_PORTS, 1, 4, .ro, false, 0xFF, 0x8000FFFF, 0x0, false, some LWD_ROUTE_SEL, false, .none⟩,
  ⟨LWD_FAR_SERIAL_LO, 1, 4, .ro, false, 0x0, 0xFFFFFFFF, 0x0, false, none, false, .low⟩,
  ⟨LWD_FAR_SERIAL_HI, 1, 4, .ro, false, 0x0, 0xFFFFFFFF, 0x0, false, none, false, .high⟩]

/-- The link warden page (R503), without the common header. Part 1. -/
def linkRows1 : List RegRow := [
  ⟨LWD_FAR_ID, 1, 4, .ro, false, 0x0, 0xFFFFFFFF, 0x0, false, none, false, .none⟩,
  ⟨LWD_POLICY, 1, 4, .ro, false, 0x0, 0xC0FF0007, 0x0, false, none, false, .none⟩,
  ⟨LWD_SLICE, 16, 4, .ro, false, 0x0, 0xF000FFFF, 0x0, false, none, false, .none⟩,
  ⟨LWD_SLICE_DROP, 1, 4, .rc, false, 0x0, 0xFFFFFFFF, 0x0, false, none, false, .none⟩,
  ⟨LWD_EGRESS_DROP, 1, 4, .rc, false, 0x0, 0xFFFFFFFF, 0x0, false, none, false, .none⟩,
  ⟨LWD_REMOTE_WRITE_DROP, 1, 4, .rc, false, 0x0, 0xFFFFFFFF, 0x0, false, none, false, .none⟩,
  ⟨LWD_NOTICE_DUP, 1, 4, .rc, false, 0x0, 0xFFFFFFFF, 0x0, false, none, false, .none⟩]

def linkRows : List RegRow := linkRows0 ++ linkRows1

/-- The die warden page with the router block (R505), without the common header. Part 0. -/
def dieRows0 : List RegRow := [
  ⟨DWD_SNS, 4, 4, .ro, false, 0x0, 0x8000FFFF, 0x0, false, none, false, .none⟩,
  ⟨DWD_RATIO, 1, 4, .ro, false, 0x1010, 0x1F1F, 0x0, false, none, false, .none⟩,
  ⟨DWD_TRIP, 1, 4, .ro, false, 0x0, 0x80FFFFFF, 0x0, false, none, false, .none⟩,
  ⟨DWD_DROOP, 1, 4, .rc, false, 0x0, 0xFFFFFFFF, 0x0, false, none, false, .none⟩,
  ⟨DWD_SUPPLY, 1, 4, .ro, false, 0x0, 0xFFFFFFFF, 0x0, false, none, false, .none⟩,
  ⟨DWD_DOMAIN_SEL, 1, 4, .rw, false, 0x0, 0x3, 0x0, false, none, true, .none⟩,
  ⟨DWD_DOMAIN, 1, 4, .ro, false, 0x0, 0xFF80FFFF, 0x0, false, some DWD_DOMAIN_SEL, false, .none⟩,
  ⟨DWD_DOMAIN_GEN, 1, 4, .ro, false, 0x0, 0xFF, 0x0, false, some DWD_DOMAIN_SEL, false, .none⟩,
  ⟨DWD_QUENCH, 1, 4, .ro, false, 0x0, 0x1, 0x0, false, none, false, .none⟩,
  ⟨DWD_ISLAND, 1, 4, .ro, false, 0x0, 0xFFFFFFFF, 0x0, false, none, false, .none⟩,
  ⟨DWD_SELFTEST, 1, 4, .ro, false, 0x0, 0xC01FFFFF, 0x0, false, none, false, .none⟩,
  ⟨DWD_POWER_FAIL, 1, 4, .ro, false, 0x0, 0xFFFF, 0x0, false, none, false, .none⟩,
  ⟨BLW_ID, 1, 4, .ro, false, 0x0, 0xF8F000FF, 0x0, false, none, false, .none⟩,
  ⟨BLW_AGENTS, 1, 4, .ro, false, 0x0, 0xFFFFFFFF, 0x0, false, none, false, .none⟩,
  ⟨BLW_PORT_SEL, 1, 4, .rw, false, 0x0, 0x3, 0x0, false, none, true, .none⟩,
  ⟨BLW_PORT, 1, 4, .ro, false, 0x1F000000, 0xFF00FFFF, 0x0, false, some BLW_PORT_SEL, false, .none⟩,
  ⟨BLW_PORT_FLITERR, 1, 4, .rc, false, 0x0, 0xFFFFFFFF, 0x0, false, some BLW_PORT_SEL, false, .none⟩,
  ⟨BLW_PORT_SINK, 1, 4, .rc, false, 0x0, 0xFFFFFFFF, 0x0, false, some BLW_PORT_SEL, false, .none⟩,
  ⟨BLW_PORT_TIES, 1, 4, .rc, false, 0x0, 0xFFFFFFFF, 0x0, false, some BLW_PORT_SEL, false, .none⟩,
  ⟨BLW_PORT_MSGS_LO, 1, 4, .ro, false, 0x0, 0xFFFFFFFF, 0x0, false, some BLW_PORT_SEL, false, .low⟩,
  ⟨BLW_PORT_MSGS_HI, 1, 4, .ro, false, 0x0, 0xFFFFFFFF, 0x0, false, some BLW_PORT_SEL, false, .high⟩,
  ⟨BLW_DEAD_CLEAR, 1, 4, .wo, true, 0x0, 0xF, 0x0, false, none, false, .none⟩,
  ⟨BLW_ROUTE_ALT, 1, 4, .rc, false, 0x0, 0xFFFFFFFF, 0x0, false, none, false, .none⟩,
  ⟨BLW_RSP_TIMEOUT, 1, 4, .rw, true, 0x8, 0x7F, 0x0, false, none, false, .none⟩]

/-- The die warden page with the router block (R505), without the common header. Part 1. -/
def dieRows1 : List RegRow := [
  ⟨BLW_PORT_ERR_THRESH, 1, 4, .rw, true, 0x10, 0xFFFF, 0x0, false, none, false, .none⟩,
  ⟨BLW_HEARTH_RETRY, 1, 4, .rc, false, 0x0, 0xFFFFFFFF, 0x0, false, none, false, .none⟩,
  ⟨BLW_HEARTH_ABANDON, 1, 4, .rc, false, 0x0, 0xFFFFFFFF, 0x0, false, none, false, .none⟩,
  ⟨BLW_HEARTH_REPORTQ, 1, 4, .ro, false, 0x0, 0x1FF, 0x0, false, none, false, .none⟩]

def dieRows : List RegRow := dieRows0 ++ dieRows1


end Sys2Proof.Machine
end

