-- ==== Sys2Proof/Machine/State.lean ====
section
/-! DEFINITION. The state of the block as plain data, and the state at reset. Registers of the BAR that stand for
themselves live in one sparse register file (`regs`), keyed by BAR offset plus 2^24 times the selected item; what a path
has its own copy of lives in `paths`. Everything else has a field of its own. -/
namespace Sys2Proof.Machine

/-- A table by number: pairs with strictly rising keys. -/
abbrev Tab (α : Type) := List (Nat × α)

/-- A record kept in two copies, each good one with its write sequence (R294, R357). -/
structure Copies (α : Type) where
  c0 : Option (Word × α) := none
  c1 : Option (Word × α) := none
deriving DecidableEq, Repr

/-- Assembly grades (R4). -/
inductive Grade | d | w | f
deriving DecidableEq, Repr

/-- Fuses and OTP (R4, R5, R299, R492, R518). -/
structure Fused where
  grade : Grade
  l112 : Bool
  serial : Word64
  mac : BitVec 48
  keyHash : List (BitVec 384)
  keyProgrammed : BitVec 4
  keyRevoked : BitVec 4
  secver : Nat
deriving DecidableEq, Repr

/-- The Hearth core as the sequencer sees it (R28, R30). -/
inductive Run | off | running | restarting | halted
deriving DecidableEq, Repr

/-- Sequencer: watchdog, restart history, held writes (R479) and the commands that wait for a restart (R29, R411). -/
structure Sequencer where
  run : Run
  restarts : Nat
  haltSecond : Bool
  prevExpiry : Option Nat
  lastRestart : Option Nat
  lastBeat : Nat
  wdogMs : Nat
  held : List (Acc × Word)
  waiting : List Instr
deriving DecidableEq, Repr

/-- Time base, operating-time base, trace-clock origin and grid points (R27, R353, R385, R77). -/
structure TimeBase where
  tb : Nat
  opBase : Nat
  refclk : Bool
  losses : Nat
  origin : Option Nat
  alignPt : Nat
  alignAt : Option Nat
deriving DecidableEq, Repr

/-- Hard lines per clock domain, bit d for domain d of R486: drive, fault latches, arming, stop instants (R71 to R77), and
the grid point of the last release of each domain that a start since stage 3 has released (R75). -/
structure HardLines where
  stop : BitVec 41
  kill : BitVec 41
  thrt : BitVec 41
  trip : BitVec 41
  tripLatch : Bool
  fault : BitVec 41
  mismatch : Tab Nat
  wrong : Tab Nat
  armed : BitVec 41
  instants : Tab (Nat × Nat)
  released : Tab Nat
deriving DecidableEq, Repr

/-- Rails, power domains, pins (R40, R512) and the PCI Express link (R410, R516). `pfWarn` says that a power-fail warning stands (R343);
the pin PF_WARN_N also reads asserted without main input good (HRT_PF_STATUS, log 58). -/
structure Power where
  standby : Bool
  mainGood : Bool
  mainWaited : Bool
  islands : BitVec 25
  domOn : BitVec 41
  domGood : BitVec 41
  locked : BitVec 41
  gridOk : BitVec 41
  readyForMain : Bool
  okToRemove : Bool
  trayPc : Bool
  attnLow : Bool
  pfWarn : Bool
  perstSeen : Bool
  pcieTrained : Bool
  d3 : Bool
  sgmii : Bool
deriving DecidableEq, Repr

/-- One event record (R350); `time` is the whole 64-bit stamp field. -/
structure Record where
  code : Word
  cycles : Nat
  flags : BitVec 8
  time : Word64
  seq : Word
  data : List Byte
deriving DecidableEq, Repr

/-- The MRAM header (R357). -/
structure MramHdr where
  writeIx : Nat
  lastSeq : Word
  opTime : Nat
  cycles : Nat
  eraseStore : Option Word
  eraseSealed : Option Word
  eraseAt : Option Nat
  trayTimes : List Nat
deriving DecidableEq, Repr

/-- Kinds of flush (R362). -/
inductive FlushKind | background | forced | powerFail
deriving DecidableEq, Repr

/-- A running flush: the records dirty at its start, oldest first, each with whether it is also sealed (R359), and whether it is the repeat of R364. -/
structure Flush where
  kind : FlushKind
  recs : List (Record × Bool)
  again : Bool
deriving DecidableEq, Repr

/-- A freeze in force (R366): its start, the limit it started with, and what it has dropped. -/
structure Freeze where
  since : Nat
  limit : Nat
  dropped : Nat
  fatal : Nat
deriving DecidableEq, Repr

/-- The recorder (R350 to R369). A dirty or held record is marked where it is one of the power-on pass (R359). `ring` by RAM slot, `store` by store-ring slot, `sealedReg` by section * 128 + slot. `hdr` is the header as the
recorder holds it, `hdrs` its two copies in the MRAM. -/
structure Recorder where
  ring : Tab Record
  store : Tab Record
  sealedReg : Tab Record
  hdr : MramHdr
  hdrs : Copies MramHdr
  seq : Word
  flushSeq : Word
  cycles : Nat
  dirty : List (Record × Bool)
  flush : Option Flush
  asked : Option FlushKind
  lastFlush : Nat
  lastHeader : Nat
  hold : List (Record × Bool)
  throttled : Bool
  throttleDrops : Nat
  freeze : Option Freeze
  failed : Bool
  overrun : Nat
  pfLock : Bool
  erase : Option (Bool × Bool)
  erasePending : Option (Bool × Bool)
  passOpen : Bool
  sealedDone : Bool
  sealedCount : Nat
  diverted : Nat
deriving DecidableEq, Repr

/-- The MSI-X structures (R489): table words by vector * 4 + word (`ctrl` words are 1, masked, at reset), pending bits and the
function mask. -/
structure Msix where
  table : Tab Word
  pba : BitVec 16
  fnMask : Bool
  d3Held : BitVec 16
deriving DecidableEq, Repr

/-- A host notice (R421). -/
structure Notice where
  seq : Word
  kind : Nat
  ctx : CtxIx
  mark : Nat
  step : Word
  code : Word
  cmdSeq : Word
  ordinal : Nat
  logical : Nat
  p : Nat
  s : Nat
  s2 : Nat
  outcome : Nat
  lastCommitted : Word
  fnGen : Nat
  cons : List Byte
deriving DecidableEq, Repr

/-- Status values of responses (R420). -/
inductive Status
  | ok | badSeq | overflow | badOpcode | badOperand | denied | deniedWorld | busy | halted | notReady | abandoned | noHandle
  | overlap | badLength | noSpare | badTile | noWatchpoint | tooLate | badRegion | badMode | tooHot | faulty | notOpen
  | refused | quiesceTimeout | txnFull
deriving DecidableEq, Repr

/-- A command whose answer comes at completion: its header and opcode. -/
structure Pend where
  h : Hdr
  opcode : Nat
deriving DecidableEq, Repr

/-- Command and notice intake beyond its registers (R411 to R424). -/
structure HostIf where
  unanswered : List Pend
  noticeSeq : Word
  heldNotices : List Notice
  lostEpisode : Nat
  lastDenied : Option Nat
  lastMalformed : Option Nat
  epoch : Nat
deriving DecidableEq, Repr

/-- Colea function states (R430, R431), and which world enabled the function last (R383). -/
inductive FnState | off | starting | on | stopping | pendingOn
deriving DecidableEq, Repr

structure Fn where
  st : FnState
  gen : Nat
  world : World
deriving DecidableEq, Repr

/-- A staged transaction item (R435, R436). -/
inductive TxnItem
  | reg (off sel : Nat) (v : Word)
  | region (ix : Fin 64) (e : Option RegionEntry)
  | role (p : PortIx) (r : PortRole)
  | route (ix : Fin 1024) (r : Option Route)
  | slice (p : PortIx) (ix : Fin 16) (e : Option Slice)
  | sparing (r : SpareReq) (t : TileIx)
deriving DecidableEq, Repr

/-- A running commit that waits for its boundary stop (R438). -/
structure Commit where
  step : Bool
  who : Option Pend
deriving DecidableEq, Repr

/-- One world's transaction (R434); `applying` while its bank is being applied (R439). -/
structure Txn where
  isOpen : Bool
  ident : Nat
  items : List TxnItem
  openedAt : Nat
  excluded : Nat
  lastStep : Bool
  commit : Option Commit
  commitAt : Nat
  applying : Bool := false
deriving DecidableEq, Repr

/-- Package states (R24). -/
inductive PkgState | safe | readyLocal | ready
deriving DecidableEq, Repr

/-- A whole event as the Hearth or the sequencer writes it: class, unit type, unit index, code, and the data items of R352,
each already in its bytes. -/
structure Event where
  cls : Nat
  ut : Nat
  ix : Nat
  code : Nat
  items : List (List Byte)
deriving DecidableEq, Repr

/-- The event bodies of R471. -/
inductive EvBody
  | record (r : Record)
  | notice (n : Notice)
  | epoch (e : Word)
  | jobFailed (tag : BitVec 16) (step : Word) (cause : Nat) (code : Word) (scope : Nat) (coords : Word) (st : PkgState)
  | fence (n : FenceNotice) (sent : Bool)
  | state (st : PkgState) (stage : Nat)
deriving DecidableEq, Repr

/-- An EVENT subscriber (R471): its mask by kind, and the events that wait for an acknowledgement, with their sends. -/
structure Sub where
  addr : Nat
  port : Nat
  mask : Word
  next : Word
  queue : List (Word × EvBody × Nat)
  losing : Bool
deriving DecidableEq, Repr

/-- What a message on Bellows carries from the Hearth or an answer carries back (R55, R57). -/
inductive Bell
  | censusProbe
  | levelSet (level timeout : Nat)
  | fence (t : TileIx) (reason : Nat)
  | unfence (t : TileIx)
  | kill (c : CtxIx)
  | seed (c : CtxIx) (seed : Word64) (r : Nat)
  | latch (c : CtxIx) (step : Word)
  | spill (e : Edge) (n : Nat)
  | snapshotRead
  | bist (t : TileIx) (runs : Nat)
  | broadcast (gen : BitVec 16) (ofd : Ofd)
  | regRead (off path : Nat)
  | blockRead (off count : Nat)
  | regWrite (off path : Nat) (v : Word)
  | answer (status : Nat) (data : List Word)
  | command (word : Nat)
  | report (r : Rep) (level part : Nat) (operands : List Nat)
deriving DecidableEq, Repr

/-- What leaves the block, newest first in `State.out`: responses and notices, with the writes to host memory that carry them, MSI-X messages, read data, CMP
answers and events, in-band interrupts, I3C data, Bellows messages, and what link wardens and trace writers send. -/
inductive Out
  | response (seq : Word) (opcode : Nat) (st : Status) (epoch : Nat) (detail : Word) (data : List Word)
  | notice (n : Notice)
  | hostWrite (addr : Nat) (bytes : List Byte)
  | msix (v : Nat)
  | read (path : Path) (off : Nat) (v : Word)
  | cmpReply (m : CmpHdr) (st : Status) (body : List Word)
  | cmpRecords (m : CmpHdr) (rs : List Record)
  | cmpEvent (sub : Nat) (seq : Word) (e : EvBody)
  | ibi (mandatory : Nat) (payload : Word)
  | i3c (data : List Byte)
  | bellows (src dst : AgentIx) (b : Bell)
  | again (src dst : AgentIx) (b : Bell) (alternate : Bool)
  | forward (die : DieIx) (port : RPort) (alternate aborted : Bool)
  | deliver (a : AgentIx) (aborted : Bool)
  | fenceNotice (p : PortIx) (n : FenceNotice)
  | identity (p : PortIx) (block : Identity)
  | delivered (p : PortIx) (f : Frame)
  | sent (p : PortIx) (f : Frame)
  | trace (part : PartIx) (writer block : Nat) (body : List Word)
  | dump (part : PartIx) (wp : Nat) (address : Bool) (ctx : CtxIx) (step : Word) (gen : Byte) (status bytes : Nat)
  | segment (part : PartIx) (wp addr : Nat) (seq : Word) (logical : Nat) (attempt : Bool) (data : List Byte)
  | hostCopy (buffer offset length : Nat)
  | digest (group : Word) (member : Nat) (version : Word) (keySet status : Nat) (ofd : Ofd) (count : Nat)
  | slagReply (code bytes : Nat)
  | slagFlit (p : PortIx) (code : Nat)
  | credit (ctx : CtxIx) (queue : Nat) (producer : LogIx) (n : Nat)
  | reply (dom : Nat) (ctx : CtxIx)
  | chunk (tile : Option TileIx) (c : FwChunk)
deriving DecidableEq, Repr

/-- I3C target (R518 to R520): dynamic address, pointer, the shared holding register, and the interrupts not yet accepted with
their attempts. -/
structure I3c where
  addr : Option (Fin 128)
  pointer : Nat
  hold : Word
  ibiOn : Bool
  pend : List (Nat × Word × Nat)
deriving DecidableEq, Repr

/-- Journal states (R203). -/
inductive JState | issued | running | complete | committed
deriving DecidableEq, Repr

/-- Journal roles (R202). -/
inductive JRole | primary | shadow | arbiter | anvil
deriving DecidableEq, Repr

/-- A journal entry (R202), with what the warden knows of the command besides (`cmd`), the passes judged so far, whether a
check has failed in the execution at hand, whether the duty of its role has ended, the tile that a shadow or arbiter entry
serves, the accumulator set of the execution (R169), the cause of the check that failed in it, the order of acceptance, the number of
the execution that is a re-execution under R98, and the tile first fenced, where a re-placement reissued the command. -/
structure JEntry where
  cmd : Cmd
  state : JState := .issued
  held : Bool := false
  wrote : Bool := false
  execs : Nat := 0
  role : JRole := .primary
  outcome : Nat := 0
  origin : Nat := 255
  ordinal : Nat := 0
  passes : Nat := 0
  judged : List Nat := []
  issueTime : Nat := 0
  startC : Nat × Nat × Nat := (0, 0, 0)
  endC : Nat × Nat × Nat := (0, 0, 0)
  startF : List Nat := []
  bytes : List Nat := [0, 0, 0, 0]
  ofd : Ofd := ⟨0, 0⟩
  residue : Nat := 0
  sampled : Bool := false
  cmpWait : Bool := false
  consWait : Bool := false
  full : Bool := false
  dutyDone : Bool := false
  primary : Option TileIx := none
  set : Bool := false
  cause : Option Cause := none
  serial : Nat := 0
  rerunAt : Option Nat := none
  reissuedFor : Option TileIx := none
deriving DecidableEq, Repr

/-- A capture slot of a shadow tile (R130): the primary and command it serves, and the digest of the capture as it arrived. -/
structure Capture where
  primary : TileIx
  ctx : CtxIx
  seq : Word
  hold : Bool
  abandoned : Bool := false
  ofd : Ofd := ⟨0, 0⟩
deriving DecidableEq, Repr

/-- Pool roles of TWD_SHD_STATUS (R153). -/
inductive PoolRole | logical | idle | shadow | arbiter | selfTest | out
deriving DecidableEq, Repr

/-- A conservation entry (R108, R500): key, step and the four counts; `key = none` is the aggregate. -/
structure ConsEntry where
  parity : Bool
  ctx : CtxIx
  key : Option ConsKey
  place : Placement
  step : Word
  d : Nat := 0
  x : Nat := 0
  v : Nat := 0
  t : Nat := 0
deriving DecidableEq, Repr

/-- A dataflow queue at its consumer's warden (R207, R228, R231, R236): the position next expected, marked positions accepted,
entries held, those spilled, and those served from the spill region to commands that have not committed yet, each with its position, epoch and
whether its stream must drain. -/
structure Queue where
  accepted : List Nat := []
  depth : Nat := 0
  tokens : List (Nat × Nat × Bool) := []
  spilled : List (Nat × Nat × Bool) := []
  served : List (Nat × Nat × Bool) := []
deriving DecidableEq, Repr

/-- An accumulator, a bank, a latched copy or a combined digest (R161, R171): two lanes, unit count, flags as SWD_OFD_FLAGS. -/
structure Bank where
  l0 : Nat := 0
  l1 : Nat := 0
  count : Nat := 0
  flags : Nat := 0
deriving DecidableEq, Repr

/-- A tile warden's state besides its registers. `pushed` counts the entries accepted; `reloading` is a spare's command gate between steps 2
and 5 of a re-placement, `heldTokens` is the data traffic held at a closed gate (R198, R208); `detectAt` is the instant of the detection that
its report names (R199); `slag` lists the SRAM words that bear the marker (R214); `copies` are the
commands whose start copies are not read out yet, oldest first (R129), `retryOwed` the cycles that writes have waited on them, still to be counted
as check retry (R127); `consOver` are the keys of the open steps that found the bank full (R110); `fw` holds the firmware chunks accepted, by index (R311). -/
structure Tile where
  jnl : Tab JEntry := []
  jhead : Nat := 63
  gate : List Cmd := []
  gateClosed : Bool := false
  retry : Option (Word × Cause) := none
  failedTwice : Option Nat := none
  inj : Option (Nat × Nat × Nat) := none
  sinceInj : Nat := 0
  role : PoolRole := .out
  slots : List (Option Capture) := [none, none]
  sampler : Tab (Word64 × Nat) := []
  cons : List ConsEntry := []
  queues : Tab Queue := []
  epoch : Nat := 0
  draining : Option (Nat × Word) := none
  fwGen : BitVec 16 := 0
  fwOfd : Ofd := ⟨0, 0⟩
  fwExpected : Ofd := ⟨0, 0⟩
  fw : Tab (List Byte) := []
  wdogCount : Nat := 0
  tbDiscard : Nat := 0
  copies : List Word := []
  handing : Bool := false
  ofdSet : Bool := false
  accs : List Bank := [{}, {}, {}, {}, {}, {}, {}, {}]
  reexecAbandoned : Nat := 0
  pushed : Nat := 0
  reloading : Bool := false
  heldTokens : List Token := []
  detectAt : Option Nat := none
  slag : List Nat := []
  waits : Tab Nat := []
  retryOwed : Nat := 0
  consOver : List (Bool × ConsKey × Placement) := []
deriving DecidableEq, Repr

/-- Tile states of the floor plan (R191). -/
inductive TState | good | spare | defect | fenced
deriving DecidableEq, Repr

/-- A floor plan entry (R190, R220); `watch` is the operating time at which the watch ends (R120). -/
structure Fp where
  st : TState := .defect
  watch : Option Nat := none
  retired : Bool := false
  reason : Nat := 0
deriving DecidableEq, Repr

/-- A fence that a re-placement follows (R208): the failed tile, its logical number, the cause record still to be written, the
spare the verdict prefers (R201 item 1), the detection instant, the spare once chosen, the tile first fenced, and the tokens to resend at
step 4 from their producers' store, by queue (R206). -/
structure Repl where
  failed : TileIx
  logical : LogIx
  cause : Option Event
  prefer : Option TileIx
  detect : Nat
  spare : Option TileIx := none
  first : TileIx
  resend : List (Nat × List (Nat × Nat × Bool)) := []
deriving DecidableEq, Repr

/-- Floor plan, sparing map and re-placements (R190 to R212). -/
structure Plan where
  fp : Tab Fp := []
  map : Tab TileIx := []
  epoch : Word := 0
  updating : Bool := false
  waiting : List Repl := []
  slots : List (Option Repl) := [none, none]
  recorded : Copies (Tab TileIx × List TileIx) := {}
  writeQ : List (Tab TileIx × List TileIx) := []
  rewriteDue : Bool := false
  writes : Nat := 0
  retries : Nat := 0
  writing : Bool := false
  fencing : Tab (Option Event × Nat × Option TileIx × Nat) := []
  losses : Tab Word := []
deriving DecidableEq, Repr

/-- A later disagreement of the same primary, taken into its pending arbitration (R145). -/
structure Joined where
  s : TileIx
  ctx : CtxIx
  step : Word
  seq : Word
  ordinal : Nat
  held : Bool
  idempotent : Bool
deriving DecidableEq, Repr

/-- A disagreement and its arbitration (R140 to R146); `also` holds the disagreements that joined it. -/
structure Arb where
  p : TileIx
  s : TileIx
  ctx : CtxIx
  step : Word
  seq : Word
  ordinal : Nat
  logical : Nat
  held : Bool
  idempotent : Bool
  s2 : Option TileIx := none
  resent : Bool := false
  also : List Joined := []
  itemsP : CmpItems
  itemsS : CmpItems
deriving DecidableEq, Repr

/-- Comparison items that wait for their counterpart (R133). -/
structure HalfCmp where
  tile : TileIx
  primary : TileIx
  role : DigestRole
  items : CmpItems
deriving DecidableEq, Repr

/-- A notice that waits until the fence of the command's primary is confirmed: outcome, step mark and code (R137). -/
structure Owed where
  a : Arb
  outcome : Nat
  mark : Nat
  code : Word
deriving DecidableEq, Repr

/-- Shadow pool: assignments by context * 128 + logical tile, ordinals by context * 128 + logical tile, comparisons,
arbitrations, and notices owed. -/
structure Shadow where
  assign : Tab TileIx := []
  ordinals : Tab Nat := []
  halves : List HalfCmp := []
  running : List (Option Arb) := [none, none]
  waiting : List Arb := []
  spares : Nat := 0
  cap : Nat := 0
  owed : List Owed := []
deriving DecidableEq, Repr

/-- Per-context state (R122, R126, R148, R242): assignment, descriptor, sampling, measures of the last 64 steps, faults,
step marks, last committed sequence per logical tile, the kill in progress, and the
epoch, swallowed cycles and spills at its last barrier (R184). -/
structure Ctx where
  used : Bool := false
  desc : CtxDesc := ⟨0, 0, 0, false, false, false, 262144, [], [], []⟩
  step : Word := 0
  first : Bool := false
  seed : Word64 := 0
  r : Nat := 0
  rPrev : Nat := 0
  rOld : Nat := 0
  missed : Nat := 0
  candidates : Nat := 0
  eligible : Nat := 0
  compared : Nat := 0
  window : List (Nat × Nat) := []
  faulted : Bool := false
  marks : List (Word × Nat) := []
  lastCommit : Tab Word := []
  commits : Nat := 0
  killing : Option (List AgentIx × Option Pend) := none
  watchHold : Bool := false
  held : List (LogIx × Cmd) := []
  quarantine : Option Nat := none
  lastCommitAt : Nat := 0
  driftEpoch : Word := 0
  driftSwallow : Tab Nat := []
  driftSpills : Nat := 0
deriving DecidableEq, Repr

/-- A report in a warden's report queue (R29, R62): never sent, sent and unanswered with its retransmissions, or waiting for
its next sending after an abandonment. -/
inductive Sending | unsent | sent (tries : Nat) | again
deriving DecidableEq, Repr

structure QRep where
  rep : Rep
  seq : Nat
  state : Sending := .unsent
  part : Nat := 0
deriving DecidableEq, Repr

/-- The last request of a class that an agent acted on, and the answer it gave (R60). -/
structure LastReq where
  seq : Nat
  status : Nat
  data : List Word
deriving DecidableEq, Repr

/-- A warden or router as a Bellows agent (R29, R60, R78 to R80, R82). `last` is by class number; `unitQ` counts the flits in the
warden-to-unit queue, `unitHeld` is the instant at which a full one began to hold a command back, and `unitWait` the flits of a command that wait for
the port to open. -/
structure Agent where
  present : Bool := false
  failed : Bool := false
  excluded : Bool := false
  stepping : Nat := 0
  minLevel : Nat := 1
  maxLevel : Nat := 2
  timeout : Nat := 8
  level : Nat := 0
  probing : Bool := false
  queue : List QRep := []
  nextSeq : Nat := 0
  last : Tab LastReq := []
  unitCmd : Option Nat := none
  resync : Bool := true
  discard : Nat := 0
  dropsInRestart : Nat := 0
  unitQ : Nat := 0
  unitHeld : Option Nat := none
  unitWait : Nat := 0
deriving DecidableEq, Repr

/-- A message the Hearth has sent and that is unanswered (R59, R62). -/
structure Sent where
  seq : Nat
  bell : Bell
  tries : Nat
  timeout : Nat
deriving DecidableEq, Repr

/-- An entry of the Hearth report queue (R56, R61): where from, the report, its seq, and which part of how many, with the tag. -/
structure HRep where
  src : AgentIx
  rep : Rep
  seq : Nat
  part : Nat := 0
  count : Nat := 1
  tag : Nat := 0
deriving DecidableEq, Repr

/-- The Hearth as a Bellows agent: report queue (R61), last report seq acted on per source, outgoing messages and sequence
numbers by agent * 4 + class, parts of multi-part reports (R56), flit-error counts at the last whole second (R64), level. -/
structure HearthBus where
  queue : List HRep := []
  taken : Tab Nat := []
  out : Tab (List Sent) := []
  seqs : Tab Nat := []
  parts : List (AgentIx × Rep × Nat × List Nat) := []
  fliterr : Tab Nat := []
  level : Nat := 1
deriving DecidableEq, Repr

/-- Where a removal stands (R319, R320): none, waiting for the boundary of a bring-up stage, for the driver, for the cut, for the flush, for the
power-down, removable. -/
inductive Removal | none | boundary | notice | stopping | flushing | powerDown | removable
deriving DecidableEq, Repr

/-- What a repeated start-up test is about (R262): a stack's test, a tile's run, an array test. -/
inductive TestKind | stack | tile | array
deriving DecidableEq, Repr

structure StartRetry where
  kind : TestKind
  unit : Nat
  tries : Nat
deriving DecidableEq, Repr

/-- A firmware broadcast (R310 to R313): its tiles not done, the rounds used, chunks resent, tiles that failed, and the partitions of
the reset it belongs to (none in bring-up). -/
structure Broadcast where
  pending : List TileIx
  first : Nat := 0
  round : Nat := 0
  resent : Nat := 0
  failed : Nat := 0
  reset : Option (BitVec 4) := .none
deriving DecidableEq, Repr

/-- Bring-up (R288 to R325): package state and stages; degraded service and its minima; units excluded; the image selected (slot,
trial, section digests, versions, the key that signed it, the settings read); CMP trust; stage 4 runs to repeat, the expected signatures (R263) and tiles still
good; stage 5 waits and units trained in full; the broadcast and the image in the Hearth's copy region; whether stage 7 waits for a wiring table;
the topology outcome; a removal; whether stage 9 is done. -/
structure BringUp where
  pkg : PkgState := .safe
  stage : Nat := 0
  failed : Bool := false
  failCode : Nat := 0
  chipPass : Bool := false
  passStart : Nat := 0
  degraded : Bool := false
  minStacks : Nat := 0
  minDies : Nat := 0
  fullTest : Bool := false
  excluded : List (Nat × Nat) := []
  slot : Option (Fin 2) := .none
  trial : Bool := false
  digests : Tab (BitVec 384) := []
  settings : List Byte := []
  version : Word := 0
  secver : Nat := 0
  compRev : Nat := 0
  keySlot : Nat := 0
  trust : List (BitVec 384) := []
  mainTimedOut : Bool := false
  good : List TileIx := []
  retries : List StartRetry := []
  sigs : List Word64 := []
  linkWaits : List PortIx := []
  fullUnits : List (Nat × Nat) := []
  trainPending : Bool := false
  trainRetries : Nat := 0
  fwGen : BitVec 16 := 0
  cast : Option Broadcast := .none
  fwCopy : List Byte := []
  kernels : BitVec 12 := 0
  wiringWait : Bool := false
  topo : Nat := 0
  topoOk : Bool := false
  removal : Removal := .none
  complete : Bool := false
deriving DecidableEq, Repr

/-- The NOR directory (R295). -/
structure Directory where
  active : Fin 2
  trial : Fin 3
  autoConfirm : Bool
  armed : Word
deriving DecidableEq, Repr

/-- The saved training settings (R307): package serial, training revision, and the operating time at which each stack's and each
port's entry was written, with the port's lane floors. -/
structure TrainRec where
  serial : Word64
  revision : Word
  hbm : Tab Nat
  links : Tab (Nat × List Nat)
deriving DecidableEq, Repr

/-- The HBM repair log (R268): rows repaired (stack, row, and the bring-up that found it failing, none where service found it), and the bring-ups
that have tested the stacks. -/
structure RepairLog where
  rows : List (Nat × Nat × Option Nat) := []
  passes : Nat := 0
deriving DecidableEq, Repr

/-- The NOR device (R294) besides the sparing record: directory, HBM repair log and training settings in two copies each, and the bytes of the two
image slots by device offset (an unlisted byte is erased, 0xFF). -/
structure Nor where
  dir : Copies Directory := {}
  repairs : Copies RepairLog := {}
  train : Copies TrainRec := {}
  slots : List Host.Cell := []
deriving DecidableEq, Repr

/-- A digest handle (R163): its declaration, whether a release waits for its next step barrier, the step of its last latch once that barrier
has come, and its last four latched digests, newest first (R168). -/
structure Handle where
  d : OfdDecl
  releasing : Bool := false
  last : Option Word := none
  latched : List (Word × Bank) := []
deriving DecidableEq, Repr

/-- The latch of a context's step in progress (R166): stacks still to latch, and per handle the reports not yet taken. -/
structure LatchRun where
  ctx : CtxIx
  step : Word
  left : List StackIx
  due : Tab Nat := []
deriving DecidableEq, Repr

/-- A scrub request (R173, R180): who asked, none for a scrub of the Hearth itself (R142); the expected digest and count of OFD_VERIFY; the
stacks into whose part a write came while it ran, each with the instant. -/
structure Scrub where
  who : Option Pend
  d : OfdDecl
  expected : Option (Ofd × Nat) := none
  disturbed : List (StackIx × Nat) := []
deriving DecidableEq, Repr

/-- A member's digest for a version of a replica group (R179). -/
structure Replica where
  member : Nat
  version : Word
  keySet : Nat
  ofd : Ofd
  count : Nat
  status : Nat
deriving DecidableEq, Repr

/-- A replica group (R178, R179): member coordinates, this member's place, comparison interval, digests received, how many intervals each version
has waited, and this member's copy of the region as its host has registered it, with whether a STEPPED digest is due. -/
structure Group where
  ident : Word
  members : List Word
  self : Nat
  seen : List Replica := []
  waits : List (Word × Nat) := []
  copy : Option ReplicaCopy := none
  due : Bool := false
deriving DecidableEq, Repr

/-- A row of the conservation table (R487): key, step, the counts, whether the check has failed and which equation. -/
structure ConsRow where
  ctx : CtxIx
  key : Option ConsKey
  place : Placement
  step : Word
  d : Nat
  x : Nat
  v : Nat
  t : Nat
  failed : Option Nat
deriving DecidableEq, Repr

/-- Digests (R155 to R189) and the conservation table (R487): handles by number, contexts whose exhaustion has been recorded,
latches in progress, scrub requests with the running one, replica groups, the known answers written to the stacks' pages by key set (R175). -/
structure Digests where
  handles : Tab Handle := []
  exhausted : List CtxIx := []
  latches : List LatchRun := []
  queue : List Scrub := []
  running : Option Scrub := none
  groups : List Group := []
  known : List Ofd := []
  cons : List ConsRow := []
deriving DecidableEq, Repr

/-- A stack warden's accumulators (R161, R166): banks by handle * 2 + parity, latched copies by handle, latch commands whose
writes have not all retired, reports that wait for room in the report queue, and the Slag codes of marked 64-byte lines (R214). -/
structure Stack where
  banks : Tab Bank := []
  copies : Tab Bank := []
  latch : List (CtxIx × Word) := []
  toReport : List Rep := []
  slag : Tab Nat := []
deriving DecidableEq, Repr

/-- A boundary stop (R256): its scope by partition, its mode, who asked and what follows the cut, whether the cut is reached
or STOP was asserted at the timeout. -/
inductive BstopFor | host (p : Pend) | txn (w : World) | removal | quench
deriving DecidableEq, Repr

structure Bstop where
  parts : BitVec 4
  step : Bool
  who : BstopFor
  held : Bool := false
  timedOut : Bool := false
  passed : List CtxIx := []
deriving DecidableEq, Repr

/-- Levels of the ladder that reset units (R238), numbered as HRT_ESC_STATUS has them. -/
inductive Level | partition | computePart | chip
deriving DecidableEq, Repr

/-- Where a reset stands (R244, R250): held under STOP; in KILL until the generation holdoff ends; started, until it completes. -/
inductive Phase | holding | holdoff | aligning
deriving DecidableEq, Repr

/-- A running reset: level, partitions, code of the trigger, phase, decision instant, and the contexts that it kills by the map as it stood
at the decision (R211, R239). -/
structure Reset where
  level : Level
  parts : BitVec 4
  code : Word
  phase : Phase
  since : Nat
  cs : List CtxIx
deriving DecidableEq, Repr

/-- A spill (R231 to R234): by context, queue and consumer, the region's partition, its size and the positions not yet read. -/
structure Spill where
  ctx : CtxIx
  queue : Nat
  consumer : LogIx
  part : PartIx
  kib : Nat
  total : Nat
  left : List Nat
deriving DecidableEq, Repr

/-- An edge of the wait-for graph with its instant of appearance (R228, R229). -/
structure GEdge where
  e : Edge
  since : Nat
deriving DecidableEq, Repr

/-- A snapshot buffer (R251, R252, R397 to R400): its state (0 free, 1 filling, 2 full), number, scope, instants, units NORESP
or reset before read, what was read, and who asked. -/
structure Snap where
  st : Nat := 0
  num : Nat := 0
  scope : SnapScope := .package
  trigger : Word := 0
  t0 : Nat := 0
  t1 : Nat := 0
  epoch : Word := 0
  gen : Byte := 0
  smear : Word := 0
  recSeq : Word := 0
  todo : List AgentIx := []
  noresp : List AgentIx := []
  lost : List AgentIx := []
  read : List (AgentIx × Bool × List Word) := []
  doms : List (Nat × Nat × Nat × Nat × Nat) := []
deriving DecidableEq, Repr

/-- Hangs, knots and escalation (R224 to R259): chip generation and generations by compute domain (R217), the reset running,
last resets by level and partition (R241), the last generation advance (R219), boundary stop, wait-for graph, spills by grant,
spills of a queue in a step (R232), starved cycles already recorded, snapshots with the units not read in the last one, whether TRAY_PC_N follows the flush under way (R248). -/
structure Escalation where
  gen : Byte := 0
  domGen : Tab Byte := []
  lastAdvance : Option Nat := none
  reset : Option Reset := none
  lastPart : Tab Nat := []
  lastCp : Option Nat := none
  lastChip : Option Nat := none
  bstop : Option Bstop := none
  graph : List GEdge := []
  spills : List Spill := []
  spilled : List (CtxIx × Word × Nat × Nat) := []
  starved : List (CtxIx × Word) := []
  snaps : List Snap := [{}, {}]
  snapCount : Nat := 0
  snapMissed : Nat := 0
  trayDue : Bool := false
  progress : Tab Nat := []
deriving DecidableEq, Repr

/-- Why a tile's Anvil kernels run (R280): after a fence; in a suspicion of R142 to R144; after a check failure that allowed no
re-execution (R100); on the operator's TILE_RETURN (R197); for a request of R281, by its number. -/
inductive AnvilWhy
  | fenced | sSuspect (a : Arb) | noArb (a : Arb) | unresolved (a : Arb) | nonidem | ret
  | request (id : Nat)
deriving DecidableEq, Repr

/-- Where a test stands (R272, R279): waiting, handing over, under test, handing back. -/
inductive TPhase | waiting | handOver | testing | handBack
deriving DecidableEq, Repr

/-- A run of kernels waiting or running: tile and reason, the kernels left of this repeat and of each, repeats left, the cover and
the number handed over, masks of what ended how, the first failure. -/
structure AnvilJob where
  tile : TileIx
  why : AnvilWhy
  kernels : List Nat
  all : List Nat
  times : Nat := 1
  cover : Option TileIx := none
  logical : Option LogIx := none
  phase : TPhase := .waiting
  passed : Nat := 0
  failed : Nat := 0
  skipped : Nat := 0
  invalid : Nat := 0
  first : Option (Nat × Ofd) := none
  stopped : Bool := false
  full : Bool := false
deriving DecidableEq, Repr

/-- A request of R281: who waits, its tiles as named, and the runs that are over. -/
structure AnvilReq where
  id : Nat
  who : Pend
  tiles : List TileIx
  done : List AnvilJob := []
deriving DecidableEq, Repr

/-- The slot of sliced BIST (R272): tile, cover, number handed over, phase, the first run where that has failed (R274), and whether a STOP has
met the run (R283). -/
structure BistSlot where
  tile : TileIx
  cover : Option TileIx := none
  logical : Option LogIx := none
  phase : TPhase
  first : Option BistRun := none
  stopped : Bool := false
deriving DecidableEq, Repr

/-- A return test's BIST run (R280, R262): its INVALID results so far, and whether it waits 60 s. -/
structure ReturnTest where
  tile : TileIx
  tries : Nat := 0
  long : Bool := false
  stopped : Bool := false
deriving DecidableEq, Repr

/-- Self-test (R260 to R286): Anvil jobs waiting and in the eight slots, requests, the BIST slot, tiles passed in the rotation and
its start, INVALID slots in a row by die and (from 32 on) by stack, return tests, weak rows, rotation starts and the next row slice by stack
(R275), the repair images that wardens hold (array, rows and columns used) by memory unit (R265), and tiles whose gates are open again. -/
structure SelfTest where
  queue : List AnvilJob := []
  slots : List (Option AnvilJob) := [none, none, none, none, none, none, none, none]
  reqs : List AnvilReq := []
  reqCount : Nat := 0
  bist : Option BistSlot := none
  passed : List TileIx := []
  rotStart : Nat := 0
  envRuns : Tab Nat := []
  returns : List ReturnTest := []
  weak : Tab (List Nat) := []
  rowStart : Tab Nat := []
  slicePos : Tab Nat := []
  images : Tab (List (Nat × Nat × Nat)) := []
  freed : List TileIx := []
deriving DecidableEq, Repr

/-- A unit of the thermal classes (R332): ADVISE and REQUEST set, the grace running, and expired. -/
structure ThermalLevel where
  advise : Bool := false
  request : Bool := false
  grace : Bool := false
  expired : Bool := false
deriving DecidableEq, Repr

/-- A compute region under Temper (R333, R342): thermal and power ratio in sixteenths, whether it is enforced, time below the raise
threshold in ms for each, the thermal units that enforced it. -/
structure Temper where
  thermal : Nat := 16
  power : Nat := 16
  enforced : Bool := false
  sinceRaise : Nat := 0
  sincePower : Nat := 0
  drivers : List Nat := []
deriving DecidableEq, Repr

/-- A PMBus channel (R341): rounds in a row without an answer, whether it is skipped, the last good reading. -/
structure Channel where
  missed : Nat := 0
  skipped : Bool := false
  last : Option PmbRead := .none
deriving DecidableEq, Repr

/-- Thermal and power watch (R326 to R345): last readings by sensor number, failed sensors, levels by unit number, regions, power
grace and enforcement, the last average of the input power and the READ_PIN samples of the next one, channels, Quench (running, done, waiting for a core restart with its unit and reading), stacks
with a TRIP sample to confirm, cycles swallowed by region, the instant of the last power-fail warning. -/
structure Thermal where
  temps : Tab Int := []
  failed : List Nat := []
  levels : Tab ThermalLevel := []
  regions : Tab Temper := []
  powerGrace : Bool := false
  powerOn : Bool := false
  power : Nat := 0
  pins : List Nat := []
  channels : Tab Channel := []
  quenching : Bool := false
  quenched : Bool := false
  quenchWait : Option (ThermalUnit × Int) := .none
  confirming : List StackIx := []
  swallowed : Tab Nat := []
  pfSince : Nat := 0
deriving DecidableEq, Repr

/-- A trace writer in a partition (R386, R387): its open block with the slots used and the trace clock of its BLOCK record, its
buffered records, and the drops that the next LOSS record will count. -/
structure TraceWriter where
  blk : Option (Nat × Nat × Nat) := none
  buf : List (List Word) := []
  lost : Nat := 0
deriving DecidableEq, Repr

/-- A partition's trace region (R386 to R388): the next block, and when losses were last recorded. -/
structure TraceRegion where
  next : Nat := 0
  full : Bool := false
  lastLoss : Option Nat := none
deriving DecidableEq, Repr

/-- A watchpoint (R393 to R396): its status (0 free, 1 armed, 2 capturing, 3 to 7 ended), declaration, bytes in the dump. -/
structure Watch where
  st : Nat := 0
  w : Option WatchDecl := none
  bytes : Nat := 0
  since : Nat := 0
deriving DecidableEq, Repr

/-- Observation (R376 to R407): trace writers by partition * 256 + writer, regions and watchpoints by partition (* 8). -/
structure Observe where
  writers : Tab TraceWriter := []
  regions : Tab TraceRegion := []
  watches : Tab Watch := []
deriving DecidableEq, Repr

/-- Outcomes of the wiring comparison (R451), numbered as HRT_TOPO_PORT has them; 6 is not compared. -/
inductive Wired | agree | absent | wrong | conflict | unexpected | pending | notCompared
deriving DecidableEq, Repr

/-- A link warden's port (R391, R448 to R464): up, the far end's identity block, far end gone, a scope-3 to 6 notice received, the
last notice, the far-end generations, the wiring outcome, tags of foreign frames with the second of their last record, alarms
with their instants, lane floors. -/
structure Port where
  up : Bool := false
  far : Option Identity := none
  gone : Bool := false
  lossExpected : Bool := false
  lastNotice : Option FenceNotice := none
  gens : List Byte := []
  out : Wired := .notCompared
  foreign : Tab Nat := []
  alarms : Tab Nat := []
  floors : List Nat := []
  noPeer : Bool := false
deriving DecidableEq, Repr

/-- A CMP session (R469): number, source, the last message's instant, trust index, features in force (R468), last sequence, and its
answer for repeats (R467). -/
structure Session where
  num : Word
  addr : Nat
  last : Nat
  trust : Nat
  features : Word := 0
  seq : Option Word := none
  answer : Option Out := none
deriving DecidableEq, Repr

/-- An unauthenticated source (R467, R481). -/
structure Source where
  addr : Nat
  last : Nat
  seq : Option Word := none
  answer : Option Out := none
  nonce : Option (List Byte) := none
  features : Option Word := none
deriving DecidableEq, Repr

/-- CMP (R465 to R472) and the wiring table (R450): sessions, sources, when an authentication failure was last recorded, the
table held, parts received of a new one. -/
structure Cmp where
  sessions : List (Option Session) := [none, none, none, none]
  sources : List (Option Source) := [none, none, none, none, none, none, none, none]
  lastFail : Option Nat := none
  table : Option (List WireExp) := none
  parts : Option (Nat × Nat × List (Nat × List WireExp)) := none
deriving DecidableEq, Repr

/-- The whole block. `pending` is the queue of commands that wait, first in first out; `free` counts the free values drawn;
`out` lists what has left the block, newest first (the model's own fields, assumption log 2). -/
structure State where
  regs : Tab Word
  paths : Tab Word
  fused : Fused
  sq : Sequencer
  time : TimeBase
  hl : HardLines
  pw : Power
  recd : Recorder
  msix : Msix
  host : HostIf
  fns : Tab Fn
  txns : Tab Txn
  regions : Tab RegionEntry
  roles : Tab PortRole
  routes : Tab Route
  slices : Tab Slice
  subs : List Sub
  i3c : I3c
  tiles : Tab Tile
  plan : Plan
  shadow : Shadow
  ctxs : Tab Ctx
  agents : Tab Agent
  bus : HearthBus
  bu : BringUp
  ofd : Digests
  hbm : Tab Stack
  esc : Escalation
  test : SelfTest
  thm : Thermal
  obs : Observe
  ports : Tab Port
  cmp : Cmp
  nor : Nor
  free : Nat
  out : List Out
  pending : List Instr
deriving DecidableEq, Repr

/-- There is no fault: no rule of the spec stops the block. One constructor is needed for the type to be inhabited; no command
raises it, so it is safe. -/
inductive Fault
  | none
deriving DecidableEq, Repr

/-- Refusals. `notModelled` is raised by an arm without a meaning only; none is left, so it is safe. -/
inductive Refusal
  | notModelled (mnemonic : String)
deriving DecidableEq, Repr

/-- What a command answers. -/
abbrev Res := Host.Outcome State Fault Refusal

/-- The block before standby power is good (R510, R511): every output inactive, every register at its reset value, nothing in
any memory. The fuses are those of a T9-F/L128, the part of the spec's examples (assumption log 11). -/
def State.reset : State where
  regs := []
  paths := []
  fused := ⟨.f, false, 0, 0, [0, 0, 0, 0], 0, 0, 0⟩
  sq := ⟨.off, 0, false, none, none, 0, 20, [], []⟩
  time := ⟨0, 0, true, 0, none, 0, none⟩
  hl := ⟨0, 0, 0, 0, false, 0, [], [], 0, [], []⟩
  pw := ⟨false, false, false, 0, 0, 0, 0, 0, false, false, false, false, false, false, false, false, false⟩
  recd := ⟨[], [], [], ⟨0, 0, 0, 0, none, none, none, []⟩, ⟨some (0, ⟨0, 0, 0, 0, none, none, none, []⟩), none⟩, 0, 0, 0, [], none, none, 0, 0, [], false, 0, none, false,
    0, false, none, none, false, false, 0, 0⟩
  msix := ⟨[], 0, false, 0⟩
  host := ⟨[], 0, [], 0, none, none, 0⟩
  fns := []
  txns := []
  regions := []
  roles := []
  routes := []
  slices := []
  subs := []
  i3c := ⟨none, 0, 0, false, []⟩
  tiles := []
  plan := {}
  shadow := {}
  ctxs := []
  agents := []
  bus := {}
  bu := {}
  ofd := {}
  hbm := []
  esc := {}
  test := {}
  thm := {}
  obs := {}
  ports := []
  cmp := {}
  nor := {}
  free := 0
  out := []
  pending := []

end Sys2Proof.Machine
end

