-- ==== Sys2Proof/Machine/Ops.lean ====
section
/-! DEFINITION. The named operations over the state: tables, registers, time stamps, MSI-X causes, events to subscribers,
records and flushes, responses, and what every command ends with. -/
namespace Sys2Proof.Machine

/-! ### Tables -/

/-- The entry at `k`. -/
def tget? {α : Type} : Tab α → Nat → Option α
  | [], _ => none
  | (k', v) :: t, k => if k' = k then some v else tget? t k

def tget {α : Type} (t : Tab α) (k : Nat) (d : α) : α := (tget? t k).getD d

/-- Put `v` at `k`, keys kept rising. -/
def tput {α : Type} : Tab α → Nat → α → Tab α
  | [], k, v => [(k, v)]
  | (k', v') :: t, k, v =>
    if k < k' then (k, v) :: (k', v') :: t
    else if k = k' then (k, v) :: t
    else (k', v') :: tput t k v

def tdel {α : Type} (t : Tab α) (k : Nat) : Tab α := t.filter fun e => e.1 != k

def tmod {α : Type} (t : Tab α) (k : Nat) (d : α) (f : α → α) : Tab α := tput t k (f (tget t k d))

/-- Keys rise strictly. -/
def trising {α : Type} : Tab α → Bool
  | [] => true
  | [_] => true
  | (k, _) :: (k', v) :: t => decide (k < k') && trising ((k', v) :: t)

/-- Replace element `i` of a list. -/
def lset {α : Type} (l : List α) (i : Nat) (v : α) : List α := l.set i v

/-! ### Bytes and fields -/

/-- `n` little-endian bytes of `v` (R14). -/
def leBytes : Nat → Nat → List Byte
  | 0, _ => []
  | n + 1, v => BitVec.ofNat 8 v :: leBytes n (v / 256)

/-- Bits [hi:lo] of `v` (R13). -/
def field (v : Nat) (hi lo : Nat) : Nat := v / 2 ^ lo % 2 ^ (hi + 1 - lo)

/-- `v` with bits [hi:lo] replaced by `x`. -/
def withField (v hi lo x : Nat) : Nat :=
  v - field v hi lo * 2 ^ lo + x % 2 ^ (hi + 1 - lo) * 2 ^ lo

/-- Saturating addition in `w` bits (R20). -/
def satAdd (w a b : Nat) : Nat := min (a + b) (2 ^ w - 1)

def bit (b : Bool) (n : Nat) : Nat := if b then 2 ^ n else 0

def gradeNum : Grade → Nat
  | .d => 0
  | .w => 1
  | .f => 2

/-! ### The address map (R477) -/

/-- Kinds of page. -/
inductive PageKind | hearth | seqr | tile | stack | link | die
deriving DecidableEq, Repr

def tileReg (t : TileIx) (off : Nat) : Nat := 0x100000 + 0x1000 * t.val + off
def stackReg (n : StackIx) (off : Nat) : Nat := 0x200000 + 0x1000 * n.val + off
def linkReg (p : PortIx) (off : Nat) : Nat := 0x280000 + 0x1000 * p.val + off
def dieReg (d : DieIx) (off : Nat) : Nat := 0x300000 + 0x1000 * d.val + off

/-- A register behind a selector: item `i` of the register at `off`. -/
def itemKey (off i : Nat) : Nat := off + i * 0x1000000

/-- The page of a BAR offset below the windows: kind, page index, offset within the page. -/
def pageOf (off : Nat) : Option (PageKind × Nat × Nat) :=
  if off < 0x10000 then some (.hearth, 0, off)
  else if off < 0x100000 then none
  else if off < 0x190000 then some (.tile, (off - 0x100000) / 0x1000, off % 0x1000)
  else if off < 0x200000 then none
  else if off < 0x218000 then some (.stack, (off - 0x200000) / 0x1000, off % 0x1000)
  else if off < 0x280000 then none
  else if off < 0x2B0000 then some (.link, (off - 0x280000) / 0x1000, off % 0x1000)
  else if off < 0x300000 then none
  else if off < 0x319000 then some (.die, (off - 0x300000) / 0x1000, off % 0x1000)
  else if off < 0x800000 then none
  else if off < 0x801000 then some (.seqr, 0, off)
  else none

/-- The common header of every warden page (R498). -/
def headerRows : List RegRow := tileRows.filter fun r => r.off < 0x28

def rowsOf : PageKind → List RegRow
  | .hearth => hearthRows
  | .seqr => seqRows
  | .tile => tileRows
  | .stack => headerRows ++ stackRows
  | .link => headerRows ++ linkRows
  | .die => headerRows ++ dieRows

def findRow (rows : List RegRow) (o : Nat) : Option RegRow :=
  rows.find? fun r => decide (r.off ≤ o) && decide (o < r.off + r.count * r.stride) && (o - r.off) % r.stride == 0

/-- The catalogue row of a BAR offset, with the offset of its page. -/
def rowAt (off : Nat) : Option (RegRow × Nat) :=
  match pageOf off with
  | none => none
  | some (k, _, o) => (findRow (rowsOf k) o).map fun r => (r, off - o)

/-- What a key reads as when nothing is listed at it: the reset value of the register (R483, R497), HRT_THM_LIMITS by class
(R330), and the keys of set 0 (R160). -/
def regDefault (key : Nat) : Word :=
  let off := key % 0x1000000
  let i := key / 0x1000000
  if off = HRT_THM_LIMITS then
    (if i = 1 then 0x67625A55 else if i = 2 then 0x706B645F else if i = 3 then 0x6C665F5A else 0x6E68615C)
  else if off = HRT_OFD_KEY_LO then (if i % 2 = 0 then 0x4E564152 else 0x414C5439)
  else if off = HRT_OFD_KEY_HI then (if i % 2 = 0 then 0x4C415245 else 0x54554944)
  else match rowAt off with
    | some (r, _) => r.reset
    | none => 0

/-- The register at a key. -/
def State.reg (s : State) (key : Nat) : Word := (tget? s.regs key).getD (regDefault key)

/-- Write a register: a value equal to the default is not listed. -/
def State.setReg (s : State) (key : Nat) (v : Word) : State :=
  { s with regs := if v = regDefault key then tdel s.regs key else tput s.regs key v }

def State.setNat (s : State) (key v : Nat) : State := s.setReg key (BitVec.ofNat 32 v)

/-- Field [hi:lo] of a register. -/
def State.fld (s : State) (key hi lo : Nat) : Nat := field (s.reg key).toNat hi lo

def State.setFld (s : State) (key hi lo x : Nat) : State := s.setNat key (withField (s.reg key).toNat hi lo x)

/-- Saturating 32-bit count (R20). -/
def State.bump (s : State) (key : Nat) (n : Nat := 1) : State := s.setNat key (satAdd 32 (s.reg key).toNat n)

/-- Saturating count in a field. -/
def State.bumpFld (s : State) (key hi lo : Nat) (n : Nat := 1) : State :=
  s.setFld key hi lo (satAdd (hi + 1 - lo) (s.fld key hi lo) n)

/-- A 64-bit register of `hiBits + 32` bits that lies at two keys. -/
def State.reg64 (s : State) (lo hi : Nat) : Nat := (s.reg lo).toNat + (s.reg hi).toNat * 2 ^ 32

def State.set64 (s : State) (lo hi v : Nat) : State := (s.setNat lo v).setNat hi (v / 2 ^ 32)

/-- Advance a 64-bit counter of `w` bits, which wraps (R20). -/
def State.add64 (s : State) (lo hi n : Nat) (w : Nat := 64) : State := s.set64 lo hi ((s.reg64 lo hi + n) % 2 ^ w)

/-- The copy that a path has of a selector, a holding register or a latched value (R481, R496). -/
def pathIx : Path → Nat
  | .host => 0
  | .core => 1
  | .cmp k => 2 + k.val

def pathKey (p : Path) (off : Nat) : Nat := off + pathIx p * 0x1000000

def State.own (s : State) (p : Path) (off : Nat) : Word := (tget? s.paths (pathKey p off)).getD 0

def State.setOwn (s : State) (p : Path) (off : Nat) (v : Word) : State :=
  { s with paths := tput s.paths (pathKey p off) v }

/-! ### Parts of the state by number -/

def State.tile (s : State) (t : TileIx) : Tile := tget s.tiles t.val {}
def State.setTile (s : State) (t : TileIx) (x : Tile) : State := { s with tiles := tput s.tiles t.val x }
def State.modTile (s : State) (t : TileIx) (f : Tile → Tile) : State := s.setTile t (f (s.tile t))

def State.ctx (s : State) (c : CtxIx) : Ctx := tget s.ctxs c.val {}
def State.setCtx (s : State) (c : CtxIx) (x : Ctx) : State := { s with ctxs := tput s.ctxs c.val x }
def State.modCtx (s : State) (c : CtxIx) (f : Ctx → Ctx) : State := s.setCtx c (f (s.ctx c))

def State.fpOf (s : State) (t : TileIx) : Fp := tget s.plan.fp t.val {}
def State.setFp (s : State) (t : TileIx) (x : Fp) : State :=
  { s with plan := { s.plan with fp := tput s.plan.fp t.val x } }
def State.modFp (s : State) (t : TileIx) (f : Fp → Fp) : State := s.setFp t (f (s.fpOf t))

def agentKey (a : AgentIx) : Nat := a.die.val * 32 + a.agent.val
def State.agent (s : State) (a : AgentIx) : Agent := tget s.agents (agentKey a) {}
def State.setAgent (s : State) (a : AgentIx) (x : Agent) : State := { s with agents := tput s.agents (agentKey a) x }
def State.modAgent (s : State) (a : AgentIx) (f : Agent → Agent) : State := s.setAgent a (f (s.agent a))

def State.port (s : State) (p : PortIx) : Port := tget s.ports p.val {}
def State.setPort (s : State) (p : PortIx) (x : Port) : State := { s with ports := tput s.ports p.val x }
def State.modPort (s : State) (p : PortIx) (f : Port → Port) : State := s.setPort p (f (s.port p))

def State.stack (s : State) (n : StackIx) : Stack := tget s.hbm n.val {}
def State.setStack (s : State) (n : StackIx) (x : Stack) : State := { s with hbm := tput s.hbm n.val x }
def State.modStack (s : State) (n : StackIx) (f : Stack → Stack) : State := s.setStack n (f (s.stack n))

/-- A Colea function by id (R430): OFF with generation 0 until it is first started. -/
def State.fn (s : State) (f : Nat) : Fn := tget s.fns f ⟨.off, 0, .secure⟩
def State.modFn (s : State) (f : Nat) (g : Fn → Fn) : State := { s with fns := tput s.fns f (g (s.fn f)) }

def State.modPlan (s : State) (f : Plan → Plan) : State := { s with plan := f s.plan }
def State.modRec (s : State) (f : Recorder → Recorder) : State := { s with recd := f s.recd }
def State.modShadow (s : State) (f : Shadow → Shadow) : State := { s with shadow := f s.shadow }
def State.modBu (s : State) (f : BringUp → BringUp) : State := { s with bu := f s.bu }
def State.modPw (s : State) (f : Power → Power) : State := { s with pw := f s.pw }
def State.modHl (s : State) (f : HardLines → HardLines) : State := { s with hl := f s.hl }
def State.modSq (s : State) (f : Sequencer → Sequencer) : State := { s with sq := f s.sq }
def State.modHost (s : State) (f : HostIf → HostIf) : State := { s with host := f s.host }

def State.emitOut (s : State) (o : Out) : State := { s with out := o :: s.out }

/-- Apply `f` for each element, first to last. -/
def State.each {α : Type} (s : State) (l : List α) (f : State → α → State) : State := l.foldl f s

def State.when (s : State) (b : Bool) (f : State → State) : State := if b then f s else s

/-! ### Host access (R40, R42) -/

/-- The PCI Express port and its bridge lie in the anchor main domain, which comes up at stage 3: with its power gone or its link not trained
no access of the host arrives (R40, R42). -/
def State.hostUp (s : State) : Bool := s.pw.domOn.getLsbD 40 && s.pw.pcieTrained

/-- An access on a path arrives: with standby power, and on the host path with the port up. -/
def State.pathUp (s : State) (p : Path) : Bool := s.pw.standby && (p != .host || s.hostUp)

/-! ### Time (R353) -/

/-- Operating time in units of 1/1024 s. -/
def State.opTime (s : State) : Nat := s.time.opBase + s.time.tb * 1024 / 10 ^ 9

/-- Sub-tick of 1/65536 of 1/1024 s. -/
def State.subTick (s : State) : Nat := s.time.tb * 1024 % 10 ^ 9 * 65536 / 10 ^ 9

/-- An event limited to one per second is due. -/
def State.secondPassed (s : State) (last : Option Nat) : Bool := last.all fun t => decide (t + 10 ^ 9 ≤ s.time.tb)

def State.stamp (s : State) : Word64 := BitVec.ofNat 64 (s.opTime * 2 ^ 20 + s.subTick * 2 ^ 4)

/-! ### MSI-X (R424, R489) -/

/-- Vectors masked in their table entry or by the function mask. -/
def State.vecMask (s : State) : BitVec 16 :=
  if s.msix.fnMask then 0xFFFF
  else BitVec.ofNat 16 (((List.range 16).map fun v => bit ((tget s.msix.table (v * 4 + 3) 1).getLsbD 0) v).sum)

def State.causes (s : State) : BitVec 16 := (s.reg HRT_IRQ_CAUSE).setWidth 16

/-- A cause of vector `v`: a message goes out when the cause bit rises unmasked. -/
def State.irq (s : State) (v : Nat) : State :=
  if s.causes.getLsbD v then s
  else
    let s1 := s.setReg HRT_IRQ_CAUSE (s.reg HRT_IRQ_CAUSE ||| BitVec.ofNat 32 (2 ^ v))
    if (s.reg HRT_IRQ_MASK).getLsbD v then s1
    else if s.pw.d3 then { s1 with msix := { s1.msix with d3Held := s1.msix.d3Held ||| BitVec.ofNat 16 (2 ^ v) } }
    else if s.vecMask.getLsbD v then { s1 with msix := { s1.msix with pba := s1.msix.pba ||| BitVec.ofNat 16 (2 ^ v) } }
    else s1.emitOut (.msix v)

def vectorsIn (b : BitVec 16) : List Nat := (List.range 16).filter fun v => b.getLsbD v

/-- The signals that follow the state of the moment: a pending bit falls with its cause, a pending message goes out once its
vector is unmasked (R489), and TRAY_PC_N is held while the TRIP latch stands (R339, R514). Every command ends with it. -/
def settle (s : State) : State :=
  let pend := s.msix.pba &&& s.causes
  let go := if s.pw.d3 then 0#16 else pend &&& ~~~ s.vecMask
  { s with
    msix := { s.msix with pba := pend &&& ~~~ go, d3Held := s.msix.d3Held &&& s.causes }
    pw := { s.pw with trayPc := s.pw.trayPc || s.hl.tripLatch }
    out := (vectorsIn go).map .msix ++ s.out }

/-- A command's outcome: the next state, settled. -/
def done (s : State) : Res := .next (settle s)

/-! ### Events to subscribers and in-band interrupts (R471, R520) -/

def EvBody.kind : EvBody → Nat
  | .record _ => 0
  | .notice _ => 1
  | .epoch _ => 2
  | .jobFailed .. => 3
  | .fence .. => 4
  | .state .. => 5

/-- One subscriber takes an event, or drops it when 256 wait. Answers whether an episode of losses begins. -/
def Sub.push (u : Sub) (b : EvBody) : Sub × Bool × Bool :=
  if u.mask.getLsbD b.kind = false then (u, false, false)
  else if u.queue.length < 256 then
    ({ u with queue := u.queue ++ [(u.next, b, 1)], next := u.next + 1, losing := false }, false, false)
  else ({ u with losing := true }, true, !u.losing)

/-- Send an event to every subscriber; the answer names those for which CMP_EVENT_LOST is due. -/
def State.pushEvent (s : State) (b : EvBody) : State × List Nat :=
  let rs : List (Sub × Bool × Bool) := s.subs.map fun u => u.push b
  let lost := (rs.filter fun r => r.2.1).length
  let outs := (s.subs.zipIdx.filter fun (e : Sub × Nat) => (e.1.push b).2.1 == false && e.1.mask.getLsbD b.kind).map
    fun e => Out.cmpEvent e.2 e.1.next b
  let s1 := { s with subs := rs.map Prod.fst, out := outs ++ s.out }
  (s1.bumpFld HRT_CMP_EVENTQ 31 16 lost, (rs.zipIdx.filter fun r => r.1.2.2).map Prod.snd)

/-- Raise an in-band interrupt when ENEC has enabled them; it waits until it is accepted. -/
def State.ibi (s : State) (m : Nat) (payload : Word) : State :=
  if s.i3c.ibiOn then
    { s with i3c := { s.i3c with pend := s.i3c.pend ++ [(m, payload, 0)] }, out := .ibi m payload :: s.out }
  else s

/-! ### Records (R350 to R366, R524) -/

def codeOf (cls ut ix code : Nat) : Word := BitVec.ofNat 32 (cls * 2 ^ 28 + ut * 2 ^ 24 + ix * 2 ^ 16 + code)

def Event.word (e : Event) : Word := codeOf e.cls e.ut e.ix e.code

/-- Items packed in order up to 30 bytes; true when some did not fit (R351, R352). -/
def packItems : List (List Byte) → Nat → List Byte × Bool
  | [], _ => ([], false)
  | i :: r, room =>
    if i.length ≤ room then
      let x := packItems r (room - i.length)
      (i ++ x.1, x.2)
    else ([], true)

/-- Ten data bytes, zero-filled. -/
def pad10 (l : List Byte) : List Byte := l ++ List.replicate (10 - l.length) 0

/-- The data of the records of an event, ten bytes each, and the truncated flag. -/
def Event.chunks (e : Event) : List (List Byte) × Bool :=
  let p := packItems e.items 30
  let d := p.1
  ((if d.length ≤ 10 then [pad10 d]
    else if d.length ≤ 20 then [d.take 10, pad10 (d.drop 10)]
    else [d.take 10, (d.drop 10).take 10, pad10 (d.drop 20)]), p.2)

/-- The records of an event: flags continued, continuation, truncated, sequencer, held (R351). -/
def Event.records (e : Event) (s : State) (sq held : Bool) : List Record :=
  let c := e.chunks
  c.1.zipIdx.map fun x =>
    ⟨e.word, s.recd.cycles,
     BitVec.ofNat 8 (bit (x.2 + 1 < c.1.length) 0 + bit (0 < x.2) 1 + bit c.2 2 + bit sq 3 + bit held 4),
     s.stamp, s.recd.seq + BitVec.ofNat 32 (x.2 + 1), x.1⟩

def ringSlot (q : Word) : Nat := q.toNat % 32768

/-- One record enters the RAM ring and is dirty, marked where it is one of the power-on pass (R359); over a record that was never flushed it counts in REC_OVERRUN (R364). -/
def State.ringPut (s : State) (r : Record × Bool) : State :=
  let k := ringSlot r.1.seq
  let lost := s.recd.dirty.any fun d => ringSlot d.1.seq == k
  let s1 := s.modRec fun c => { c with
    ring := tput c.ring k r.1
    dirty := (c.dirty.filter fun d => ringSlot d.1.seq != k) ++ [r]
    overrun := if lost then c.overrun + 1 else c.overrun }
  if lost then s1.bump REC_OVERRUN else s1

/-- Ask for a flush: it starts at once, or follows the one that runs; a background flush is not asked twice (R362). -/
def State.askFlush (s : State) (k : FlushKind) : State :=
  if s.recd.pfLock then s
  else match s.recd.flush with
  | some _ => if k = .background then s else
      s.modRec fun c => { c with asked := if c.asked = some .powerFail then c.asked else some k }
  | none => s.modRec fun c => { c with flush := some ⟨k, c.dirty, false⟩ }

/-- Announce a record of the notice class or above: vector 5, CMP EVENT, in-band interrupt (R361, R520). -/
def State.announce (s : State) (cls : Nat) (rs : List Record) : State × List Nat :=
  if s.fld REC_NOTIFY 2 0 ≤ cls then
    rs.foldl (fun a r =>
      let x := ((a.1.irq 5).ibi 1 r.code).pushEvent (.record r)
      (x.1, a.2 ++ x.2)) (s, [])
  else (s, [])

/-- The class by which a record is announced: those of the replicas go to the host and over CMP at once, whatever the notice class (R179). -/
def Event.noticeClass (e : Event) : Nat := if 0x0304 ≤ e.code ∧ e.code ≤ 0x0306 then 7 else e.cls

/-- Write, hold or drop the records of one event together (R363 to R366, R524), then announce them, and force a flush from
class 3 (R362). -/
def State.emitCore (s : State) (e : Event) (sq : Bool) : State × List Nat :=
  let n := e.chunks.1.length
  let full := decide (1024 < s.recd.dirty.length + n) && !s.recd.failed
  let limit := (s.recd.throttled && !s.recd.failed) || full
  let fatal := decide (5 ≤ e.cls)
  let room := decide (s.recd.hold.length + n ≤ 16)
  let finish := fun (s1 : State) (rs : List Record) =>
    let x := s1.announce e.noticeClass rs
    (if 3 ≤ e.cls then x.1.askFlush .forced else x.1, x.2)
  let hold := fun (s0 : State) =>
    if room then
      let rs := e.records s0 sq true
      finish (s0.modRec fun c => { c with hold := c.hold ++ rs.map fun r => (r, c.passOpen), seq := c.seq + BitVec.ofNat 32 n }) rs
    else (s0.bumpFld REC_HOLD 15 0 n, [])
  match s.recd.freeze with
  | some f =>
    if fatal then
      hold (if room then s else s.modRec fun c => { c with freeze := some { f with fatal := f.fatal + n } })
    else
      ((s.modRec fun c => { c with freeze := some { f with dropped := f.dropped + n } }).bump REC_FREEZE_DROP n, [])
  | none =>
    if limit then
      let s0 := s.modRec fun c => { c with throttled := true }
      if fatal then hold s0
      else ((s0.modRec fun c => { c with throttleDrops := c.throttleDrops + n }).bump REC_THROTTLE_DROP n, [])
    else
      let rs := e.records s sq false
      let s1 := (rs.map fun r => (r, s.recd.passOpen)).foldl State.ringPut (s.modRec fun c => { c with seq := c.seq + BitVec.ofNat 32 n })
      let s2 := s1.modRec fun c => { c with throttled := c.throttled || (decide (1024 ≤ c.dirty.length) && !c.failed) }
      finish s2 rs

/-- CMP_EVENT_LOST, once per episode (R471). -/
def eventLost (sub : Nat) : Event := ⟨0, 6, sub, 0x0C09, []⟩

/-- CMP_EVENT_LOST of each subscriber whose episode of losses begins (R471). -/
def State.lostEvents (s : State) (l : List Nat) : State := l.foldl (fun s n => (s.emitCore (eventLost n) false).1) s

/-- Record an event, its records not traced. -/
def State.emitBase (s : State) (e : Event) (sq : Bool) : State :=
  let x := s.emitCore e sq
  x.1.lostEvents x.2

/-- The next free value is another one. -/
def State.drawn (s : State) : State := { s with free := s.free + 1 }

/-! ### Trace (R382 to R389) -/

/-- The trace function is ON. -/
def State.traceOn (s : State) : Bool := (s.fn 1).st == .on

/-- The trace clock: nanoseconds since the ALIGN point of stage 3 (R385). -/
def State.clock (s : State) : Nat := (s.time.tb - s.time.origin.getD s.time.tb) % 2 ^ 48

/-- A source of OBS_TRACE_CFG is selected, for a context within the mask (R384). -/
def State.traceSrc (s : State) (src : Nat) (ctx : Option CtxIx) : Bool :=
  let cfg := s.reg OBS_TRACE_CFG
  s.traceOn && cfg.getLsbD src && ctx.all fun c => cfg.getLsbD c.val

/-- A partition whose region size is 0 is not traced (R383). -/
def State.traced (s : State) (p : Nat) : Bool := s.fld (itemKey OBS_TRACE_SIZE p) 14 0 != 0

/-- Trace writers: tile wardens by page index, then link wardens, then the Hearth. -/
def tileWriter (t : TileIx) : Nat := t.val
def linkWriter (p : PortIx) : Nat := 144 + p.val
def hearthWriter : Nat := 192

def word4 (a b c d : Nat) : Word := BitVec.ofNat 32 (a % 256 + b % 256 * 2 ^ 8 + c % 256 * 2 ^ 16 + d % 256 * 2 ^ 24)

/-- Unit type and index of a writer, as BLOCK and LOSS records carry them. -/
def writerUnit (w : Nat) : Nat × Nat := if w < 144 then (1, w) else if w < 192 then (3, w - 144) else (0, 0)

def State.writer (s : State) (p w : Nat) : TraceWriter := tget s.obs.writers (p * 256 + w) {}
def State.setWriter (s : State) (p w : Nat) (x : TraceWriter) : State :=
  { s with obs := { s.obs with writers := tput s.obs.writers (p * 256 + w) x } }

/-- Records lost in a partition (R387): counted, TRACE_LOSS at most once per second, vector 12. -/
def State.traceLost (s : State) (p w n : Nat) : State :=
  let s1 := s.add64 (itemKey OBS_TRACE_LOST_LO p) (itemKey OBS_TRACE_LOST_HI p) n
  let s2 := if w < 144 then s1.bump (0x100000 + 0x1000 * w + TWD_TRACE_DROP) n
    else if w < 192 then s1.bump (0x280000 + 0x1000 * (w - 144) + LWD_TS_DROP) n else s1
  let r := tget s.obs.regions p {}
  if s.secondPassed r.lastLoss then
    ({ s2 with obs := { s2.obs with regions := tput s2.obs.regions p { r with lastLoss := some s.time.tb } } }.emitBase
      ⟨0, 0, p, 0x0A02, [leBytes 4 p, leBytes 4 n]⟩ false).irq 12
  else s2

/-- A writer's records wait: STOP stands at its own domain, or at the memory (R403). -/
def State.writerHeld (s : State) (w : Nat) : Bool :=
  (s.hl.stop &&& 0xFF0000 != 0) || s.hl.stop.getLsbD (if w < 144 then w / 9 else if w < 192 then 24 + (w - 144) / 3 else 40)

/-- A writer's buffered records go into its open block, which closes once its 256 slots are used (R386); under STOP they wait (R403). -/
def State.traceDrain (s : State) (p w : Nat) : State :=
  let x := s.writer p w
  match if s.writerHeld w then none else x.blk with
  | none => s
  | some (b, used, c) =>
    let n := min x.buf.length (256 - used)
    let outs := (x.buf.take n).map fun r => Out.trace (Fin.ofNat 4 p) w b r
    { s.setWriter p w { x with blk := if used + n < 256 then some (b, used + n, c) else none, buf := x.buf.drop n } with
      out := outs.reverse ++ s.out }

/-- A trace record: buffered, dropped when 512 are, preceded by a LOSS record after drops (R387). -/
def State.traceRec (s : State) (p w : Nat) (r : List Word) : State :=
  if !s.traced p then s
  else
    let x := s.writer p w
    let u := writerUnit w
    let loss : List (List Word) := if x.lost = 0 then [] else
      [[word4 3 u.1 u.2 0, BitVec.ofNat 32 x.lost, BitVec.ofNat 32 s.clock, 0]]
    if x.buf.length + loss.length < 512 then (s.setWriter p w { x with buf := x.buf ++ loss ++ [r], lost := 0 }).traceDrain p w
    else (s.setWriter p w { x with lost := x.lost + 1 }).traceLost p w 1

/-- EVENT records, one for each recorder record of class 1 or higher (R384), in the lowest traced partition. -/
def State.traceEvent (s : State) (e : Event) (q0 : Word) : State :=
  if s.traceSrc 16 none && decide (1 ≤ e.cls) then
    match (List.range 4).find? s.traced with
    | some p => (List.range (s.recd.seq - q0).toNat).foldl (fun s i =>
        s.traceRec p hearthWriter [0x50, e.word, q0 + BitVec.ofNat 32 (i + 1), BitVec.ofNat 32 s.clock]) s
    | none => s
  else s

/-- The error count of a tile: events of class 1 or higher whose unit is its warden (R376). -/
def State.countError (s : State) (e : Event) : State :=
  if 1 ≤ e.cls ∧ e.ut = 1 then
    s.add64 (0x100000 + 0x1000 * e.ix + TWD_LC_ERR_LO) (0x100000 + 0x1000 * e.ix + TWD_LC_ERR_HI) 1 48
  else s

/-- Record an event of the firmware. -/
def State.emit (s : State) (e : Event) : State :=
  let x := (s.countError e).emitCore e false
  (x.1.traceEvent e s.recd.seq).lostEvents x.2

/-- Record an event of the sequencer (flag 3 of R351). -/
def State.emitSq (s : State) (e : Event) : State :=
  let x := (s.countError e).emitCore e true
  (x.1.traceEvent e s.recd.seq).lostEvents x.2

/-- An event for subscribers that is no record. -/
def State.event (s : State) (b : EvBody) : State :=
  let x := s.pushEvent b
  x.1.lostEvents x.2

/-- The record just written ends the power-on pass (R359). -/
def State.endPass (s : State) : State := s.modRec fun c => { c with passOpen := false }

/-- Held records enter the ring in sequence order, before any newer record (R365). -/
def State.releaseHold (s : State) : State :=
  let rs := s.recd.hold
  rs.foldl State.ringPut (s.modRec fun c => { c with hold := [] })

/-- A throttle is over once fewer than 512 records are dirty, or the limit no longer applies (R363, R364). -/
def Recorder.throttleOver (c : Recorder) : Bool := c.throttled && (decide (c.dirty.length < 512) || c.failed)

/-- REC_THROTTLED, with what the throttle has dropped. -/
def throttledEvent (drops : Nat) : Event := ⟨0, 0, 0, 0x0902, [leBytes 4 drops]⟩

/-- The throttle ends, outside a freeze: held records first, then REC_THROTTLED (R363, R364). -/
def State.endThrottle (s : State) : State :=
  let c := s.recd
  if c.throttleOver && c.freeze.isNone then
    ((s.modRec fun c => { c with throttled := false, throttleDrops := 0 }).releaseHold).emit (throttledEvent c.throttleDrops)
  else s

/-- End of a freeze (R366): held records first, then REC_FREEZE_LOST if anything was dropped. A throttle that is over, or that stood only for the
freeze, has ended before it, so that it drops none of these, and REC_THROTTLED follows. -/
def State.endFreeze (s : State) : State :=
  match s.recd.freeze with
  | none => s
  | some f =>
    let c := s.recd
    let ended := c.throttleOver
    let s1 := ((s.modRec fun c => { c with
      freeze := none
      throttled := c.throttled && !ended
      throttleDrops := if ended then 0 else c.throttleDrops }).setNat REC_FREEZE 0).releaseHold
    let s2 := if f.dropped + f.fatal = 0 then s1
      else s1.emit ⟨0, 0, 0, 0x0901, [leBytes 4 f.dropped, leBytes 4 f.fatal, leBytes 4 ((s.time.tb - f.since) / 10 ^ 6)]⟩
    if ended then s2.emit (throttledEvent c.throttleDrops) else s2

/-! ### Data items (R352) -/

def i1 (n : Nat) : List Byte := leBytes 1 n
def i2 (n : Nat) : List Byte := leBytes 2 n
def i4 (n : Nat) : List Byte := leBytes 4 n
def i8 (n : Nat) : List Byte := leBytes 8 n
def iw (w : Word) : List Byte := leBytes 4 w.toNat

/-! ### Package state (R24, R304) and the failure of jobs (R472) -/

/-- Contexts in use, not killed, that carry a job tag. -/
def State.jobCtxs (s : State) : List CtxIx :=
  (List.finRange 16).filter fun c => (s.ctx c).used && !(s.ctx c).faulted && (s.ctx c).desc.jobTag != 0

/-- JOB_FAILED for the tag of a context. -/
def State.jobFailed (s : State) (c : CtxIx) (cause : Nat) (code : Word) (scope : Nat) (coords : Word) : State :=
  let x := s.ctx c
  if x.used && x.desc.jobTag != 0 then s.event (.jobFailed x.desc.jobTag x.step cause code scope coords s.bu.pkg) else s

/-- One JOB_FAILED for each job tag of the contexts named. -/
def State.failJobs (s : State) (cs : List CtxIx) (cause : Nat) (code : Word) (scope : Nat) (coords : Word) : State :=
  let once := cs.foldl (fun (l : List CtxIx) c =>
    if l.any fun d => (s.ctx d).desc.jobTag == (s.ctx c).desc.jobTag then l else l ++ [c]) []
  s.each once fun s c => s.jobFailed c cause code scope coords

/-- An entry that names a job tag (R457). -/
def isJobTag (t : BitVec 16) : Bool := decide (t ≠ 0 ∧ t.toNat ≤ 0xFFFD)

/-- Job tags admitted (R461). -/
def State.admittedTags (s : State) : List (BitVec 16) :=
  (s.slices.map fun e => e.2.tag).foldl (fun l t => if isJobTag t && !l.contains t then l ++ [t] else l) []

/-- The step of a job tag: of a context that carries it, else the one a notice gave (R472). -/
def State.stepOfTag (s : State) (t : BitVec 16) (given : Word) : Word :=
  ((s.jobCtxs.find? fun c => (s.ctx c).desc.jobTag == t).map fun c => (s.ctx c).step).getD given

/-- One JOB_FAILED for each tag named, with the step given where no context here carries the tag. -/
def State.failTags (s : State) (l : List (BitVec 16 × Word)) (cause : Nat) (code : Word) (scope : Nat) (coords : Word) : State :=
  let once := l.foldl (fun (a : List (BitVec 16 × Word)) e => if a.any fun d => d.1 == e.1 then a else a ++ [e]) []
  s.each once fun s e => s.event (.jobFailed e.1 (s.stepOfTag e.1 e.2) cause code scope coords s.bu.pkg)

/-- A tag whose contexts were all killed: their kill has sent its JOB_FAILED. -/
def State.tagKilled (s : State) (t : BitVec 16) : Bool :=
  let cs := (List.finRange 16).filter fun c => (s.ctx c).used && (s.ctx c).desc.jobTag == t
  cs != [] && cs.all fun c => (s.ctx c).faulted

def pkgCode : PkgState → Nat
  | .safe => 0
  | .readyLocal => 1
  | .ready => 2

/-- A change of package state: EVENT kind 5 and in-band interrupt 2; leaving READY fails the admitted tags, at step 0 where no context here
carries one (R472, assumption log 89). -/
def State.setPkg (s : State) (p : PkgState) : State :=
  if s.bu.pkg = p then s
  else
    let was := s.bu.pkg
    let s1 := s.modBu fun b => { b with pkg := p }
    let s2 := (s1.event (.state p s1.bu.stage)).ibi 2 (BitVec.ofNat 32 (pkgCode p * 2 ^ 30 + s1.bu.stage * 2 ^ 22))
    if was = .ready then s2.failTags ((s2.admittedTags.filter fun t => !s2.tagKilled t).map fun t => (t, 0)) 3 0 0 0xFFFFFFFF else s2

/-! ### Refusals for world and privilege (R429) and access errors (R480) -/

def World.num : World → Nat
  | .secure => 0
  | .nonSecure => 1

/-- An access or a command refused for world or privilege: counted, vector 13, recorded at most once per second. -/
def State.denied (s : State) (w : World) : State :=
  let s1 := (s.bump HRT_WORLD_DENIED).irq 13
  if s.secondPassed s.host.lastDenied then (s1.modHost fun h => { h with lastDenied := some s.time.tb }).emit ⟨0, 0, World.num w, 0x0B06, []⟩ else s1

/-- An access error of a kind on a path. -/
def State.accessError (s : State) (p : Path) (kind off : Nat) : State :=
  let pn := match p with
    | .host => 0
    | .core => 1
    | .cmp _ => 2
  let s1 := (s.bump HRT_ACCESS_ERR).setNat HRT_ACCESS_LAST (pn * 2 ^ 30 + kind * 2 ^ 27 + off % 2 ^ 24)
  if p = .host then s1.irq 13 else s1

/-! ### Responses (R416, R420) -/

/-- The value of a status. -/
def Status.num : Status → Nat
  | .ok => 0 | .badSeq => 1 | .overflow => 2 | .badOpcode => 3 | .badOperand => 4 | .denied => 5 | .deniedWorld => 6
  | .busy => 7 | .halted => 8 | .notReady => 9 | .abandoned => 10 | .noHandle => 11 | .overlap => 12 | .badLength => 13
  | .noSpare => 14 | .badTile => 15 | .noWatchpoint => 16 | .tooLate => 17 | .badRegion => 18 | .badMode => 19
  | .tooHot => 20 | .faulty => 21 | .notOpen => 22 | .refused => 23 | .quiesceTimeout => 24 | .txnFull => 25

/-- An answer over CMP: it leaves, and is kept for a repeat of the message (R467). -/
def State.cmpAnswer (s : State) (m : CmpHdr) (o : Out) : State :=
  let ses := fun (y : Session) => if m.session ≠ 0 ∧ y.num = m.session ∧ y.seq = some m.seq then { y with answer := some o } else y
  let src := fun (y : Source) => if m.session = 0 ∧ y.addr = m.addr ∧ y.seq = some m.seq then { y with answer := some o } else y
  { s with
    cmp := { s.cmp with sessions := s.cmp.sessions.map fun x => x.map ses, sources := s.cmp.sources.map fun x => x.map src }
    out := o :: s.out }

/-- A slot or ring entry of 64 bytes in host memory: bytes 0x08 to 0x3F leave first, bytes 0x00 to 0x07 in a later write (R416). -/
def State.writeSlot (s : State) (addr : Nat) (bytes : List Byte) : State :=
  (s.emitOut (.hostWrite (addr + 8) (bytes.drop 8))).emitOut (.hostWrite addr (bytes.take 8))

/-- `n` bytes, zero-filled. -/
def padTo (n : Nat) (l : List Byte) : List Byte := l.take n ++ List.replicate (n - l.length) 0

/-- A response slot (R14, R416): sequence, opcode, status, epoch, detail, data. -/
def responseSlot (seq : Word) (opcode : Nat) (st : Status) (epoch : Nat) (detail : Word) (data : List Word) : List Byte :=
  padTo 64 (iw seq ++ i2 opcode ++ i1 st.num ++ i1 epoch ++ iw detail ++ data.flatMap iw)

/-- Answer a command: in its response slot with vector 0, or over CMP. -/
def State.answer (s : State) (p : Pend) (st : Status) (detail : Word) (data : List Word) : State :=
  match p.h.via with
  | .cmp m => s.cmpAnswer m (.cmpReply m st (detail :: data))
  | .window _ =>
    let s1 := (s.writeSlot (s.reg64 HRT_CMD_RSP_BASE_LO HRT_CMD_RSP_BASE_HI + p.h.seq.toNat % 256 * 64)
      (responseSlot p.h.seq p.opcode st s.host.epoch detail data)).emitOut (.response p.h.seq p.opcode st s.host.epoch detail data)
    if p.h.noMsix then s1 else s1.irq 0

/-- Remember a command whose answer comes at completion, and answer it later. -/
def State.waitAnswer (s : State) (p : Pend) : State := s.modHost fun h => { h with unanswered := h.unanswered ++ [p] }

def State.finish (s : State) (p : Pend) (st : Status) (detail : Word) (data : List Word) : State :=
  if p ∈ s.host.unanswered then
    (s.modHost fun h => { h with unanswered := h.unanswered.erase p }).answer p st detail data
  else s

def Pend.world (p : Pend) : World :=
  match p.h.via with
  | .window _ => .nonSecure
  | .cmp m => if m.auth then .secure else .nonSecure

/-! ### Notices (R421, R422) -/

def noticeBody (n : Notice) (q : Word) : Notice := { n with seq := q }

/-- Ring entries written and not yet consumed. -/
def State.noticeFill (s : State) : Nat := (s.reg HRT_NTC_PROD - s.reg HRT_NTC_CONS).toNat

/-- A notice in the ring (R421); `cons` is what a conservation notice adds. -/
def Notice.bytes (n : Notice) : List Byte :=
  padTo 64 (iw n.seq ++ i1 n.kind ++ i1 n.ctx.val ++ i1 n.mark ++ i1 0 ++ iw n.step ++ iw n.code ++ iw n.cmdSeq ++ i2 n.ordinal ++
    i1 n.logical ++ i1 0 ++ i1 n.p ++ i1 n.s ++ i1 n.s2 ++ i1 n.outcome ++ iw n.lastCommitted ++ i2 n.fnGen ++ n.cons)

def State.ringNotice (s : State) (n : Notice) : State :=
  (((s.writeSlot (s.reg64 HRT_NTC_BASE_LO HRT_NTC_BASE_HI + (s.reg HRT_NTC_PROD).toNat % 256 * 64) n.bytes).emitOut (.notice n)).setReg HRT_NTC_PROD (s.reg HRT_NTC_PROD + 1)).irq 1

/-- A notice takes its sequence, goes over CMP, and enters the ring, the held notices, or is lost. -/
def State.notify (s : State) (n0 : Notice) : State :=
  let n := noticeBody n0 (s.host.noticeSeq + 1)
  let s1 := (s.modHost fun h => { h with noticeSeq := h.noticeSeq + 1 }).event (.notice n)
  if !(s.reg HRT_CMD_CTRL).getLsbD 1 then s1
  else if s1.noticeFill < 256 ∧ s1.host.heldNotices = [] then s1.ringNotice n
  else if s1.host.heldNotices.length < 64 then s1.modHost fun h => { h with heldNotices := h.heldNotices ++ [n] }
  else (s1.modHost fun h => { h with lostEpisode := h.lostEpisode + 1 }).bump HRT_NTC_LOST

/-! ### Free values -/

/-- The number of the next free value, and the state that has drawn it. -/
def State.draw (s : State) : Nat × State := (s.free, { s with free := s.free + 1 })

end Sys2Proof.Machine
end

