-- ==== Sys2Proof/Machine/Operands.lean ====
section
/-! DEFINITION. How operands name things: dies, wardens, clock domains, partitions, what the assembly grade populates, and
which tile holds which logical number (R4, R31, R36, R54, R65, R71, R486). -/
namespace Sys2Proof.Machine

/-- L (R5). -/
def State.logicals (s : State) : Nat := if s.fused.l112 then 112 else 128

/-- I/O dies, stacks, ports and wardens of the grade (R4). -/
def State.ioDies (s : State) : Nat := if s.fused.grade = .d then 8 else 16
def State.stackCount (s : State) : Nat := if s.fused.grade = .w then 16 else 24
def State.portCount (s : State) : Nat := if s.fused.grade = .d then 24 else 48

/-- Index of the anchor die (R31). -/
def State.anchor (s : State) : DieIx := if s.fused.grade = .d then 16 else 24

/-- Stacks per compute die. -/
def State.perDie (s : State) : Nat := if s.fused.grade = .w then 2 else 3

/-- Compute die and position of a tile (R31). -/
def dieOfTile (t : TileIx) : Nat := t.val / 18
def posOfTile (t : TileIx) : Nat := t.val % 18

def dieIx (n : Nat) : DieIx := Fin.ofNat 25 n
def tileIx (n : Nat) : TileIx := Fin.ofNat 144 n

/-- Wardens as Bellows agents (R54). -/
def tileAgent (t : TileIx) : AgentIx := ⟨dieIx (dieOfTile t), Fin.ofNat 32 (posOfTile t)⟩
def State.stackAgent (s : State) (n : StackIx) : AgentIx :=
  ⟨dieIx (n.val / s.perDie), Fin.ofNat 32 (18 + n.val % s.perDie)⟩
def portAgent (p : PortIx) : AgentIx := ⟨dieIx (8 + p.val / 3), Fin.ofNat 32 (p.val % 3)⟩
def dieAgent (d : DieIx) : AgentIx := ⟨d, 30⟩
def routerAgent (d : DieIx) : AgentIx := ⟨d, 31⟩
def State.hearthAgent (s : State) : AgentIx := ⟨s.anchor, 0⟩

/-- Unit type and page index of an agent (R31, R372): tile 1, stack 2, link 3, die 4, Bellows 5, none 0. -/
def State.unitOf (s : State) (a : AgentIx) : Nat × Nat :=
  if a.agent.val = 31 then (5, a.die.val)
  else if a.agent.val = 30 then (4, a.die.val)
  else if a.die.val < 8 then
    (if a.agent.val < 18 then (1, a.die.val * 18 + a.agent.val)
     else if a.agent.val < 18 + s.perDie then (2, a.die.val * s.perDie + (a.agent.val - 18))
     else (0, 0))
  else if a.die = s.anchor then (0, 0)
  else if a.agent.val < 3 ∧ a.die.val < 8 + s.ioDies then (3, (a.die.val - 8) * 3 + a.agent.val)
  else (0, 0)

/-- BAR offset of an agent's page; a router's registers lie in its die warden's page (R505). -/
def State.pageBase (s : State) (a : AgentIx) : Nat :=
  match s.unitOf a with
  | (1, n) => 0x100000 + 0x1000 * n
  | (2, n) => 0x200000 + 0x1000 * n
  | (3, n) => 0x280000 + 0x1000 * n
  | (4, n) => 0x300000 + 0x1000 * n
  | (5, n) => 0x300000 + 0x1000 * n
  | _ => 0

/-- Dies that the grade has, and whether an agent exists on them (R35, R54). -/
def State.dieExists (s : State) (d : DieIx) : Bool :=
  decide (d.val < 8 + s.ioDies) || d == s.anchor

/-- A warden island is powered: the anchor die's lies in the standby domain, the others come up with main power (R40). -/
def State.islandOn (s : State) (d : Nat) : Bool := s.pw.islands.getLsbD d || (d == s.anchor.val && s.pw.standby)

def State.agentExists (s : State) (a : AgentIx) : Bool :=
  s.dieExists a.die && (a.agent == 30 || a.agent == 31 || (s.unitOf a).1 != 0 || (a == s.hearthAgent))

/-- All agents of the grade but the Hearth core. -/
def State.allAgents (s : State) : List AgentIx :=
  ((List.finRange 25).flatMap fun d => (List.finRange 32).map fun k => (⟨d, k⟩ : AgentIx)).filter fun a =>
    s.agentExists a && a != s.hearthAgent

/-- Clock domains (R486). -/
def regionOfTile (t : TileIx) : Nat := 2 * dieOfTile t + (if posOfTile t < 9 then 0 else 1)
def State.domExists (s : State) (d : DomainIx) : Bool :=
  decide (d.val < 24) || decide (d.val < 24 + s.ioDies) || d.val == 40
def State.allDomains (s : State) : BitVec 41 :=
  if s.fused.grade = .d then 0x10000000000 ||| 0xFFFFFFFF else 0x1FFFFFFFFFF
/-- Compute regions. -/
def computeDomains : BitVec 41 := 0xFFFF
/-- Domains that a line reaches (R73). -/
def State.stopReach (s : State) : BitVec 41 := s.allDomains &&& 0xFFFFFFFFFF
def domMask (l : List Nat) : BitVec 41 := l.foldl (fun m d => m ||| BitVec.ofNat 41 (2 ^ d)) 0
/-- Base clock in cycles per grid period (R526); 1,280 for a compute region, as the model's clock configuration (log 10). -/
def cyclesOf (d : DomainIx) : Nat :=
  if d.val < 16 then 1280 else if d.val < 24 then 1024 else if d.val < 40 then 800 else 640
/-- Die of a domain. -/
def State.dieOfDomain (s : State) (d : DomainIx) : DieIx :=
  if d.val < 16 then dieIx (d.val / 2) else if d.val < 24 then dieIx (d.val - 16)
  else if d.val < 40 then dieIx (d.val - 16) else s.anchor

/-- Partition of a compute die, from HRT_PARTITION_MAP (two bits per die, R257). -/
def State.partOfDie (s : State) (k : Nat) : PartIx := Fin.ofNat 4 (s.fld HRT_PARTITION_MAP (2 * k + 1) (2 * k))
def State.partOfTile (s : State) (t : TileIx) : PartIx := s.partOfDie (dieOfTile t)
def State.diesOfPart (s : State) (p : PartIx) : List Nat := (List.range 8).filter fun k => s.partOfDie k == p
def State.tilesOfDies (l : List Nat) : List TileIx := (List.finRange 144).filter fun t => l.contains (dieOfTile t)
def regionsOfDies (l : List Nat) : BitVec 41 := domMask (l.flatMap fun k => [2 * k, 2 * k + 1])
def State.domsOfPart (s : State) (p : PartIx) : BitVec 41 := regionsOfDies (s.diesOfPart p)

/-- The tile that holds a logical number, and the number a tile holds (R190). -/
def State.holder (s : State) (l : LogIx) : Option TileIx := tget? s.plan.map l.val
def State.logicalOf (s : State) (t : TileIx) : Option LogIx :=
  (s.plan.map.find? fun e => e.2 == t).map fun e => Fin.ofNat 128 e.1
def State.logNum (s : State) (t : TileIx) : Nat :=
  match s.logicalOf t with
  | some l => l.val
  | none => 255

def State.tilesIn (s : State) (st : TState) : List TileIx := (List.finRange 144).filter fun t => (s.fpOf t).st == st
/-- Every logical tile L0 to L(L-1) is held (R37). -/
def State.allHeld (s : State) : Bool := (List.range s.logicals).all fun l => (tget? s.plan.map l).isSome

/-- Distance on the compute ring (R65, R201). -/
def ringDist (a b : Nat) : Nat := let d := (a + 8 - b) % 8; min d (8 - d)

/-- Serial-number comparison: `a` is later than `b` (R22). -/
def later (a b : Word) : Bool := let d := (a - b).toNat; decide (1 ≤ d ∧ d < 2 ^ 31)

/-- The copy that the next write overwrites is copy 0: copy 1 is in force, or neither is good (R294). -/
def Copies.zeroNext {α : Type} (c : Copies α) : Bool :=
  match c.c0, c.c1 with
  | some a, some b => later b.1 a.1
  | some _, none => false
  | none, _ => true

/-- The copy in force with its write sequence: the good one, the later of two (R294). -/
def Copies.newest {α : Type} (c : Copies α) : Option (Word × α) := if c.zeroNext then c.c1 else c.c0

def Copies.get {α : Type} (c : Copies α) : Option α := c.newest.map Prod.snd

/-- A write overwrites the other copy, with the next sequence. -/
def Copies.put {α : Type} (c : Copies α) (x : α) : Copies α :=
  let e := some ((c.newest.map Prod.fst).getD 0 + 1, x)
  if c.zeroNext then { c with c0 := e } else { c with c1 := e }

/-- A write that power loss cuts off leaves the other copy bad, and the one in force as it was. -/
def Copies.cut {α : Type} (c : Copies α) : Copies α := if c.zeroNext then { c with c0 := none } else { c with c1 := none }

/-- An open entry (R202). -/
def JEntry.isOpen (e : JEntry) : Bool := e.state != .committed && decide (e.outcome ≤ 3) && !e.dutyDone

/-- An entry into its place by order of acceptance, the newest first. -/
def insertNew (e : Nat × JEntry) : List (Nat × JEntry) → List (Nat × JEntry)
  | [] => [e]
  | f :: r => if f.2.serial ≤ e.2.serial then e :: f :: r else f :: insertNew e r

/-- The journal, newest entry first. -/
def Tile.entries (x : Tile) : List (Nat × JEntry) := x.jnl.foldl (fun l e => insertNew e l) []

/-- The journal entry of a command on a tile. A shadow can serve two primaries whose commands bear one sequence number (R22): of the
open entries the running one counts first, then the oldest that is ISSUED, then the oldest; of closed ones the newest. -/
def Tile.slotOf (x : Tile) (seq : Word) : Option (Nat × JEntry) :=
  let es := x.entries.filter fun e => e.2.cmd.seq == seq
  let os := (es.filter fun e => e.2.isOpen).reverse
  (os.find? fun e => e.2.state == .running) <|> (os.find? fun e => e.2.state == .issued) <|> os.head? <|> es.head?

/-- The newest entry of a shadow or arbiter duty, by the primary and the command that it serves. -/
def Tile.dutyOf (x : Tile) (p : TileIx) (seq : Word) : Option (Nat × JEntry) :=
  x.entries.find? fun e => e.2.cmd.seq == seq && e.2.primary == some p

def Tile.setSlot (x : Tile) (k : Nat) (e : JEntry) : Tile := { x with jnl := tput x.jnl k e }

def Tile.openEntries (x : Tile) : List (Nat × JEntry) := x.jnl.filter fun p => p.2.isOpen

/-- Entries in sequence order (R22). -/
def insertSeq (e : JEntry) : List JEntry → List JEntry
  | [] => [e]
  | f :: r => if later f.cmd.seq e.cmd.seq then e :: f :: r else f :: insertSeq e r

def sortSeq (l : List JEntry) : List JEntry := l.foldl (fun a e => insertSeq e a) []

/-- Modify the journal entry of a command on a tile, if there is one. -/
def State.modEntry (s : State) (t : TileIx) (seq : Word) (f : JEntry → JEntry) : State :=
  match (s.tile t).slotOf seq with
  | some (k, e) => s.modTile t fun x => x.setSlot k (f e)
  | none => s

/-- The partition in whose region the Hearth writes a context's records: the lowest that holds a logical tile with work of the
context (R384). -/
def State.ctxPart (s : State) (c : CtxIx) : Nat :=
  let x := s.ctx c
  ((List.range 4).find? fun p => (List.finRange 144).any fun t => (s.partOfTile t).val == p && (s.logicalOf t).any fun l =>
    (tget? x.lastCommit l.val).isSome || x.desc.unretained.contains l || (x.desc.regions.any fun r => r.lt == l) ||
      (s.tile t).jnl.any fun e => e.2.isOpen && e.2.cmd.ctx == c).getD 0

def causeNum : Cause → Nat
  | .residue => 0
  | .converter => 1
  | .indexParity => 2
  | .operandParity => 3
  | .checker => 4

end Sys2Proof.Machine
end

