-- ==== Sys2Proof/Machine/Flags.lean ====
section
/-! DEFINITION. The computations the spec gives in numbers: residues and syndromes (R84 to R90), the sampler (R124), rates and
horizons (R126, R147), CRCs (R53, R294) and order-free digests (R155 to R162). -/
namespace Sys2Proof.Machine

/-! ### CRC -/

/-- One bit of CRC-16 with polynomial 0x1021, most significant bit first (R53). -/
def crcBit16 (c : BitVec 16) (b : Bool) : BitVec 16 :=
  if c.msb != b then (c <<< 1) ^^^ 0x1021 else c <<< 1

def crc16 (l : List Byte) : BitVec 16 :=
  l.foldl (fun c b => [7, 6, 5, 4, 3, 2, 1, 0].foldl (fun c i => crcBit16 c (b.getLsbD i)) c) 0xFFFF

/-- CRC-32 with the reflected polynomial 0xEDB8_8320 (R294: the Ethernet CRC). -/
def crcBit32 (c : Word) : Word := if c.getLsbD 0 then (c >>> 1) ^^^ 0xEDB88320 else c >>> 1

def crc32 (l : List Byte) : Word :=
  ~~~ (l.foldl (fun c b => [0, 1, 2, 3, 4, 5, 6, 7].foldl (fun c _ => crcBit32 c) (c ^^^ b.setWidth 32)) 0xFFFFFFFF)

/-- Sixteen-bit flits of a number, low flit first (R53). -/
def flits : Nat → Nat → List Nat
  | 0, _ => []
  | n + 1, v => v % 65536 :: flits n (v / 65536)

/-- The HEAD and BODY flits of a message (R53): HEAD, envelope, opcode flit, operands. -/
def msgFlits (dst src : AgentIx) (cls seq op level : Nat) (operands : List Nat) : List Nat :=
  [dst.die.val * 2 ^ 11 + dst.agent.val * 2 ^ 6 + cls * 2 ^ 4 + (operands.length + 2), src.die.val * 2 ^ 11 + src.agent.val * 2 ^ 6 + seq,
    op * 2 ^ 8 + level * 2 ^ 4] ++ operands

/-- The CRC of the TAIL: each flit most significant bit first (R53). -/
def msgCrc (l : List Nat) : BitVec 16 := crc16 (l.flatMap fun f => [BitVec.ofNat 8 (f / 256), BitVec.ofNat 8 f])

/-- The opcode a message bears: its row's, or the unassigned one that it carries. -/
def wireOp (w : Wire) (op : Nat) : Nat := (w.opcode.map BitVec.toNat).getD op

/-- The message came whole: no ABORT ended it, and its CRC is right (R53, R57). -/
def wireIntact (w : Wire) (dst src : AgentIx) (cls seq op : Nat) (operands : List Nat) : Bool :=
  w.tail == some (msgCrc (msgFlits dst src cls seq (wireOp w op) w.level.val operands))

def envSrc (e : Env) : AgentIx := ⟨e.srcDie, e.srcAgent⟩
def envIntact (e : Env) (cls op : Nat) (operands : List Nat) : Bool := wireIntact e.wire e.dst (envSrc e) cls e.seq.val op operands

/-- The message carries an opcode that R55 does not assign: 0x00 or any other. -/
def wireBadOp (w : Wire) : Bool := w.opcode.any fun o => !assignedOps.contains o.toNat

/-- The 32 bytes of a record (R350); `extra` adds flag bits of the copy. -/
def Record.bytes (r : Record) (extra : BitVec 8 := 0) : List Byte :=
  let b := leBytes 4 r.code.toNat ++ leBytes 1 (r.flags ||| extra).toNat ++ leBytes 3 r.cycles ++ leBytes 8 r.time.toNat ++
    leBytes 4 r.seq.toNat ++ r.data
  b ++ leBytes 2 (crc16 b).toNat

/-- Word `w` of a byte list (R14). -/
def wordAt (l : List Byte) (w : Nat) : Word :=
  BitVec.ofNat 32 ((l.getD (4 * w) 0).toNat + (l.getD (4 * w + 1) 0).toNat * 2 ^ 8 + (l.getD (4 * w + 2) 0).toNat * 2 ^ 16 +
    (l.getD (4 * w + 3) 0).toNat * 2 ^ 24)

/-! ### Residue lanes -/

/-- 2^e modulo 8191: a rotation by e mod 13 (R87). -/
def pow2r (e : Int) : Int := 2 ^ (e % 13).toNat

/-- res(x) (R87). -/
def res (x : Int) : Int := x % 8191

def at2 {n : Nat} (m : List (List (BitVec n))) (i j : Nat) : Int := ((m.getD i []).getD j 0).toInt

/-- A mantissa of eight bits, or of the low four, in two's complement (R84). -/
def mant (four : Bool) (m : List (List Byte)) (i j : Nat) : Int :=
  if four then (((m.getD i []).getD j 0).setWidth 4).toInt else at2 m i j

def mantA (p : PassIn) (i k : Nat) : Int := mant p.a4 p.a i k
def mantB (p : PassIn) (k j : Nat) : Int := mant p.b4 p.b k j

def sumTo (n : Nat) (f : Nat → Int) : Int := ((List.range n).map f).sum

/-- The dot product of a block (R85). -/
def blockDot (p : PassIn) (i b j : Nat) : Int := sumTo 32 fun k => mantA p i (32 * b + k) * mantB p (32 * b + k) j

/-- Saturation limit by sign; the 64-bit range (R85). -/
def inRange64 (x : Int) : Bool := decide (-(2 ^ 63) ≤ x ∧ x ≤ 2 ^ 63 - 1)
def clamp64 (x : Int) : Int := if x < -(2 ^ 63) then -(2 ^ 63) else if 2 ^ 63 - 1 < x then 2 ^ 63 - 1 else x

/-- One block added to an accumulator: the engine's value, and whether the term was in range (R85). -/
def addTerm (acc dot sh : Int) : Int × Bool :=
  if sh < 0 then
    let t := dot / 2 ^ (-sh).toNat
    (clamp64 (acc + t), false)
  else if 40 < sh then
    let t := clamp64 (dot * 2 ^ sh.toNat)
    (clamp64 (acc + t), false)
  else
    let x := acc + dot * 2 ^ sh.toNat
    (clamp64 x, inRange64 x)

/-- Blocks along K: one exponent per 32 elements (R84). -/
def passBlocks (p : PassIn) : Nat := (p.b.length + 31) / 32
def passRows (p : PassIn) : Nat := min 128 p.a.length
def passCols (p : PassIn) : Nat := min 96 (p.b.getD 0 []).length

/-- The exact accumulator of element (i, j), from C0, in units of 2^E0, and whether every term was in range. -/
def engine (e0 : Int) (p : PassIn) (i j : Nat) : Int × Bool :=
  (List.range (passBlocks p)).foldl (fun st b =>
    let x := addTerm st.1 (blockDot p i b j) (at2 p.alpha i b + at2 p.beta b j - e0)
    (x.1, st.2 && x.2)) (at2 p.c0 i j, true)

/-- A pass with an out-of-range term is unchecked (R93). -/
def passChecked (e0 : Int) (p : PassIn) : Bool :=
  (List.range (passRows p)).all fun i => (List.range (passCols p)).all fun j => (engine e0 p i j).2

/-- Checksums of the operands (R89). -/
def sumB (p : PassIn) (k : Nat) : Int := sumTo (passCols p) fun j => pow2r (at2 p.beta (k / 32) j) * mantB p k j
def sumA (p : PassIn) (k : Nat) : Int := sumTo (passRows p) fun i => pow2r (at2 p.alpha i (k / 32)) * mantA p i k

/-- What a corrupted checksum path adds to a predicted residue (R91). -/
def skew (l : List (Nat × Int)) (i : Nat) : Int := ((l.filter fun e => e.1 = i).map Prod.snd).sum

def predRow (e0 : Int) (p : PassIn) (i : Nat) : Int :=
  res (pow2r (-e0) * (sumTo p.b.length fun k => pow2r (at2 p.alpha i (k / 32)) * mantA p i k * sumB p k) +
    (sumTo (passCols p) fun j => at2 p.c0 i j) + skew p.skewRow i)

def predCol (e0 : Int) (p : PassIn) (j : Nat) : Int :=
  res (pow2r (-e0) * (sumTo p.b.length fun k => sumA p k * (pow2r (at2 p.beta (k / 32) j) * mantB p k j)) +
    (sumTo (passRows p) fun i => at2 p.c0 i j) + skew p.skewCol j)

def actRow (p : PassIn) (i : Nat) : Int := res (sumTo (passCols p) fun j => at2 p.acc i j)
def actCol (p : PassIn) (j : Nat) : Int := res (sumTo (passRows p) fun i => at2 p.acc i j)

/-- Syndromes: actual minus predicted, modulo 8191 (R90). -/
def syndRow (e0 : Int) (p : PassIn) (i : Nat) : Int := res (actRow p i - predRow e0 p i)
def syndCol (e0 : Int) (p : PassIn) (j : Nat) : Int := res (actCol p j - predCol e0 p j)

def locate (e0 : Int) (p : PassIn) : Location :=
  let rs := (List.range (passRows p)).filter fun i => syndRow e0 p i != 0
  let cs := (List.range (passCols p)).filter fun j => syndCol e0 p j != 0
  let r := rs.headD 0
  let c := cs.headD 0
  let sr := if rs = [] then 0 else (syndRow e0 p r).toNat
  let sc := if cs = [] then 0 else (syndCol e0 p c).toNat
  ⟨rs.length, cs.length, r, c, sr, sc, decide (rs.length = 1 ∧ cs.length = 1 ∧ sr = sc)⟩

/-! ### Order-free digests (R155 to R159) -/

def ofdP : Nat := 2 ^ 61 - 1

/-- Lane-wise sum modulo p (R159). -/
def ofdAdd (a b : Ofd) : Ofd := ⟨(a.lane0 + b.lane0) % ofdP, (a.lane1 + b.lane1) % ofdP⟩

/-! ### Units of a tensor (R156, R157, R165) -/

/-- Unit width in bits (R156, R163). -/
def widthOf (k : Fin 4) : Nat := 4 * 2 ^ k.val

/-- Groups of `n` elements. -/
def groups {α : Type} (n : Nat) : Nat → List α → List (List α)
  | 0, _ => []
  | f + 1, l => if l = [] then [] else l.take n :: groups n f (l.drop n)

/-- The value of a group of bytes, the disabled ones taken as zero (R165). -/
def laneValue (l : List (Byte × Bool)) : Nat := l.foldr (fun e v => v * 256 + (if e.2 then e.1.toNat else 0)) 0

/-- The units of bytes with their enables from byte offset `off` on: each unit that is written at all, with its index behind the region's
first, and whether some unit was written in part. In 4-bit units the low nibble of a byte has the even index. -/
def unitsAt (w off : Nat) (l : List (Byte × Bool)) : List (Nat × Nat) × Bool :=
  if w = 4 then
    ((l.zipIdx.filter fun e => e.1.2).flatMap fun e =>
      [(2 * (off + e.2), e.1.1.toNat % 16), (2 * (off + e.2) + 1, e.1.1.toNat / 16)], false)
  else
    let n := w / 8
    let l1 := List.replicate (off % n) ((0 : Byte), false) ++ l
    let gs := (groups n (l1.length + 1) l1).zipIdx.filter fun g => g.1.any Prod.snd
    (gs.map fun g => (off / n + g.2, laneValue g.1), gs.any fun g => !(g.1.all Prod.snd) || decide (g.1.length < n))

/-- Bytes that are all written. -/
def whole (l : List Byte) : List (Byte × Bool) := l.map fun b => (b, true)

/-! ### The sampler (R124) -/

def mix64 (z0 : Word64) : Word64 :=
  let z1 := (z0 ^^^ (z0 >>> 30)) * 0xBF58476D1CE4E5B9
  let z2 := (z1 ^^^ (z1 >>> 27)) * 0x94D049BB133111EB
  z2 ^^^ (z2 >>> 31)

/-- f_K(i) and the term of a unit (R155). -/
def ofdF (k : Word64) (i : Nat) : Nat := 1 + (mix64 (k ^^^ BitVec.ofNat 64 i)).toNat % (2 ^ 61 - 2)
def ofdTerm (k0 k1 : Word64) (i v : Nat) : Ofd := ⟨ofdF k0 i * (v + 1) % ofdP, ofdF k1 i * (v + 1) % ofdP⟩

/-- The digest of units with their indices behind `base` (R155, R157). -/
def ofdUnits (k0 k1 : Word64) (base : Nat) : List (Nat × Nat) → Ofd
  | [] => ⟨0, 0⟩
  | (i, v) :: r => ofdAdd (ofdTerm k0 k1 (base + i) v) (ofdUnits k0 k1 base r)

/-- A command is a candidate when u < 2^(32 - r). -/
def candidate (seed : Word64) (r : Nat) (step : Word) (lt ord : Nat) : Bool :=
  let w := (step.setWidth 64 <<< 32) ||| BitVec.ofNat 64 (lt * 2 ^ 16) ||| BitVec.ofNat 64 ord
  let u := (mix64 (seed ^^^ w) >>> 32).toNat
  decide (u < 2 ^ (32 - r))

/-! ### Rates (R126) and the horizon (R147, R148) -/

/-- The least k up to `fuel` with num ≤ den * 2^k. -/
def log2Up (num den : Nat) : Nat → Nat → Nat
  | 0, k => k
  | f + 1, k => if num ≤ den * 2 ^ k then k else log2Up num den f (k + 1)

/-- r_cap = ceil(log2(L / (0.75 s))), 13 with no spare. -/
def rateCap (logicals spares : Nat) : Nat := if spares = 0 then 13 else log2Up (4 * logicals) (3 * spares) 13 0

/-- r_adapt of R126: `m = missed / candidates`, `u = busy / (s * time)`. DESIGN CHOICE (assumption log 75): a step with no candidates has
m = 0, and with no spares u does not lie below 0.4; R126 states neither quotient there. -/
def rateAdapt (adapt : Bool) (base prev missed cands busy spares time : Nat) : Nat :=
  if adapt = false then base
  else if cands < 16 * missed then prev + 1
  else if missed = 0 ∧ 10 * busy < 4 * (spares * time) then prev - 1
  else prev

/-- (1 - p)^(n h) is at most 10^-e, p = q / 2^32. -/
def horizonOk (q n e h : Nat) : Bool := decide ((2 ^ 32 - q) ^ (n * h) * 10 ^ e ≤ (2 ^ 32) ^ (n * h))

/-- The least value in (lo, hi] that passes, where hi passes and passing is upward closed; the fuel bounds log2 (hi - lo). -/
def bisect (ok : Nat → Bool) : Nat → Nat → Nat → Nat
  | 0, _, hi => hi
  | f + 1, lo, hi =>
    if hi ≤ lo + 1 then hi
    else if ok ((lo + hi) / 2) then bisect ok f lo ((lo + hi) / 2)
    else bisect ok f ((lo + hi) / 2) hi

/-- The least passing value, bracketed by powers of two; 2^32 - 1 where none below it passes. -/
def leastOk (ok : Nat → Bool) : Nat → Nat → Nat
  | 0, _ => 0xFFFFFFFF
  | f + 1, k => if ok (2 ^ k) then bisect ok (k + 1) (2 ^ k / 2) (2 ^ k) else leastOk ok f (k + 1)

/-- H of R147 for f = 1: the least number of steps h with (1 - p)^(n h) at most 10^-e. -/
def horizon (q n e : Nat) : Nat := if q = 0 ∨ n = 0 then 0xFFFFFFFF else leastOk (horizonOk q n e) 32 0

end Sys2Proof.Machine
end

