-- ==== Sys2Proof/Machine/Actions.lean ====
section
/-! DEFINITION. Actions that several families share: reports of wardens (R29, R55), messages of the Hearth (R59 to R62), step
marks and notices (R137), context faults and kills (R209, R242), the fence of a tile (R198), the epoch of the sparing map (R194),
requests for Anvil kernels (R100, R142). -/
namespace Sys2Proof.Machine

/-! ### Reports of wardens -/

/-- The supply samples in mV and the clock samples in MHz of a test (R287, R352). -/
def envItems (w : EnvWindow) : List (List Byte) := [i2 (w.supply0 / 10), i2 (w.supply1 / 10), i2 w.clock0, i2 w.clock1]

/-- A failing cell of a stack (R267): pseudo-channel, bank, row, column and DQ bit, in the widths of R352; SWD_HBM_FAIL_ADDR has the whole row. -/
def cellItems (row col dq : Nat) : List (List Byte) := [i4 (row / 2 ^ 26 % 64), i4 (row / 2 ^ 20 % 64), i1 row, i1 col, i4 dq]

/-- The event of a report, without what a fence adds (R116, R154, R189, R222, R257). DESIGN CHOICE (assumption log 78): PATH_PARITY_SLAG,
for which cause, pass, row and column have no meaning, carries the address as its data. -/
def repEvent (s : State) : Rep → Event
  | .residueTransient t _ c p r k => ⟨1, 1, t.val, 0x0101, [i1 (causeNum c), i2 p, i1 r, i1 k]⟩
  | .residueRepeat t _ _ c p r k => ⟨3, 1, t.val, 0x0102, [i1 (causeNum c), i2 p, i1 r, i1 k]⟩
  | .residueInputSuspect t _ _ _ c p r k f => ⟨2, 1, t.val, 0x0103, [i1 (causeNum c), i2 p, i1 r, i1 k, i1 f]⟩
  | .residueNoReplay t _ _ _ c p r k => ⟨2, 1, t.val, 0x0104, [i1 (causeNum c), i2 p, i1 r, i1 k]⟩
  | .residueNonidem t _ _ _ c p r k => ⟨2, 1, t.val, 0x0105, [i1 (causeNum c), i2 p, i1 r, i1 k]⟩
  | .checkerFault t _ p r k => ⟨3, 1, t.val, 0x0106, [i1 4, i2 p, i1 r, i1 k]⟩
  | .tileWatchdog t c q => ⟨3, 1, t.val, 0x0501, [i1 c.val, iw q]⟩
  | .epochDrain t c st => ⟨2, 1, t.val, 0x0509, [i1 c.val, iw st]⟩
  | .slagTile t k a => ⟨2, 1, t.val, 0x0408, [i4 k, i8 a]⟩
  | .slagStack n c a => ⟨2, 2, n.val, 0x0408, [i4 c, i8 a]⟩
  | .controlUE ut ix => ⟨5, ut, ix, 0x040A, []⟩
  | .pathParity n a => ⟨2, 2, n.val, 0x010A, [i8 a]⟩
  | .slagConsumed t c st q k => ⟨2, 1, t.val, 0x0409, [i1 c.val, iw st, iw q, i4 k]⟩
  | .shadowDigest t .. => ⟨0, 1, t.val, 0x00F0, []⟩
  | .latch n .. => ⟨0, 2, n.val, 0x00F1, []⟩
  | .accumFault n h st k => ⟨3, 2, n.val, 0x0302, [i1 h, iw st, i1 k.val, i1 7]⟩
  | .edge e => ⟨0, 1, ((s.holder e.consumer).map Fin.val).getD 255, 0x0000, []⟩
  | .edgeGone _ _ _ c => ⟨0, 1, ((s.holder c).map Fin.val).getD 255, 0x0000, []⟩
  | .portResync ut ix n => ⟨0, ut, ix, 0x0007, [i4 n]⟩
  | .portDead d p w => ⟨1, 5, d.val, 0x0005, [i1 p.val, i4 (if w then 1 else 0)]⟩
  | .unitNoresp t => ⟨3, 1, t.val, 0x0000, []⟩
  | .hbmRow n r row col dq w => ⟨1, 2, n.val, if r then 0x0607 else 0x0608, cellItems row col dq ++ envItems w⟩
  | .domainLate d => ⟨5, 4, (s.dieOfDomain d).val, 0x070E, [i4 d.val]⟩
  | .wardenFailed a => ⟨1, (s.unitOf a).1, (s.unitOf a).2, 0x060A, []⟩

/-- Parts of a report at level 2 (R134, R167). -/
def repParts : Rep → Nat
  | .shadowDigest .. => 3
  | .latch .. => 2
  | _ => 1

/-- The report tag of a multi-part report: the low bits of the command sequence (R134), the handle (R167). -/
def repTag : Rep → Nat
  | .shadowDigest _ _ _ i => i.seq.toNat % 256
  | .latch _ h .. => h.val
  | _ => 0

/-- The verdict flit of R134. -/
def verdictFlit (i : CmpItems) : Nat := i.residue.val + bit i.converterOk 2 + bit i.parityOk 3 + bit i.hold 4

/-- A byte count of R134: 48 bits, held at their maximum. -/
def byteFlits (n : Nat) : List Nat := flits 3 (min n (2 ^ 48 - 1))

/-- The data flits of a part after its part word (R134, R167). -/
def partData : Rep → Nat → List Nat
  | .shadowDigest _ _ _ i, 0 => flits 2 i.seq.toNat ++ flits 4 i.ofd.lane0 ++ flits 4 i.ofd.lane1
  | .shadowDigest _ _ _ i, 1 => [0, 1, 2].flatMap fun k => byteFlits (i.bytes.getD k 0)
  | .shadowDigest _ _ _ i, _ => byteFlits (i.bytes.drop 3).sum ++ [i.ordinal % 65536, verdictFlit i]
  | .latch _ _ st o _ _ _, 0 => flits 2 st.toNat ++ flits 4 o.lane0 ++ flits 4 o.lane1
  | .latch _ _ _ _ n f k, _ => flits 3 (n % 2 ^ 48) ++ [f % 64 + k.val * 2 ^ 6]
  | _, _ => []

/-- Bytes in flits, the first byte low. -/
def byteToFlits : List Byte → List Nat
  | [] => []
  | [a] => [a.toNat]
  | a :: b :: r => (a.toNat + b.toNat * 256) :: byteToFlits r

/-- The messages that a report takes at a level (R56, R81): parts exist at level 2 only. -/
def partsAt (level : Nat) (r : Rep) : Nat := if level = 2 then repParts r else 1

/-- A report's operand flits (R55, R56): the error code; at level 2 the part word and the part's data, or the record data of a report of one
message, as far as 11 flits hold it (their layout is not stated, assumption log 61). -/
def repFlits (s : State) (r : Rep) (level part : Nat) : List Nat :=
  let code := flits 2 (repEvent s r).word.toNat
  if level ≠ 2 then code
  else if 1 < repParts r then
    code ++ [part % 16 * 2 ^ 12 + (repParts r - 1) * 2 ^ 8 + repTag r] ++ partData r part
  else code ++ (byteToFlits ((repEvent s r).items.flatten)).take 11

/-- REPORT, or REPORT_DATA once there is data (R55). -/
def repOp (s : State) (r : Rep) (level part : Nat) : Nat := if (repFlits s r level part).length = 2 then 0x10 else 0x11

/-- The unsent report to displace: the oldest of the lowest class among those not yet sent (R29). -/
def displaceable (s : State) (q : List QRep) : Option (Nat × QRep) :=
  (q.zipIdx.filter fun (e : QRep × Nat) => e.1.state == .unsent && e.1.part == 0).foldl (fun best e =>
    match best with
    | none => some (e.2, e.1)
    | some b => if (repEvent s e.1.rep).cls < (repEvent s b.2.rep).cls then some (e.2, e.1) else some b) none

/-- A latch report that is lost is not waited for. -/
def State.latchLost (s : State) : Rep → State
  | .latch _ h step _ _ _ _ =>
    let mine := fun (r : LatchRun) => r.step == step && (tget? s.ofd.handles h.val).any fun x => x.d.ctx == r.ctx
    { s with ofd := { s.ofd with
        latches := s.ofd.latches.map fun r => if mine r then { r with due := tmod r.due h.val 0 fun n => n - 1 } else r } }
  | _ => s

/-- A report queue of 16 that is full: the new report displaces an unsent one of its class or a lower, or is dropped; either is
counted in the warden's page (R29). -/
def State.dropReport (s : State) (a : AgentIx) (r : Rep) : State :=
  let x := s.agent a
  let q := match displaceable s x.queue with
    | some b => if (repEvent s b.2.rep).cls ≤ (repEvent s r).cls then (x.queue.eraseIdx b.1) ++ [⟨r, 0, .unsent, 0⟩] else x.queue
    | none => x.queue
  let n := if s.sq.run = .running then x.dropsInRestart else x.dropsInRestart + 1
  let lost := (x.queue.map QRep.rep ++ [r]).filter fun r => !(q.map QRep.rep).contains r
  ((s.setAgent a { x with queue := q, dropsInRestart := n }).bump (s.pageBase a + TWD_REPORT_DROP)).each lost State.latchLost

/-- A warden or router queues a report for the Hearth. -/
def State.wardenReport (s : State) (a : AgentIx) (r : Rep) : State :=
  let x := s.agent a
  if x.queue.length < 16 then s.setAgent a { x with queue := x.queue ++ [⟨r, 0, .unsent, 0⟩] } else s.dropReport a r

/-- A warden port that resynchronises opens: counted, and reported with its discard count (R80). -/
def State.openPort (s : State) (a : AgentIx) : State :=
  let x := s.agent a
  if !s.agentExists a || a == s.hearthAgent || !x.resync then s
  else ((s.modAgent a fun x => { x with resync := false, discard := 0, unitQ := x.unitQ + x.unitWait, unitWait := 0 }).bumpFld (s.pageBase a + TWD_PORT_STATE) 15 0).wardenReport a
    (.portResync (s.unitOf a).1 (s.unitOf a).2 x.discard)

/-! ### Messages of the Hearth -/

def classNum : MsgClass → Nat
  | .report => 0
  | .command => 1
  | .response => 2
  | .register => 3

/-- The class a message of the Hearth travels in (R55). -/
def bellClass : Bell → Nat
  | .regRead .. => 3
  | .regWrite .. => 3
  | .snapshotRead => 3
  | _ => 1

/-- Commands that a warden must hand to its unit (R79). -/
def Bell.forUnit : Bell → Bool
  | .spill .. => true
  | .bist .. => true
  | _ => false

/-- The time that a command has waited on a full queue is counted (R78). -/
def State.countHeld (s : State) (a : AgentIx) : State :=
  match (s.agent a).unitHeld with
  | some t => (s.bump (s.pageBase a + TWD_PORT_WAIT) (s.time.tb - t)).modAgent a fun x => { x with unitHeld := none }
  | none => s

/-- A warden's command for its unit enters the warden-to-unit queue of eight flits; a full queue holds it back (R78). A port that resynchronises
takes nothing: the command stands at the warden until the port opens (R80). -/
def Agent.toUnit (x : Agent) (seq n now : Nat) : Agent :=
  if x.resync then { x with unitCmd := some seq, unitWait := n }
  else if x.unitQ + n ≤ 8 then { x with unitCmd := some seq, unitQ := x.unitQ + n, unitHeld := none }
  else { x with unitCmd := some seq, unitQ := 8, unitHeld := some now }

/-- A message leaves the Hearth; a unit command waits at its warden until the unit takes it (R79). -/
def State.transmit (s : State) (a : AgentIx) (m : Sent) : State :=
  let s1 := s.emitOut (.bellows s.hearthAgent a m.bell)
  if m.bell.forUnit then
    { s1.modAgent a fun x => x.toUnit m.seq (Config.unitFlits s.free).val s.time.tb with free := s.free + 1 }
  else s1

/-- The Hearth sends a message: it takes the next sequence number of its agent and class, and stays outstanding; one that meets
an outstanding message of the same agent and class waits behind it (R59, R60). -/
def State.send (s : State) (a : AgentIx) (b : Bell) (tmo : Nat) : State :=
  let k := agentKey a * 4 + bellClass b
  let q := tget s.bus.seqs k 0
  let w := tget s.bus.out k []
  let m : Sent := ⟨q, b, 0, tmo⟩
  let s1 := { s with bus := { s.bus with seqs := tput s.bus.seqs k ((q + 1) % 64), out := tput s.bus.out k (w ++ [m]) } }
  if w = [] then s1.transmit a m else s1

/-- The message outstanding at an agent in a class is over; the next one is sent (R59). -/
def State.answered (s : State) (a : AgentIx) (cls : Nat) : State :=
  let k := agentKey a * 4 + cls
  let r := (tget s.bus.out k []).drop 1
  let s1 := { s with bus := { s.bus with out := if r = [] then tdel s.bus.out k else tput s.bus.out k r } }
  match r.head? with
  | some m => s1.transmit a m
  | none => s1

/-- A command that the warden must hand to its unit has the response timeout plus 102 µs (R62). -/
def State.rspTimeout (s : State) : Nat := s.fld (dieReg s.anchor BLW_RSP_TIMEOUT) 6 0

def State.command (s : State) (a : AgentIx) (b : Bell) : State := s.send a b s.rspTimeout
def State.unitCommand (s : State) (a : AgentIx) (b : Bell) : State := s.send a b (s.rspTimeout + 102)

/-! ### Floor plan -/

/-- One change of the floor plan or the sparing map: the epoch advances by one, vector 2, EVENT kind 2 (R194, R195). The updating bit stays
set while another change is open, a fence whose number has not moved. -/
def State.epochUp (s : State) : State :=
  let s1 := s.modPlan fun p => { p with epoch := p.epoch + 1, updating := !p.waiting.isEmpty }
  (s1.irq 2).event (.epoch s1.plan.epoch)

/-- The map in force and the retired tiles, as the sparing record holds them (R193). -/
def State.mapNow (s : State) : Tab TileIx × List TileIx :=
  (s.plan.map, (List.finRange 144).filter fun t => (s.fpOf t).retired)

/-- A change that rewrites the sparing record: writes are made one at a time in the order requested, and one is pending until it is in
the NOR (R193); none begins under the power-fail lock (R343). -/
def State.rewriteRecord (s : State) : State := s.modPlan fun p =>
  { p with writeQ := p.writeQ ++ [s.mapNow], rewriteDue := false, writing := p.writing || !s.recd.pfLock, retries := if p.writing then p.retries else 0 }

/-- The pool role that a tile's warden reports (R117). -/
def State.setRole (s : State) (t : TileIx) (r : PoolRole) : State := s.modTile t fun x => { x with role := r }

/-- Spares free for shadow duty: SPARE, not in self-test, not held as S2 (R119). -/
def State.freeSpares (s : State) : List TileIx :=
  (s.tilesIn .spare).filter fun t => (s.tile t).role == .idle || (s.tile t).role == .shadow

/-! ### Step marks, notices, context faults -/

/-- Mark a step: 1 DIVERGED, 2 result unverified (R137, R421). -/
def State.markStep (s : State) (c : CtxIx) (step : Word) (m : Nat) : State :=
  s.modCtx c fun x => { x with marks := (step, m) :: x.marks }

/-! ### Fence notices (R253, R462) -/

/-- A port's role; tensor, not reserved, where the settings name none. -/
def State.roleOf (s : State) (p : PortIx) : PortRole := tget s.roles p.val ⟨.tensor, false⟩

/-- Tensor links that are up. -/
def State.livePorts (s : State) : List PortIx :=
  (List.finRange 48).filter fun p => decide (p.val < s.portCount) && (s.port p).up && (s.roleOf p).role == .tensor

/-- Domain generations of PT0 to PT3, as HRT_GEN_PART shows them (R217, R220). -/
def State.partGens (s : State) : List Byte :=
  (List.finRange 4).map fun p => match s.diesOfPart p with
    | d :: _ => tget s.esc.domGen (2 * d) 0
    | [] => 0

/-- The identity block that a port sends (R448): flags READY and admission closed (R461). -/
def State.ownIdentity (s : State) (p : PortIx) : Identity where
  serial := s.fused.serial
  coords := s.reg HRT_TOPO_COORD
  port := BitVec.ofNat 8 p.val
  grade := BitVec.ofNat 8 (gradeNum s.fused.grade + bit s.fused.l112 4)
  gens := s.partGens
  chipGen := s.esc.gen
  flags := BitVec.ofNat 8 (bit (s.bu.pkg == .ready) 0 + bit (s.bu.pkg != .ready) 1)

/-- The link warden of a port sends the block. -/
def State.sendIdentity (s : State) (p : PortIx) : State := s.emitOut (.identity p (s.ownIdentity p))

/-- The slice-filter entries of a port (R455), and whether one is suspended: its coordinates are not the far end's. -/
def State.slicesOf (s : State) (p : PortIx) : List Slice := (s.slices.filter fun e => e.1 / 16 == p.val).map fun e => e.2

def State.farCoords (s : State) (p : PortIx) : Word := ((s.port p).far.map Identity.coords).getD 0xFFFFFFFF

def State.sliceLive (s : State) (p : PortIx) (e : Slice) : Bool := e.coords == s.farCoords p || e.tag == 0xFFFE

/-- Job tags with their steps of the contexts named. -/
def State.noticeEntries (s : State) (cs : List CtxIx) : List (BitVec 16 × Word) :=
  (cs.filter fun c => (s.ctx c).desc.jobTag != 0).map fun c => ((s.ctx c).desc.jobTag, (s.ctx c).step)

/-- Send a fence notice on ports, and tell the subscribers (R471 kind 4). -/
def State.sendNotices (s : State) (ps : List PortIx) (scope : Fin 7) (after : Byte) (gens : List Byte) (cs : List CtxIx) : State :=
  s.each ps fun s p =>
    let n : FenceNotice := ⟨scope, BitVec.ofNat 8 p.val, s.fused.serial, s.reg HRT_TOPO_COORD, s.esc.gen, after, gens, s.noticeEntries cs⟩
    ((s.emitOut (.fenceNotice p n)).setFld (linkReg p LWD_NOTICE) 23 16 scope.val).event (.fence n true)

/-- Links with traffic of a context: those whose filters admit its job tag. -/
def State.portsOfCtx (s : State) (c : CtxIx) : List PortIx :=
  s.livePorts.filter fun p => (s.slicesOf p).any fun e => (e.rx || e.tx) && e.tag == (s.ctx c).desc.jobTag && s.sliceLive p e

/-! ### What a kill takes with it (R163, R174, R233, R396) -/

def State.modOfd (s : State) (f : Digests → Digests) : State := { s with ofd := f s.ofd }

/-- Key j of a key set (R160). -/
def State.ofdKey (s : State) (set j : Nat) : Word64 :=
  BitVec.ofNat 64 (s.reg64 (itemKey HRT_OFD_KEY_LO (set * 2 + j)) (itemKey HRT_OFD_KEY_HI (set * 2 + j)))

def State.handle? (s : State) (h : Nat) : Option Handle := tget? s.ofd.handles h

def maxCount : Nat := 2 ^ 48 - 1

/-- Add a digest of `n` units. -/
def Bank.add (b : Bank) (o : Ofd) (n : Nat) : Bank :=
  { b with l0 := (b.l0 + o.lane0) % ofdP, l1 := (b.l1 + o.lane1) % ofdP, count := min (b.count + n) maxCount }

/-- Lane-wise combination (R172). -/
def Bank.combine (a b : Bank) : Bank :=
  ⟨(a.l0 + b.l0) % ofdP, (a.l1 + b.l1) % ofdP, min (a.count + b.count) maxCount, a.flags ||| b.flags⟩

/-- The digest of units under a key set, their indices behind `base` (R155, R157). -/
def State.digestOf (s : State) (set base : Nat) (us : List (Nat × Nat)) : Ofd := ofdUnits (s.ofdKey set 0) (s.ofdKey set 1) base us

/-- The digest of output stream `i` of a command (R161): under its handle's declaration where it is tagged, else under key set 0 with the
stream number in the index (assumption log 68). -/
def State.streamDigest (s : State) (k : Cmd) (i : Nat) (o : StreamOut) : Bank :=
  let d := ((s.handle? (k.handles.getD i 0)).filter fun h => h.d.ctx == k.ctx).map Handle.d
  let us := (unitsAt (widthOf ((d.map OfdDecl.width).getD o.width)) o.offset (whole o.data)).1
  let ofd := match d with
    | some d => s.digestOf d.keySet.val d.indexBase us
    | none => s.digestOf 0 (i * 2 ^ 40) us
  Bank.add {} ofd us.length

/-- The address of the first byte of an output stream: its handle's region, or that of an untagged stream, whose own address is not held. -/
def State.streamBase (s : State) (k : Cmd) (i : Nat) : Nat :=
  (((s.handle? (k.handles.getD i 0)).filter fun h => h.d.ctx == k.ctx).map fun h => h.d.region.base).getD 0

/-- Streams 4 and above are added to accumulator 3 (R169). -/
def fourBanks (l : List Bank) : List Bank :=
  let b := fun i => l.getD i {}
  [b 0, b 1, b 2, (l.drop 4).foldl Bank.combine (b 3)]

/-- Bytes written by streams 0, 1, 2, and by the rest together (R134). -/
def fourBytes (l : List StreamOut) : List Nat :=
  let n := l.map fun o => o.data.length
  [n.getD 0 0, n.getD 1 0, n.getD 2 0, (n.drop 3).sum]

def Bank.ofd (b : Bank) : Ofd := ⟨b.l0, b.l1⟩

/-- The handles of a context. -/
def State.handlesOf (s : State) (c : CtxIx) : List Nat :=
  (s.ofd.handles.filter fun e => e.2.d.ctx == c).map fun e => e.1

def flagAbandoned : Nat := 5

def Bank.flag (b : Bank) (i : Nat) (on : Bool) : Bank := if on then { b with flags := b.flags ||| 2 ^ i } else b

/-- A digest as response words. -/
def Bank.words (b : Bank) (st : Nat) : List Word :=
  [BitVec.ofNat 32 b.l0, BitVec.ofNat 32 (b.l0 / 2 ^ 32), BitVec.ofNat 32 b.l1, BitVec.ofNat 32 (b.l1 / 2 ^ 32),
   BitVec.ofNat 32 b.count, BitVec.ofNat 32 (b.count / 2 ^ 32), BitVec.ofNat 32 st]

/-- A scrub request that ends without a digest: OFD_VERIFY answers NOT_COMPARABLE with the digest status (R180), SCRUB_DIGEST fails with the
command status, a scrub of the Hearth itself has no one to answer. -/
def State.scrubFails (s : State) (r : Scrub) (st : Status) (n : Nat) : State :=
  match r.who with
  | none => s
  | some p => if r.expected.isSome then s.finish p .ok 0 (2 :: ({} : Bank).words n) else s.finish p st 0 []

/-- Whether a report is a latch report of one of the handles named. -/
def latchReportOf (hs : List Nat) : Rep → Bool
  | .latch _ h .. => hs.contains h.val
  | _ => false

/-- The open banks of the context's handles are ABANDONED and the handles freed; its scrub requests are abandoned. -/
def State.killDigests (s : State) (c : CtxIx) : State :=
  let hs := s.handlesOf c
  let mark := fun (x : Stack) => { x with
    banks := x.banks.map fun b => if hs.contains (b.1 / 2) then (b.1, b.2.flag flagAbandoned true) else b
    toReport := x.toReport.filter fun r => !latchReportOf hs r }
  let s1 := { s with hbm := s.hbm.map fun (e : Nat × Stack) => (e.1, mark e.2) }
  let mine := fun (r : Scrub) => r.d.ctx == c && r.who.any fun p => !p.h.operator
  let gone := (s1.ofd.queue ++ s1.ofd.running.toList).filter mine
  let s2 := s1.modOfd fun o => { o with
    handles := o.handles.filter fun e => e.2.d.ctx != c
    latches := o.latches.filter fun q => q.ctx != c
    queue := o.queue.filter fun r => !mine r
    running := o.running.filter fun r => !mine r }
  s2.each gone fun s r => s.scrubFails r .abandoned 8

def State.watch (s : State) (k : Nat) : Watch := tget s.obs.watches k {}
def State.setWatch (s : State) (k : Nat) (x : Watch) : State :=
  { s with obs := { s.obs with watches := tput s.obs.watches k x } }

/-- Room of a dump region behind its 64-byte header (R396). -/
def dumpRoom (w : WatchDecl) : Nat := w.dump.length - 64

def isAddress : WatchSel → Bool
  | .tag .. => false
  | .address .. => true

/-- A watch ends (R396): dump header, WATCH trace record, record, vector 11. DESIGN CHOICE (assumption log 114): the number shown is
partition * 8 + number. -/
def State.closeWatch (s : State) (k status : Nat) : State :=
  let x := s.watch k
  match x.w with
  | none => s
  | some w =>
    if x.st ≠ 1 ∧ x.st ≠ 2 then s
    else
      let s1 := (s.setWatch k { x with st := status }).emitOut
        (.dump w.part k (isAddress w.sel) w.ctx w.step s.esc.gen status (min (dumpRoom w) x.bytes))
      let s2 := if s.traceOn && (s.reg OBS_TRACE_CFG).getLsbD w.ctx.val then
          s1.traceRec w.part.val hearthWriter [word4 0x60 k status w.ctx.val, w.step, BitVec.ofNat 32 (min (dumpRoom w) x.bytes / 1024),
            BitVec.ofNat 32 s.clock]
        else s1
      let code := if status = 3 ∨ status = 6 then 0x0A04 else if status = 7 then 0x0A06 else 0x0A05
      (s2.emit ⟨0, 0, w.ctx.val, code, [i4 k, i1 w.ctx.val, iw w.step, i1 status]⟩).irq 11

/-- The watches whose declaration meets a test end ABANDONED. -/
def State.abandonWatches (s : State) (f : WatchDecl → Bool) : State :=
  s.each ((s.obs.watches.filter fun e => (e.2.w.map f).getD false).map fun e => e.1) fun s k => s.closeWatch k 7

/-- Everything of a context outside the tiles ends with its kill. -/
def State.killOutside (s : State) (c : CtxIx) : State :=
  let s1 := (s.killDigests c).abandonWatches fun w => w.ctx == c
  { s1 with esc := { s1.esc with spills := s1.esc.spills.filter fun p => p.ctx != c
                                 spilled := s1.esc.spilled.filter fun p => p.1 != c
                                 starved := s1.esc.starved.filter fun p => p.1 != c
                                 graph := s1.esc.graph.filter fun g => g.e.ctx != c } }

/-- Tiles that hold work or traffic of a context (R242): open entries, gated commands, held or queued tokens. -/
def State.holdsWork (s : State) (t : TileIx) (c : CtxIx) : Bool :=
  let x := s.tile t
  x.jnl.any (fun e => e.2.isOpen && e.2.cmd.ctx == c) || x.gate.any (fun k => k.ctx == c) || x.heldTokens.any (fun k => k.ctx == c) ||
    x.queues.any (fun q => q.1 / 256 == c.val && q.2.depth != 0)

/-- The kill is complete: the requester is answered, and the number is quarantined for 10 ms (R242, R243). -/
def State.endKill (s : State) (c : CtxIx) (p : Option Pend) : State :=
  let s1 := s.modCtx c fun x => { x with killing := none, quarantine := some (s.time.tb + 10 ^ 7) }
  match p with
  | some p => s1.finish p .ok 0 []
  | none => s1

/-- The wardens that hold work or traffic of a context (R242): of tiles; of stacks with a bank of a handle of its; of links whose filters admit
its job tag. -/
def State.killWardens (s : State) (c : CtxIx) : List AgentIx :=
  let hs := s.handlesOf c
  let ns := (List.finRange 24).filter fun n => (s.stack n).banks.any fun b => hs.contains (b.1 / 2)
  let ps := if (s.ctx c).desc.jobTag = 0 then [] else s.portsOfCtx c
  ((List.finRange 144).filter fun t => s.holdsWork t c).map tileAgent ++ ns.map s.stackAgent ++ ps.map portAgent

/-- The kill goes to every warden that holds work or traffic of the context; with none, it is complete and the number is
quarantined for 10 ms (R242, R243). -/
def State.sendKill (s : State) (c : CtxIx) (p : Option Pend) : State :=
  let ws := s.killWardens c
  let s1 := (s.killOutside c).modCtx c fun x => { x with faulted := true, watchHold := false, held := [] }
  if ws = [] then s1.endKill c p
  else (s1.each ws fun s a => s.command a (.kill c)).modCtx c fun x => { x with killing := some (ws, p) }

/-- One warden has confirmed, or is given up. -/
def State.killConfirmed (s : State) (a : AgentIx) (c : CtxIx) : State :=
  match (s.ctx c).killing with
  | none => s
  | some (ws, p) =>
    let r := ws.erase a
    if r = [] then s.endKill c p else s.modCtx c fun x => { x with killing := some (r, p) }

/-- The kill of a context starts (R242); peers with its traffic are told (R253). -/
def State.startKill (s : State) (c : CtxIx) (p : Option Pend) : State :=
  let s1 := s.sendKill c p
  if (s.ctx c).desc.jobTag = 0 then s1 else s1.sendNotices (s1.portsOfCtx c) 0 s1.esc.gen s1.partGens [c]

/-- The kill of a context as the Hearth decides it (R242, R472): nothing for a number not in use or already being killed. -/
def State.killContext (s : State) (c : CtxIx) (cause : Nat) (code : Word) (scope : Nat) (p : Option Pend) : State :=
  let x := s.ctx c
  if x.used && !x.faulted then (s.jobFailed c cause code scope 0xFFFFFFFF).startKill c p else s

/-- A context fault: a notice of kind 3 and the kill (R209, R421). -/
def State.contextFault (s : State) (c : CtxIx) (code : Word) (step seq : Word) : State :=
  let x := s.ctx c
  if x.used && !x.faulted then
    (s.notify ⟨0, 3, c, 0, step, code, seq, 0, 0xFF, 0xFF, 0xFF, 0xFF, 0, 0, (s.fn 0).gen, []⟩).killContext c 0 code 0 none
  else s

/-- The last command of the context that the primary of a dispute committed (R137): by its own journal, else by what was last committed under the
logical number. -/
def State.lastOf (s : State) (a : Arb) : Word :=
  let l := (s.tile a.p).jnl.filter fun e => e.2.state == .committed && e.2.role == .primary && e.2.cmd.ctx == a.ctx
  match l.foldl (fun (b : Option JEntry) e => if b.any fun x => decide (e.2.serial ≤ x.serial) then b else some e.2) none with
  | some e => e.cmd.seq
  | none => tget (s.ctx a.ctx).lastCommit a.logical 0

/-- A notice of the shadow pool (R137), unless the context is killed (R146). -/
def State.shadowNotice (s : State) (a : Arb) (outcome mark : Nat) (code : Word) : State :=
  let x := s.ctx a.ctx
  if x.used && !x.faulted then
    s.notify ⟨0, 1, a.ctx, mark, a.step, code, a.seq, a.ordinal, a.logical, a.p.val, a.s.val,
      (a.s2.map Fin.val).getD 255, outcome, s.lastOf a, (s.fn 0).gen, []⟩
  else s

/-- A notice about a primary that is being fenced names what that primary committed before the fence, so it waits for the fence (R137). -/
def State.oweNotice (s : State) (a : Arb) (outcome mark : Nat) (code : Word) : State :=
  if (tget? s.plan.fencing a.p.val).isSome then
    { s with shadow := { s.shadow with owed := s.shadow.owed ++ [⟨{ a with also := [] }, outcome, mark, code⟩] } }
  else s.shadowNotice a outcome mark code

/-- The fence of a tile is over, confirmed or given up: the notices that waited for it leave. -/
def State.payNotices (s : State) (t : TileIx) : State :=
  let mine := s.shadow.owed.filter fun o => o.a.p == t
  ({ s with shadow := { s.shadow with owed := s.shadow.owed.filter fun o => o.a.p != t } }).each mine fun s o =>
    s.shadowNotice o.a o.outcome o.mark o.code

/-! ### Anvil kernels on request of the Hearth -/

/-- The kernel of a command's format (R277). -/
def kernelOf : CmdKind → Option Nat
  | .bi8 => some 0
  | .bi4 => some 1
  | .sp24 => some 2
  | .bf16 => some 3
  | .fp8 => some 4
  | _ => none

/-- The command that a run is about: the disputed one, or the one whose check failed on a fenced tile (R280). -/
def State.kindFor (s : State) (t : TileIx) (why : AnvilWhy) : Option CmdKind :=
  let of := fun (a : Arb) => (((s.tile a.s).dutyOf a.p a.seq <|> (s.tile a.p).slotOf a.seq).map fun e => e.2.cmd.kind)
  match why with
  | .sSuspect a => of a
  | .noArb a => of a
  | .unresolved a => of a
  | .fenced => ((s.tile t).jnl.find? fun e => e.2.outcome == 3).map fun e => e.2.cmd.kind
  | _ => none

/-- Queue the named kernels on a tile, that of the format concerned first; a tile already queued or running for the same reason is
not queued twice. -/
def State.requestAnvil (s : State) (t : TileIx) (why : AnvilWhy) (kernels : List Nat) : State :=
  if s.test.queue.any (fun j => j.tile == t && j.why == why) ||
      s.test.slots.any (fun j => (j.map fun k => k.tile == t && k.why == why).getD false) then s
  else
    let ks := match (s.kindFor t why).bind kernelOf with
      | some k => if kernels.contains k then k :: kernels.erase k else kernels
      | none => kernels
    { s with test := { s.test with queue := s.test.queue ++ [{ tile := t, why := why, kernels := ks, all := ks }] } }

def allKernels : List Nat := List.range 12

/-! ### Fences -/

/-- A re-execution and a withheld commit of a tile are over: commit_held and retry_active fall (R115). -/
def State.clearHeld (s : State) (t : TileIx) : State := s.setFld (tileReg t TWD_RES_STATUS) 28 27 0

/-- The tile warden's fence (R198): the issue gate closes, the streams close, the journal freezes; a running re-execution and
captures are abandoned. -/
def State.fenceWarden (s : State) (t : TileIx) (reason : Nat) (self : Bool) : State :=
  let x := s.tile t
  ((s.setTile t { x with
    gateClosed := true, retry := none, failedTwice := none, slots := [none, none], role := .out, reloading := false
    reexecAbandoned := x.reexecAbandoned + (if x.retry.isSome then 1 else 0) }).setNat
    (tileReg t TWD_FENCE) (2 ^ 31 + bit self 30 + reason * 2 ^ 16)).clearHeld t

/-- A fenced tile's return test is queued (R280): not for a fence by the operator, whose tile waits for TILE_RETURN, nor for one that sliced BIST
decides (R274). -/
def State.askReturn (s : State) (t : TileIx) (reason : Nat) (cause : Option Event) : State :=
  if reason = 7 ∨ (cause.map Event.code) = some 0x0602 then s else s.requestAnvil t .fenced allKernels

/-- The Hearth's part of a fence (R191, R194, R223): FENCED in the floor plan. For a tile with a logical number a re-placement
is queued, which writes the cause record with the spare and the epoch; otherwise the change is complete and the cause is
recorded with page index 0xFF. The tile's return test is queued with it. -/
def State.fencePlan (s : State) (t : TileIx) (reason : Nat) (cause : Option Event) (prefer : Option TileIx) (detect : Nat) :
    State :=
  let was := (s.fpOf t).st
  if was = .good ∨ was = .spare then
    let s1 := (s.modFp t fun f => { f with st := .fenced, reason := reason, watch := none }).setNat HRT_FENCE_LAST
      (t.val * 2 ^ 24 + reason * 2 ^ 16 + (cause.map Event.code).getD 0)
    let s2 := (s1.setNat HRT_FENCE_LATENCY (s.time.tb - detect)).askReturn t reason cause
    match s.logicalOf t with
    | some l => s2.modPlan fun p =>
        { p with updating := true, waiting := p.waiting ++ [⟨t, l, cause, prefer, detect, none, t, []⟩] }
    | none =>
      let s3 := s2.epochUp
      match cause with
      | some e => s3.emit { e with items := e.items ++ [i1 255, iw s3.plan.epoch] }
      | none => s3
  else
    match cause with
    | some e => s.emit e
    | none => s

/-- The detection instant of a fence (R199): the instant that the warden noted for a residue, checker or watchdog cause, else the decision. -/
def State.detected (s : State) (t : TileIx) (reason : Nat) : Nat :=
  if reason = 1 ∨ reason = 2 ∨ reason = 5 then (s.tile t).detectAt.getD s.time.tb else s.time.tb

/-- The Hearth decides a fence: the command goes to the warden (R199), and the cause waits with it for the confirmation
(R200). A cause for a tile already fenced or being fenced is recorded alone (R211). -/
def State.fenceNow (s : State) (t : TileIx) (reason : Nat) (cause : Option Event) (prefer : Option TileIx := none) : State :=
  let st := (s.fpOf t).st
  if (st = .good ∨ st = .spare) ∧ tget? s.plan.fencing t.val = none then
    let s1 := s.modPlan fun p => { p with fencing := tput p.fencing t.val (cause, s.detected t reason, prefer, reason) }
    let s2 := match prefer with
      | some u => s1.setRole u .arbiter
      | none => s1
    s2.command (tileAgent t) (.fence t reason)
  else
    match cause with
    | some e => s.emit e
    | none => s

/-- A running reset has a tile in its scope. -/
def State.inReset (s : State) (t : TileIx) : Bool := s.esc.reset.any fun r => r.parts.getLsbD (s.partOfTile t).val

/-- A trigger of tile level. Within the scope of a running reset it is absorbed: its code is recorded, and nothing more happens (R249). -/
def State.orderFence (s : State) (t : TileIx) (reason : Nat) (cause : Option Event) (prefer : Option TileIx := none) : State :=
  if s.inReset t then
    match cause with
    | some e => s.emit e
    | none => s
  else s.fenceNow t reason cause prefer

end Sys2Proof.Machine
end

