-- ==== Sys2Proof/Machine/Pool.lean ====
section
/-! DEFINITION. The shadow pool's duties (R117, R118): captures, the choice of a shadow, covers of a role under test, and what
happens when one duty takes a spare from another. -/
namespace Sys2Proof.Machine

/-! ### Clocks and supply of a region (R261, R334) -/

def State.region (s : State) (g : Nat) : Temper := tget s.thm.regions g {}

/-- The ratio in force on a region (R334). -/
def Temper.ratio (x : Temper) : Nat := min x.thermal x.power

/-- Cycles that Temper or THRT swallows in a region in one grid period: whole cycles in each window of 16 (R73). -/
def State.swallowedOf (s : State) (g : Nat) : Nat :=
  if s.hl.thrt.getLsbD g then (16 - (s.region g).ratio) * (1280 / 16) else 0

/-- The validity window of R261: the supply in 0.1 mV, the effective clock in MHz. -/
def supplyOk (v : Nat) : Bool := decide (7275 ≤ v ∧ v ≤ 7875)
def clockOk (c : Nat) : Bool := decide (1200 ≤ c ∧ c ≤ 2000)

/-- Work of the matrix engine or the vector unit (R121 condition 1). -/
def isCompute : CmdKind → Bool
  | .bi8 => true
  | .bi4 => true
  | .sp24 => true
  | .bf16 => true
  | .fp8 => true
  | .vector => true
  | _ => false

/-- Block-integer work, which the residue lanes check (R114). -/
def isBlockInt : CmdKind → Bool
  | .bi8 => true
  | .bi4 => true
  | .sp24 => true
  | _ => false

/-- The element with the least measure, the earliest of equals. -/
def minBy {α : Type} (f : α → Nat) : List α → Option α
  | [] => none
  | a :: r => match minBy f r with
    | none => some a
    | some b => if f a ≤ f b then some a else some b

/-- The slot of a new entry: the next one while fewer than 64 are used, then that of the oldest closed entry (R202). -/
def Tile.newSlot (x : Tile) : Nat :=
  match ((List.range 64).map fun i => (x.jhead + 1 + i) % 64).find? fun k => (tget? x.jnl k).isNone with
  | some k => k
  | none => ((minBy (fun (e : Nat × JEntry) => e.2.serial) (x.jnl.filter fun e => !e.2.isOpen)).map Prod.fst).getD 0

def Tile.push (x : Tile) (e : JEntry) : Tile :=
  let k := x.newSlot
  { x with jnl := tput x.jnl k { e with serial := x.pushed }, jhead := k, pushed := x.pushed + 1 }

/-! ### Captures (R128 to R130) -/

/-- The pool function is ON (R151). -/
def State.shadowOn (s : State) : Bool := (s.fn 0).st == .on

/-- A command fits the capture limit (R121 condition 2). -/
def State.fitsCapture (s : State) (k : Cmd) : Bool := decide (k.captureBytes ≤ s.fld HRT_SHD_LIMITS 19 16 * 2 ^ 20)

/-- The first free capture slot of a tile (R130). -/
def Tile.freeSlot (x : Tile) : Option Nat := (List.range 2).find? fun i => x.slots.getD i none == none

/-- Start a shadow: a capture slot is taken, the shadow's journal opens an entry, the primary's entry is marked sampled, and a
start copy begins where the command uses resident regions (R128 to R130, R202). -/
def State.startShadow (s : State) (p sh : TileIx) (k : Cmd) (ord : Nat) : State :=
  match (s.tile sh).freeSlot with
  | none => s
  | some i =>
    let s1 := s.modTile sh fun x =>
      ({ x with role := .shadow, slots := x.slots.set i (some ⟨p, k.ctx, k.seq, k.hold, false, ⟨(Config.captureOfd sh k s.time.tb).1, (Config.captureOfd sh k s.time.tb).2⟩⟩) }).push
        { cmd := k, role := .shadow, ordinal := ord, issueTime := s.time.tb, primary := some p }
    (s1.modEntry p k.seq fun e => { e with sampled := true }).modTile p fun x => { x with copies := if k.startCopy then x.copies ++ [k.seq] else x.copies }

/-- A tile can take a shadow duty (R117, R119): SPARE, in no higher role, a capture slot free, no reset holding its region. -/
def State.canShadow (s : State) (t : TileIx) : Bool :=
  (s.fpOf t).st == .spare && !s.hl.kill.getLsbD (regionOfTile t) && ((s.tile t).role == .idle || (s.tile t).role == .shadow) &&
    ((s.tile t).freeSlot).isSome

/-- A command is eligible for shadowing (R121). -/
def State.eligible (s : State) (k : Cmd) : Bool := isCompute k.kind && !(s.ctx k.ctx).desc.shadowOff && s.fitsCapture k

/-- The items of R133 for an entry: its digest and bytes, and the verdicts of its own checks. -/
def JEntry.items (e : JEntry) : CmpItems :=
  ⟨e.cmd.seq, e.ofd, e.bytes, Fin.ofNat 3 e.residue, e.cause != some .converter,
    e.cause != some .indexParity && e.cause != some .operandParity, e.ordinal, e.cmd.hold⟩

/-- Every pass of a block-integer command has been judged (R88, R95). -/
def JEntry.allJudged (e : JEntry) : Bool := !isBlockInt e.cmd.kind || decide (e.cmd.passes ≤ e.judged.length)

/-- The capture on a tile that serves a command of a primary. -/
def Tile.captureOf (x : Tile) (p : TileIx) (seq : Word) : Option Capture :=
  (x.slots.filterMap id).find? fun c => c.primary == p && c.seq == seq

/-- A command that is complete, its own checks passed, reports its items: a hold-commit command before it commits, a shadow or an arbiter in
any case (R133, R138, R141). -/
def State.reportHeld (s : State) (t : TileIx) (seq : Word) : State :=
  match (s.tile t).slotOf seq with
  | none => s
  | some (_, e) =>
    if e.state != .complete || e.held || !e.allJudged then s
    else match e.role, e.primary.bind fun p => (s.tile t).captureOf p seq with
      | .primary, _ =>
        if e.cmd.hold && e.sampled && e.cmpWait then s.wardenReport (tileAgent t) (.shadowDigest t .primary t e.items) else s
      | .shadow, some c => if c.abandoned then s else s.wardenReport (tileAgent t) (.shadowDigest t .shadow c.primary e.items)
      | .arbiter, some c => s.wardenReport (tileAgent t) (.shadowDigest t .arbiter c.primary e.items)
      | _, _ => s

/-- Free the capture slot of a primary's command on a shadow or arbiter, and close its entry; the tile is idle once both are free. -/
def State.freeCapture (s : State) (t p : TileIx) (seq : Word) (outcome : Nat) : State :=
  s.modTile t fun x =>
    let y := match x.dutyOf p seq with
      | some (k, e) => x.setSlot k { e with dutyDone := true, outcome := if outcome = 0 then e.outcome else outcome }
      | none => x
    let sl := y.slots.map fun o => o.filter fun c => !(c.primary == p && c.seq == seq)
    { y with slots := sl, role := if (x.role == .shadow || x.role == .arbiter) && sl.all Option.isNone then .idle else x.role }

/-! ### Disagreements that wait or run (R145) -/

/-- The disputed commands of an arbitration: its own, then those that joined it, for which no S2 runs (R145). -/
def Arb.cases (a : Arb) : List Arb :=
  a :: a.also.map fun j => { a with
    s := j.s, ctx := j.ctx, step := j.step, seq := j.seq, ordinal := j.ordinal, held := j.held, idempotent := j.idempotent
    s2 := none, also := [] }

/-- The cases of R143 whose kernels wait or run. -/
def State.openCases (s : State) : List Arb :=
  (s.test.queue ++ s.test.slots.filterMap id).filterMap fun j => match j.why with
    | .noArb a => some a
    | _ => none

/-- Every arbitration that waits, runs, or is decided by kernels alone. -/
def State.allArbs (s : State) : List Arb := s.shadow.waiting ++ s.shadow.running.filterMap id ++ s.openCases

/-- A tile serves an arbitration as S or S2. -/
def State.inArb (s : State) (t : TileIx) : Bool :=
  s.allArbs.any fun a => a.s2 == some t || a.cases.any fun b => b.s == t

/-- A command of a primary is in dispute. -/
def State.disputed (s : State) (p : TileIx) (seq : Word) : Bool := s.allArbs.any fun a => a.cases.any fun b => b.p == p && b.seq == seq

/-! ### Preemption and the shadow of a hold-commit command (R118, R138) -/

/-- A capture is discarded for a higher duty: counted as preempted (R118). -/
def State.dropPreempted (s : State) (t : TileIx) (c : Capture) : State :=
  ((s.freeCapture t c.primary c.seq 6).bump HRT_SHD_PREEMPTED).bump (tileReg t TWD_SHD_ABANDONED)

/-- No reset holds a tile's region. -/
def State.regionLive (s : State) (t : TileIx) : Bool := !s.hl.kill.getLsbD (regionOfTile t)

/-- A spare with duties of sampled commands only, none of them in dispute (R118 priority 5). -/
def State.lowDuty (s : State) (t : TileIx) : Bool :=
  (s.tile t).role == .shadow && s.regionLive t && !s.inArb t && (s.tile t).slots.all fun o => (o.map fun c => !c.hold).getD true

/-- Spares off the die of a primary before those on it, in page-index order. -/
def farFirst (p : TileIx) (l : List TileIx) : List TileIx :=
  (l.filter fun t => dieOfTile t != dieOfTile p) ++ l.filter fun t => dieOfTile t == dieOfTile p

/-- A shadow starts for a hold-commit command; a primary that is complete by then reports its items, unless the Hearth holds them. -/
def State.startHeld (s : State) (p sh : TileIx) (k : Cmd) (ord : Nat) : State :=
  let s1 := s.startShadow p sh k ord
  if s1.shadow.halves.any fun h => h.primary == p && h.items.seq == k.seq && h.role == .primary then s1 else s1.reportHeld p k.seq

/-- A free capture slot for a hold-commit command: of the assigned shadow, else of any free spare. -/
def State.freeShadow (s : State) (p : TileIx) (c : CtxIx) (avoid : Option TileIx) : Option TileIx :=
  let mine := (tget? s.shadow.assign (c.val * 128 + s.logNum p)).toList
  (mine ++ farFirst p s.freeSpares).find? fun t => s.canShadow t && t != p && some t != avoid

/-! ### Covers of a role under test (R272, R283) -/

def State.modTest (s : State) (f : SelfTest → SelfTest) : State := { s with test := f s.test }

/-- A tile leaves the self-test role: idle if it is SPARE. One that was handing over issues again what its gate has held (R283). -/
def State.freeTest (s : State) (t : TileIx) : State :=
  let s1 := s.modTile t fun x => { x with handing := false
                                          role := if x.role = .selfTest then (if (s.fpOf t).st = .spare then .idle else x.role) else x.role }
  if (s.tile t).handing && (s.tile t).gate != [] then s1.modTest fun x => { x with freed := x.freed ++ [t] } else s1

/-- A cover for a GOOD tile (R272 step 2): items 2 to 4 of R201 among the idle spares, else among those that serve duty 5. -/
def State.chooseCover (s : State) (t : TileIx) : Option TileIx :=
  let near := fun (f : TileIx → Bool) => minBy (fun u => (if (s.fpOf u).watch.isSome then 10000 else 0) +
    ringDist (dieOfTile u) (dieOfTile t) * 1000 + u.val) ((s.tilesIn .spare).filter f)
  (near fun u => (s.tile u).role == .idle) <|>
    near s.lowDuty

/-- What a shadow has reported of a command's comparison is void, or all of it where the command no longer waits for one. -/
def State.voidHalves (s : State) (c : Capture) : State :=
  { s with shadow := { s.shadow with
    halves := s.shadow.halves.filter fun (h : HalfCmp) =>
      !(h.primary == c.primary && h.items.seq == c.seq && (h.role == DigestRole.shadow || !c.hold)) } }

/-- The cover enters the self-test role; the shadows of duty 5 on it are preempted (R118). -/
def State.claimCover (s : State) (u : TileIx) : State :=
  (s.each ((s.tile u).slots.filterMap id) fun s c => (s.dropPreempted u c).voidHalves c).setRole u .selfTest

/-- Tiles in rotation order from the next page index: GOOD or SPARE, their die not held out, under no other test (R271). -/
def State.rotation (s : State) : List TileIx :=
  ((List.range 144).map fun i => tileIx (s.fld HRT_BIST_NEXT 7 0 + i)).filter fun t =>
    ((s.fpOf t).st == .good || (s.fpOf t).st == .spare) && s.fld HRT_BIST_DIE_HOLD (dieOfTile t) (dieOfTile t) == 0 &&
      (s.tile t).role != .selfTest

/-- The test begins. -/
def State.startTest (s : State) (t : TileIx) : State :=
  let k := tileReg t TWD_BIST_STATUS
  (((s.setRole t .selfTest).setFld k 28 27 2).bumpFld k 15 0).unitCommand (tileAgent t) (.bist t 1)

/-- A slot on a SPARE tile: it goes straight to the test, or waits for the end of its shadow duty (R146). -/
def State.spareSlot (s : State) (t : TileIx) : State :=
  let s1 := s.setFld HRT_BIST_NEXT 15 8 t.val
  if (s.tile t).role = .idle then (s1.modTest fun x => { x with bist := some { tile := t, phase := .testing } }).startTest t
  else s1.modTest fun x => { x with bist := some { tile := t, phase := .waiting } }

/-- The next SPARE tile in rotation order is tested, or the slot is skipped and counted (R273). -/
def State.spareOrSkip (s : State) : State :=
  match s.rotation.find? fun t => (s.fpOf t).st == .spare with
  | some t => s.spareSlot t
  | none => (s.bump HRT_BIST_SKIPPED).setFld HRT_BIST_NEXT 15 8 255

/-- A duty of priority 1 to 3 takes a cover before the hand-over has moved the number: another cover is chosen, or the slot goes on
under R273, its tile keeping its place in the rotation, and an Anvil run waits again (R283). -/
def State.loseCover (s : State) (u : TileIx) : State :=
  let s1 := match s.test.bist.filter fun b => b.cover == some u && b.phase == .handOver with
    | none => s
    | some b => match s.chooseCover b.tile with
      | some c => (s.claimCover c).modTest fun x => { x with bist := some { b with cover := some c } }
      | none => (((s.modTest fun x => { x with bist := none }).freeTest b.tile).setFld HRT_BIST_NEXT 7 0 b.tile.val).spareOrSkip
  s1.each (List.range 8) fun s i =>
    match (s.test.slots.getD i none).filter fun j => j.cover == some u && j.phase == .handOver with
    | none => s
    | some j => match s.chooseCover j.tile with
      | some c => (s.claimCover c).modTest fun x => { x with slots := x.slots.set i (some { j with cover := some c }) }
      | none => (s.modTest fun x => { x with slots := x.slots.set i none
                                             queue := { j with cover := none, phase := .waiting } :: x.queue }).freeTest j.tile

/-- Requests of R281 with a tile that still waits for a slot (R282). -/
def State.reqsQueued (s : State) : Nat := (s.test.reqs.filter fun r => s.test.queue.any fun j => j.why == .request r.id).length

/-- A spare that covers a role whose number has not moved yet (R118 priority 4). -/
def State.isCover (s : State) (u : TileIx) : Bool :=
  s.test.bist.any (fun b => b.cover == some u && b.phase == .handOver) ||
    s.test.slots.any fun o => (o.map fun j => j.cover == some u && j.phase == .handOver).getD false

/-! ### The shadow of a hold-commit command (R118, R138) -/

/-- A hold-commit command takes a shadow: a free one, else one whose sampled duties it preempts, else a cover (R118, R138, R283). -/
def State.seekHold (s : State) (p : TileIx) (k : Cmd) (ord : Nat) (avoid : Option TileIx) : State :=
  if !s.shadowOn then s
  else match s.freeShadow p k.ctx avoid with
    | some sh => s.startHeld p sh k ord
    | none => match (farFirst p s.freeSpares).find? fun t => t != p && some t != avoid && s.lowDuty t with
      | some sh => (s.each ((s.tile sh).slots.filterMap id) fun s c => s.dropPreempted sh c).startHeld p sh k ord
      | none => match (farFirst p (s.tilesIn .spare)).find? fun u => u != p && some u != avoid && s.isCover u with
        | some u => (s.startHeld p u k ord).loseCover u
        | none => s

/-- The hold-commit commands that wait for a shadow. -/
def State.unshadowed (s : State) : List (TileIx × JEntry) :=
  (List.finRange 144).flatMap fun t => ((s.tile t).openEntries.filter fun e =>
    e.2.role == .primary && e.2.cmd.hold && e.2.cmpWait && !e.2.sampled).map fun e => (t, e.2)

/-- A slot has become free: hold-commit commands that wait take what they may within their hold wait (R118, R138). -/
def State.seekAll (s : State) : State := s.each s.unshadowed fun s x => s.seekHold x.1 x.2.cmd x.2.ordinal none

/-- A hold-commit command that waits for a comparison, its shadow gone, looks for another (R138). -/
def State.reseek (s : State) (p : TileIx) (seq : Word) (avoid : Option TileIx) : State :=
  match (s.tile p).slotOf seq with
  | some (k, e) =>
    if e.cmd.hold && e.role == .primary && e.cmpWait && e.isOpen then
      (s.modTile p fun x => x.setSlot k { e with sampled := false }).seekHold p e.cmd e.ordinal avoid
    else s
  | none => s

/-- The comparison of a command ends without a verdict: what its shadow reported is void, and a hold-commit command looks for another
shadow. A command in dispute keeps what its arbitration needs, and one whose shadow was abandoned before has another by now. -/
def State.unpaired (s : State) (t : TileIx) (c : Capture) : State :=
  if c.abandoned || s.disputed c.primary c.seq then s
  else (s.voidHalves c).reseek c.primary c.seq (some t)

/-- A shadow's duty ends without a verdict. -/
def State.loseDuty (s : State) (t : TileIx) (c : Capture) : State := (s.freeCapture t c.primary c.seq 6).unpaired t c

/-- Every shadow duty of a tile ends without a verdict. -/
def State.loseDuties (s : State) (t : TileIx) : State := s.each ((s.tile t).slots.filterMap id) fun s c => s.loseDuty t c

/-- A higher duty takes a spare: every shadow duty on it is abandoned (R118). -/
def State.preemptShadow (s : State) (t : TileIx) : State :=
  s.each ((s.tile t).slots.filterMap id) fun s c => (s.dropPreempted t c).unpaired t c

/-- An entry awaits a check result (R96): it computes, its passes are not all judged, or a hold-commit command waits for its comparison
(R138). A gated conservation check comes only with the step barrier, for which the later commands of the step must be done, so it does not
count here (DEDUCED, assumption log 69). -/
def JEntry.awaitsCheck (e : JEntry) : Bool :=
  e.isOpen && (e.state == .running ||
    (e.state == .complete && !e.held && (!e.allJudged || (e.cmpWait && e.role == .primary))))

/-- The entry in a slot may write output: no earlier command of the tile awaits a check result (R96). -/
def Tile.mayWrite (x : Tile) (k : Nat) : Bool := ((x.entries.dropWhile fun e => e.1 != k).drop 1).all fun e => !e.2.awaitsCheck

/-- What a RUNNING command has written by now (R203), which no command carries: by draw and slot a free amount for each of its streams and
for its resident regions, none while its writes must wait (assumption log 79). -/
def Tile.partWritten (x : Tile) (draw k : Nat) (e : JEntry) : JEntry :=
  if e.state = .running ∧ e.isOpen ∧ x.mayWrite k then
    let n := fun i => max (e.bytes.getD i 0) (Config.partWritten draw k i)
    { e with bytes := (List.range 4).map n, wrote := e.wrote || (List.range 5).any fun i => decide (n i ≠ 0) }
  else e

/-- The journal as it stands at a fence, or as it is read: RUNNING entries show what they have written. -/
def State.showWritten (s : State) (t : TileIx) : State :=
  { s.modTile t fun x => { x with jnl := x.jnl.map fun e => (e.1, x.partWritten s.free e.1 e.2) } with free := s.free + 1 }

/-- The warden's fence takes the captures of its tile with it (R198). -/
def State.fenceTile (s : State) (t : TileIx) (reason : Nat) (self : Bool) : State :=
  ((s.showWritten t).fenceWarden t reason self).each ((s.tile t).slots.filterMap id) fun s c => s.unpaired t c

/-- The tile whose capture serves a command of a primary; an abandoned one only runs to its end. -/
def State.shadowOf (s : State) (p : TileIx) (seq : Word) : Option TileIx :=
  (List.finRange 144).find? fun u => ((s.tile u).captureOf p seq).any fun c => !c.abandoned

/-- A command is gone before its comparison: the capture is abandoned, unless an arbitration judges the tiles with it (R146). -/
def State.dropComparison (s : State) (p : TileIx) (seq : Word) : State :=
  if s.disputed p seq then s
  else match s.shadowOf p seq with
    | some u => s.freeCapture u p seq 6
    | none => s

/-- A command is reissued on another tile: its shadow now serves that tile, and the comparison uses the execution there (R210). Without
a shadow, and not in dispute, a hold-commit command looks for one. -/
def State.follow (s : State) (p q : TileIx) (e : JEntry) : State :=
  let seq := e.cmd.seq
  if !e.sampled && !e.cmpWait then s
  else if s.disputed p seq then s
  else match s.shadowOf p seq with
    | some u =>
      let s1 := s.modTile u fun x => { x with
        slots := x.slots.map fun o => o.map fun c => if c.primary = p ∧ c.seq = seq then { c with primary := q } else c
        jnl := x.jnl.map fun f => if f.2.primary = some p ∧ f.2.cmd.seq = seq then (f.1, { f.2 with primary := some q }) else f }
      { s1 with shadow := { s1.shadow with
        halves := (s1.shadow.halves.filter fun (h : HalfCmp) =>
          !(h.primary == p && h.items.seq == seq && h.role == DigestRole.primary)).map fun (h : HalfCmp) =>
            if h.primary = p ∧ h.items.seq = seq then { h with primary := q } else h } }
    | none => s.reseek q seq none

end Sys2Proof.Machine
end

