-- ==== Sys2Proof/Machine/Commands.lean ====
section
/-! DEFINITION. Commands of tiles from issue to commit (R121 to R124, R202 to R204), and the checks that travel with them
(R84 to R106). -/
namespace Sys2Proof.Machine

/-! ### Issue -/

/-- Busy, stalled and idle cycles of a tile (R202). -/
def State.lightCounts (s : State) (t : TileIx) : Nat × Nat × Nat :=
  (s.reg64 (tileReg t TWD_LC_BUSY_LO) (tileReg t TWD_LC_BUSY_HI),
   s.reg64 (tileReg t TWD_LC_STALL_LO) (tileReg t TWD_LC_STALL_HI),
   s.reg64 (tileReg t TWD_LC_IDLE_LO) (tileReg t TWD_LC_IDLE_HI))

/-- A tile accepts no further command while it holds 16 open entries (R202). -/
def Tile.hasRoom (x : Tile) : Bool := decide (x.openEntries.length < 16)

/-- The clock enables of a tile's region are up: no STOP, KILL or TRIP there (R73). -/
def State.regionRuns (s : State) (t : TileIx) : Bool :=
  !((s.hl.stop ||| s.hl.kill ||| s.hl.trip).getLsbD (regionOfTile t))

/-- The sampling decision at issue (R124). A logical tile to which no shadow is assigned is not sampled in the step (R119); an assigned one
that cannot take the duty is busy. A command over the capture limit counts in TOO_LARGE only where its context has not disabled shadowing
(DESIGN CHOICE: R121 names the count under condition 2 alone; assumption log 70). -/
def State.sample (s : State) (t : TileIx) (l : LogIx) (k : Cmd) (ord : Nat) : State :=
  let x := s.ctx k.ctx
  if !isCompute k.kind || x.desc.shadowOff then s
  else if !s.fitsCapture k then s.bump HRT_SHD_TOO_LARGE
  else
    let s1 := s.modCtx k.ctx fun x => { x with eligible := x.eligible + 1 }
    if k.hold then s1.seekHold t k ord none
    else
      let smp := tget (s.tile t).sampler k.ctx.val (x.seed, 0)
      match tget? s.shadow.assign (k.ctx.val * 128 + l.val) with
      | none => s1
      | some sh =>
        if !s.shadowOn || smp.2 = 0 || !candidate smp.1 smp.2 k.step l.val ord then s1
        else
          let s2 := s1.modCtx k.ctx fun x => { x with candidates := x.candidates + 1 }
          if s2.canShadow sh then s2.startShadow t sh k ord
          else (s2.modCtx k.ctx fun x => { x with missed := x.missed + 1 }).bump HRT_SHD_MISSED_BUSY

/-- A tile accepts a command: a journal entry opens, the ordinal advances, the sampler decides (R123, R124, R202). -/
def State.accept (s : State) (t : TileIx) (l : LogIx) (k : Cmd) : State :=
  let key := k.ctx.val * 128 + l.val
  let ord := tget s.shadow.ordinals key 0
  let s1 := s.modShadow fun x => { x with ordinals := tput x.ordinals key ((ord + 1) % 65536) }
  let s2 := s1.modTile t fun x => x.push
    { cmd := k, ordinal := ord, issueTime := s.time.tb, cmpWait := k.hold && s.eligible k, consWait := k.gated }
  let s3 := s2.setNat (tileReg t TWD_SHD_ORDINAL) (k.ctx.val * 2 ^ 16 + ord)
  s3.sample t l k ord

/-- A boundary stop holds a command of a tile in its scope; in STEP mode only once its context has passed a barrier (R256). -/
def State.stopsIssue (s : State) (t : TileIx) (c : CtxIx) : Bool :=
  match s.esc.bstop with
  | none => false
  | some b => b.parts.getLsbD (s.partOfTile t).val && (!b.step || b.passed.contains c)

/-- Commands held at a tile's gate are accepted in order while the tile has room and no boundary stop holds it (R198, R202, R256). -/
def State.drainGate (s : State) (t : TileIx) (l : LogIx) : State :=
  if (s.tile t).gateClosed || (s.tile t).handing || (s.tile t).reloading then s
  else
    let held := (s.tile t).gate
    (s.modTile t fun x => { x with gate := [] }).each held fun s k =>
      if (s.ctx k.ctx).faulted then s
      else if (s.tile t).hasRoom && (s.tile t).gate == [] && !s.stopsIssue t k.ctx then s.accept t l k
      else s.modTile t fun x => { x with gate := x.gate ++ [k] }

def State.drainGateOf (s : State) (t : TileIx) : State :=
  match s.logicalOf t with
  | some l => s.drainGate t l
  | none => s

/-- Tiles whose hand-over has stopped issue again what their gates have held (R283). -/
def State.drainFreed (s : State) : State := (s.modTest fun x => { x with freed := [] }).each s.test.freed State.drainGateOf

/-- A slot has become free: hold-commit commands that wait take what they may (R118, R138), and the tiles that lost a cover to them issue again. -/
def State.seekWaiting (s : State) : State := s.seekAll.drainFreed

/-! ### Command trace (R384, R389) -/

def roleNum : JRole → Nat
  | .primary => 0
  | .shadow => 1
  | .arbiter => 2
  | .anvil => 3

/-- The stall-reason counters of a tile (R378). -/
def State.reasons (s : State) (t : TileIx) : List Nat :=
  (List.range 8).map fun r => s.reg64 (tileReg t TWD_FC_LO + 8 * r) (tileReg t TWD_FC_HI + 8 * r)

def State.traceStart (s : State) (t : TileIx) (e : JEntry) : State :=
  if s.traceSrc 20 (some e.cmd.ctx) then
    s.traceRec (s.partOfTile t).val (tileWriter t)
      [word4 0x10 e.cmd.ctx.val (s.logNum t) (roleNum e.role), BitVec.ofNat 32 s.clock, e.cmd.seq, e.cmd.tag]
  else s

/-- Eight 24-bit stall counts packed low byte first, four to a record. -/
def packStalls (l : List Nat) : List Word :=
  let n := (l.zipIdx.map fun x => min x.1 (2 ^ 24 - 1) * 2 ^ (24 * x.2)).sum
  [BitVec.ofNat 32 n, BitVec.ofNat 32 (n / 2 ^ 32), BitVec.ofNat 32 (n / 2 ^ 64)]

/-- CMD_END, and the stall records of a command that ran with the full set on (R379, R384). -/
def State.traceEnd (s : State) (t : TileIx) (e : JEntry) : State :=
  let p := (s.partOfTile t).val
  let lt := s.logNum t
  let s1 := if s.traceSrc 20 (some e.cmd.ctx) then
      s.traceRec p (tileWriter t) [word4 0x11 e.cmd.ctx.val lt e.outcome, BitVec.ofNat 32 s.clock, e.cmd.seq,
        BitVec.ofNat 32 (min (e.endC.1 - e.startC.1) (2 ^ 32 - 1))]
    else s
  if s.traceSrc 19 (some e.cmd.ctx) && e.full then
    let d := (s.reasons t).zipWith (fun a b => a - b) (e.startF ++ List.replicate 8 0)
    let h := fun ty => word4 ty lt (e.cmd.seq.toNat / 256) e.cmd.seq.toNat
    (s1.traceRec p (tileWriter t) (h 0x12 :: packStalls (d.take 4))).traceRec p (tileWriter t) (h 0x13 :: packStalls (d.drop 4))
  else s1

/-- COMMAND_ISSUE: to the tile that holds the logical number; held at the gate of a tile that is fenced, full or at a boundary;
with no holder the context faults, the notice naming the record of the loss (R39, R198, R202, R256). -/
def doCommandIssue (l : LogIx) (k : Cmd) (s : State) : State :=
  let x := s.ctx k.ctx
  if !x.used || x.faulted then s
  else if x.watchHold then s.modCtx k.ctx fun x => { x with held := x.held ++ [(l, k)] }
  else match s.holder l with
    | none => s.contextFault k.ctx (tget s.plan.losses l.val 0) k.step k.seq
    | some t =>
      if (s.tile t).gateClosed || (s.tile t).handing || (s.tile t).reloading || !(s.tile t).hasRoom || (s.tile t).gate != [] || s.stopsIssue t k.ctx then
        s.modTile t fun x => { x with gate := x.gate ++ [k] }
      else (s.accept t l k).drainFreed

/-! ### Tensor watch in TAG mode (R394) -/

/-- A watchpoint selects a command of a tile: its context and step, and in TAG mode its tag and partition. -/
def State.watched (s : State) (key : Nat) (x : Watch) (t : TileIx) (c : Cmd) : Bool :=
  match x.w with
  | none => false
  | some w => w.ctx == c.ctx && w.step == c.step && decide ((s.partOfTile t).val = key / 8) &&
      match w.sel with
      | .tag layer op _ _ => decide (c.tag.toNat / 2 ^ 20 = layer.val ∧ c.tag.toNat / 2 ^ 8 % 2 ^ 12 = op.val)
      | .address .. => true

/-- The first command of the named step starts the capture. -/
def State.watchStart (s : State) (t : TileIx) (c : Cmd) : State :=
  { s with obs := { s.obs with watches := s.obs.watches.map fun (e : Nat × Watch) =>
      if e.2.st = 1 ∧ s.watched e.1 e.2 t c then (e.1, { e.2 with st := 2 }) else e } }

/-- Execution `n` of an entry is a reissue, or a re-execution or what follows it (R171). -/
def JEntry.attempt (e : JEntry) (n : Nat) : Bool := e.origin != 255 || e.rerunAt.any fun k => decide (k ≤ n)

/-- One output stream is mirrored as a segment with its 32-byte header (R394): original address, command sequence, logical tile, attempt mark and
data. A segment without room fills the region: nothing later is captured (R396). -/
def State.mirrorOut (s : State) (t : TileIx) (e : JEntry) (key : Nat) (w : WatchDecl) (o : StreamOut × Nat) : State :=
  let x := s.watch key
  let n := x.bytes + 32 + o.1.data.length
  if dumpRoom w < x.bytes then s
  else if dumpRoom w < n then s.setWatch key { x with bytes := dumpRoom w + 1 }
  else
    (s.setWatch key { x with bytes := n }).emitOut
      (.segment w.part key (s.streamBase e.cmd o.2 + o.1.offset) e.cmd.seq (s.logNum t) (e.attempt e.execs) o.1.data)

/-- The writes of the selected streams are mirrored into the dump region of every TAG watch that captures the command (R394); the output of a
shadow or an arbiter leads nowhere (R131). -/
def State.watchMirror (s : State) (t : TileIx) (e : JEntry) (outs : List StreamOut) : State :=
  if e.role != .primary then s
  else s.each (s.obs.watches.filter fun p => p.2.st == 2 && s.watched p.1 p.2 t e.cmd) fun s p =>
    match p.2.w with
    | some w => match w.sel with
      | .tag _ _ m _ => s.each (outs.zipIdx.filter fun o => m.getLsbD o.2 && o.1.data != []) fun s o => s.mirrorOut t e p.1 w o
      | .address .. => s
    | none => s

/-! ### Start, completion, commit -/

/-- One of the two accumulator sets of a tile, cleared (R169, R170). -/
def Tile.putSet (x : Tile) (b : Bool) (l : List Bank) : Tile :=
  { x with accs := if b then x.accs.take 4 ++ l else l ++ x.accs.drop 4 }

def noBanks : List Bank := [{}, {}, {}, {}]

/-- COMMAND_START: ISSUED to RUNNING with one more execution, the start counters latched and an empty accumulator set (R169, R204);
nothing starts on a tile that is fenced, whose clock enables are down or that a boundary stop holds. -/
def doCommandStart (t : TileIx) (seq : Word) (s : State) : State :=
  match (s.tile t).slotOf seq with
  | none => s
  | some (k, e) =>
    if e.state = .issued ∧ e.isOpen ∧ (s.tile t).gateClosed = false ∧ (s.tile t).handing = false ∧ (s.tile t).reloading = false ∧
        s.regionRuns t ∧ s.stopsIssue t e.cmd.ctx = false then
      let b := !(s.tile t).ofdSet
      ((s.setFld (tileReg t TWD_WDOG) 23 0 0).modTile t fun x => ({ x with ofdSet := b, wdogCount := 0 }.putSet b noBanks).setSlot k { e with
        state := .running, execs := min 3 (e.execs + 1), startC := s.lightCounts t, startF := s.reasons t, judged := [], residue := 0, set := b, cause := none
        full := (s.reg OBS_FULL_EN).getLsbD (s.partOfTile t).val }).traceStart
        t e |>.watchStart t e.cmd
    else s

/-- A primary's write to a resident region waits until its start copy has been read out (R129). -/
def State.copyHolds (s : State) (t : TileIx) (e : JEntry) : Bool := e.sampled && e.cmd.startCopy && (s.tile t).copies.contains e.cmd.seq

/-- A write to a word of the tile's SRAM (R214, R215): data that bears Slag marks the word and leaves its code in TWD_SLAG_LAST; a write of the whole
word clears the marker, a partial one leaves it. -/
def State.writeSram (s : State) (t : TileIx) (w : SramWord) : State :=
  if w.code ≠ 0 then
    (s.modTile t fun x => { x with slag := if x.slag.contains w.addr then x.slag else w.addr :: x.slag }).setNat (tileReg t TWD_SLAG_LAST)
      (w.code.val * 2 ^ 16 + w.addr % 2 ^ 16)
  else if w.covers then s.modTile t fun x => { x with slag := x.slag.filter fun a => a != w.addr }
  else s

/-- What a command has written to the SRAM of its tile, in order; the output of a shadow or an arbiter leads nowhere (R131). DESIGN CHOICE
(assumption log 116): the words come with the completion. -/
def State.writeSrams (s : State) (t : TileIx) (e : JEntry) (outs : List StreamOut) : State :=
  if e.role != .primary then s else s.each (outs.flatMap StreamOut.words) fun s w => s.writeSram t w

/-- COMMAND_COMPLETE: RUNNING to COMPLETE with the output digest and end counters (R169, R204); a hold-commit command, a shadow or an
arbiter whose checks have passed reports its items (R133). Where its writes must still wait (R96, R129), or the tile's clock enables are
down, it cannot have completed. DESIGN CHOICE (assumption log 112): a merged command executed again is counted again in TWD_OFD_MERGED. -/
def doCommandComplete (t : TileIx) (seq : Word) (outs : List StreamOut) (s : State) : State :=
  match (s.tile t).slotOf seq with
  | none => s
  | some (k, e) =>
    if e.state = .running ∧ (s.tile t).gateClosed = false ∧ s.regionRuns t ∧ (s.tile t).mayWrite k ∧ s.copyHolds t e = false then
      let four := fourBanks (outs.zipIdx.map fun o => s.streamDigest e.cmd o.2 o.1)
      let e1 := { e with
        state := .complete, wrote := true, ofd := (four.foldl Bank.combine {}).ofd, bytes := fourBytes outs
        endC := s.lightCounts t, passes := e.cmd.passes }
      let s0 := (s.writeSrams t e outs).modTile t fun x => (x.setSlot k e1).putSet e.set four
      let s1 := (if 4 < e.cmd.streams then s0.bump (tileReg t TWD_OFD_MERGED) else s0).watchMirror t e1 outs
      s1.reportHeld t seq
    else s

/-- Every check of a complete command has passed: no check failure stands, its checked passes are judged, and nothing it waits
for is outstanding (R95, R111, R138). -/
def JEntry.mayCommit (e : JEntry) : Bool :=
  e.state == .complete && e.isOpen && !e.held && !e.cmpWait && !e.consWait && e.role == .primary && e.allJudged

/-- Tokens consumed under a committed command leave the queue and their producers' store (R206); till then a re-execution or a reissue may
need them again. Those served from the spill region were the oldest (R231). -/
def Queue.release (n : Nat) (q : Queue) : Queue :=
  let m := n - q.served.length
  { q with served := q.served.drop n, tokens := q.tokens.drop m, depth := q.depth - m }

def Tile.release (x : Tile) (k : Cmd) : Tile :=
  k.sources.foldl (fun x o => match o with
    | .queue q n _ => { x with queues := tmod x.queues (k.ctx.val * 256 + q.val) {} (Queue.release n) }
    | _ => x) x

/-- The consumed-position counters (TWD_QPOS, R258) advance by what a command has consumed; what the spill region served advanced them as it was
read. -/
def State.countConsumed (s : State) (t : TileIx) (k : Cmd) : State :=
  s.each k.sources fun s o => match o with
    | .queue q n _ => s.setReg (itemKey (tileReg t TWD_QPOS) q.val) (s.reg (itemKey (tileReg t TWD_QPOS) q.val) +
        BitVec.ofNat 32 (n - (tget (s.tile t).queues (k.ctx.val * 256 + q.val) {}).served.length))
    | _ => s

/-- The commit (R95, R204): COMMITTED, completion released to consumers and the consumed tokens to their producers (R206), and for a sampled
command the primary's items are reported (R133). -/
def State.commit (s : State) (t : TileIx) (k : Nat) (e : JEntry) : State :=
  let e1 := { e with state := .committed, outcome := if e.outcome = 2 then 2 else 1 }
  let s1 := (s.countConsumed t e.cmd).modTile t fun x => (x.setSlot k e1).release e.cmd
  let s2 := s1.modCtx e.cmd.ctx fun x => { x with
    commits := x.commits + 1, lastCommitAt := s.time.tb, lastCommit := tput x.lastCommit (s.logNum t) e.cmd.seq }
  let s3 := s2.traceEnd t e1
  let s4 := if e.sampled && !e.cmd.hold then s3.wardenReport (tileAgent t) (.shadowDigest t .primary t e1.items) else s3
  (s4.drainGateOf t).drainFreed

/-- COMMAND_COMMIT. -/
def doCommandCommit (t : TileIx) (seq : Word) (s : State) : State :=
  match (s.tile t).slotOf seq with
  | none => s
  | some (k, e) => if e.mayCommit && !(s.tile t).gateClosed then s.commit t k e else s

/-! ### When a check fails (R98 to R103) -/

/-- All of a command's operands are still available (R99): what it has consumed from a queue lies in the context's replay window, of at most
1 MiB. -/
def replayable (d : CtxDesc) (k : Cmd) : Bool := k.sources.all fun o =>
  match o with
  | .external _ => true
  | .resident w => !w
  | .queue _ _ n => decide (n ≤ min d.replayWindow (2 ^ 20))

/-- The location registers of the last failing pass (R115). -/
def State.setLocation (s : State) (t : TileIx) (seq : Word) (pass : Nat) (c : Cause) (l : Location) : State :=
  ((((s.setNat (tileReg t TWD_RES_LOC) (l.cols * 2 ^ 24 + l.rows * 2 ^ 16 + l.col * 2 ^ 8 + l.row)).setNat
    (tileReg t TWD_RES_SYND) (bit l.single 31 + l.colSynd * 2 ^ 16 + l.rowSynd)).setReg (tileReg t TWD_RES_SEQ) seq).setNat
    (tileReg t TWD_RES_PASS) (pass % 65536)).setFld (tileReg t TWD_RES_STATUS) 26 24 (causeNum c)

/-- Outcome, commit_held and retry_active of TWD_RES_STATUS. -/
def State.setOutcome (s : State) (t : TileIx) (o : Nat) (held retry : Bool) : State :=
  s.setFld (tileReg t TWD_RES_STATUS) 31 27 (o * 4 + bit held 1 + bit retry 0)

/-- A later command of the tile that is RUNNING returns to ISSUED (R98 step 2). -/
def abandonSuccessor (seq : Word) (x : Tile) : Tile :=
  { x with jnl := x.jnl.map fun p =>
      if p.2.state = .running ∧ p.2.isOpen ∧ later p.2.cmd.seq seq then (p.1, { p.2 with state := .issued }) else p }

/-- The second failure of a command (R98 steps 5 and 6): that of one which a re-placement has reissued fences nothing. -/
def State.repeatFail (s : State) (t : TileIx) (k : Nat) (e : JEntry) (c : Cause) (pass row col : Nat) : State :=
  let s1 := (s.modTile t fun x => { (x.setSlot k { e with state := .complete, held := true, outcome := 3, residue := 2 }) with
    retry := none }).bump (tileReg t TWD_RES_REPEAT)
  match e.reissuedFor.filter fun _ => e.role == .primary with
  | some first =>
    (s1.setOutcome t 3 true false).wardenReport (tileAgent t)
      (.residueInputSuspect t e.cmd.ctx e.cmd.step e.cmd.seq c pass row col first.val)
  | none =>
    ((s1.modTile t fun x => { x with failedTwice := some s.time.tb, detectAt := some s.time.tb }).setOutcome t 2 true false).wardenReport (tileAgent t)
      (.residueRepeat t e.cmd.ctx e.cmd.seq c pass row col)

/-- A check failure (R98): commit held, successor abandoned, then one of re-execution, RESIDUE_NONIDEM or RESIDUE_NO_REPLAY. A
failure in the re-execution is the second one; a further failure of the same execution joins its procedure (R102). DESIGN CHOICE
(assumption log 71): work run as a shadow or as an arbiter is re-executed whatever its command is marked, since R101 re-executes it only
to judge the tile; R99 and R100 are read as rules of primaries. -/
def State.checkFail (s : State) (t : TileIx) (k : Nat) (e : JEntry) (c : Cause) (pass row col : Nat) : State :=
  match (s.tile t).retry with
  | some (q, _) => if q = e.cmd.seq then s.repeatFail t k e c pass row col else s
  | none =>
    if e.held || (s.tile t).gateClosed then s
    else
      let e1 := { e with held := true, state := .complete, outcome := 3, cause := some c }
      let s1 := s.modTile t fun x => { abandonSuccessor e.cmd.seq (x.setSlot k e1) with ofdSet := e.set }.putSet e.set noBanks
      if !e.cmd.idempotent && e.role == .primary then
        (s1.setOutcome t 5 true false).wardenReport (tileAgent t)
          (.residueNonidem t e.cmd.ctx e.cmd.step e.cmd.seq c pass row col)
      else if !replayable (s.ctx e.cmd.ctx).desc e.cmd && e.role == .primary then
        (s1.setOutcome t 4 true false).wardenReport (tileAgent t)
          (.residueNoReplay t e.cmd.ctx e.cmd.step e.cmd.seq c pass row col)
      else
        let e2 := { e1 with state := .running, execs := min 3 (e.execs + 1), ofd := ⟨0, 0⟩, bytes := [0, 0, 0, 0], judged := [], residue := 0,
                            startC := s.lightCounts t, endC := (0, 0, 0), passes := 0, cause := none, rerunAt := some (min 3 (e.execs + 1)) }
        let s2 := (s1.modTile t fun x => { (x.setSlot k e2) with
          retry := some (e.cmd.seq, c)
          slots := x.slots.map fun o => o.map fun cp =>
            if e.primary = some cp.primary ∧ cp.seq = e.cmd.seq ∧ e.role = .shadow then { cp with abandoned := true, hold := false } else cp
          }).setFld (tileReg t TWD_RES_STATUS) 28 27 3
        if e.role = .shadow then
          ((s2.bump (tileReg t TWD_SHD_ABANDONED)).each (e.primary.bind fun p => (s.tile t).captureOf p e.cmd.seq).toList fun s c =>
            s.unpaired t c)
        else s2

/-! ### The pass result (R85 to R93, R103 to R105) -/

/-- TWD_CHECK_INJECT is armed (R105). -/
def State.injectArmed (s : State) (t : TileIx) : Bool := s.fld (tileReg t TWD_CHECK_INJECT) 31 31 == 1

/-- The offset injected into the next checked pass: the armed one (R105), else the warden's own (R104). DESIGN CHOICE (assumption log 72):
where both are pending, the armed one goes first and the warden's own waits. -/
def State.injection (s : State) (t : TileIx) : Option (Nat × Nat × Nat) :=
  if s.injectArmed t then
    some (s.fld (tileReg t TWD_CHECK_INJECT) 6 0, s.fld (tileReg t TWD_INJECT_COL) 6 0, s.fld (tileReg t TWD_CHECK_INJECT) 25 13)
  else (s.tile t).inj

def State.useInjection (s : State) (t : TileIx) : State :=
  if s.injectArmed t then s.setFld (tileReg t TWD_CHECK_INJECT) 31 31 0 else s.modTile t fun x => { x with inj := none }

/-- What an injected row or column shows (R104): the syndrome less d, or agreement where the comparator reports it falsely. -/
def observed (falseAgree : Bool) (synd d : Int) : Int := if falseAgree then 0 else res (synd - d)

/-- An injected row or column that shows agreement instead of -d (R104). -/
def agreesFalsely (falseAgree : Bool) (synd d : Int) : Bool := observed falseAgree synd d == 0 && res (-d) != 0

/-- CHECKER_FAULT (R104): reported at once; the command's commit is withheld. -/
def State.checkerFault (s : State) (t : TileIx) (k : Nat) (e : JEntry) (pass row col : Nat) : State :=
  ((s.modTile t fun x => { (x.setSlot k { e with held := true, cause := some .checker }) with detectAt := some s.time.tb }).setOutcome t 6 true
    false).wardenReport (tileAgent t)
    (.checkerFault t e.cmd.ctx pass row col)

def noLocation : Location := ⟨0, 0, 0, 0, 0, 0, false⟩

/-- A checked pass is judged by its comparators' rails, by the injection that applies, and by its syndromes. -/
def State.judge (s : State) (t : TileIx) (k : Nat) (e : JEntry) (p : PassIn) (inj : Option (Nat × Nat × Nat)) : State :=
  let e0 := e.cmd.e0.toInt
  let l := if p.falseAgree then noLocation else locate e0 p
  if p.rails != .proper then (s.setLocation t p.seq p.pass.val .checker (locate e0 p)).checkFail t k e .checker p.pass.val l.row l.col
  else match inj.filter fun i => agreesFalsely p.falseAgree (syndRow e0 p i.1) i.2.2 || agreesFalsely p.falseAgree (syndCol e0 p i.2.1) i.2.2 with
    | some i => (s.setLocation t p.seq p.pass.val .checker (locate e0 p)).checkerFault t k e p.pass.val i.1 i.2.1
    | none =>
      if l.rows = 0 ∧ l.cols = 0 then
        let s1 := s.modTile t fun x => x.setSlot k { e with judged := p.pass.val :: e.judged, residue := 1 }
        (if inj.isSome then s1.bump (tileReg t TWD_INJECT_COUNT) else s1).reportHeld t p.seq
      else (s.setLocation t p.seq p.pass.val .residue l).checkFail t k e .residue p.pass.val l.row l.col

/-- PASS_CHECK_RESULT: each pass of an execution is judged once (R88); a pass with an out-of-range term is counted and not compared (R93);
one of an execution that is over is counted and decides nothing (R102). The armed injection is used up by the next checked pass, also where
its row or column lies outside it (R105); the warden's own waits for a pass that is large enough (DESIGN CHOICE: R104 lets the warden
vary row and column and does not speak of small passes; assumption log 72). -/
def doPassCheckResult (t : TileIx) (p : PassIn) (s : State) : State :=
  match (s.tile t).slotOf p.seq with
  | none => s
  | some (k, e) =>
    let e0 := e.cmd.e0.toInt
    if !isBlockInt e.cmd.kind || e.state == .issued || e.state == .committed || (s.tile t).gateClosed || !s.regionRuns t ||
        !(s.tile t).mayWrite k then s
    else if p.exec ≠ e.execs then
      (if passChecked e0 p then s.add64 (tileReg t TWD_RES_CHECKED_LO) (tileReg t TWD_RES_CHECKED_HI) 1 else s.bump (tileReg t TWD_RES_UNCHECKED))
    else if e.judged.contains p.pass.val || decide (e.cmd.passes ≤ p.pass.val) then s
    else if !passChecked e0 p then
      ((s.bump (tileReg t TWD_RES_UNCHECKED)).modTile t fun x => x.setSlot k { e with judged := p.pass.val :: e.judged, wrote := true }).reportHeld
        t p.seq
    else
      let s1 := (s.add64 (tileReg t TWD_RES_CHECKED_LO) (tileReg t TWD_RES_CHECKED_HI) 1).modTile t fun x =>
        { x with sinceInj := x.sinceInj + 1 }
      let inj := (s1.injection t).filter fun i => decide (i.1 < passRows p ∧ i.2.1 < passCols p)
      let s2 := if inj.isSome || s1.injectArmed t then s1.useInjection t else s1
      s2.judge t k { e with wrote := true } p inj

/-- A parity or converter failure of an execution of a command: counted where it has a counter, then the procedure of R98; of an
execution that is over it decides nothing, and a re-execution that STOP has frozen fails no check (R102). -/
def State.otherCheck (s : State) (t : TileIx) (seq : Word) (c : Cause) (pass exec : Nat) (counter : Option Nat) : State :=
  let s1 := match counter with
    | some r => s.bump (tileReg t r)
    | none => s
  match (s1.tile t).slotOf seq with
  | none => s1
  | some (k, e) =>
    if e.state == .issued || e.state == .committed || e.execs != exec ||
        ((s1.tile t).retry.any fun r => r.1 == seq) && !s1.regionRuns t then s1
    else (s1.setLocation t seq pass c noLocation).checkFail t k e c pass 0 0

/-- INDEX_PARITY_ERROR (R106). -/
def doIndexParityError (t : TileIx) (seq : Word) (pass exec : Nat) (s : State) : State :=
  s.otherCheck t seq .indexParity pass exec (some TWD_IDX_PARITY)

/-- OPERAND_PARITY_ERROR (R113). -/
def doOperandParityError (t : TileIx) (seq : Word) (pass exec : Nat) (s : State) : State :=
  s.otherCheck t seq .operandParity pass exec none

/-- CONVERTER_MISMATCH (R94). -/
def doConverterMismatch (t : TileIx) (seq : Word) (pass exec : Nat) (s : State) : State :=
  s.otherCheck t seq .converter pass exec (some TWD_CONV_MISMATCH)

/-- CHECKER_INJECTION (R104): once in every injection interval of checked passes, with a nonzero offset. -/
def doCheckerInjection (t : TileIx) (row : Fin 128) (col : Fin 96) (d : Nat) (s : State) : State :=
  if 2 ^ s.fld (tileReg t TWD_INJECT_INTERVAL) 4 0 ≤ (s.tile t).sinceInj ∧ d % 8191 ≠ 0 then
    s.modTile t fun x => { x with inj := some (row.val, col.val, d % 8191), sinceInj := 0 }
  else s

/-- REEXEC_RESULT (R98 steps 4 to 6, R101): a re-execution that is complete and passed commits as RESIDUE_TRANSIENT, with the pass and
location that the warden holds (R116), its residue verdict passed where the residue lanes check it (R114, R133); a failed one is the second failure, at the location given. STOP freezes it (R102). -/
def doReexecResult (t : TileIx) (seq : Word) (failed : Bool) (c : Cause) (pass : Nat) (l : Location) (s : State) : State :=
  match (s.tile t).slotOf seq, (s.tile t).retry with
  | some (k, e), some (q, c0) =>
    if q ≠ seq ∨ (s.tile t).gateClosed ∨ !s.regionRuns t then s
    else if failed then (s.setLocation t seq pass c l).repeatFail t k e c pass l.row l.col
    else if e.state ≠ .complete then s
    else
      let e1 := { e with
        held := false, outcome := 2, judged := List.range e.cmd.passes, wrote := true, cause := none
        residue := if !isBlockInt e.cmd.kind || e.cmd.passes == 0 then 0 else if e.judged == [] then 1 else e.residue }
      let s1 := (((s.modTile t fun x => { (x.setSlot k e1) with retry := none }).bump (tileReg t TWD_RES_TRANSIENT)).setOutcome t 1
        false false).wardenReport (tileAgent t) (.residueTransient t e.cmd.ctx c0 (s.fld (tileReg t TWD_RES_PASS) 15 0)
          (s.fld (tileReg t TWD_RES_LOC) 6 0) (s.fld (tileReg t TWD_RES_LOC) 14 8))
      if e.role = .shadow then s1.each e.primary.toList fun s p => (s.freeCapture t p seq 6).seekWaiting
      else if e1.mayCommit then s1.commit t k e1 else s1.reportHeld t seq
  | _, _ => s

/-- SELF_FENCE_TIMER (R47): 8 µs after the second mismatch with no fence command, the warden fences its own tile. -/
def doSelfFenceTimer (t : TileIx) (s : State) : State :=
  if s.time.refclk ∧ (s.tile t).failedTwice.isSome ∧ (s.tile t).gateClosed = false then s.fenceTile t 1 true else s

/-! ### Meanings -/

def execCommandIssue (l : LogIx) (k : Cmd) (s : State) : Res := done (doCommandIssue l k s)
def execCommandStart (t : TileIx) (seq : Word) (s : State) : Res := done (doCommandStart t seq s)
def execCommandComplete (t : TileIx) (seq : Word) (outs : List StreamOut) (s : State) : Res := done (doCommandComplete t seq outs s)
def execCommandCommit (t : TileIx) (seq : Word) (s : State) : Res := done (doCommandCommit t seq s)
def execPassCheckResult (t : TileIx) (p : PassIn) (s : State) : Res := done (doPassCheckResult t p s)
def execIndexParityError (t : TileIx) (seq : Word) (pass exec : Nat) (s : State) : Res := done (doIndexParityError t seq pass exec s)
def execOperandParityError (t : TileIx) (seq : Word) (pass exec : Nat) (s : State) : Res := done (doOperandParityError t seq pass exec s)
def execConverterMismatch (t : TileIx) (seq : Word) (pass exec : Nat) (s : State) : Res := done (doConverterMismatch t seq pass exec s)
def execCheckerInjection (t : TileIx) (row : Fin 128) (col : Fin 96) (d : Nat) (s : State) : Res :=
  done (doCheckerInjection t row col d s)
def execReexecResult (t : TileIx) (seq : Word) (failed : Bool) (c : Cause) (pass : Nat) (l : Location) (s : State) : Res :=
  done (doReexecResult t seq failed c pass l s)
def execSelfFenceTimer (t : TileIx) (s : State) : Res := done (doSelfFenceTimer t s)

end Sys2Proof.Machine
end

