-- ==== Sys2Proof/Machine/Shadow.lean ====
section
/-! DEFINITION. The shadow pool: sampler updates, comparison, arbitration, watch (R117 to R154). -/
namespace Sys2Proof.Machine

/-- Data of the shadow records (R154); a page index that an event has none of is 255. -/
def shadowData (c : CtxIx) (step seq : Word) (p s s2 : Nat) : List (List Byte) := [i1 c.val, iw step, iw seq, i1 p, i1 s, i1 s2]

def Arb.data (a : Arb) : List (List Byte) := shadowData a.ctx a.step a.seq a.p.val a.s.val ((a.s2.map Fin.val).getD 255)

/-! ### Captures -/

/-- SAMPLER_UPDATE (R122). -/
def doSamplerUpdate (t : TileIx) (c : CtxIx) (seed : Word64) (r : Fin 16) (s : State) : State :=
  s.modTile t fun x => { x with sampler := tput x.sampler c.val (seed, r.val) }

/-- START_COPY_DONE (R127, R129): the oldest copy is read out, and a primary write that waited on it goes on; the cycles that it waited are
counted here and as check retry. -/
def doStartCopyDone (t : TileIx) (waited : Nat) (s : State) : State :=
  match (s.tile t).copies with
  | [] => s
  | _ :: rest => (s.modTile t fun x => { x with copies := rest, retryOwed := x.retryOwed + waited }).bump (tileReg t TWD_SHD_START_WAIT) waited

/-- The capture that fills on a tile (R128, R130): of the captures whose primary still executes the command, so that its operands still
stream, the one taken last. -/
def State.filling (s : State) (t : TileIx) : Option Capture :=
  minBy (fun (c : Capture) => (s.tile t).pushed - (((s.tile t).dutyOf c.primary c.seq).map fun e => e.2.serial).getD 0)
    (((s.tile t).slots.filterMap id).filter fun c => ((s.tile c.primary).slotOf c.seq).any fun e => e.2.state == .issued || e.2.state == .running)

/-- MULTICAST_OVERRUN (R128): the shadow command whose capture overran is abandoned and counted. -/
def doMulticastOverrun (t : TileIx) (s : State) : State :=
  match s.filling t with
  | none => s
  | some c =>
    let s1 := ((s.freeCapture t c.primary c.seq 6).bump HRT_SHD_MISSED_BUSY).bump (tileReg t TWD_SHD_ABANDONED)
    (((s1.modEntry c.primary c.seq fun e => { e with sampled := false }).unpaired t c).modCtx c.ctx fun x => { x with missed := x.missed + 1 }).seekWaiting

/-- HOLD_WAIT_EXPIRY (R138): with no shadow serving it, a hold-commit command commits unverified, or its context faults. DESIGN CHOICE
(assumption log 74): hold_policy and the capture limit are taken as they stand when they are needed; R125 has a new policy take effect at the
context's next step barrier, and which of its settings that delays beyond the rates of R126 is left open. -/
def doHoldWaitExpiry (t : TileIx) (seq : Word) (s : State) : State :=
  match (s.tile t).slotOf seq with
  | none => s
  | some (k, e) =>
    if e.cmpWait && !e.sampled && e.isOpen then
      let data := shadowData e.cmd.ctx e.cmd.step seq t.val 255 255
      if s.fld HRT_SHD_POLICY 12 12 = 0 then
        let e1 := { e with cmpWait := false }
        let s1 := (s.modTile t fun x => x.setSlot k e1).emit ⟨0, 0, e.cmd.ctx.val, 0x0206, data⟩
        if e1.mayCommit && !(s.tile t).gateClosed then s1.commit t k e1 else s1
      else (s.emit ⟨2, 0, e.cmd.ctx.val, 0x0207, data⟩).contextFault e.cmd.ctx (codeOf 2 0 e.cmd.ctx.val 0x0207) e.cmd.step seq
    else s

/-! ### Watch (R120) -/

/-- Place a tile on watch for the watch period, counted in operating time. -/
def State.watchOn (s : State) (t : TileIx) : State :=
  (s.modFp t fun f => { f with watch := some (s.opTime + s.fld HRT_SHD_WATCH 9 0 * 3600 * 1024) }).epochUp

/-- WATCH_PERIOD_EXPIRY. -/
def doWatchPeriodExpiry (t : TileIx) (s : State) : State :=
  match (s.fpOf t).watch with
  | some w => if w ≤ s.opTime then (s.modFp t fun f => { f with watch := none }).epochUp else s
  | none => s

/-! ### Comparison (R133, R136) -/

/-- Two sets of items agree (R133). -/
def itemsAgree (a b : CmpItems) : Bool :=
  a.ofd == b.ofd && a.bytes == b.bytes && a.residue == b.residue && a.converterOk == b.converterOk && a.parityOk == b.parityOk

/-- The commit that waited for a comparison goes on (R138). -/
def State.releaseHold1 (s : State) (t : TileIx) (seq : Word) : State :=
  match (s.tile t).slotOf seq with
  | none => s
  | some (k, e) =>
    let e1 := { e with cmpWait := false }
    let s1 := s.modTile t fun x => x.setSlot k e1
    if e1.mayCommit && e.cmpWait && !(s.tile t).gateClosed then s1.commit t k e1 else s1

/-- Agreement: counted as compared, the slot is freed. -/
def State.agreed (s : State) (p sh : TileIx) (c : CtxIx) (seq : Word) : State :=
  ((((s.add64 HRT_SHD_SAMPLED_LO HRT_SHD_SAMPLED_HI 1).modCtx c fun x => { x with compared := x.compared + 1 }).freeCapture sh p seq
    0).releaseHold1 p seq).seekWaiting

/-- An arbitration of this primary that waits or runs takes a later disagreement in (R145). -/
def State.pendingArb (s : State) (p : TileIx) : Bool := s.allArbs.any fun a => a.p == p

def joinArb (j : Arb) (a : Arb) : Arb :=
  if a.p = j.p then { a with also := a.also ++ [⟨j.s, j.ctx, j.step, j.seq, j.ordinal, j.held, j.idempotent⟩] } else a

/-- A case of R143 whose kernels wait or run takes it in likewise. -/
def joinWhy (j : Arb) : AnvilWhy → AnvilWhy
  | .noArb a => .noArb (joinArb j a)
  | w => w

/-- Disagreement: counted, and an arbitration is queued in arrival order. -/
def State.disagreed (s : State) (p sh : TileIx) (c : CtxIx) (ip ish : CmpItems) : State :=
  let e := ((s.tile p).slotOf ip.seq).map fun x => x.2
  let s1 := (s.bump HRT_SHD_DISAGREE).modCtx c fun x => { x with compared := x.compared + 1 }
  let s2 := s1.add64 HRT_SHD_SAMPLED_LO HRT_SHD_SAMPLED_HI 1
  let a : Arb := ⟨p, sh, c, (e.map fun e => e.cmd.step).getD 0, ip.seq, (e.map JEntry.ordinal).getD 0, s.logNum p,
    (e.map fun e => e.cmpWait).getD false, (e.map fun e => e.cmd.idempotent).getD true, none, false, [], ip, ish⟩
  if s.pendingArb p then
    { s2 with
      shadow := { s2.shadow with
        waiting := s2.shadow.waiting.map (joinArb a), running := s2.shadow.running.map fun o => o.map (joinArb a) }
      test := { s2.test with
        queue := s2.test.queue.map fun j => { j with why := joinWhy a j.why }
        slots := s2.test.slots.map fun o => o.map fun j => { j with why := joinWhy a j.why } } }
  else s2.modShadow fun x => { x with waiting := x.waiting ++ [a] }

/-- Items of a primary or a shadow arrive: the comparison is made at the later one. -/
def State.takeItems (s : State) (t : TileIx) (role : DigestRole) (p : TileIx) (it : CmpItems) : State :=
  let other := s.shadow.halves.find? fun h => h.primary == p && h.items.seq == it.seq && h.role != role
  match other with
  | none =>
    if (s.shadowOf p it.seq).isSome then s.modShadow fun x => { x with halves := x.halves ++ [⟨t, p, role, it⟩] } else s
  | some h =>
    let s1 := s.modShadow fun x => { x with halves := x.halves.erase h }
    let sh := if role = .shadow then t else h.tile
    let ip := if role = .shadow then h.items else it
    let ish := if role = .shadow then it else h.items
    match (s.tile sh).captureOf p it.seq with
    | none => s1
    | some c =>
      if c.abandoned then (s1.loseDuty sh c).seekWaiting
      else if itemsAgree ip ish then s1.agreed p sh c.ctx it.seq
      else s1.disagreed p sh c.ctx ip ish

/-! ### Arbitration (R140 to R146) -/

/-- Choice of S2 (R140): a spare not on watch, off P's and S's dies, else off P's die; of each kind one without a duty first, then
one whose duty of priority 3 to 5 it preempts. -/
def State.chooseArbiter (s : State) (p sh : TileIx) : Option TileIx :=
  let idle := fun t => (s.tile t).role == .idle
  let busy := fun t => (s.tile t).role == .shadow && !s.inArb t || s.isCover t
  let c := (s.tilesIn .spare).filter fun t => (s.fpOf t).watch == none && t != sh && (idle t || busy t)
  let pick := fun l => (l.find? idle) <|> l.head?
  (pick (c.filter fun t => dieOfTile t != dieOfTile p && dieOfTile t != dieOfTile sh)) <|> pick (c.filter fun t => dieOfTile t != dieOfTile p)

def State.freeArbSlot (s : State) : Option Nat := (List.range 2).find? fun i => s.shadow.running.getD i none == none

/-- The captures of the disputed commands are freed. -/
def State.freeArb (s : State) (a : Arb) (outcome : Nat) : State := s.each a.cases fun s b => s.freeCapture b.s b.p b.seq outcome

/-- The commits that waited for the verdict go on (R138). -/
def State.releaseArb (s : State) (a : Arb) : State :=
  s.each a.cases fun s b => s.each (b.p :: ((s.holder (Fin.ofNat 128 b.logical)).filter fun u => u != b.p && b.logical < 128).toList)
    fun s u => s.releaseHold1 u b.seq

/-- The step of each disputed command is marked, and a notice names the command (R137, R145). -/
def State.doubt (s : State) (a : Arb) (outcome mark : Nat) (code : Word) : State :=
  s.each a.cases fun s b => (s.markStep b.ctx b.step mark).shadowNotice b outcome mark code

/-- ARBITRATION_START: the oldest disagreement takes a slot; with no S2 the case of R143 begins with S's Anvil kernels. -/
def doArbitrationStart (s : State) : State :=
  match s.shadow.waiting, s.freeArbSlot with
  | a :: rest, some i =>
    let s1 := s.modShadow fun x => { x with waiting := rest }
    match s1.chooseArbiter a.p a.s with
    | none => ((s1.freeArb a 0).setRole a.s .selfTest).requestAnvil a.s (.noArb a) allKernels
    | some u =>
      let s2 := ((s1.preemptShadow u).setRole u .arbiter).modShadow fun x => { x with running := x.running.set i (some { a with s2 := some u }) }
      s2.loseCover u
  | _, _ => s

/-- The arbitration ends: S2 and S's slot are free, and the arbitration slot with them. -/
def State.endArb (s : State) (i : Nat) (a : Arb) : State :=
  let s1 := (s.freeArb a 0).modShadow fun x => { x with running := x.running.set i none }
  match a.s2 with
  | some u =>
    let s2 := s1.freeCapture u a.p a.seq 0
    if (s2.fpOf u).st = .spare ∧ (s2.tile u).role = .arbiter then s2.setRole u .idle else s2
  | none => s1

/-- The disputed commands with distinct shadows, first to last: what a verdict says of S it says of each (R145). -/
def Arb.shadows (a : Arb) : List Arb := a.cases.foldl (fun l b => if l.any fun c => c.s == b.s then l else l ++ [b]) []

/-- S is suspect (R142): on watch already it is fenced, else its kernels decide (R120). -/
def State.suspectS (s : State) (a : Arb) : State :=
  let s1 := s.emit ⟨1, 1, a.s.val, 0x0201, a.data⟩
  if (s.fpOf a.s).watch.isSome then s1.orderFence a.s 3 (some ⟨3, 1, a.s.val, 0x0202, a.data⟩)
  else (s1.setRole a.s .selfTest).requestAnvil a.s (.sSuspect a) allKernels

/-- P has been fenced on another ground, or is being fenced: the verdict adds only the record and the notices (R146). -/
def State.gone (s : State) (p : TileIx) : Bool := (s.fpOf p).st == .fenced || (tget? s.plan.fencing p.val).isSome

/-- P is suspect (R139, R142): fenced, its number to the preferred spare; the step diverged unless the command was held, and a held command that
has been reissued by now looks for a shadow where it stands. -/
def State.suspectP (s : State) (a : Arb) (code outcome : Nat) (prefer : Option TileIx) : State :=
  let was := s.gone a.p
  let e : Event := ⟨3, 1, a.p.val, code, a.data⟩
  let s1 := if was then s.emit e else s.orderFence a.p 3 (some e) prefer
  let s2 := s1.each a.cases fun s b =>
    if !b.held then (s.when (!was) fun s => s.markStep b.ctx b.step 1).oweNotice b outcome 1 e.word
    else if was || b.idempotent then s else s.contextFault b.ctx e.word b.step b.seq
  let s3 := s2.each (a.cases.filter Arb.held) fun s b =>
    s.each ((s.holder (Fin.ofNat 128 b.logical)).filter fun u => u != b.p).toList fun s u => s.reseek u b.seq none
  s3

/-- The scrub of the regions that a disputed command reads (R141, R142): requests of the Hearth itself, for as long as the queue has room
(R173). DESIGN CHOICE (assumption log 67): as a tensor of 32-bit units under key set 0, since no declaration names one. -/
def State.scrubSources (s : State) (k : Cmd) : State :=
  s.each (k.sources.filterMap fun o => match o with
    | .external r => some r
    | _ => none) fun s r =>
    if (s.fn 4).st = .on ∧ s.ofd.queue.length < 16 then
      s.modOfd fun o => { o with queue := o.queue ++ [{ who := none, d := ⟨k.ctx, r, 3, 0, 0⟩ }] }
    else s

/-- What the record of an unresolved case adds (R142): the state of the inputs, and the three digests, P, S, S2. -/
def Arb.inputs (a : Arb) (parity scrub : Bool) (it : CmpItems) : List (List Byte) :=
  i4 (bit parity 0 + bit scrub 1) :: [a.itemsP.ofd, a.itemsS.ofd, it.ofd].flatMap fun o => [i8 o.lane0, i8 o.lane1]

/-- Neither agrees (R142): the capture is read again, its source regions are scrubbed, and the kernels of every tile concerned run.
DESIGN CHOICE (assumption log 73): this holds for a tile already on watch too; R120 has a tile on watch that is found suspect again fenced
without a second run, and R142 and R144 find no tile suspect but say that kernels decide. -/
def State.unresolved (s : State) (a : Arb) (it : CmpItems) (k : Option Cmd) : State :=
  let st := Config.inputState s.free
  let s0 := { s with free := s.free + 1 }.each k.toList State.scrubSources
  let s1 := (s0.emit ⟨2, 0, a.ctx.val, 0x0204, a.data ++ a.inputs st.1 st.2 it⟩).doubt a 3 2 (codeOf 2 0 a.ctx.val 0x0204)
  let ts := a.p :: a.shadows.map Arb.s ++ a.s2.toList
  (s1.each ts fun s t => s.requestAnvil t (.unresolved a) allKernels).releaseArb a

/-- The arbiter's items arrive: the verdict (R141, R142). -/
def State.verdict (s : State) (t : TileIx) (it : CmpItems) : State :=
  match (List.range 2).findSome? fun i => (s.shadow.running.getD i none).bind fun a =>
      if a.s2 = some t ∧ a.seq = it.seq then some (i, a) else none with
  | none => s
  | some (i, a) =>
    let k := ((s.tile a.s).dutyOf a.p a.seq).map fun e => e.2.cmd
    if itemsAgree it a.itemsP then (((s.endArb i a).each a.shadows State.suspectS).releaseArb a).seekWaiting
    else if itemsAgree it a.itemsS then ((s.endArb i a).suspectP a 0x0203 1 (some t)).seekWaiting
    else ((s.endArb i a).unresolved a it k).seekWaiting

/-- Capture corrupt (R144): kernels on S, and on each shadow whose disagreement joined. DESIGN CHOICE (assumption log 76): an S that passes
them is placed on watch, as in the other cases of R142; R144 does not say what follows them. -/
def State.captureCorrupt (s : State) (i : Nat) (a : Arb) : State :=
  let s1 := (s.endArb i a).emit ⟨2, 1, a.s.val, 0x0209, a.data⟩
  (((s1.doubt a 4 2 (codeOf 2 1 a.s.val 0x0209)).each a.shadows fun s b => s.requestAnvil b.s (.unresolved a) allKernels).releaseArb
    a).seekWaiting

/-- CAPTURE_COPY_DONE (R141, R144): `ofd` is the digest of the capture as it arrived at S2. One that agrees with S's own starts S2; one that
differs is re-sent once, and a second difference, or a parity error as S reads its slot, ends the arbitration as capture corrupt. -/
def doCaptureCopyDone (i : Fin 2) (ofd : Ofd) (parityError : Bool) (s : State) : State :=
  match s.shadow.running.getD i.val none with
  | none => s
  | some a =>
    if parityError then s.captureCorrupt i.val a
    else if ((s.tile a.s).captureOf a.p a.seq).any fun c => c.ofd == ofd then
      match a.s2, (s.tile a.s).dutyOf a.p a.seq with
      | some u, some (_, e) => s.modTile u fun x =>
          ({ x with slots := x.slots.set 0 (some ⟨a.p, a.ctx, a.seq, a.held, false, ofd⟩) }).push
            { cmd := e.cmd, role := .arbiter, ordinal := e.ordinal, issueTime := s.time.tb, primary := some a.p }
      | _, _ => s
    else if a.resent then s.captureCorrupt i.val a
    else s.modShadow fun x => { x with running := x.running.set i.val (some { a with resent := true }) }

/-- A dispute ends without a verdict (R146): recorded, the steps marked, the commits that waited go on. -/
def State.undecided (s : State) (a : Arb) : State :=
  ((s.emit ⟨0, 0, a.ctx.val, 0x020A, a.data⟩).doubt a 5 2 (codeOf 0 0 a.ctx.val 0x020A)).releaseArb a

/-- An arbitration loses S or S2 (R146): P and S are placed on watch. -/
def State.abandonArb (s : State) (a : Arb) : State :=
  (s.undecided a).each (a.p :: a.shadows.map Arb.s) fun s t => if (s.fpOf t).st = .good ∨ (s.fpOf t).st = .spare then s.watchOn t else s

/-- A case of R143 whose kernels are ABORTED is abandoned like an arbitration: nothing is decided of P (R146, R283). -/
def State.abandonCase (s : State) (a : Arb) : State := (s.freeArb a 0).undecided a

/-- The arbitrations that use a tile as S or S2. -/
def State.arbsOf (s : State) (t : TileIx) : List Arb :=
  (s.shadow.waiting ++ s.shadow.running.filterMap id).filter fun a => a.s == t || a.s2 == some t

/-- Abandon the arbitrations that use a tile as S or S2, running or still waiting. -/
def State.abandonArbsOf (s : State) (t : TileIx) : State :=
  let hit := fun (a : Arb) => a.s == t || a.s2 == some t
  let s1 := s.each (List.range 2) fun s i =>
    match (s.shadow.running.getD i none).filter hit with
    | some a => (s.endArb i a).abandonArb a
    | none => s
  s1.each (s1.shadow.waiting.filter hit) fun s a =>
    ((s.modShadow fun x => { x with waiting := x.waiting.erase a }).freeArb a 6).abandonArb a

/-! ### Assignment and rate (R119, R126, R148) -/

/-- Deal the free spares to the logical tiles in turn (R119): `ring` starts with the spare whose turn it is; spares on the die of the
primary are skipped and lose their turn while another can take the tile. -/
def dealShadows (same : Bool) (holder : Nat → Option TileIx) : List TileIx → List Nat → List (Nat × TileIx × Bool)
  | _, [] => []
  | ring, l :: r =>
    match holder l with
    | none => dealShadows same holder ring r
    | some p =>
      let near := fun t => dieOfTile t == dieOfTile p
      match ring.dropWhile near with
      | t :: rest => (l, t, false) :: dealShadows same holder (rest ++ ring.takeWhile near ++ [t]) r
      | [] =>
        match ring, same with
        | t :: rest, true => (l, t, true) :: dealShadows same holder (rest ++ [t]) r
        | _, _ => dealShadows same holder ring r

/-- SHADOW_ASSIGNMENT (R119) for the next step of a context. -/
def State.assignShadows (s : State) (c : CtxIx) : State :=
  let d := dealShadows (s.fld HRT_SHD_POLICY 10 10 == 1) (fun l => tget? s.plan.map l) s.freeSpares (List.range s.logicals)
  let clear := (s.shadow.assign.filter fun e => e.1 / 128 != c.val)
  (s.modShadow fun x => { x with assign := d.foldl (fun t e => tput t (c.val * 128 + e.1) e.2.1) clear }).bump HRT_SHD_SAME_DIE
    (d.filter fun e => e.2.2).length

/-- RATE_UPDATE (R126): the next r, sent with the seed to every tile warden. -/
def State.updateRate (s : State) (c : CtxIx) (busy stepTime : Nat) : State :=
  let x := s.ctx c
  let n := s.freeSpares.length
  let cap := rateCap s.logicals n
  let base := s.fld HRT_SHD_POLICY 3 0
  let hi := s.fld HRT_SHD_POLICY 7 4
  let rmax := s.fld HRT_SHD_LIMITS 11 8
  let ad := rateAdapt (s.fld HRT_SHD_POLICY 8 8 == 1) base x.rPrev x.missed x.candidates busy n stepTime
  let want := max hi (max cap ad)
  let next := if rmax < want then 0 else want
  let s1 := if next = 0 ∧ x.r ≠ 0 then s.emit ⟨0, 0, 0, 0x0208, shadowData c x.step 0 255 255 255⟩ else s
  let s2 := (s1.modShadow fun y => { y with cap := cap }).modCtx c fun y => { y with r := next, rOld := x.r, rPrev := max hi (min ad rmax) }
  let s3 := if next ≠ x.r ∧ s.traceSrc 17 (some c) then s2.traceRec (s.ctxPart c) hearthWriter
      [word4 0x34 c.val next cap, BitVec.ofNat 32 s.clock, x.step, 0] else s2
  s3.each (List.finRange 144) fun s t => s.command (tileAgent t) (.seed c x.seed next)

/-- The measures of R148 after a step: the last 64 steps' eligible and compared commands. DESIGN CHOICE (assumption log 77): n is rounded
down and H computed from the rounded n; R148 states no rounding. A context newly assigned shows the values last published under its number
until its first barrier, which R148 leaves open too. -/
def State.measure (s : State) (c : CtxIx) : State :=
  let x := s.ctx c
  let w := ((x.eligible, x.compared) :: x.window).take 64
  let el := (w.map fun p => p.1).sum
  let cmp := (w.map fun p => p.2).sum
  let p := if el = 0 then 0 else min (2 ^ 32 - 1) (cmp * 2 ^ 32 / el)
  let n := if w.length = 0 then 0 else min 65535 (el / (w.length * max 1 s.plan.map.length))
  let s1 := s.modCtx c fun y => { y with window := w, eligible := 0, compared := 0, missed := 0, candidates := 0 }
  ((s1.setNat (itemKey HRT_SHD_CTX_EFF_RATE c.val) p).setNat (itemKey HRT_SHD_CTX_NCMD c.val) n).setNat
    (itemKey HRT_SHD_CTX_HORIZON c.val) (min 0xFFFFFFFF (horizon p n (s.fld HRT_SHD_EPSILON 4 0)))

/-! ### Meanings -/

def execSamplerUpdate (t : TileIx) (c : CtxIx) (seed : Word64) (r : Fin 16) (s : State) : Res :=
  done (doSamplerUpdate t c seed r s)
def execStartCopyDone (t : TileIx) (waited : Nat) (s : State) : Res := done (doStartCopyDone t waited s)
def execMulticastOverrun (t : TileIx) (s : State) : Res := done (doMulticastOverrun t s)
def execHoldWaitExpiry (t : TileIx) (seq : Word) (s : State) : Res := done (doHoldWaitExpiry t seq s)
def execArbitrationStart (s : State) : Res := done (doArbitrationStart s)
def execCaptureCopyDone (i : Fin 2) (ofd : Ofd) (parityError : Bool) (s : State) : Res := done (doCaptureCopyDone i ofd parityError s)
def execWatchPeriodExpiry (t : TileIx) (s : State) : Res := done (doWatchPeriodExpiry t s)

end Sys2Proof.Machine
end

