-- ==== Sys2Proof/Machine/Tongs.lean ====
section
/-! DEFINITION. Tongs: fences, choice of spares, re-placement, the sparing record, tokens, Slag and stale replies (R190 to
R223). -/
namespace Sys2Proof.Machine

/-! ### Choosing the spare (R201) -/

/-- Items 2 to 5 of R201 around a compute die: not on watch before on watch, tiles under test last; nearer dies first, then the
lower page index. -/
def State.nearestSpare (s : State) (die : Nat) : Option TileIx :=
  minBy (fun t => (if (s.tile t).role = .selfTest then 100000 else 0) + (if (s.fpOf t).watch.isSome then 10000 else 0) +
    ringDist (dieOfTile t) die * 1000 + t.val) (s.tilesIn .spare)

def State.chooseSpare (s : State) (prefer : Option TileIx) (die : Nat) : Option TileIx :=
  match prefer with
  | some u => if (s.fpOf u).st = .spare then some u else s.nearestSpare die
  | none => s.nearestSpare die

/-! ### Tests that meet a fence, a re-placement or a reset (R283) -/

/-- What ended how in a run, in 52 bits: kernels passed, failed, skipped and invalid, and the first failing kernel (R281). -/
def AnvilJob.bits (j : AnvilJob) : Nat :=
  j.passed + j.failed * 2 ^ 12 + j.skipped * 2 ^ 24 + j.invalid * 2 ^ 36 + ((j.first.map fun f => f.1 + 1).getD 0) * 2 ^ 48

/-- The first failing kernel's observed OFD. -/
def AnvilJob.ofdWords (j : AnvilJob) : List Word :=
  match j.first with
  | some (_, o) => [BitVec.ofNat 32 o.lane0, BitVec.ofNat 32 (o.lane0 / 2 ^ 32), BitVec.ofNat 32 o.lane1, BitVec.ofNat 32 (o.lane1 / 2 ^ 32)]
  | none => []

/-- The response data of a request (R281): 52 bits for each tile in the order named, without gaps, so that eight tiles fill the 52 data bytes of a
response slot; then the OFDs of the tiles that failed, in the same order. DESIGN CHOICE: the spec gives no layout (assumption log 105). -/
def AnvilReq.words (r : AnvilReq) : List Word :=
  let js := r.tiles.filterMap fun t => r.done.find? fun j => j.tile == t
  let n := (js.zipIdx.map fun e => e.1.bits * 2 ^ (52 * e.2)).sum
  ((List.range ((52 * js.length + 31) / 32)).map fun i => BitVec.ofNat 32 (n / 2 ^ (32 * i))) ++ js.flatMap AnvilJob.ofdWords

/-- One tile of a request is done; the last one answers it (R281). -/
def State.reqDone (s : State) (id : Nat) (j : AnvilJob) : State :=
  match s.test.reqs.find? fun r => r.id == id with
  | none => s
  | some r =>
    let r1 := { r with done := r.done ++ [j] }
    if r1.tiles.length ≤ r1.done.length then (s.modTest fun x => { x with reqs := x.reqs.filter fun q => q.id != id }).finish r.who .ok 0 r1.words
    else s.modTest fun x => { x with reqs := x.reqs.map fun q => if q.id = id then r1 else q }

/-- The kernel that a tile runs, in TWD_ANVIL_STATUS. -/
def State.anvilRegs (s : State) (j : AnvilJob) (running : Bool) : State :=
  let k := if running then (j.kernels.head?.map fun n => n + 1).getD 0 else 0
  s.setNat (tileReg j.tile TWD_ANVIL_STATUS) (k * 2 ^ 28 + j.failed * 2 ^ 12 + j.passed)

/-- A run is ABORTED, which is no failure (R278): a return test is tried again, a request counts the tile as done. -/
def State.abortJob (s : State) (j : AnvilJob) : State :=
  match j.why with
  | .request id => s.reqDone id j
  | .fenced => s.requestAnvil j.tile .fenced j.all
  | .ret => s.requestAnvil j.tile .ret j.all
  | .noArb a => s.abandonCase a
  | _ => s

/-- Every test whose tile or cover is named is ABORTED; the sparing map keeps the moves already made. -/
def State.endTests (s : State) (ts : List TileIx) : State :=
  let hit := fun (t : TileIx) (c : Option TileIx) => ts.contains t || (c.map ts.contains).getD false
  let jobs := (s.test.slots.filterMap id).filter fun j => hit j.tile j.cover
  let bs := s.test.bist.toList.filter fun b => hit b.tile b.cover
  let s1 := s.modTest fun x => { x with
    slots := x.slots.map fun (o : Option AnvilJob) => o.filter fun j => !hit j.tile j.cover
    bist := x.bist.filter fun (b : BistSlot) => !hit b.tile b.cover
    returns := x.returns.filter fun r => !ts.contains r.tile }
  let s2 := s1.each bs fun s b => ((s.setFld HRT_BIST_NEXT 15 8 255).freeTest b.tile).each b.cover.toList State.freeTest
  let s3 := s2.each jobs fun s j => (((s.anvilRegs j false).freeTest j.tile).each j.cover.toList State.freeTest).abortJob j
  s3.each ts fun s t => if s.fld (tileReg t TWD_BIST_STATUS) 28 28 = 1 then s.setFld (tileReg t TWD_BIST_STATUS) 31 28 8 else s

/-- Slots whose test ends here leave a number on its cover for good: a move that outlasts its event, so that the sparing record is rewritten
(R193). -/
def State.strands (s : State) (ts : List TileIx) : Bool :=
  let hit := fun (t : TileIx) (c : Option TileIx) => ts.contains t || (c.map ts.contains).getD false
  let moved := fun (p : TPhase) (l : Option LogIx) => (p == .testing || p == .handBack) && l.isSome
  s.test.slots.any (fun o => o.any fun j => hit j.tile j.cover && moved j.phase j.logical) ||
    s.test.bist.any fun b => hit b.tile b.cover && moved b.phase b.logical

/-- A higher duty takes a tile (R201 item 5, R283): its own test is ABORTED; a cover taken before the hand-over is replaced, or the
slot goes on under R273 and an Anvil run waits again. -/
def State.abortTest (s : State) (u : TileIx) : State :=
  let s1 := if s.test.bist.any (fun b => b.tile == u) || s.test.slots.any (fun o => o.any fun j => j.tile == u) then s.endTests [u] else s
  (s1.loseCover u).drainFreed

/-- Take a spare for a duty of priority 1 (R118, R146): shadows on it are preempted, arbitrations abandoned, a test aborted. -/
def State.claimSpare (s : State) (u : TileIx) (arbiter : Bool) : State :=
  let s1 := if arbiter then s else (s.abandonArbsOf u).bump HRT_SHD_PREEMPTED (s.arbsOf u).length
  (s1.preemptShadow u).abortTest u

/-- The logical number moves to a spare: sparing map, floor plan, pool role (R192, R194). -/
def State.moveLogical (s : State) (l : LogIx) (u : TileIx) : State :=
  ((s.modPlan fun p => { p with map := tput p.map l.val u }).modFp u fun f => { f with st := .good }).setRole u .logical

/-! ### Package state after a loss or a restoration (R38, R39) -/

/-- The package state that a loss leaves: SAFE without degraded service or with nothing held. -/
def State.afterLoss (s : State) : PkgState :=
  if s.bu.pkg = .safe ∨ !s.bu.degraded ∨ s.plan.map = [] then .safe else .readyLocal

/-- Every logical tile held again: the state is judged afresh (R39 item 4). -/
def State.judgeState (s : State) : State :=
  if s.bu.pkg = .readyLocal ∧ s.allHeld ∧ s.bu.excluded = [] ∧ s.bu.topoOk then s.setPkg .ready else s

/-- Contexts with state on a logical tile (R38, R209): open entries, gated commands or tokens on its tile, a region declared there, or an
unretained input consumed there. -/
def State.ctxsOn (s : State) (t : TileIx) (l : LogIx) : List CtxIx :=
  (List.finRange 16).filter fun c =>
    (s.ctx c).used && !(s.ctx c).faulted &&
      (s.holdsWork t c || ((s.ctx c).desc.regions.any fun r => r.lt == l) || (s.ctx c).desc.unretained.contains l)

/-- REPLACE_NO_SPARE (R38, R223): the number is lost, its contexts are killed, the package state falls. -/
def State.noSpare (s : State) (r : Repl) : State :=
  let cs := (List.finRange 16).filter fun c => (s.ctxsOn r.failed r.logical).contains c || (s.ctxsOn r.first r.logical).contains c
  let s1 := (s.modPlan fun p => { p with map := tdel p.map r.logical.val }).epochUp
  let s2 := match r.cause with
    | some e => s1.emit { e with items := e.items ++ [i1 255, iw s1.plan.epoch] }
    | none => s1
  let ev : Event := ⟨5, 1, r.failed.val, 0x0403,
    [i4 r.logical.val, iw s2.plan.epoch, iw ((r.cause.map Event.word).getD 0), i4 (pkgCode s1.afterLoss)]⟩
  let s3 := (s2.emit ev).modPlan fun p => { p with losses := tput p.losses r.logical.val ev.word }
  ((s3.each cs fun s c => s.startKill c none).setPkg s1.afterLoss).failJobs cs 0 ev.word 0 0xFFFFFFFF

/-- Step 2 of a re-placement (R208): the number moves to the spare, and the cause is recorded with it; then REPLACE_RETRY, where a spare has
failed before (R211, R223). -/
def State.stepTwo (s : State) (r : Repl) (u : TileIx) : State :=
  let s1 := (((s.claimSpare u (r.prefer == some u)).moveLogical r.logical u).seekWaiting.epochUp).rewriteRecord
  let s2 := match r.cause with
    | some e => s1.emit { e with items := e.items ++ [i1 u.val, iw s1.plan.epoch] }
    | none => s1
  if r.failed = r.first then s2 else s2.emit ⟨3, 1, r.failed.val, 0x040D, [i4 r.logical.val, i1 r.first.val]⟩

/-- LOGICAL_RESTORED (R39 item 3): a tile that becomes SPARE takes the lowest logical number not held. -/
def State.restoreLogical (s : State) (t : TileIx) : State :=
  match (List.range s.logicals).find? fun l => (tget? s.plan.map l).isNone with
  | some l =>
    if s.bu.pkg = .readyLocal ∧ (s.fpOf t).st = .spare then
      let s1 := ((s.moveLogical (Fin.ofNat 128 l) t).epochUp).rewriteRecord
      (s1.emit ⟨0, 1, t.val, 0x040E, [i4 l, iw s1.plan.epoch]⟩).judgeState
    else s
  | none => s

/-- A tile is a spare again: it takes a number not held, or a hold-commit command that waits for a shadow takes it (R39, R138). -/
def State.spareBack (s : State) (t : TileIx) : State := (s.restoreLogical t).seekWaiting

/-! ### Fence at the warden (R198, R199) -/

/-- Runs that wait for a tile that is retired: a request is refused BAD_TILE, and nothing else of it is queued (R282). -/
def State.dropJobs (s : State) (t : TileIx) : State :=
  let ids := (s.test.queue.filter fun j => j.tile == t).filterMap fun j => match j.why with
    | .request id => some id
    | _ => none
  let rs := s.test.reqs.filter fun r => ids.contains r.id
  let gone := fun (j : AnvilJob) => j.tile == t || match j.why with
    | .request id => ids.contains id
    | _ => false
  (s.modTest fun x => { x with queue := x.queue.filter fun j => !gone j, reqs := x.reqs.filter fun r => !ids.contains r.id }).each rs fun s r =>
    s.finish r.who .badTile 0 r.words

/-- A fenced tile is retired (R192): a change of the floor plan that the sparing record keeps. -/
def State.retireTile (s : State) (t : TileIx) : State := (((s.modFp t fun f => { f with retired := true }).epochUp).rewriteRecord).dropJobs t

/-- Tokens that a tile has received and not consumed under a committed command, of contexts that are not faulted, by queue (R206). -/
def State.tokensAt (s : State) (t : TileIx) : List (Nat × List (Nat × Nat × Bool)) :=
  ((s.tile t).queues.filter fun q => q.2.served ++ q.2.tokens != [] && !(s.ctx (Fin.ofNat 16 (q.1 / 256))).faulted).map fun q =>
    (q.1, q.2.served ++ q.2.tokens)

/-- A spare is fenced inside a re-placement, which begins again with the next spare (R211): what waits at the spare's gate waits on, behind
what waits at the first tile's, and the tokens that reached the spare are resent with the others. -/
def State.retryRepl (s : State) (i : Nat) (r : Repl) (t : TileIx) (cause : Option Event) (at0 : Nat) : State :=
  let s1 := (s.modTile r.first fun x => { x with gate := x.gate ++ (s.tile t).gate }).modTile t fun x => { x with gate := [] }
  s1.modPlan fun p => { p with
    updating := true
    slots := p.slots.set i none
    waiting := { r with failed := t, cause := cause, prefer := none, detect := at0, spare := none, resend := r.resend ++ s.tokensAt t } :: p.waiting }

/-- TILE_FENCE_COMMAND: the warden finishes its local action (R46), fences its tile and confirms; the Hearth then changes the
floor plan. A spare fenced inside a re-placement restarts that re-placement with the next spare (R211). -/
def doTileFenceCommand (t : TileIx) (reason : Nat) (s : State) : State :=
  let s1 := if (s.tile t).gateClosed then s else s.fenceTile t reason false
  match tget? s.plan.fencing t.val with
  | none => s1
  | some (cause, at0, prefer, _) =>
    let s2 := ((s1.abortTest t).when (s.strands [t]) State.rewriteRecord).modPlan fun p => { p with fencing := tdel p.fencing t.val }
    match (List.range 2).findSome? fun i => (s.plan.slots.getD i none).bind fun r =>
        if r.spare = some t then some (i, r) else none with
    | some (i, r) =>
      let s3 := ((s2.modFp t fun f => { f with st := .fenced, reason := reason, watch := none }).setNat HRT_FENCE_LAST
        (t.val * 2 ^ 24 + reason * 2 ^ 16 + (cause.map Event.code).getD 0)).setNat HRT_FENCE_LATENCY (s.time.tb - at0) |>.askReturn t reason cause
      (((s3.retryRepl i r t cause at0).payNotices t).abandonArbsOf t).seekWaiting
    | none =>
      let s3 := (((s2.fencePlan t reason cause prefer at0).payNotices t).abandonArbsOf t).seekWaiting
      if (cause.map Event.code) = some 0x0602 then s3.retireTile t else s3

/-! ### Tokens (R207, R108, R236) -/

/-- Count a token in the bank of its step's parity and in the aggregate of its context (R108, R110, R500). -/
def ConsEntry.count (e : ConsEntry) : ConsKind → ConsEntry
  | .dispatched => { e with d := satAdd 32 e.d 1 }
  | .dropped => { e with x := satAdd 32 e.x 1 }
  | .received => { e with v := satAdd 32 e.v 1 }
  | .returned => { e with t := satAdd 32 e.t 1 }

def countAt (f : ConsEntry → Bool) (new : ConsEntry) (k : ConsKind) (l : List ConsEntry) : List ConsEntry :=
  if l.any f then l.map fun e => if f e then e.count k else e else l ++ [new.count k]

def stepParity (step : Word) : Bool := step.getLsbD 0

def State.countToken (s : State) (t : TileIx) (step : Word) (key : ConsKey) (k : ConsKind) (pl : Placement) : State :=
  let par := stepParity step
  let same := fun (e : ConsEntry) => e.parity == par && e.key == some key && e.place == pl && e.ctx == key.ctx
  let agg := fun (e : ConsEntry) => e.parity == par && e.key == none && e.ctx == key.ctx && e.place == pl
  let x := s.tile t
  let used := (x.cons.filter fun e => e.parity == par && e.key.isSome).length
  let fits := x.cons.any same || decide (used < 64)
  let l1 := if fits then countAt same ⟨par, key.ctx, some key, pl, step, 0, 0, 0, 0⟩ k x.cons else x.cons
  let s1 := s.setTile t { x with cons := countAt agg ⟨par, key.ctx, none, pl, step, 0, 0, 0, 0⟩ k l1 }
  if fits then s1
  else (s1.bumpFld (tileReg t TWD_CONS_BANK) 31 16).modTile t fun x => { x with
    consOver := if x.consOver.contains (par, key, pl) then x.consOver else (par, key, pl) :: x.consOver }

/-- The credit limit that a context with credit_fallback declares for a queue of a logical tile (R235). -/
def creditLimit (d : CtxDesc) (l q : Nat) : Option Nat :=
  if d.creditFallback then (d.limits.find? fun x => x.1.val == l && x.2.1.val == q).map fun x => x.2.2 else none

/-- A token leaves a command's dispatch stream, or is declared dropped: it is only counted there (R108), once by its position where the
attempt mark says that it was sent before (R207). A fenced tile sends none. -/
def State.emitToken (s : State) (t : TileIx) (k : Token) (key : ConsKey) (kind : ConsKind) (pl : Placement) : State :=
  let x := s.tile t
  let qk := k.ctx.val * 256 + k.queue % 256
  let q := tget x.queues qk {}
  if x.gateClosed || (k.marked && q.accepted.contains k.pos) then s
  else (s.setTile t { x with queues := tput x.queues qk { q with accepted := k.pos :: q.accepted } }).countToken t k.step key kind pl

/-- A token reaches an input queue: an old-epoch one is discarded and counted, with a fault if its stream must drain (R237); a marked one
already accepted is discarded and counted (R207); else it is accepted, and counted by its key. -/
def State.bringToken (s : State) (t : TileIx) (k : Token) : State :=
  let x := s.tile t
  let n := k.queue % 256
  let qk := k.ctx.val * 256 + n
  let q := tget x.queues qk {}
  if !(s.ctx k.ctx).used || (s.ctx k.ctx).faulted then s
  else if k.epoch.val ≠ x.epoch ∧ !(x.draining.isSome ∧ k.epoch.val = (x.epoch + 1) % 16) then
    let s1 := s.bump (tileReg t TWD_EPOCH_DISCARD)
    if k.mustDrain then s1.wardenReport (tileAgent t) (.epochDrain t k.ctx k.step) else s1
  else if k.marked && q.accepted.contains k.pos then s.bump (tileReg t TWD_DUP_DISCARD)
  else
    let s1 := s.setTile t { x with queues := tput x.queues qk { q with
      accepted := k.pos :: q.accepted, depth := q.depth + 1, tokens := q.tokens ++ [(k.pos, k.epoch.val, k.mustDrain)] } }
    match k.cons with
    | some (key, kind, pl) => s1.countToken t k.step key kind pl
    | none => s1

/-- The spare that a re-placement under way has given the number of a fenced tile. -/
def State.movedTo (s : State) (t : TileIx) : Option TileIx :=
  (s.plan.slots.filterMap id).findSome? fun r => if r.first = t ∨ r.failed = t then r.spare else none

/-- The producer of a token stands at its credit limit (R235): what the queue holds and what waits for it at a closed gate count. -/
def State.atLimit (s : State) (t : TileIx) (k : Token) : Bool :=
  let x := s.tile t
  let n := k.queue % 256
  let held := (x.heldTokens.filter fun h => h.ctx == k.ctx && h.queue % 256 == n).length
  (creditLimit (s.ctx k.ctx).desc (s.logNum t) n).any fun m => decide (m ≤ (tget x.queues (k.ctx.val * 256 + n) {}).depth + held)

/-- TOKEN_ARRIVAL. The output of a shadow or an arbiter leads nowhere, and its tokens are not counted (R131). A token of a killed context is
dropped (R242). At its credit limit a producer keeps the token, and the queue shows the hold (R235). At the gate of a fenced tile a token
waits until the number has moved, and goes to the tile that then holds it (R198, R208). -/
def doTokenArrival (t : TileIx) (k : Token) (s : State) : State :=
  let x := s.tile t
  let c := s.ctx k.ctx
  let hold := itemKey (tileReg t TWD_QSTATE) (k.queue % 256)
  if !c.used || c.faulted || x.role == .shadow || x.role == .arbiter then s
  else match k.cons with
    | some (key, .dispatched, pl) => s.emitToken t k key .dispatched pl
    | some (key, .dropped, pl) => s.emitToken t k key .dropped pl
    | _ =>
      if s.atLimit t k then s.setFld hold 29 29 1
      else
        let s1 := if c.desc.creditFallback then s.setFld hold 29 29 0 else s
        if !x.gateClosed then s1.bringToken t k
        else match s.movedTo t with
          | some u => s1.bringToken u k
          | none => s1.modTile t fun x => { x with heldTokens := x.heldTokens ++ [k] }

/-! ### Re-placement (R208 to R211) -/

/-- Open entries of role primary on a tile, in sequence order. -/
def State.openPrimary (s : State) (t : TileIx) : List JEntry :=
  sortSeq (((s.tile t).openEntries.map fun p => p.2).filter fun e => e.role == .primary)

/-- The entries of a context on a failed tile are closed: outcome 7 where the context faulted in the re-placement, 5 where it was killed. -/
def State.discardOf (s : State) (t : TileIx) (outcome : Nat) (c : CtxIx) : State :=
  s.each ((s.openPrimary t).filter fun e => e.cmd.ctx == c) fun s e =>
    (s.dropComparison t e.cmd.seq).modEntry t e.cmd.seq fun x => { x with outcome := outcome }

/-- RELOAD_LOST (R209, R211). -/
def State.reloadLost (s : State) (c : CtxIx) : State :=
  (s.emit ⟨2, 0, c.val, 0x0404, []⟩).contextFault c (codeOf 2 0 c.val 0x0404) (s.ctx c).step 0

/-- The faults decided at step 3 (R209): RELOAD_LOST for a context with a NONE region or an unretained input on the logical
tile, then ROLLBACK_REQUIRED for a non-idempotent command that wrote; the entries of the contexts faulted get outcome 7. -/
def State.faultLost (s : State) (r : Repl) : State :=
  let l := r.logical
  let lost := (List.finRange 16).filter fun c =>
    ((s.ctxsOn r.first l).contains c || (s.ctxsOn r.failed l).contains c) &&
      (((s.ctx c).desc.regions.any fun x => x.lt == l && x.policy == .none) || (s.ctx c).desc.unretained.contains l)
  let s1 := s.each lost State.reloadLost
  let s2 := s1.each (s.openPrimary r.first) fun s e =>
    if !(s.ctx e.cmd.ctx).faulted && e.state != .issued && !e.cmd.idempotent && e.wrote then
      (s.emit ⟨2, 0, e.cmd.ctx.val, 0x0405, []⟩).contextFault e.cmd.ctx (codeOf 2 0 e.cmd.ctx.val 0x0405) e.cmd.step e.cmd.seq
    else s
  s2.each ((List.finRange 16).filter fun c => !(s.ctx c).faulted && (s2.ctx c).faulted) fun s c => s.discardOf r.first 7 c

def State.freeReplSlot (s : State) : Option Nat := (List.range 2).find? fun i => s.plan.slots.getD i none == none

/-- What a spare takes over from a failed tile with its number (R198, R206, R208 step 2): the epoch and, of surviving contexts, what the
tile's warden has accepted and spilled; the tokens themselves come again at step 4. Its gate for commands stays closed until step 5. -/
def State.adopt (s : State) (x : Tile) (u : TileIx) : State :=
  s.modTile u fun y => { y with
    queues := (x.queues.filter fun q => !(s.ctx (Fin.ofNat 16 (q.1 / 256))).faulted).map fun q => (q.1, { q.2 with depth := 0, tokens := [], served := [] })
    epoch := x.epoch, draining := none, gateClosed := false, reloading := true, role := .logical }

/-- The data traffic held at a fenced tile's gate goes to the spare (R198 item 3). -/
def State.releaseTokens (s : State) (u t : TileIx) : State :=
  (s.modTile t fun x => { x with heldTokens := [] }).each (s.tile t).heldTokens fun s k => s.bringToken u k

/-- REPLACEMENT_START (R208 steps 2 and 3). -/
def doReplacementStart (s : State) : State :=
  match s.plan.waiting, s.freeReplSlot with
  | r :: rest, some i =>
    let s0 := s.modPlan fun p => { p with waiting := rest }
    match s0.chooseSpare r.prefer (dieOfTile r.failed) with
    | none => s0.noSpare r
    | some u =>
      let s3 := (s0.stepTwo r u).faultLost r
      let resend := if r.failed = r.first then s3.tokensAt r.first else r.resend
      let s4 := ((s3.adopt (s3.tile r.failed) u).releaseTokens u r.first).releaseTokens u r.failed
      s4.modPlan fun p => { p with slots := p.slots.set i (some { r with spare := some u, resend := resend }) }
  | _, _ => s

/-- An entry as it is reissued on the spare (R210). -/
def JEntry.reissue (e : JEntry) (origin now : Nat) : JEntry :=
  { cmd := e.cmd, ordinal := e.ordinal, origin := origin, sampled := e.sampled, cmpWait := e.cmpWait, consWait := e.consWait,
    issueTime := now, reissuedFor := e.reissuedFor }

/-- An open entry of the first tile is reissued on the spare with its ordinal, and closed there with outcome 4 (R209, R210); that of a context
killed meanwhile gets outcome 5 (R211). -/
def State.reissueOn (s : State) (r : Repl) (u : TileIx) (e : JEntry) : State :=
  if (s.ctx e.cmd.ctx).faulted then s.discardOf r.first 5 e.cmd.ctx
  else
    let s1 := (s.modTile u fun x => x.push { e.reissue r.first.val s.time.tb with reissuedFor := some r.first }).setNat (tileReg u TWD_SHD_ORDINAL)
      (e.cmd.ctx.val * 2 ^ 16 + e.ordinal)
    (s1.modEntry r.first e.cmd.seq fun x => { x with outcome := 4 }).follow r.first u e

/-- Retained inputs are resent, before what has reached the spare since (R206, R208 step 4). -/
def State.resendTokens (s : State) (r : Repl) (u : TileIx) : State :=
  let live := r.resend.filter fun e => !(s.ctx (Fin.ofNat 16 (e.1 / 256))).faulted
  s.modTile u fun x => { x with queues := live.reverse.foldl (fun t e =>
    tmod t e.1 {} fun q => { q with tokens := e.2 ++ q.tokens, depth := q.depth + e.2.length }) x.queues }

/-- The commands held at the gates issue behind the reissued ones (R198 item 3, R208 step 5). -/
def State.mergeGates (s : State) (r : Repl) (u : TileIx) : State :=
  let held := (s.tile r.first).gate ++ (if r.failed = r.first then [] else (s.tile r.failed).gate)
  let s1 := (s.modTile r.first fun x => { x with gate := [] }).modTile r.failed fun x => { x with gate := [] }
  (s1.modTile u fun x => { x with gate := held ++ x.gate, reloading := false }).drainGate u r.logical

/-- RELOAD_COMPLETE (R208 steps 4 and 5): retained inputs are resent, open entries reissued in sequence order, then the commands held at the
gate follow; a region whose backing met Slag faults its context first (R211). Under STOP on the spare's region nothing is complete. -/
def doReloadComplete (i : Fin 2) (slag : Option CtxIx) (s : State) : State :=
  match s.plan.slots.getD i.val none with
  | none => s
  | some r => match r.spare with
    | none => s
    | some u =>
      if !s.regionRuns u then s
      else
        let owner := fun (c : CtxIx) => (s.ctx c).used && !(s.ctx c).faulted && (s.ctx c).desc.regions.any fun x => x.lt == r.logical && x.policy != .none
        let s1 := s.each (slag.filter owner).toList fun s c => (s.reloadLost c).discardOf r.first 7 c
        let s2 := (s1.resendTokens r u).each (s1.openPrimary r.first) fun s e => s.reissueOn r u e
        let s3 := ((s2.mergeGates r u).bump HRT_REPLACE_COUNT).setNat HRT_REPLACE_LATENCY ((s.time.tb - r.detect) / 1000)
        s3.seekWaiting.modPlan fun p => { p with slots := p.slots.set i.val none }

/-! ### The sparing record (R193) -/

/-- SPARE_RECORD_WRITE_DONE: the record requested first is in the NOR, and the next one is written; or the attempt has failed. -/
def doSpareRecordWriteDone (ok : Bool) (s : State) : State :=
  match s.plan.writeQ with
  | [] => s
  | w :: rest =>
    if !s.plan.writing then s
    else if ok then
      s.modPlan fun p => { p with recorded := p.recorded.put w, writeQ := rest, writing := !rest.isEmpty, retries := 0, writes := satAdd 16 p.writes 1 }
    else (s.modPlan fun p => { p with writing := false }).emit ⟨1, 0, 0, 0x040C, []⟩

/-- SPARE_RECORD_RETRY: up to eight retries, and none under the power-fail lock (R343). -/
def doSpareRecordRetry (s : State) : State :=
  if !s.recd.pfLock && !s.plan.writeQ.isEmpty && !s.plan.writing && decide (s.plan.retries < 8) then
    s.modPlan fun p => { p with writing := true, retries := p.retries + 1 }
  else s

/-! ### Slag and stale replies (R213 to R217) -/

/-- The class of an address in memory, as the region table has it (R213): control, or user data where no entry says control. -/
def State.controlAt (s : State) (addr : Nat) : Bool :=
  s.regions.any fun e => e.2.control && decide (e.2.base * 2 ^ 20 ≤ addr ∧ addr < (e.2.base + e.2.length) * 2 ^ 20)

/-- A stack warden marks a 64-byte line (R214). -/
def State.markLine (s : State) (n : StackIx) (code addr : Nat) : State :=
  let s1 := s.modStack n fun x => { x with slag := tput x.slag (addr / 64) code }
  (((s1.bump (stackReg n SWD_SLAG_MARKED)).setNat (stackReg n SWD_SLAG_ADDR_LO) addr).setNat (stackReg n SWD_SLAG_ADDR_HI)
    (code * 2 ^ 16 + addr / 2 ^ 32 % 2 ^ 16)).wardenReport (s.stackAgent n) (.slagStack n code addr)

/-- A tile warden marks an SRAM word (R214). -/
def State.markWord (s : State) (t : TileIx) (code addr : Nat) : State :=
  ((s.modTile t fun x => { x with slag := if x.slag.contains addr then x.slag else addr :: x.slag }).setNat (tileReg t TWD_SLAG_LAST)
    (code * 2 ^ 16 + addr % 2 ^ 16)).wardenReport (tileAgent t) (.slagTile t code addr)

/-- HBM_UNCORRECTABLE (R213): user data is marked Slag MEM_UE; control data is reported and forces a chip reset. -/
def doHbmUncorrectable (n : StackIx) (addr : Nat) (s : State) : State :=
  let control := s.controlAt addr
  let s1 := ((s.bump (stackReg n SWD_ECC_UE)).setReg (stackReg n SWD_ECC_LAST) (Config.eccLocation addr)).setNat
    (stackReg n SWD_ECC_LAST_INFO) (2 ^ 31 + bit control 30)
  if control then s1.wardenReport (s.stackAgent n) (.controlUE 2 n.val) else s1.markLine n 1 addr

/-- TILE_SRAM_UE (R214). -/
def doTileSramUE (t : TileIx) (addr : Nat) (control : Bool) (s : State) : State :=
  if control then s.wardenReport (tileAgent t) (.controlUE 1 t.val) else s.markWord t 2 addr

/-- PATH_PARITY_FAIL (R113). -/
def doPathParityFail (p : ParityPoint) (addr : Nat) (s : State) : State :=
  match p with
  | .memoryWrite n =>
    if s.controlAt addr then s.wardenReport (s.stackAgent n) (.controlUE 2 n.val)
    else (s.markLine n 3 addr).wardenReport (s.stackAgent n) (.pathParity n addr)
  | .linkEgress q control =>
    if control then s.wardenReport (portAgent q) (.controlUE 3 q.val) else s.emitOut (.slagFlit q 3)
  | .tileWrite t control =>
    if control then s.wardenReport (tileAgent t) (.controlUE 1 t.val) else s.markWord t 3 addr

/-- SLAG_CONSUMED (R215) by the command RUNNING under a sequence number: a shadow or arbiter abandons its duty; any other compute command
faults its context; data movement copies the marker. -/
def doSlagConsumed (t : TileIx) (seq : Word) (code addr : Nat) (s : State) : State :=
  match (s.tile t).slotOf seq with
  | none => s
  | some (_, e) =>
    if !isCompute e.cmd.kind || e.state != .running || !e.isOpen then s
    else
      let s1 := (s.bump (tileReg t TWD_SLAG_CONSUMED)).setNat (tileReg t TWD_SLAG_LAST) (code % 8 * 2 ^ 16 + addr % 2 ^ 16)
      match e.role with
      | .arbiter => ((s1.each e.primary.toList fun s p => s.freeCapture t p seq 6).abandonArbsOf t).seekWaiting
      | .shadow => ((s1.bump (tileReg t TWD_SHD_ABANDONED)).each (e.primary.bind fun p => (s.tile t).captureOf p seq).toList fun s c =>
          s.loseDuty t c).seekWaiting
      | _ => s1.wardenReport (tileAgent t) (.slagConsumed t e.cmd.ctx e.cmd.step seq code)

/-- DATA_REPLY_ARRIVAL (R217, R243): a reply whose generation is not that of the compute domain is dropped and counted; a reply of a killed or
quarantined context is dropped. -/
def doDataReplyArrival (v : ReplyVia) (dom : Fin 16) (gen : Byte) (c : CtxIx) (s : State) : State :=
  if gen = tget s.esc.domGen dom.val 0 then
    (if (s.ctx c).faulted || (s.ctx c).quarantine.isSome then s else s.emitOut (.reply dom.val c))
  else
    let s1 := match v with
      | .stack n => s.bump (stackReg n SWD_STALE_DROP)
      | .link p => s.bump (linkReg p LWD_STALE_REPLY)
    s1.add64 HRT_GEN_STALE_LO HRT_GEN_STALE_HI 1

/-- A read answered with Slag of the length asked for, for a gone far end or as the resetting sender (R216, R464). -/
def State.remoteGone (s : State) (p : PortIx) (self : Bool) (bytes : Nat) : State :=
  ((s.bump (linkReg p (if self then LWD_REMOTE_GONE_SELF else LWD_REMOTE_GONE))).bump HRT_REMOTE_GONE).emitOut (.slagReply 4 bytes)

/-- This package leaves: a chip reset, a removal, Quench or a power failure, of which a notice of scope 3 to 6 has gone out (R464). -/
def State.leaving (s : State) : Bool :=
  s.esc.reset.any (fun r => r.level == .chip) || s.bu.removal == .powerDown || s.thm.quenching || s.thm.quenched || s.pw.pfWarn || s.recd.pfLock

/-- REMOTE_GONE_ANSWER (R216, R463, R464): by the resetting sender's own warden while it leaves, else for a far end that is gone or whose link
is down. -/
def doRemoteGoneAnswer (p : PortIx) (self : Bool) (bytes : Nat) (s : State) : State :=
  if (if self then s.leaving else (s.port p).gone || !(s.port p).up) then s.remoteGone p self bytes else s

/-! ### Meanings -/

def execTileFenceCommand (t : TileIx) (reason : Nat) (s : State) : Res := done (doTileFenceCommand t reason s)
def execReplacementStart (s : State) : Res := done (doReplacementStart s)
def execReloadComplete (i : Fin 2) (slag : Option CtxIx) (s : State) : Res := done (doReloadComplete i slag s)
def execSpareRecordWriteDone (ok : Bool) (s : State) : Res := done (doSpareRecordWriteDone ok s)
def execSpareRecordRetry (s : State) : Res := done (doSpareRecordRetry s)
def execTokenArrival (t : TileIx) (k : Token) (s : State) : Res := done (doTokenArrival t k s)
def execHbmUncorrectable (n : StackIx) (addr : Nat) (s : State) : Res := done (doHbmUncorrectable n addr s)
def execTileSramUE (t : TileIx) (addr : Nat) (control : Bool) (s : State) : Res := done (doTileSramUE t addr control s)
def execPathParityFail (p : ParityPoint) (addr : Nat) (s : State) : Res := done (doPathParityFail p addr s)
def execSlagConsumed (t : TileIx) (seq : Word) (code addr : Nat) (s : State) : Res := done (doSlagConsumed t seq code addr s)
def execDataReplyArrival (v : ReplyVia) (dom : Fin 16) (gen : Byte) (c : CtxIx) (s : State) : Res :=
  done (doDataReplyArrival v dom gen c s)
def execRemoteGoneAnswer (p : PortIx) (selfReset : Bool) (bytes : Nat) (s : State) : Res :=
  done (doRemoteGoneAnswer p selfReset bytes s)

end Sys2Proof.Machine
end

