-- ==== Sys2Proof/Machine/Intake.lean ====
section
/-! DEFINITION. The intake of host commands (R411 to R418): what every command goes through before its own chapter decides, the
privilege it needs, and the memory region it names (R428). -/
namespace Sys2Proof.Machine

/-- CMD_MALFORMED, at most once per second, with the two counts and BAD_SEQ for a refused sequence (R446). -/
def State.malformed (s : State) (badSeq : Bool) : State :=
  if s.secondPassed s.host.lastMalformed then
    (s.modHost fun h => { h with lastMalformed := some s.time.tb }).emit ⟨0, 0, 0, 0x0B05,
      [iw (s.reg HRT_CMD_DROPPED), iw (s.reg HRT_CMD_BADSEQ_COUNT), i1 (if badSeq then 1 else 0)]⟩
  else s

/-- The header of a command of 64 bytes (R412, R14), with its opcode; `badOperand` is for the owning chapter to say. -/
def hdrOfBytes (aligned badOperand : Bool) (l : List Byte) : Hdr × Nat :=
  let priv := (l.getD 6 0)
  (⟨.window aligned, wordAt l 0, priv.getLsbD 7, Fin.ofNat 16 priv.toNat, (l.getD 7 0).getLsbD 0, badOperand⟩,
    (l.getD 4 0).toNat + (l.getD 5 0).toNat * 256)

/-- Commands accepted and unanswered (R443). -/
def State.unansweredCount (s : State) : Nat := s.host.unanswered.length + s.sq.waiting.length

/-- A command reaches the intake. Over the window, while the host port is up (R42): a malformed write or a disabled intake drops it, a wrong sequence refuses it,
a full intake answers OVERFLOW; an accepted command is served, waits for a restarted core, or is answered HALTED by the
sequencer. A command that CMP carries meets only the state of the core (R413 to R415, R411, R470). -/
def State.intake (s : State) (h : Hdr) (opcode : Nat) (i : Instr) (serve : Pend → State → State) : State :=
  let p : Pend := ⟨h, opcode⟩
  let serveOr := fun (s : State) =>
    match s.sq.run with
    | .running => serve p s
    | .restarting => s.modSq fun q => { q with waiting := q.waiting ++ [i] }
    | .halted => s.answer p .halted 0 []
    | .off => s
  match h.via with
  | .cmp _ => serveOr s
  | .window aligned =>
    if !s.hostUp then s
    else if !aligned then ((s.bump HRT_CMD_DROPPED).accessError .host 0 0x1000).malformed false
    else if (s.reg HRT_CMD_CTRL).getLsbD 0 = false then (s.bump HRT_CMD_DROPPED).malformed false
    else if h.seq ≠ s.reg HRT_CMD_NEXT_SEQ then
      (((s.setReg HRT_CMD_BADSEQ h.seq).bump HRT_CMD_BADSEQ_COUNT).irq 13).malformed true
    else if 64 ≤ s.sq.waiting.length then s.answer p .overflow 0 []
    else serveOr (s.setReg HRT_CMD_NEXT_SEQ (h.seq + 1))

/-- The privilege of a command suffices: operator, or the context it names where a context may send it (R418). -/
def privileged (h : Hdr) (opOnly : Bool) (named : Option CtxIx) : Bool :=
  h.operator || (!opOnly && named.all fun c => c == h.ctx)

/-- The detail of a refusal for world or privilege: WORLD_DENIED when it is recorded (R416, R429). -/
def State.deniedDetail (s : State) (w : World) : Word :=
  if s.secondPassed s.host.lastDenied then codeOf 0 0 (World.num w) 0x0B06 else 0

/-- Refuse for world or privilege (R429). -/
def State.refuseDenied (s : State) (p : Pend) (st : Status) : State :=
  (s.denied p.world).answer p st (s.deniedDetail p.world) []

/-- Serve a command when its privilege suffices and its operands lie in their ranges (BAD_OPERAND, R420), else refuse it DENIED; a
context that names another is recorded as OBS_CTX_DENIED (R401). -/
def State.serveAs (s : State) (p : Pend) (opOnly : Bool) (named : Option CtxIx) (k : State → State) : State :=
  if privileged p.h opOnly named then (if p.h.badOperand then s.answer p .badOperand 0 [] else k s)
  else match named with
    | some c =>
      if opOnly || c == p.h.ctx then s.refuseDenied p .denied
      else ((s.denied p.world).emit ⟨0, 0, c.val, 0x0A08, [i1 c.val]⟩).answer p .denied (codeOf 0 0 c.val 0x0A08) []
    | none => s.refuseDenied p .denied

def State.ok (s : State) (p : Pend) (data : List Word) : State := s.answer p .ok 0 data
def State.fail (s : State) (p : Pend) (st : Status) : State := s.answer p st 0 []

/-- A named region lies within one region-table entry owned by the world; regions of control class belong to the secure world
(R428). -/
def State.regionOf (s : State) (w : World) (r : MemRegion) : Option RegionEntry :=
  (s.regions.find? fun e => decide (e.2.base * 2 ^ 20 ≤ r.base ∧ r.base + r.length ≤ (e.2.base + e.2.length) * 2 ^ 20) &&
    (if e.2.control then w == .secure else e.2.owner == w)).map fun e => e.2

/-- A requester acts for the secure world over authenticated CMP, and for the non-secure world otherwise (R425); its digest and
observation commands may use the regions of its own world. -/
def State.ownsRegion (s : State) (p : Pend) (r : MemRegion) : Bool := (s.regionOf p.world r).isSome

/-! ### Functions of Colea by id (R430) -/

def State.fnOn (s : State) (f : Nat) : Bool := (s.fn f).st == .on
def fnStateNum : FnState → Nat
  | .off => 0
  | .starting => 1
  | .on => 2
  | .stopping => 3
  | .pendingOn => 4

end Sys2Proof.Machine
end

