-- ==== Sys2Proof/Machine/Digests.lean ====
section
/-! DEFINITION. Order-free digests: handles, banks and latches, scrub digests, verification, replicas (R155 to R180). -/
namespace Sys2Proof.Machine

/-! ### Declarations -/

/-- Units of a region (R172). -/
def unitsOf (d : OfdDecl) : Nat := d.region.length * 8 / widthOf d.width

def overlaps (a b : MemRegion) : Bool := decide (a.base < b.base + b.length ∧ b.base < a.base + a.length)


/-! ### Banks (R161, R166, R171) -/

def flagRewritten : Nat := 0
def flagSlag : Nat := 1
def flagDisturbed : Nat := 2
def flagLost : Nat := 3
def flagFaulty : Nat := 4


/-- Status of a digest (R172): the highest flag, else the count against the expected one. -/
def Bank.status (b : Bank) (expected : Nat) : Nat :=
  match [5, 4, 3, 2, 1, 0].find? fun i => b.flags.testBit i with
  | some i => i + 3
  | none => if expected < b.count ∨ b.count = maxCount then 2 else if b.count < expected then 1 else 0

def parityBit (step : Word) : Nat := if step.getLsbD 0 then 1 else 0
def bankKey (h : Nat) (step : Word) : Nat := h * 2 + parityBit step

/-- The known-answer fault of a stack is latched (R175). -/
def State.katFault (s : State) (n : StackIx) : Bool := s.fld (stackReg n SWD_OFD_KAT) 31 31 == 1

/-- The bytes of a write that fall into a 64-byte line. -/
def bytesInLine (w : TagWrite) (l : Nat) : List (Byte × Bool) :=
  (w.bytes.zipIdx.filter fun e => (w.addr + e.2) / 64 == l).map Prod.fst

/-- The Slag codes of the lines after a write (R215): a line that a marked write touches takes its code, one written whole loses its marker,
and one written in part keeps it. -/
def marksAfter (w : TagWrite) (m : Tab Nat) : Tab Nat :=
  ((List.range ((w.addr % 64 + w.bytes.length + 63) / 64)).map fun i => w.addr / 64 + i).foldl (fun m l =>
    match w.slag with
    | some c => if (bytesInLine w l).any Prod.snd then tput m l c.val else m
    | none => if (bytesInLine w l).length = 64 ∧ (bytesInLine w l).all Prod.snd then tdel m l else m) m

/-- The attempt mark that the issuing tile warden sets (R171): a write of a reissue, or of a re-execution or what follows it. -/
def State.attemptMark (s : State) (w : TagWrite) : Bool :=
  w.src.any fun (t, q, n) => ((s.tile t).slotOf q).any fun e => e.2.attempt n

/-- A write into the part that a running scrub reads is noted with its instant (R173). -/
def State.disturb (s : State) (n : StackIx) (w : TagWrite) : State :=
  s.modOfd fun o => { o with running := o.running.map fun r =>
    { r with disturbed := (if overlaps r.d.region ⟨w.addr, max 1 w.bytes.length⟩ then [(n, s.time.tb)] else []) ++ r.disturbed } }

/-- What a tagged write adds to its bank (R157, R165, R171): nothing but LOST and its marks while the port resynchronises. -/
def State.addWrite (s : State) (n : StackIx) (w : TagWrite) (d : OfdDecl) (b : Bank) : Bank :=
  let us := unitsAt (widthOf d.width) ((w.addr + 2 ^ 64 - d.region.base) % 2 ^ 64) w.bytes
  let lost := (s.agent (s.stackAgent n)).resync
  let b1 := if lost then b else b.add (s.digestOf d.keySet.val d.indexBase us.1) us.1.length
  ((b1.flag flagLost (lost || us.2)).flag flagRewritten (s.attemptMark w)).flag flagSlag w.slag.isSome

/-- TAGGED_WRITE (R164 to R166, R171): counted as a tag miss under a handle that is not its context's; otherwise added to the bank of its
step's parity. Every write moves the Slag markers of its lines and disturbs a scrub that reads its part. -/
def doTaggedWrite (n : StackIx) (w : TagWrite) (s : State) : State :=
  let s0 := (s.disturb n w).modStack n fun x => { x with slag := marksAfter w x.slag }
  if w.handle.val = 0 then s0
  else match (s.handle? w.handle.val).filter fun h => h.d.ctx == w.ctx with
    | none => (s0.bump (stackReg n SWD_OFD_TAG_MISS)).bump HRT_OFD_TAG_MISS
    | some h => s0.modStack n fun x =>
        let k := bankKey w.handle.val w.step
        { x with banks := tput x.banks k (s.addWrite n w h.d (tget x.banks k {})) }

/-- DIGEST_LATCH_COMMAND (R166): the warden waits until the parity's accepted writes have retired. -/
def doDigestLatchCommand (n : StackIx) (c : CtxIx) (step : Word) (s : State) : State :=
  s.modStack n fun x => { x with latch := x.latch ++ [(c, step)] }

/-! ### Replicas (R178, R179) -/

def Group.others (g : Group) : List Nat := (List.range g.members.length).filter fun m => m != g.self

def Group.at (g : Group) (v : Word) : List Replica := g.seen.filter fun r => r.version == v

/-- A digest value held by more than half of a list. -/
def majority (l : List Replica) : Option Ofd :=
  (l.find? fun r => decide (l.length < 2 * (l.filter fun q => q.ofd == r.ofd).length)).map fun r => r.ofd

def State.putGroup (s : State) (g : Group) : State :=
  s.modOfd fun o => { o with groups := o.groups.map fun h => if h.ident = g.ident then g else h }

/-- Data of replica events (R189). -/
def Group.data (g : Group) (v : Word) (own : Option Replica) (ms : List Nat) : List (List Byte) :=
  [iw g.ident, iw v, i1 ((own.map Replica.keySet).getD 0), i1 ((own.map Replica.status).getD 0)] ++
    ms.map fun m => iw (g.members.getD m 0)

/-- The comparison of a version (R179): the members whose digests are COMPLETE under this member's key set; a member whose own digest is not
among them has compared nothing. -/
def State.compareReplicas (s : State) (g : Group) (v : Word) : State :=
  let all := g.at v
  let own := all.find? fun r => r.member == g.self
  let ok := all.filter fun r => r.status == 0 && (own.map Replica.keySet) == some r.keySet
  let s1 := s.putGroup { g with seen := g.seen.filter fun r => r.version != v, waits := g.waits.filter fun w => w.1 != v }
  let out := fun (s : State) n => s.setFld HRT_REPLICA_STATUS 3 0 n
  match own, ok with
  | some o, a :: _ :: _ =>
    let d := g.data v own (ok.map Replica.member)
    if !ok.contains o then out s1 5
    else if ok.all fun r => r.ofd == a.ofd then (out s1 1).bumpFld HRT_REPLICA_STATUS 15 4
    else match (if 3 ≤ ok.length then majority ok else none) with
      | some m => if o.ofd = m then (out s1 2).emit ⟨0, 0, 0, 0x0304, d⟩ else (out s1 3).emit ⟨2, 0, 0, 0x0305, d⟩
      | none => (out s1 2).emit ⟨2, 0, 0, 0x0304, d⟩
  | _, _ => out s1 5

/-- A digest of a member is taken in; with every member's digest held the comparison is made. -/
def State.takeReplica (s : State) (g : Group) (r : Replica) : State :=
  let g1 := { g with seen := (g.seen.filter fun q => !(q.version == r.version && q.member == r.member)) ++ [r] }
  let n := (g1.at r.version).length
  let s1 := (s.putGroup g1).setFld HRT_REPLICA_STATUS 31 24 n
  if g.members.length ≤ n then s1.compareReplicas g1 r.version else s1

/-- A version that a member has left unanswered for two intervals (R179). -/
def State.silentPeers (s : State) (ident : Word) (v : Word) : State :=
  match s.ofd.groups.find? fun g => g.ident == ident with
  | none => s
  | some g =>
    let miss := g.others.filter fun m => !(g.at v).any fun r => r.member == m
    if miss = [] then s
    else
      let own := (g.at v).find? fun r => r.member == g.self
      let s1 := miss.foldl (fun s m => s.emit ⟨0, 6, 0, 0x0306, g.data v own [m]⟩) s
      (s1.compareReplicas g v).setFld HRT_REPLICA_STATUS 3 0 4

/-- This member's digest goes to every other member, and its version waits for theirs from its first sending on (R179). -/
def State.sendReplica (s : State) (g : Group) (r : Replica) : State :=
  let g1 := { g with waits := if g.waits.any fun w => w.1 == r.version then g.waits else g.waits ++ [(r.version, 0)] }
  ((s.putGroup g1).each g1.others fun s m => s.emitOut (.digest g.ident m r.version r.keySet r.status r.ofd r.count)).takeReplica g1 r

/-- A STEPPED digest that an interval has made due (R178): the latch of the first step that is a multiple of the stride sends it. -/
def State.sendStepped (s : State) (c : CtxIx) (step : Word) : State :=
  s.each s.ofd.groups fun s g => match g.copy.filter fun _ => g.due with
    | some (.stepped h stride) => match (s.handle? h.val).filter fun x => x.d.ctx == c && step.toNat % stride.toNat == 0 with
      | some x => match x.latched.find? fun l => l.1 == step with
        | some l => s.sendReplica { g with due := false } ⟨g.self, step, x.d.keySet.val, l.2.ofd, l.2.count, l.2.status (unitsOf x.d)⟩
        | none => s
      | none => s
    | _ => s

/-! ### The Hearth's side of a latch (R166, R168, R177) -/

/-- The digests of the last four latched steps are kept: a new step enters empty. -/
def Handle.openLatch (h : Handle) (step : Word) : Handle :=
  if h.latched.any fun l => l.1 == step then h else { h with latched := ((step, {}) :: h.latched).take 4 }

/-- A report is combined into its step's digest, as long as that is kept. -/
def Handle.latchAt (h : Handle) (step : Word) (b : Bank) : Handle :=
  { h with latched := h.latched.map fun l => if l.1 = step then (step, l.2.combine b) else l }

/-- A stack with a latched known-answer fault holds part of a region (R175). -/
def State.faultyRegion (s : State) (r : MemRegion) : Bool :=
  (List.finRange 24).any fun n => s.katFault n && Config.holdsPart n.val r.base r.length

/-- Layer digest records A and B of a handle and step (R177). -/
def State.traceDigest (s : State) (h : Nat) (x : Handle) (step : Word) (b : Bank) : State :=
  if s.traceSrc 17 (some x.d.ctx) then
    let p := s.ctxPart x.d.ctx
    let sc := b.status (unitsOf x.d) + x.d.ctx.val * 16
    (s.traceRec p hearthWriter [word4 0x31 h sc x.d.keySet.val, step, BitVec.ofNat 32 b.l0, BitVec.ofNat 32 (b.l0 / 2 ^ 32)]).traceRec p
      hearthWriter [word4 0x32 h sc (b.count / 2 ^ 40), BitVec.ofNat 32 (b.count / 2 ^ 8), BitVec.ofNat 32 b.l1,
        BitVec.ofNat 32 (b.l1 / 2 ^ 32)]
  else s

/-- Every stack has latched and every report is taken. -/
def LatchRun.over (r : LatchRun) : Bool := r.left.isEmpty && r.due.all fun d => d.2 == 0

/-- A latch that is over: its digests are FAULTY where the region lies partly on a faulty stack (R175), they are traced (R177), one that a replica
group waits for is sent (R178), and the handles whose last latch it was are freed (R163). -/
def State.endLatch (s : State) (r : LatchRun) : State :=
  if r.over then
    let judged := fun (x : Handle) => if s.faultyRegion x.d.region then x.latchAt r.step (Bank.flag {} flagFaulty true) else x
    let s0 := s.modOfd fun o => { o with handles := o.handles.map fun e => if e.2.d.ctx = r.ctx then (e.1, judged e.2) else e }
    let s1 := s0.each (s0.handlesOf r.ctx) fun s h =>
      match s.handle? h with
      | some x => match x.latched.find? fun l => l.1 == r.step with
        | some l => s.traceDigest h x r.step l.2
        | none => s
      | none => s
    (s1.sendStepped r.ctx r.step).modOfd fun o => { o with
      latches := o.latches.filter fun q => !(q.ctx == r.ctx && q.step == r.step)
      handles := o.handles.filter fun e => !(e.2.d.ctx == r.ctx && e.2.last == some r.step) }
  else s

def State.modLatch (s : State) (c : CtxIx) (step : Word) (f : LatchRun → LatchRun) : State :=
  let s1 := s.modOfd fun o => { o with latches := o.latches.map fun q => if q.ctx = c ∧ q.step = step then f q else q }
  match s1.ofd.latches.find? fun q => q.ctx == c && q.step == step with
  | some r => s1.endLatch r
  | none => s1

/-- A latch report is taken (R166 item 3). -/
def State.takeLatch (s : State) (h : Nat) (step : Word) (b : Bank) : State :=
  match s.handle? h with
  | none => s
  | some x =>
    (s.modOfd fun o => { o with handles := tput o.handles h (x.latchAt step b) }).modLatch x.d.ctx step fun r =>
      { r with due := tmod r.due h 0 fun n => n - 1 }

/-- Reports of a latch enter the warden's report queue as room appears in it. -/
def State.pumpReports (s : State) (n : StackIx) : State :=
  let x := s.stack n
  let room := 16 - (s.agent (s.stackAgent n)).queue.length
  (s.setStack n { x with toReport := x.toReport.drop room }).each (x.toReport.take room) fun s r => s.wardenReport (s.stackAgent n) r

/-- The known answer under a key set (R175): units 0 to 15 with the values 0x0 to 0xF. -/
def State.knownAnswer (s : State) (k : Nat) : Ofd := s.digestOf k 0 ((List.range 16).map fun i => (i, i))

/-- The key sets in use: those that registered handles name. -/
def State.keySetsUsed (s : State) : List (Fin 4) := (List.finRange 4).filter fun k => s.ofd.handles.any fun e => e.2.d.keySet == k

/-- The Hearth computes the known answers and writes them to the stacks' pages: at stage 6, and again where a transaction has changed a key set since
(assumption log 90). -/
def State.writeKnown (s : State) : State := s.modOfd fun o => { o with known := (List.range 4).map s.knownAnswer }

/-- The first key set in use whose known answer, as the Hearth wrote it, a warden has missed; `kat` is what its datapath made of the vector, by key
set. -/
def State.katMissed (s : State) (kat : List Ofd) : Option (Fin 4) := s.keySetsUsed.find? fun k => kat[k.val]? != s.ofd.known[k.val]?

/-- The known-answer check before a latch (R175): a pass is counted; the first miss is latched and recorded with the step and key set. -/
def State.katCheck (s : State) (n : StackIx) (step : Word) (kat : List Ofd) : State :=
  match s.katMissed kat with
  | none => s.bumpFld (stackReg n SWD_OFD_KAT) 30 0
  | some k =>
    let s1 := s.setFld (stackReg n SWD_OFD_KAT) 31 31 1
    if s.katFault n then s1 else s1.wardenReport (s.stackAgent n) (.accumFault n 0 step k)

/-- The bank of a handle's step is copied and cleared; a nonzero count is to be reported (R166 item 2). -/
def State.latchHandle (s : State) (n : StackIx) (step : Word) (h : Nat) : State :=
  let x := s.stack n
  let b := (tget x.banks (bankKey h step) {}).flag flagFaulty (s.katFault n)
  let x1 := { x with copies := tput x.copies h b, banks := tdel x.banks (bankKey h step) }
  match s.handle? h with
  | some d =>
    if b.count = 0 then s.setStack n x1
    else (s.setStack n { x1 with toReport := x1.toReport ++ [.latch n (Fin.ofNat 256 h) step b.ofd b.count b.flags d.d.keySet] }).modLatch d.d.ctx step
      fun r => { r with due := tmod r.due h 0 fun k => k + 1 }
  | none => s.setStack n x1

/-- BANK_LATCH (R166, R175): the known-answer check, then every bank of the context is copied and cleared, and those with a nonzero
count are reported. -/
def doBankLatch (n : StackIx) (c : CtxIx) (step : Word) (kat : List Ofd) (s : State) : State :=
  if !(s.stack n).latch.contains (c, step) then s
  else
    let s1 := (s.handlesOf c).foldl (fun s h => s.latchHandle n step h) (s.katCheck n step kat)
    ((s1.modStack n fun x => { x with latch := x.latch.erase (c, step) }).pumpReports n).modLatch c step fun r =>
      { r with left := r.left.erase n }

/-- The Hearth starts the latch of a context's step at every stack; it is the last one of the handles whose release waits for this barrier
(R163). A latch whose last reports were lost is over. -/
def State.startLatch (s : State) (c : CtxIx) (step : Word) : State :=
  let ns := (List.finRange 24).filter fun n => decide (n.val < s.stackCount)
  let s0 := s.each (s.ofd.latches.filter fun r => r.ctx == c) State.endLatch
  let enter := fun (x : Handle) => { x.openLatch step with last := if x.releasing ∧ x.last = none then some step else x.last }
  let s1 := s0.modOfd fun o => { o with
    latches := o.latches ++ [⟨c, step, ns, []⟩]
    handles := o.handles.map fun e => if e.2.d.ctx = c then (e.1, enter e.2) else e }
  ns.foldl (fun s n => s.command (s.stackAgent n) (.latch c step)) s1

/-! ### Handles (R163) -/

def State.freeHandle (s : State) : Option Nat := ((List.range 255).map (· + 1)).find? fun h => (s.handle? h).isNone

/-- OFD_REGISTER (R163). DESIGN CHOICE (assumption log 112): a bank left under a freed handle is not cleared when the number is registered anew. -/
def serveOfdRegister (d : OfdDecl) (p : Pend) (s : State) : State :=
  s.serveAs p false (some d.ctx) fun s =>
    if 2 ^ 48 ≤ d.indexBase then s.fail p .badOperand
    else if !s.ownsRegion p d.region then s.refuseDenied p .deniedWorld
    else if d.region.length * 8 % widthOf d.width ≠ 0 then s.fail p .badLength
    else if s.ofd.handles.any fun e => overlaps e.2.d.region d.region then s.fail p .overlap
    else match s.freeHandle with
      | none =>
        if s.ofd.exhausted.contains d.ctx then s.fail p .noHandle
        else ((s.modOfd fun o => { o with exhausted := d.ctx :: o.exhausted }).emit
          ⟨0, 0, d.ctx.val, 0x0301, [i1 0, iw (s.ctx d.ctx).step, i1 d.keySet.val, i1 0]⟩).answer p .noHandle
          (codeOf 0 0 d.ctx.val 0x0301) []
      | some h => (s.modOfd fun o => { o with
          handles := tput o.handles h { d := d }, exhausted := o.exhausted.erase d.ctx }).ok p [BitVec.ofNat 32 h]

/-- OFD_RELEASE: freed at the next step barrier of its context, after its last latch. -/
def serveOfdRelease (h : Fin 256) (p : Pend) (s : State) : State :=
  match s.handle? h.val with
  | none => s.serveAs p false none fun s => s.fail p .badOperand
  | some x => s.serveAs p false (some x.d.ctx) fun s =>
      (s.modOfd fun o => { o with handles := tput o.handles h.val { x with releasing := true } }).ok p []

/-- OFD_READ (R168, R401). -/
def serveOfdRead (h : Fin 256) (p : Pend) (s : State) : State :=
  match s.handle? h.val with
  | none => s.serveAs p false none fun s => s.fail p .badOperand
  | some x => s.serveAs p false (some x.d.ctx) fun s =>
      s.ok p (x.latched.flatMap fun l => l.1 :: l.2.words (l.2.status (unitsOf x.d)))

/-! ### Scrub digests and verification (R173, R174, R180) -/

/-- Queue a scrub request: refused DENIED_WORLD for a foreign region, NOT_READY while the function is not ON, BUSY with sixteen queued; a
region on a faulty stack is FAULTY. -/
def State.requestScrub (s : State) (p : Pend) (d : OfdDecl) (expected : Option (Ofd × Nat)) : State :=
  s.serveAs p false (some d.ctx) fun s =>
    if 2 ^ 48 ≤ d.indexBase then s.fail p .badOperand
    else if !s.ownsRegion p d.region then s.refuseDenied p .deniedWorld
    else if !s.fnOn 4 then s.fail p .notReady
    else if s.faultyRegion d.region then
      if expected.isSome then s.ok p (2 :: ({} : Bank).words 7) else s.fail p .faulty
    else if 16 ≤ s.ofd.queue.length then s.fail p .busy
    else (s.modOfd fun o => { o with queue := o.queue ++ [{ who := some p, d := d, expected := expected }] }).waitAnswer p

def serveScrubDigest (d : OfdDecl) (p : Pend) (s : State) : State := s.requestScrub p d none
def serveOfdVerify (d : OfdDecl) (e : Ofd) (n : Nat) (p : Pend) (s : State) : State := s.requestScrub p d (some (e, n))

/-- SCRUB_START: the head of the queue is served; a region that has become faulty is answered without reading. -/
def doScrubStart (s : State) : State :=
  match s.ofd.queue, s.ofd.running with
  | r :: rest, none =>
    if !s.fnOn 4 then s
    else
      let s1 := s.modOfd fun o => { o with queue := rest }
      if s.faultyRegion r.d.region then s1.scrubFails r .faulty 7
      else s1.modOfd fun o => { o with running := some { r with disturbed := [] } }
  | _, _ => s

/-- Answer of OFD_VERIFY: 0 MATCH, 1 MISMATCH, 2 NOT_COMPARABLE with the status. -/
def State.answerVerify (s : State) (c : CtxIx) (keySet : Nat) (p : Pend) (b : Bank) (e : Ofd) (n : Nat) : State :=
  let st := b.status n
  if st ≠ 0 then s.finish p .ok 0 (2 :: b.words st)
  else if b.l0 = e.lane0 ∧ b.l1 = e.lane1 then s.finish p .ok 0 (0 :: b.words 0)
  else (s.emit ⟨2, 0, c.val, 0x0303, [i1 0, iw (s.ctx c).step, i1 keySet, i1 0]⟩).finish p .ok (codeOf 2 0 c.val 0x0303) (1 :: b.words 0)

/-- STOP or TRIP on the memory domain of a stack pauses its scrub (R174). -/
def State.memoryStopped (s : State) (n : StackIx) : Bool := (s.hl.stop ||| s.hl.trip).getLsbD (16 + n.val / s.perDie)

/-- A line of a part bears a Slag marker. -/
def State.partSlag (s : State) (d : OfdDecl) (q : ScrubPart) : Bool :=
  (s.stack q.stack).slag.any fun e => decide (d.region.base + q.offset < e.1 * 64 + 64 ∧ e.1 * 64 < d.region.base + q.offset + q.data.length)

/-- The digest of what a stack has read of its part of a region (R157, R173, R175). -/
def State.partBank (s : State) (d : OfdDecl) (hits : List (StackIx × Nat)) (q : ScrubPart) : Bank :=
  let us := (unitsAt (widthOf d.width) q.offset (whole q.data)).1
  (((Bank.add {} (s.digestOf d.keySet.val d.indexBase us) us.length).flag flagSlag (q.errors != [] || s.partSlag d q)).flag flagFaulty
    (s.katFault q.stack)).flag flagDisturbed (hits.any fun h => h.1 == q.stack && decide (h.2 ≤ q.ended))

/-- The parts of a scrub, each stack's into its accumulator 0 (R161). -/
def State.storeParts (s : State) (l : List (StackIx × Bank)) : State :=
  s.each ((l.map Prod.fst).eraseDups) fun s n => s.modStack n fun x =>
    { x with copies := tput x.copies 0 (((l.filter fun e => e.1 == n).map Prod.snd).foldl Bank.combine {}) }

/-- SCRUB_COMPLETE: the parts are combined (R172) and the request is answered. An uncorrectable error that a read met is treated as patrol scrub
treats it (R173, R213). -/
def doScrubComplete (parts : List ScrubPart) (s : State) : State :=
  match s.ofd.running with
  | none => s
  | some r =>
    if parts.any fun q => s.memoryStopped q.stack then s
    else
      let l := parts.map fun q => (q.stack, s.partBank r.d r.disturbed q)
      let b := (l.map Prod.snd).foldl Bank.combine {}
      let s0 := s.each parts fun s q => s.each q.errors fun s a => doHbmUncorrectable q.stack a s
      let s1 := (s0.storeParts l).modOfd fun o => { o with running := none }
      match r.who, r.expected with
      | none, _ => s1
      | some p, some (e, n) => s1.answerVerify r.d.ctx r.d.keySet.val p b e n
      | some p, none => s1.finish p .ok 0 (b.words (b.status (unitsOf r.d)))

/-- The scrub requests that are abandoned: all of them, or the queued ones (R174). -/
def State.abandonScrubs (s : State) (runningToo : Bool) : State :=
  (s.modOfd fun o => { o with queue := [], running := if runningToo then none else o.running }).each
    (s.ofd.queue ++ (if runningToo then s.ofd.running.toList else [])) fun s r => s.scrubFails r .abandoned 8

/-! ### Replica intervals (R178, R179) -/

/-- This member's digest at an interval (R178): version, key set, digest, count and status. STATIC has the scrub digest of its parts; that
of STEPPED comes with a later latch. -/
def State.ownReplica (s : State) (g : Group) : ReplicaReg → Option Replica
  | .static d v parts =>
    let b := (parts.map (s.partBank d [])).foldl Bank.combine {}
    some ⟨g.self, v, d.keySet.val, b.ofd, b.count, b.status (unitsOf d)⟩
  | .stepped .. => none

/-- The registration that an interval finds. -/
def copyOf : ReplicaReg → ReplicaCopy
  | .static d v _ => .static d v
  | .stepped h stride => .stepped h stride

/-- The intervals that each open version has waited advance, and the peers that have let two pass are judged (R179). -/
def State.ageGroup (s : State) (g : Group) : State :=
  let ws := g.waits.map fun (w : Word × Nat) => (w.1, w.2 + 1)
  (s.putGroup { g with waits := ws }).each (ws.filter fun w => decide (2 ≤ w.2)) fun s w => s.silentPeers g.ident w.1

/-- REPLICA_INTERVAL: silent peers are judged, and this member's digest goes to every other member, at once or, STEPPED, at the next latch of a
multiple of its stride. -/
def doReplicaInterval (group : Word) (r : ReplicaReg) (s : State) : State :=
  let find := fun (s : State) => s.ofd.groups.find? fun g => g.ident == group
  match find s with
  | none => s
  | some g =>
    let s1 := s.ageGroup g
    match find s1 with
    | none => s1
    | some g1 =>
      let g2 := { g1 with copy := some (copyOf r), due := (s1.ownReplica g1 r).isNone }
      (s1.putGroup g2).each (s1.ownReplica g1 r).toList fun s own => s.sendReplica g2 own

/-- DIGEST_EXCHANGE: accepted from members of a declared group only, and answered with nothing (R470). -/
def doDigestExchange (m : CmpHdr) (group : Word) (member : Fin 16) (v : Word) (keySet : Fin 4) (o : Ofd) (n : Nat) (st : Fin 9)
    (s : State) : State :=
  match s.ofd.groups.find? fun g => g.ident == group with
  | none => s
  | some g =>
    if m.good && decide (member.val < g.members.length) && member.val != g.self then
      s.takeReplica g ⟨member.val, v, keySet.val, o, n, st.val⟩
    else s

/-! ### Meanings -/

def execTaggedWrite (n : StackIx) (w : TagWrite) (s : State) : Res := done (doTaggedWrite n w s)
def execDigestLatchCommand (n : StackIx) (c : CtxIx) (step : Word) (s : State) : Res := done (doDigestLatchCommand n c step s)
def execBankLatch (n : StackIx) (c : CtxIx) (step : Word) (kat : List Ofd) (s : State) : Res := done (doBankLatch n c step kat s)
def execOfdRegister (h : Hdr) (d : OfdDecl) (s : State) : Res :=
  done (s.intake h 0x40 (.ofdRegister h d) (serveOfdRegister d))
def execOfdRelease (h : Hdr) (handle : Fin 256) (s : State) : Res :=
  done (s.intake h 0x41 (.ofdRelease h handle) (serveOfdRelease handle))
def execOfdRead (h : Hdr) (handle : Fin 256) (s : State) : Res := done (s.intake h 0x42 (.ofdRead h handle) (serveOfdRead handle))
def execScrubDigest (h : Hdr) (d : OfdDecl) (s : State) : Res :=
  done (s.intake h 0x43 (.scrubDigest h d) (serveScrubDigest d))
def execOfdVerify (h : Hdr) (d : OfdDecl) (expected : Ofd) (count : Nat) (s : State) : Res :=
  done (s.intake h 0x44 (.ofdVerify h d expected count) (serveOfdVerify d expected count))
def execScrubStart (s : State) : Res := done (doScrubStart s)
def execScrubComplete (parts : List ScrubPart) (s : State) : Res := done (doScrubComplete parts s)
def execReplicaInterval (group : Word) (r : ReplicaReg) (s : State) : Res := done (doReplicaInterval group r s)

end Sys2Proof.Machine
end

