-- ==== Sys2Proof/Machine/Observe.lean ====
section
/-! DEFINITION. Observation: per-context counters, PC samples, trace blocks, tensor watch, snapshots (R380 to R400). -/
namespace Sys2Proof.Machine

/-! ### Counters of a context (R380) -/

/-- One per-context counter of a tile: counter number (0 busy, 1 stalled, 2 to 9 reasons) and context. -/
def State.ctxCounter (s : State) (t : TileIx) (n : Nat) (c : CtxIx) : Nat :=
  s.reg64 (itemKey (tileReg t TWD_CTX_LO) (n * 16 + c.val)) (itemKey (tileReg t TWD_CTX_HI) (n * 16 + c.val))

def State.ctxSum (s : State) (n : Nat) (c : CtxIx) : Nat := ((List.finRange 144).map fun t => s.ctxCounter t n c).sum

/-- Clear a context's counters on every tile (R380). -/
def State.clearCtxCounters (s : State) (c : CtxIx) : State :=
  s.each (List.finRange 144) fun s t => s.each (List.range 10) fun s n =>
    s.set64 (itemKey (tileReg t TWD_CTX_LO) (n * 16 + c.val)) (itemKey (tileReg t TWD_CTX_HI) (n * 16 + c.val)) 0

/-- OBS_CTX_READ, in the 52 data bytes of a response: the busy and stalled sums, low word first, the eight reasons in a saturating word each, and
the context's commits (the layout is the model's: DESIGN CHOICE, assumption log 105). -/
def serveObsCtxRead (c : CtxIx) (p : Pend) (s : State) : State :=
  s.serveAs p false (some c) fun s =>
    s.ok p (((List.range 2).flatMap fun n => [BitVec.ofNat 32 (s.ctxSum n c), BitVec.ofNat 32 (s.ctxSum n c / 2 ^ 32)]) ++
      ((List.range 8).map fun r => BitVec.ofNat 32 (min (s.ctxSum (2 + r) c) (2 ^ 32 - 1))) ++ [BitVec.ofNat 32 (s.ctx c).commits])

/-! ### PC samples (R381) -/

/-- The command RUNNING on a tile. -/
def State.running (s : State) (t : TileIx) : Option JEntry :=
  ((s.tile t).jnl.find? fun e => e.2.state == .running && e.2.isOpen).map fun e => e.2

/-- The state byte of a sample: idle, busy, or stalled with a reason. -/
def stateByte (run : Bool) (stall : Option (Fin 8)) : Nat :=
  if !run then 0
  else match stall with
    | none => 1
    | some r => 2 + r.val * 4

/-- A tile runs an Anvil kernel: its test is under way and STOP has not ended it (R277). -/
def State.anvilRuns (s : State) (t : TileIx) : Option AnvilJob :=
  (s.test.slots.filterMap id).find? fun j => j.tile == t && j.phase == .testing && !j.stopped

/-- A tile is busy or stalled: a command is RUNNING, or an Anvil kernel (R376). -/
def State.works (s : State) (t : TileIx) : Bool := (s.running t).isSome || (s.anvilRuns t).isSome

/-- The clock enables of a tile are up (R377, R381): its region is powered and under none of STOP, KILL and TRIP, and the tile is not fenced, by its
warden or in the floor plan, but for an Anvil kernel, which runs with them restored (R279). -/
def State.enabled (s : State) (t : TileIx) : Bool :=
  s.pw.domOn.getLsbD (regionOfTile t) && s.regionRuns t && !(((s.fpOf t).st == .fenced || (s.tile t).gateClosed) && (s.anvilRuns t).isNone)

/-- PC_SAMPLE: nothing is sampled while the enables are down. -/
def doPcSample (t : TileIx) (pc : Word) (stall : Option (Fin 8)) (s : State) : State :=
  let r := s.running t
  if s.enabled t && s.traceSrc 21 (r.map fun e => e.cmd.ctx) then
    s.traceRec (s.partOfTile t).val (tileWriter t)
      [word4 0x20 ((r.map fun e => e.cmd.ctx.val).getD 0) (s.logNum t) (stateByte (s.works t) stall), BitVec.ofNat 32 s.clock, pc,
        (r.map fun e => e.cmd.seq).getD 0]
  else s

/-! ### Trace blocks (R386 to R388) -/

/-- Blocks of a partition's region, 4 KiB each. -/
def State.traceBlocks (s : State) (p : Nat) : Nat := s.fld (itemKey OBS_TRACE_SIZE p) 14 0 * 256

/-- A block that some writer of the partition has open. -/
def State.blockOpen (s : State) (p b : Nat) : Bool :=
  s.obs.writers.any fun e => decide (e.1 / 256 = p) && (e.2.blk.map fun x => x.1 == b).getD false

/-- The next block of a region in WRAP mode: the first from `next` on that no writer has open. -/
def State.wrapBlock (s : State) (p next : Nat) : Nat :=
  let n := s.traceBlocks p
  (((List.range 194).map fun i => (next + i) % n).find? fun b => !s.blockOpen p b).getD (next % n)

def State.modRegionT (s : State) (p : Nat) (f : TraceRegion → TraceRegion) : State :=
  { s with obs := { s.obs with regions := tput s.obs.regions p (f (tget s.obs.regions p {})) } }

/-- In STOP mode with every configured region full, the function enters STOPPING. -/
def State.traceAllFull (s : State) : State :=
  if (List.range 4).all fun p => !s.traced p || (tget s.obs.regions p {}).full then
    s.modFn 1 fun f => if f.st = .on then { f with st := .stopping } else f
  else s

/-- Grant block `b` to a writer: its BLOCK record takes slot 0, and buffered records follow. -/
def State.grantBlock (s : State) (p w b : Nat) : State :=
  let n := (s.reg (itemKey OBS_TRACE_BLOCKS p))
  let u := writerUnit w
  let c := s.clock
  let s1 := (s.setReg (itemKey OBS_TRACE_BLOCKS p) (n + 1)).emitOut (.trace (Fin.ofNat 4 p) w b
    [word4 2 u.1 u.2 (s.fld OBS_TAG_FORM p p), n, BitVec.ofNat 32 c, BitVec.ofNat 32 (c / 2 ^ 32 + s.esc.gen.toNat * 2 ^ 16)])
  let x := s1.writer p w
  (s1.setWriter p w { x with blk := some (b, 1, c) }).traceDrain p w

/-- Writers still empty their buffers while the function stops (R386, R430). -/
def State.traceWriting (s : State) : Bool := s.traceOn || (s.fn 1).st == .stopping || (s.fn 1).st == .pendingOn

/-- TRACE_BLOCK_CLAIM (R388). DESIGN CHOICE (assumption log 114): a region is full when a claim is refused. -/
def doTraceBlockClaim (part : PartIx) (writer : Nat) (s : State) : State :=
  let p := part.val
  let w := writer % 193
  let r := tget s.obs.regions p {}
  if !s.traceWriting || !s.traced p || (s.writer p w).blk.isSome then s
  else if s.fld OBS_TRACE_CFG 27 27 = 0 then
    let b := s.wrapBlock p r.next
    (s.modRegionT p fun r => { r with next := (b + 1) % s.traceBlocks p }).grantBlock p w b
  else if r.next < s.traceBlocks p then (s.modRegionT p fun r => { r with next := r.next + 1 }).grantBlock p w r.next
  else if r.full then s
  else (((s.modRegionT p fun r => { r with full := true }).emit ⟨0, 0, p, 0x0A01, [i4 p, iw (s.reg (itemKey OBS_TRACE_BLOCKS p))]⟩).irq
    12).traceAllFull

/-- Pad and close a writer's block. -/
def State.closeBlock (s : State) (p w : Nat) : State :=
  let x := s.writer p w
  match x.blk with
  | none => s
  | some (b, used, _) =>
    { s.setWriter p w { x with blk := none } with
      out := List.replicate (256 - used) (.trace (Fin.ofNat 4 p) w b [0, 0, 0, 0]) ++ s.out }

/-- TRACE_BLOCK_CLOSE_TIMER: one second of trace clock since the BLOCK record. -/
def doTraceBlockCloseTimer (part : PartIx) (writer : Nat) (s : State) : State :=
  match (s.writer part.val (writer % 193)).blk with
  | some (_, _, c) => if c + 10 ^ 9 ≤ s.clock then s.closeBlock part.val (writer % 193) else s
  | none => s

/-- TRACE_TIME_RECORD. -/
def doTraceTimeRecord (s : State) : State :=
  match (List.range 4).find? s.traced with
  | some p =>
    if s.traceOn then s.traceRec p hearthWriter [word4 1 s.esc.gen.toNat 0 0, BitVec.ofNat 32 s.clock,
      BitVec.ofNat 32 (s.clock / 2 ^ 32), BitVec.ofNat 32 s.time.tb]
    else s
  | none => s

/-- TRACE_RECORD_DROP: `count` records met a full buffer. -/
def doTraceRecordDrop (part : PartIx) (writer count : Nat) (s : State) : State :=
  let p := part.val
  let w := writer % 193
  if !s.traceOn || !s.traced p then s
  else
    let x := s.writer p w
    (s.setWriter p w { x with lost := x.lost + count }).traceLost p w count

/-- Every writer writes its buffer and closes its blocks (R386, R430). -/
def State.closeTrace (s : State) : State :=
  s.each (s.obs.writers.map fun e => e.1) fun s k =>
    let p := k / 256
    let w := k % 256
    let x := s.writer p w
    let s1 := match x.blk with
      | some _ => s.traceDrain p w
      | none => s
    (s1.closeBlock p w).setWriter p w {}

/-! ### Tensor watch (R393 to R396) -/

def watchKey (p : PartIx) (w : Nat) : Nat := p.val * 8 + w
def selLength : WatchSel → Nat
  | .tag _ _ _ n => n
  | .address _ n => n

/-- A context held at a barrier by a watch goes on with the commands it issued meanwhile. -/
def State.releaseWatchHold (s : State) (c : CtxIx) : State :=
  let held := (s.ctx c).held
  let s1 := s.modCtx c fun x => { x with watchHold := false, held := [] }
  s1.each held fun s h => doCommandIssue h.1 h.2 s

/-- Another capture still holds the context. -/
def State.otherHold (s : State) (k : Nat) (c : CtxIx) : Bool :=
  s.obs.watches.any fun e => e.1 != k && e.2.st == 2 && (e.2.w.map fun w => w.ctx == c && isAddress w.sel && w.step == (s.ctx c).step - 1).getD false

/-- A watch ends (R396); a context held for it goes on. -/
def State.endWatch (s : State) (k status : Nat) : State :=
  let s1 := s.closeWatch k status
  match (s.watch k).w with
  | none => s1
  | some w => if (s.ctx w.ctx).watchHold && isAddress w.sel && !s1.otherHold k w.ctx then s1.releaseWatchHold w.ctx else s1

/-- The dump region of a watch meets R383: within one entry of the world, user-data class, purpose general, long enough. -/
def State.dumpOk (s : State) (p : Pend) (w : WatchDecl) : Bool :=
  match s.regionOf p.world w.dump with
  | some e => !e.control && e.purpose == .general && decide (64 + selLength w.sel ≤ w.dump.length)
  | none => false

def State.freeWatch (s : State) (p : PartIx) : Option Nat :=
  ((List.range 8).map (watchKey p)).find? fun k => (s.watch k).st == 0

/-- WATCH_SET. -/
def serveWatchSet (w : WatchDecl) (p : Pend) (s : State) : State :=
  s.serveAs p false (some w.ctx) fun s =>
    if !s.fnOn 2 then s.fail p .notReady
    else match s.freeWatch w.part with
      | none => s.fail p .noWatchpoint
      | some k =>
        if !later w.step (s.ctx w.ctx).step then s.fail p .tooLate
        else if !isAddress w.sel && s.fld OBS_TAG_FORM w.part.val w.part.val = 0 then s.fail p .badMode
        else if !s.ownsRegion p w.dump then s.refuseDenied p .deniedWorld
        else if !s.dumpOk p w then s.fail p .badRegion
        else (s.setWatch k { st := 1, w := some w }).ok p [BitVec.ofNat 32 (k % 8)]

/-- WATCH_RELEASE frees a watchpoint in any state; a context it holds goes on. -/
def serveWatchRelease (part : PartIx) (wp : Fin 8) (p : Pend) (s : State) : State :=
  let k := watchKey part wp.val
  let x := s.watch k
  s.serveAs p false (x.w.map WatchDecl.ctx) fun s =>
    let s1 := s.setWatch k {}
    let s2 := match x.w with
      | some w => if x.st = 2 ∧ (s.ctx w.ctx).watchHold ∧ isAddress w.sel ∧ !s1.otherHold k w.ctx then s1.releaseWatchHold w.ctx else s1
      | none => s1
    s2.ok p []

/-- Bytes that have reached the dump, and TRUNCATED once its region is full. -/
def State.watchCopied (s : State) (k bytes status : Nat) : State :=
  let x := s.watch k
  match x.w with
  | none => s
  | some w =>
    if x.st ≠ 2 ∨ !isAddress w.sel ∨ !(s.ctx w.ctx).watchHold then s
    else (s.setWatch k { x with bytes := min bytes (dumpRoom w) }).endWatch k (if dumpRoom w < bytes then 5 else status)

/-- The copy of a watch pauses while STOP stands at a memory domain (R403). -/
def State.copyPaused (s : State) : Bool := s.hl.stop &&& 0xFF0000 != 0

/-- WATCH_COPY_DONE: a copy that pauses under STOP is not done. -/
def doWatchCopyDone (part : PartIx) (wp : Fin 8) (bytes : Nat) (s : State) : State :=
  if s.copyPaused then s else s.watchCopied (watchKey part wp.val) bytes 3

/-- WATCH_HOLD_EXPIRY. -/
def doWatchHoldExpiry (part : PartIx) (wp : Fin 8) (bytes : Nat) (s : State) : State := s.watchCopied (watchKey part wp.val) bytes 4

/-- At the barrier that ends step `step` of a context (R394, R395): TAG captures end DONE, TRUNCATED or EMPTY; ADDRESS captures
hold the context and start their copy. -/
def State.watchBarrier (s : State) (c : CtxIx) (step : Word) : State :=
  let mine := s.obs.watches.filter fun e => (e.2.st == 1 || e.2.st == 2) && (e.2.w.map fun w => w.ctx == c && w.step == step).getD false
  s.each mine fun s e =>
    match e.2.w with
    | none => s
    | some w =>
      if isAddress w.sel then (s.setWatch e.1 { e.2 with st := 2, since := s.time.tb }).modCtx c fun x => { x with watchHold := true }
      else s.endWatch e.1 (if e.2.bytes = 0 then 6 else if dumpRoom w < e.2.bytes then 5 else 3)

/-! ### Snapshots (R251, R252, R397 to R400) -/

def State.snap (s : State) (b : Nat) : Snap := s.esc.snaps.getD b {}
def State.setSnap (s : State) (b : Nat) (x : Snap) : State := { s with esc := { s.esc with snaps := s.esc.snaps.set b x } }

/-- The snapshot region: an entry of purpose snapshot of at least 256 KiB. -/
def State.snapRegion (s : State) : Bool := s.regions.any fun e => e.2.purpose == .snapshot && decide (1 ≤ e.2.length)

/-- Units in a scope: the wardens that exist, without the routers. -/
def State.snapUnits (s : State) (sc : SnapScope) : List AgentIx :=
  let ws := s.allAgents.filter fun a => a.agent.val != 31
  match sc with
  | .package => ws
  | .partitions m => ws.filter fun a => decide (a.die.val < 8) && m.getLsbD (s.partOfDie a.die.val).val
  | .tiles ts => ts.map tileAgent

/-- HRT_SNAP_STATUS keeps how many units of the last snapshot gave no answer or were reset before they were read (R252, R257). -/
def State.countMissed (s : State) : State :=
  match s.esc.snaps.find? fun x => x.num == s.esc.snapCount && x.st != 0 with
  | some x => { s with esc := { s.esc with snapMissed := x.noresp.length + x.lost.length } }
  | none => s

/-- A snapshot that fills goes on: the Hearth reads its units in order, with at most eight outstanding (R251). -/
def State.moveSnap (s : State) (b : Nat) (x : Snap) : State :=
  let was := (s.snap b).todo.take 8
  ((s.setSnap b x).each ((x.todo.take 8).filter fun a => !was.contains a) fun s a => s.send a .snapshotRead 100).countMissed

/-- SNAPSHOT: claims a free buffer in arrival order and starts reading. -/
def serveSnapshot (sc : SnapScope) (p : Pend) (s : State) : State :=
  s.serveAs p true none fun s =>
    if !s.snapRegion then s.fail p .badRegion
    else match (List.range 2).find? fun b => (s.snap b).st == 0 with
      | none => s.fail p .busy
      | some b =>
        let held := (s.esc.reset.map fun r => r.phase == .holding).getD false
        let s1 := { s with esc := { s.esc with snapCount := s.esc.snapCount + 1 } }
        (s1.moveSnap b { st := 1, num := s1.esc.snapCount, scope := sc, t0 := s.time.tb, epoch := s.plan.epoch, gen := s.esc.gen
                         trigger := if held then s.reg HRT_ESC_CAUSE else 0
                         todo := s.snapUnits sc }).ok p [BitVec.ofNat 32 b, BitVec.ofNat 32 s1.esc.snapCount]

/-- The read of a unit is over without an answer: its message is outstanding no more. -/
def State.dropRead (s : State) (a : AgentIx) : State :=
  match tget s.bus.out (agentKey a * 4 + 3) [] with
  | m :: _ => if m.bell = .snapshotRead then s.answered a 3 else s
  | [] => s

/-- SNAPSHOT_UNIT_TIMEOUT. -/
def doSnapshotUnitTimeout (b : Fin 2) (a : AgentIx) (s : State) : State :=
  let x := s.snap b.val
  if x.st = 1 ∧ x.todo.contains a then (s.dropRead a).moveSnap b.val { x with todo := x.todo.erase a, noresp := x.noresp ++ [a] } else s

/-- The stop instant of a domain as a 64-bit value: grid count and cycle, zero when not stopped (R397). -/
def State.instantOf (s : State) (d : Nat) : Nat :=
  match tget? s.hl.instants d with
  | some (g, c) => g * 2 ^ 16 + c % 2 ^ 16
  | none => 0

/-- Clock domain of a unit. -/
def State.domainOfUnit (s : State) (a : AgentIx) : Nat :=
  match s.unitOf a with
  | (1, n) => regionOfTile (tileIx n)
  | (2, n) => 16 + n / s.perDie
  | (3, n) => 24 + n / 3
  | _ => 40

/-- A unit's enables are down or its domain is unpowered, so it is read through taps (R79). -/
def State.unitStopped (s : State) (a : AgentIx) : Bool :=
  (s.hl.stop ||| s.hl.kill ||| s.hl.trip ||| ~~~ s.pw.domOn).getLsbD (s.domainOfUnit a)

/-- SNAPSHOT_WRITE_TIMEOUT. -/
def doSnapshotWriteTimeout (b : Fin 2) (s : State) : State :=
  if (s.snap b.val).st = 1 then (s.setSnap b.val {}).emit ⟨0, 0, b.val, 0x050F, []⟩ else s

/-- Units reset before they are read count as NORESP (R252); their entries show status 4 (R399). -/
def State.snapReset (s : State) (f : AgentIx → Bool) : State :=
  s.each (List.range 2) fun s b =>
    let x := s.snap b
    if x.st = 1 then (s.each ((x.todo.take 8).filter f) State.dropRead).moveSnap b
      { x with todo := x.todo.filter fun a => !f a, lost := x.lost ++ x.todo.filter f } else s

/-- A chip reset abandons the snapshots in progress. -/
def State.abandonSnaps (s : State) : State :=
  { s with esc := { s.esc with snaps := s.esc.snaps.map fun (x : Snap) => if x.st = 1 then {} else x } }

/-- The 64 words of a buffer's header (R398). -/
def Snap.header (x : Snap) : List Word :=
  let two := fun (n : Nat) => [BitVec.ofNat 32 n, BitVec.ofNat 32 (n / 2 ^ 32)]
  let scope := match x.scope with
    | .package => 0
    | .partitions m => 1 + m.toNat * 16
    | .tiles _ => 2
  let port := (x.read.filter fun r => !r.2.1).length
  let taps := (x.read.filter fun r => r.2.1).length
  let tiles := (x.read.filter fun r => decide (r.1.die.val < 8 ∧ r.1.agent.val < 18)).length
  [0x50414E53, BitVec.ofNat 32 x.num, BitVec.ofNat 32 scope, x.trigger] ++ two x.t0 ++ two x.t1 ++
  [x.smear, BitVec.ofNat 32 (port + taps * 2 ^ 16), BitVec.ofNat 32 (x.noresp.length + x.lost.length * 2 ^ 16), x.epoch,
   BitVec.ofNat 32 (x.gen.toNat + x.doms.length * 2 ^ 8 + tiles * 2 ^ 16), x.recSeq] ++ List.replicate 50 0

/-- Domain entries (R398), 4 words each. -/
def Snap.domainWords (x : Snap) : List Word :=
  ((x.doms.flatMap fun (d : Nat × Nat × Nat × Nat × Nat) => [BitVec.ofNat 32 (d.1 + d.2.1 * 2 ^ 8 + d.2.2.1 * 2 ^ 16), 0,
    BitVec.ofNat 32 (d.2.2.2.2 + d.2.2.2.1 * 2 ^ 16), BitVec.ofNat 32 (d.2.2.2.1 / 2 ^ 16)]) ++ List.replicate 192 0).take 192

/-- The entry of a unit: what was read, or its status alone; zero for an absent warden, 3 for a tile outside the scope. -/
def Snap.entry (x : Snap) (a : AgentIx) (tile : Bool) (ut ui n : Nat) : List Word :=
  let w := match x.read.find? fun r => r.1 == a with
    | some r => r.2.2
    | none =>
      let st := if x.noresp.contains a then 2 else if x.lost.contains a then 4 else 3
      if tile then [word4 ui st 0xFF 0] else if st = 3 then [] else [word4 ut ui st 0]
  (w ++ List.replicate n 0).take n

/-- Word `i` of a buffer (R397). -/
def State.snapWord (s : State) (x : Snap) (i : Nat) : Word :=
  if i < 64 then x.header.getD i 0
  else if i < 256 then x.domainWords.getD (i - 64) 0
  else if i < 256 + 144 * 128 then
    let t := tileIx ((i - 256) / 128)
    (x.entry (tileAgent t) true 1 t.val 128).getD ((i - 256) % 128) 0
  else
    let j := i - (256 + 144 * 128)
    let n := j / 32
    let a := if n < 24 then s.stackAgent (Fin.ofNat 24 n) else if n < 72 then portAgent (Fin.ofNat 48 (n - 24)) else dieAgent (dieIx (n - 72))
    if n < 97 then (x.entry a false (if n < 24 then 2 else if n < 72 then 3 else 4) (if n < 24 then n else if n < 72 then n - 24 else n - 72)
      32).getD (j % 32) 0
    else 0

/-- SNAP_COPY: a full buffer, or part of it, to host memory. -/
def serveSnapCopy (b : Fin 2) (offset length : Nat) (p : Pend) (s : State) : State :=
  s.serveAs p true none fun s =>
    if (s.snap b.val).st ≠ 2 then s.fail p .notReady
    else if 0x20000 < offset + length then s.fail p .badOperand
    else (s.emitOut (.hostCopy b.val offset length)).ok p []

/-- SNAP_RELEASE. -/
def serveSnapRelease (b : Fin 2) (p : Pend) (s : State) : State :=
  s.serveAs p true none fun s =>
    if (s.snap b.val).st ≠ 2 then s.fail p .notReady else (s.setSnap b.val {}).ok p []

/-! ### Meanings -/

def execObsCtxRead (h : Hdr) (c : CtxIx) (s : State) : Res := done (s.intake h 0x60 (.obsCtxRead h c) (serveObsCtxRead c))
def execWatchSet (h : Hdr) (w : WatchDecl) (s : State) : Res := done (s.intake h 0x61 (.watchSet h w) (serveWatchSet w))
def execWatchRelease (h : Hdr) (part : PartIx) (wp : Fin 8) (s : State) : Res :=
  done (s.intake h 0x62 (.watchRelease h part wp) (serveWatchRelease part wp))
def execWatchCopyDone (part : PartIx) (wp : Fin 8) (bytes : Nat) (s : State) : Res := done (doWatchCopyDone part wp bytes s)
def execWatchHoldExpiry (part : PartIx) (wp : Fin 8) (bytes : Nat) (s : State) : Res := done (doWatchHoldExpiry part wp bytes s)
def execPcSample (t : TileIx) (pc : Word) (stall : Option (Fin 8)) (s : State) : Res := done (doPcSample t pc stall s)
def execTraceBlockClaim (part : PartIx) (writer : Nat) (s : State) : Res := done (doTraceBlockClaim part writer s)
def execTraceBlockCloseTimer (part : PartIx) (writer : Nat) (s : State) : Res := done (doTraceBlockCloseTimer part writer s)
def execTraceTimeRecord (s : State) : Res := done (doTraceTimeRecord s)
def execTraceRecordDrop (part : PartIx) (writer count : Nat) (s : State) : Res := done (doTraceRecordDrop part writer count s)
def execSnapshot (h : Hdr) (scope : SnapScope) (s : State) : Res := done (s.intake h 0x36 (.snapshot h scope) (serveSnapshot scope))
def execSnapshotUnitTimeout (buffer : Fin 2) (a : AgentIx) (s : State) : Res := done (doSnapshotUnitTimeout buffer a s)
def execSnapshotWriteTimeout (buffer : Fin 2) (s : State) : Res := done (doSnapshotWriteTimeout buffer s)
def execSnapCopy (h : Hdr) (buffer : Fin 2) (offset length : Nat) (s : State) : Res :=
  done (s.intake h 0x37 (.snapCopy h buffer offset length) (serveSnapCopy buffer offset length))
def execSnapRelease (h : Hdr) (buffer : Fin 2) (s : State) : Res :=
  done (s.intake h 0x38 (.snapRelease h buffer) (serveSnapRelease buffer))

end Sys2Proof.Machine
end

