-- ==== Sys2Proof/Machine/Barrier.lean ====
section
/-! DEFINITION. Step barriers and the assignment of contexts: token conservation, sampling rate, shadow assignment, digest
latches, drift (R108 to R112, R119, R126, R163, R184, R185, R380, R395). -/
namespace Sys2Proof.Machine

/-! ### Conservation (R108 to R112) -/

/-- A tile's entries of a context and parity. -/
def consOf (c : CtxIx) (par : Bool) (x : Tile) : List ConsEntry := x.cons.filter fun e => e.ctx == c && e.parity == par

/-- Add a tile's entry to the table rows: one row for each key and placement. -/
def addRow (rows : List ConsRow) (e : ConsEntry) (step : Word) : List ConsRow :=
  let same := fun (r : ConsRow) => r.key == e.key && r.place == e.place
  if rows.any same then
    rows.map fun r => if same r then { r with
      d := satAdd 32 r.d e.d, x := satAdd 32 r.x e.x, v := satAdd 32 r.v e.v, t := satAdd 32 r.t e.t } else r
  else rows ++ [⟨e.ctx, e.key, e.place, step, e.d, e.x, e.v, e.t, none⟩]

/-- Collect the entries of all tiles, keyed rows and aggregates. -/
def State.consRows (s : State) (c : CtxIx) (step : Word) : List ConsRow :=
  ((List.finRange 144).flatMap fun t => consOf c (stepParity step) (s.tile t)).foldl (fun rows e => addRow rows e step) []

/-- The failed equation of a row (R109, R421): 0 D ≠ V, 1 V ≠ T, 2 sent ≠ returned, 3 received ≠ sent back. -/
def ConsRow.judge (r : ConsRow) : Option Nat :=
  match r.place with
  | .localExpert => if r.d ≠ r.v then some 0 else if r.v ≠ r.t then some 1 else none
  | .remoteExpert => if r.d ≠ r.t then some 2 else none
  | .serving => if r.v ≠ r.t then some 3 else none

/-- A saturated count makes a key's equations unverifiable (R500). -/
def ConsRow.saturated (r : ConsRow) : Bool := decide (2 ^ 32 - 1 ≤ max (max r.d r.v) r.t)

/-- Every token of an aggregate was counted by key as well. -/
def fullyKeyed (keyed : List ConsRow) (a : ConsRow) : Bool :=
  let mine := keyed.filter fun r => r.place == a.place
  decide ((mine.map ConsRow.d).sum = a.d ∧ (mine.map ConsRow.v).sum = a.v ∧ (mine.map ConsRow.t).sum = a.t ∧
    (mine.map ConsRow.x).sum = a.x)

/-- CONSERVATION_MISMATCH (R112): counted, recorded, noticed, and the step is marked DIVERGED. DESIGN CHOICE (assumption log 78): the data of
the record are the equation, the layer and the expert; those that R116 names mean nothing here. -/
def State.consMismatch (s : State) (c : CtxIx) (step : Word) (r : ConsRow) (eq : Nat) : State :=
  let code := codeOf 2 0 c.val 0x0108
  let layer := (r.key.map fun k => k.layer.val).getD 0
  let expert := (r.key.map fun k => k.expert.val).getD 0
  let s1 := ((s.bump HRT_CONS_MISMATCH).emit ⟨2, 0, c.val, 0x0108, [i4 eq, i4 layer, i4 expert]⟩).markStep c step 1
  s1.notify ⟨0, 2, c, 1, step, code, 0, 0, 0xFF, 0xFF, 0xFF, 0xFF, 0, 0, (s.fn 0).gen,
    i2 layer ++ i2 expert ++ i1 eq ++ i4 r.d ++ i4 r.v ++ i4 r.t⟩

/-- CONSERVATION_CHECK of a context's step: the table's rows of the context are replaced, the wardens' banks of the parity are
cleared, every key that fits is checked, and the aggregates. A key that found the bank of some warden full does not fit (R110). -/
def State.conservation (s : State) (c : CtxIx) (step : Word) : State :=
  let unfit := fun (r : ConsRow) => r.key.any fun k => (List.finRange 144).any fun t => (s.tile t).consOver.contains (stepParity step, k, r.place)
  let rows := (s.consRows c step).filter fun r => !unfit r
  let keyed := (rows.filter fun r => r.key.isSome).map fun r => { r with failed := if r.saturated then none else r.judge }
  let aggs := rows.filter fun r => r.key.isNone
  let others := s.ofd.cons.filter fun r => r.ctx != c
  let fit := keyed.take (4096 - others.length)
  let bad := fit.filter fun r => r.failed.isSome
  let badAgg := aggs.filter fun a => !a.saturated && a.judge.isSome
  let partially := decide (fit.length < keyed.length) || fit.any ConsRow.saturated || aggs.any fun a => !fullyKeyed fit a
  let s1 := (s.modOfd fun o => { o with cons := others ++ fit }).setFld HRT_CONS_TABLE 28 16 (others.length + fit.length)
  let s2 := s1.each (List.finRange 144) fun s t =>
    if consOf c (stepParity step) (s.tile t) = [] then s
    else s.modTile t fun x => { x with
      cons := x.cons.filter fun e => !(e.ctx == c && e.parity == stepParity step)
      consOver := x.consOver.filter fun o => !(o.2.1.ctx == c && o.1 == stepParity step) }
  let s3 := if partially then (s2.bumpFld HRT_CONS_TABLE 15 0).emit ⟨0, 0, c.val, 0x0109, []⟩ else s2
  let fails := if bad = [] then badAgg else bad
  let s4 := s3.each fails fun s r => s.consMismatch c step r ((r.judge).getD 0)
  if fails = [] ∨ (s.ctx c).desc.noticeOnly then s4 else s4.contextFault c (codeOf 2 0 c.val 0x0108) step 0

/-- Combining commands that waited for the check commit (R111). -/
def State.releaseGated (s : State) (c : CtxIx) (step : Word) : State :=
  s.each (List.finRange 144) fun s t =>
    s.each ((s.tile t).jnl.filter fun e => e.2.consWait && e.2.cmd.ctx == c && e.2.cmd.step == step) fun s e =>
      let e1 := { e.2 with consWait := false }
      let s1 := s.modTile t fun x => x.setSlot e.1 e1
      if e1.mayCommit && !(s.tile t).gateClosed then s1.commit t e.1 e1 else s1

/-! ### Drift (R184, R185) -/

/-- A context has work on a tile: state of it, or a logical tile that has committed for it (assumption log 35). -/
def State.worksOn (s : State) (c : CtxIx) (t : TileIx) : Bool :=
  s.holdsWork t c || (s.logicalOf t).any fun l => (s.ctxsOn t l).contains c || (tget? (s.ctx c).lastCommit l.val).isSome

/-- Compute dies on which a context has work (R335). -/
def State.workDies (s : State) (c : CtxIx) : List Nat :=
  (List.range 8).filter fun d => (List.finRange 144).any fun t => dieOfTile t == d && s.worksOn c t

/-- Observation beyond the light set is active in a partition: the full set, trace, or a watch that captures (R402). -/
def State.observing (s : State) (p : Nat) : Bool :=
  (s.reg OBS_FULL_EN).getLsbD p || (s.traceOn && s.traced p) || s.obs.watches.any fun e => e.2.st == 2 && decide (e.1 / 8 = p)

/-- Observation was active in the step on what a context uses (R402): as the barrier reports it, or still on a tile where it has work. -/
def State.wasObserved (s : State) (b : Barrier) : Bool :=
  b.observed || (List.finRange 144).any fun t => s.observing (s.partOfTile t).val && s.worksOn b.ctx t

/-- Cycles swallowed since a context's last barrier on either half of the dies where it has work (R184, R335). -/
def State.throttleDrift (s : State) (c : CtxIx) : Nat :=
  ((s.workDies c).flatMap fun d => [2 * d, 2 * d + 1]).foldl (fun n g => n + (tget s.thm.swallowed g 0 - tget (s.ctx c).driftSwallow g 0)) 0

/-- The drift counters of a step, in the order of R185, and the bitmask. -/
def State.driftOf (s : State) (b : Barrier) : List Nat × Nat :=
  let x := s.ctx b.ctx
  let epochs := (s.plan.epoch - x.driftEpoch).toNat
  let spills := x.driftSpills
  let sat := fun n => min n (2 ^ 32 - 1)
  let thr := sat (s.throttleDrift b.ctx)
  ([sat b.refresh, sat b.retry, thr, sat b.check, spills % 2 ^ 16 * 2 ^ 16 + epochs % 2 ^ 16, sat b.scrub],
   bit (b.refresh ≠ 0) 0 + bit (b.retry ≠ 0) 1 + bit (thr ≠ 0) 2 + bit (b.check ≠ 0) 3 + bit (epochs ≠ 0) 4 + bit (spills ≠ 0) 5 +
     bit (s.wasObserved b) 6 + bit (b.scrub ≠ 0) 7 + bit (!x.first && x.r != x.rOld) 8)

def driftRegs : List Nat :=
  [HRT_DRIFT_REFRESH, HRT_DRIFT_RETRY, HRT_DRIFT_THROTTLE, HRT_DRIFT_CHECK, HRT_DRIFT_PLACE, HRT_DRIFT_SCRUB]

def State.drift (s : State) (b : Barrier) : State :=
  let (cs, mask) := s.driftOf b
  let c := b.ctx
  let s1 := ((driftRegs.zip cs).foldl (fun s e => s.setNat (itemKey e.1 c.val) e.2)
    ((s.setReg (itemKey HRT_DRIFT_STEP c.val) b.step).setNat (itemKey HRT_DRIFT_SOURCES c.val) mask))
  let s2 := s1.modCtx c fun x => { x with driftEpoch := s.plan.epoch, driftSwallow := s.thm.swallowed, driftSpills := 0 }
  if mask = 0 ∨ !s.traceSrc 17 (some c) then s2
  else
    let rec1 := fun (i v : Nat) => [word4 0x33 (c.val + i * 16) mask (mask / 256), b.step, BitVec.ofNat 32 v, BitVec.ofNat 32 s.clock]
    let nz := cs.zipIdx.filter fun e => e.1 != 0
    let recs := if nz = [] then [rec1 15 0] else nz.map fun e => rec1 e.2 e.1
    s2.each recs fun s r => s.traceRec (s.ctxPart c) hearthWriter r

/-! ### The barrier -/

/-- Ordinals count within a step (R122). -/
def State.clearOrdinals (s : State) (c : CtxIx) : State :=
  s.modShadow fun x => { x with ordinals := x.ordinals.filter fun e => e.1 / 128 != c.val }

/-- STEP_BARRIER: the step just ended is checked, latched and measured, and the next one is set up. -/
def doStepBarrier (b : Barrier) (s : State) : State :=
  let x := s.ctx b.ctx
  if !x.used || x.faulted || x.step != b.step then s
  else
    let c := b.ctx
    let s1 := s.conservation c b.step
    if (s1.ctx c).faulted then s1
    else
      let s2 := ((s1.releaseGated c b.step).drift b).startLatch c b.step
      let s3 := ((s2.updateRate c b.shadowBusy b.stepTime).measure c).assignShadows c
      let s4 := (s3.clearOrdinals c).watchBarrier c b.step
      let s5 := { s4 with esc := { s4.esc with bstop := s4.esc.bstop.map fun (z : Bstop) => { z with passed := c :: z.passed } } }
      s5.modCtx c fun x => { x with step := b.step + 1, first := false, lastCommitAt := s.time.tb }

/-! ### CONTEXT_ASSIGNED (R122, R123, R126, R243, R380, R487) -/

/-- A free number takes the new context: its counters and conservation rows are cleared, its first step starts at r_base with the
descriptor's seed, or with a drawn one for seed 0. -/
def doContextAssigned (c : CtxIx) (d : CtxDesc) (s : State) : State :=
  if (s.ctx c).used ∨ s.bu.pkg = .safe then s
  else
    let base := s.fld HRT_SHD_POLICY 3 0
    let dr := s.draw
    let seed := if d.seed = 0 then Config.drawnSeed dr.1 else d.seed
    let s0 := if d.seed = 0 then dr.2 else s
    let s1 := s0.setCtx c { used := true, desc := d, step := d.step, first := true, seed := seed, r := base, rPrev := base, rOld := base
                            lastCommitAt := s.time.tb, driftEpoch := s.plan.epoch, driftSwallow := s.thm.swallowed }
    let s2 := ((s1.clearCtxCounters c).clearOrdinals c).set64 (itemKey HRT_SHD_SEED_LO c.val) (itemKey HRT_SHD_SEED_HI c.val) seed.toNat
    let s3 := s2.modOfd fun o => { o with cons := o.cons.filter fun r => r.ctx != c, exhausted := o.exhausted.erase c }
    let s4 := s3.assignShadows c
    s4.each (List.finRange 144) fun s t => s.command (tileAgent t) (.seed c seed base)

/-! ### Meanings -/

def execStepBarrier (b : Barrier) (s : State) : Res := done (doStepBarrier b s)
def execContextAssigned (c : CtxIx) (d : CtxDesc) (s : State) : Res := done (doContextAssigned c d s)

end Sys2Proof.Machine
end

