-- ==== Sys2Proof/Machine/Ladder.lean ====
section
/-! DEFINITION. Hangs, knots and the reset ladder (R224 to R259): watchdogs, the wait-for graph and spills, reconfiguration, kills,
resets of a partition, of the compute part and of the chip, boundary stops. -/
namespace Sys2Proof.Machine

/-! ### Hard lines (R71 to R77) -/

def domainsIn (m : BitVec 41) : List DomainIx := (List.finRange 41).filter fun d => m.getLsbD d.val

/-- The grid point of a domain's last release (R75): of the start that released it last, else ALIGN of stage 3. -/
def State.releasedAt (s : State) (d : Nat) : Nat := (tget? s.hl.released d).getD (s.time.origin.getD s.time.alignPt)

/-- The cycle of a domain's base clock, counted from its last grid release, in which a line driven now takes effect (R72, R75). -/
def State.effectCycle (s : State) (d : DomainIx) : Nat :=
  let len := 25600 / cyclesOf d
  let at0 := (s.time.tb - s.releasedAt d.val) * 40 + (Config.stopArrival s.free d.val).val
  (at0 + len - 1) / len + 2 + (if at0 % len = 0 then (Config.stopEffect s.free d.val).val else 0)

/-- Assert STOP on domains: each newly stopped one latches its stop instant, and HRT_SMEAR takes the width in whole ns, rounded up. -/
def State.latchStops (s : State) (new : BitVec 41) : State :=
  let at1 := (domainsIn new).map fun d => (d, s.effectCycle d)
  let ns40 := at1.map fun e => s.releasedAt e.1.val * 40 + e.2 * (25600 / cyclesOf e.1)
  let smear := (ns40.foldl max 0 - ns40.foldl min (ns40.foldl max 0) + 39) / 40
  if new = 0 then s
  else
    ({ s with
      free := s.free + 1
      hl := { s.hl with
        instants := at1.foldl (fun t (e : DomainIx × Nat) => tput t e.1.val (e.2 / cyclesOf e.1, e.2 % cyclesOf e.1)) s.hl.instants } }).setNat HRT_SMEAR smear

/-- The tests that run on tiles of the domains are ABORTED by a STOP, and not frozen (R283). -/
def State.stopTests (s : State) (m : BitVec 41) : State :=
  let hit := fun (t : TileIx) => m.getLsbD (regionOfTile t)
  s.modTest fun x => { x with
    slots := x.slots.map fun o => o.map fun j => if j.phase = .testing ∧ hit j.tile then { j with stopped := true } else j
    bist := x.bist.map fun b => if b.phase = .testing ∧ hit b.tile then { b with stopped := true } else b
    returns := x.returns.map fun r => if hit r.tile then { r with stopped := true } else r }

/-- Assert STOP: the domains not stopped yet latch their instants. -/
def State.assertStop (s : State) (m : BitVec 41) : State :=
  let new := m &&& s.stopReach &&& ~~~ (s.hl.stop ||| s.hl.trip)
  ((s.stopTests new).latchStops new).modHl fun h => { h with stop := h.stop ||| new }

/-- Every trace writer with an open block writes what it has buffered. -/
def State.drainWriters (s : State) : State :=
  s.each ((s.obs.writers.filter fun e => e.2.blk.isSome && e.2.buf != []).map Prod.fst) fun s k => s.traceDrain (k / 256) (k % 256)

/-- Release STOP on domains; trace records that waited are written (R403). -/
def State.releaseStop (s : State) (m : BitVec 41) : State :=
  (s.modHl fun h => { h with stop := h.stop &&& ~~~ m
                             instants := h.instants.filter fun e => !(m &&& ~~~ h.trip).getLsbD e.1 }).drainWriters

/-- Assert KILL on compute regions. -/
def State.assertKill (s : State) (m : BitVec 41) : State :=
  s.modHl fun h => { h with kill := h.kill ||| (m &&& computeDomains), armed := h.armed &&& ~~~ m }

/-! ### Functions forced off, transactions discarded (R431, R440, R442) -/

/-- Set a function's state; entering ON or OFF is recorded and raises vector 9. -/
def State.setFn (s : State) (f : Nat) (st : FnState) : State :=
  let s1 := s.modFn f fun x => { x with st := st, gen := if st = .on then (x.gen + 1) % 65536 else x.gen }
  if st = .on ∨ st = .off then (s1.emit ⟨0, 0, f, 0x0B09, [i4 (fnStateNum st), i4 (s1.fn f).gen]⟩).irq 9 else s1

/-- Every function goes OFF at once, and its work is abandoned. -/
def State.fnForceOff (s : State) : State :=
  let s0 := (s.abandonWatches fun _ => true).abandonScrubs true
  let s1 := { s0 with obs := { s0.obs with watches := [] } }
  let s2 := s1.each (s1.obs.writers.map fun e => e.1) fun s k => s.setWriter (k / 256) (k % 256) {}
  s2.each (List.range 5) fun s f => if (s.fn f).st = .off then s else s.setFn f .off

def State.txn (s : State) (w : World) : Txn := tget s.txns (World.num w) ⟨false, 0, [], 0, 0, false, none, 0, false⟩
def State.modTxn (s : State) (w : World) (f : Txn → Txn) : State := { s with txns := tput s.txns (World.num w) (f (s.txn w)) }

/-- Data of the transaction records (R446): identifier, configuration epoch, failing item. DESIGN CHOICE
(assumption log 115): the item is 255 where none fails. -/
def State.txnData (s : State) (w : World) (item : Nat) : List (List Byte) :=
  [i4 (s.txn w).ident, iw (s.reg TXN_CFG_EPOCH), i4 item]

/-- A transaction is discarded without an abort: TXN_ROLLBACK, vector 10. -/
def State.rollback (s : State) (w : World) : State :=
  if (s.txn w).isOpen then
    (((s.modTxn w fun x => { x with isOpen := false, items := [], commit := none }).bump TXN_ROLLBACKS).emit
      ⟨0, 0, World.num w, 0x0B02, s.txnData w 255⟩).irq 10
  else s

def State.discardTxns (s : State) : State := (s.rollback .secure).rollback .nonSecure

/-- What the start of a chip reset, of Quench and of a removal does to commands (R442): transactions discarded, the intake disabled,
commands taken never answered. -/
def State.dropCommands (s : State) : State :=
  ((s.discardTxns.modHost fun h => { h with unanswered := [] }).modSq fun q => { q with waiting := [] }).setFld HRT_CMD_CTRL 0 0 0

/-! ### Boundary stops (R256) -/

def partList (m : BitVec 4) : List PartIx := (List.finRange 4).filter fun p => m.getLsbD p.val
def State.diesOfParts (s : State) (m : BitVec 4) : List Nat := (List.range 8).filter fun k => m.getLsbD (s.partOfDie k).val
def State.domsOfParts (s : State) (m : BitVec 4) : BitVec 41 := regionsOfDies (s.diesOfParts m)
def State.tilesOfParts (s : State) (m : BitVec 4) : List TileIx :=
  (List.finRange 144).filter fun t => m.getLsbD (s.partOfTile t).val

def State.modEsc (s : State) (f : Escalation → Escalation) : State := { s with esc := f s.esc }

/-- A tile stands at its boundary (R256): no command of its is RUNNING or awaits its checks, and in STEP mode none waits of a context that has
not passed its barrier. -/
def Bstop.reached (b : Bstop) (x : Tile) : Bool :=
  !x.jnl.any fun e => e.2.isOpen && (e.2.state != .issued || (b.step && !b.passed.contains e.2.cmd.ctx))

/-- Tiles in a boundary stop's scope that serve: those with a logical number, and spares that run a command of their duty. -/
def State.stopTiles (s : State) (b : Bstop) : List TileIx :=
  (s.tilesOfParts b.parts).filter fun t => (s.logicalOf t).isSome || (s.tile t).openEntries != []

/-- In STEP mode a tile runs on until every context with work or state there has passed its barrier. -/
def State.stepsPassed (s : State) (b : Bstop) (t : TileIx) : Bool :=
  !b.step || match s.logicalOf t with
    | some l => (List.finRange 16).all fun c =>
        b.passed.contains c || !((s.ctxsOn t l).contains c || ((s.ctx c).used && !(s.ctx c).faulted && (tget? (s.ctx c).lastCommit l.val).isSome))
    | none => true

/-- A tile of the scope stands at its boundary. -/
def State.stands (s : State) (b : Bstop) (t : TileIx) : Bool := b.reached (s.tile t) && s.stepsPassed b t

/-- How many of them stand at their boundary. -/
def State.atBoundary (s : State) (b : Bstop) : Nat := ((s.stopTiles b).filter (s.stands b)).length

/-- The commands held meanwhile issue on every tile. -/
def State.drainGates (s : State) : State := s.each (List.finRange 144) fun s t => s.drainGateOf t

/-- End of a boundary stop: STOP is released on its scope and the tiles go on. -/
def State.endBstop (s : State) : State :=
  match s.esc.bstop with
  | none => s
  | some b =>
    let s1 := s.modEsc fun e => { e with bstop := none }
    (if b.held || b.timedOut then s1.releaseStop (s.domsOfParts b.parts) else s1).drainGates

/-- The cut is reached: STOP on the scope holds it. -/
def State.holdCut (s : State) (b : Bstop) : State :=
  (s.assertStop (s.domsOfParts b.parts)).modEsc fun e => { e with bstop := some { b with held := true } }

/-- BSTOP_TIMEOUT: STOP on the scope, and the record. -/
def State.timeOutCut (s : State) (b : Bstop) : State :=
  ((s.assertStop (s.domsOfParts b.parts)).modEsc fun e => { e with bstop := some { b with timedOut := true } }).emit
    ⟨0, 0, 0, 0x0510, [i4 (s.atBoundary b)]⟩

/-- BOUNDARY_STOP is answered at its acceptance; one stop at a time. -/
def serveBoundaryStop (parts : BitVec 4) (step : Bool) (p : Pend) (s : State) : State :=
  s.serveAs p true none fun s =>
    if parts = 0 then s.fail p .badOperand
    else if s.esc.bstop.isSome then s.fail p .busy
    else (s.modEsc fun e => { e with bstop := some ⟨parts, step, .host p, false, false, []⟩ }).ok p []

/-- BOUNDARY_RESUME releases the host's own stop. -/
def serveBoundaryResume (p : Pend) (s : State) : State :=
  s.serveAs p true none fun s =>
    match s.esc.bstop with
    | none => s.ok p []
    | some b => match b.who with
      | .host _ => s.endBstop.ok p []
      | _ => s.fail p .busy

/-- A reset during a commit's quiesce (R442): nothing is applied, the commit is answered ABANDONED, the transaction stays open. -/
def State.abandonQuiesce (s : State) : State :=
  match s.esc.bstop with
  | some b => match b.who with
    | .txn w =>
      let who := (s.txn w).commit.bind Commit.who
      let s1 := (s.modTxn w fun x => { x with commit := none, excluded := x.excluded + (s.time.tb - x.commitAt) }).endBstop
      match who with
      | some p => s1.finish p .abandoned 0 []
      | none => s1
    | _ => s
  | none => s

/-! ### Census (R82) -/

/-- A census probe: 100 µs to answer. -/
def State.probe (s : State) (a : AgentIx) : State :=
  (s.modAgent a fun x => { x with probing := true }).send a .censusProbe 100

/-- Wardens and routers start afresh, but for those of the anchor die, which lie in the standby domain and keep their queues and sequence
numbers and their level in force (R40, R43); what the Hearth knows of them is taken anew. The report queue lies in the anchor router's port and stays (R61). -/
def State.freshAgents (s : State) : State :=
  let ours := fun (k : Nat) => k / 32 == s.anchor.val
  { s with
    agents := (s.agents.filter fun (e : Nat × Agent) => ours e.1).map fun e =>
      (e.1, { e.2 with present := false, failed := false, excluded := false, probing := false })
    bus := { s.bus with level := 1, taken := s.bus.taken.filter fun e => ours e.1, seqs := s.bus.seqs.filter fun e => ours (e.1 / 4),
                        out := s.bus.out.filter fun e => ours (e.1 / 4) } }

/-- The census: the Hearth probes the anchor router first. -/
def State.startCensus (s : State) : State := s.freshAgents.probe (routerAgent s.anchor)

/-! ### Resets (R238 to R250) -/

def levelNum : Level → Nat
  | .partition => 2
  | .computePart => 3
  | .chip => 4

/-- Scope byte of a fence notice (R462). -/
def levelScope : Level → Fin 7
  | .partition => 1
  | .computePart => 2
  | .chip => 3

def levelParts (l : Level) (parts : BitVec 4) : BitVec 4 := if l = .partition then parts else 0xF

/-- Data of a reset record: scope and sparing-map epoch. -/
def State.resetData (s : State) (parts : BitVec 4) : List (List Byte) := [i4 parts.toNat, iw s.plan.epoch]

/-- Re-placements, waiting or under way, of which a tile is named. -/
def State.replsOn (s : State) (ts : List TileIx) : List Repl :=
  (s.plan.waiting ++ s.plan.slots.filterMap id).filter fun r =>
    ts.contains r.failed || ts.contains r.first || (r.spare.map ts.contains).getD false

/-- Contexts with a logical tile on a tile of the scope (R239): state on the tile, and of a number whose re-placement the reset abandons, state on
any tile of it, since nothing is reloaded or reissued (R211). -/
def State.victims (s : State) (l : Level) (parts : BitVec 4) : List CtxIx :=
  let all := (List.finRange 16).filter fun c => (s.ctx c).used && !(s.ctx c).faulted
  if l = .partition then
    all.filter fun c => ((s.tilesOfParts parts).any fun t => match s.logicalOf t with
      | some lt => (s.ctxsOn t lt).contains c
      | none => s.holdsWork t c) ||
      (s.replsOn (s.tilesOfParts parts)).any fun r => (r.failed :: r.first :: r.spare.toList).any fun t => (s.ctxsOn t r.logical).contains c
  else all

/-- Re-placements that the reset reaches are abandoned, and the gate of a spare that took a number opens; one whose step 2 is not made makes it at
the decision (R211). -/
def State.settleRepl (s : State) (ts : List TileIx) : State :=
  let hit := fun (r : Repl) => ts.contains r.failed || ts.contains r.first || (r.spare.map ts.contains).getD false
  let s0 := s.each ((s.plan.slots.filterMap id).filter hit) fun s r => s.each r.spare.toList fun s u => s.modTile u fun x => { x with reloading := false }
  let s1 := s0.modPlan fun p => { p with slots := p.slots.map fun (o : Option Repl) => o.filter fun r => !hit r }
  let s2 := s1.each (s1.plan.fencing.filter fun e => ts.contains (tileIx e.1)) fun s e =>
    (s.modPlan fun p => { p with fencing := tdel p.fencing e.1 }).fencePlan (tileIx e.1) e.2.2.2.2 e.2.1 e.2.2.2.1 e.2.2.1
  let mine := s2.plan.waiting.filter fun r => ts.contains r.failed || ts.contains r.first
  (s2.modPlan fun p => { p with waiting := p.waiting.filter fun r => !(ts.contains r.failed || ts.contains r.first) }).each mine
    fun s r => match s.chooseSpare r.prefer (dieOfTile r.failed) with
      | some u => s.stepTwo r u
      | none => s.noSpare r

/-- The commits of a primary outside the reset go on. -/
def releaseOutside (ts : List TileIx) (a : Arb) (s : State) : State := if ts.contains a.p then s else s.releaseArb a

/-- Cases of R143 that the reset reaches are abandoned and recorded (R146). -/
def State.resetCases (s : State) (ts : List TileIx) : State :=
  let hit := fun (j : AnvilJob) => match j.why with
    | .noArb a => if ts.contains a.p || ts.contains a.s then some a else none
    | _ => none
  let drop := fun (j : AnvilJob) => if (hit j).isSome then { j with why := .nonidem } else j
  let s1 := s.each ((s.test.queue ++ s.test.slots.filterMap id).filterMap hit) fun s a =>
    releaseOutside ts a ((s.freeArb a 6).emit ⟨0, 0, a.ctx.val, 0x020A, a.data⟩)
  { s1 with test := { s1.test with queue := s1.test.queue.map drop, slots := s1.test.slots.map fun o => o.map drop } }

/-- Arbitrations that the reset reaches are abandoned and recorded (R146). -/
def State.resetArbs (s : State) (ts : List TileIx) : State :=
  let hit := fun (a : Arb) => ts.contains a.p || ts.contains a.s || (a.s2.map ts.contains).getD false
  let s1 := s.each (List.range 2) fun s i => match s.shadow.running.getD i none with
    | some a => if hit a then releaseOutside ts a ((s.endArb i a).emit ⟨0, 0, a.ctx.val, 0x020A, a.data⟩) else s
    | none => s
  let s2 := s1.each (s1.shadow.waiting.filter hit) fun s a => releaseOutside ts a ((s.freeArb a 6).emit ⟨0, 0, a.ctx.val, 0x020A, a.data⟩)
  s2.modShadow fun x => { x with
    waiting := x.waiting.filter fun a => !hit a
    halves := x.halves.filter fun h => !(ts.contains h.tile || ts.contains h.primary) }

/-- A tile's warden after a partition or compute-part reset: its journal, gate, queues and tokens are cleared, the counts of the contexts
killed, and the Slag markers of the tile SRAM, which is reset; what the warden itself keeps, an injection among it, stays (R43, R44). -/
def clearTile (cs : List CtxIx) (x : Tile) : Tile :=
  { x with jnl := [], jhead := 63, gate := [], retry := none, failedTwice := none, slots := [none, none]
           cons := x.cons.filter fun e => !cs.contains e.ctx, consOver := x.consOver.filter fun o => !cs.contains o.2.1.ctx
           queues := [], waits := [], epoch := 0, draining := none, copies := [], ofdSet := false, handing := false
           reloading := false, heldTokens := [], slag := []
           role := if x.role = .shadow ∨ x.role = .arbiter then .idle else x.role }

/-- A shadow whose primary's journal is gone has nothing to compare with: its captures are abandoned. -/
def State.dropCaptures (s : State) (ts : List TileIx) : State :=
  s.each (List.finRange 144) fun s u =>
    s.each (((s.tile u).slots.filterMap id).filter fun c => ts.contains c.primary) fun s c => s.freeCapture u c.primary c.seq 6

/-- Shadows inside the reset lose the commands of primaries outside it. -/
def State.dropDuties (s : State) (ts : List TileIx) : State :=
  s.each ts fun s u => s.each (((s.tile u).slots.filterMap id).filter fun c => !ts.contains c.primary) fun s c => s.loseDuty u c

/-- The wait-for graph and the spill regions lose what the reset reaches (R234). -/
def State.dropSpills (s : State) (parts : BitVec 4) : State :=
  s.modEsc fun e => { e with spills := e.spills.filter fun p => !parts.getLsbD p.part.val
                             graph := e.graph.filter fun g => !([g.e.producer, g.e.consumer].any fun l =>
                               match s.holder l with
                               | some t => parts.getLsbD (s.partOfTile t).val
                               | none => true) }

/-- The first grid point at least 1,280 ns ahead (R77). -/
def State.nextGrid (s : State) : Nat := ((s.time.tb + 1280 - s.time.alignPt + 639) / 640) * 640 + s.time.alignPt

/-- The chip generation advances and the regions arm for an ALIGN; within the holdoff they stay in KILL (R219). -/
def State.advance (s : State) (m : BitVec 41) (p : Nat) : State × Bool :=
  let a := s.nextGrid
  let share := decide (s.time.alignAt = some a)
  let wait := decide (s.fld HRT_GEN_HOLDOFF 9 0 * 10 ^ 6 + s.esc.lastAdvance.getD 0 > s.time.tb) && s.esc.lastAdvance.isSome && !share
  if wait then (s.emit ⟨0, 0, p, 0x040B, []⟩, false)
  else
    let s1 := if share then s else s.modEsc fun e => { e with gen := e.gen + 1, lastAdvance := some s.time.tb }
    ({ (s1.modHl fun h => { h with armed := h.armed ||| (m &&& h.kill) }) with time := { s1.time with alignAt := some a } }, true)

def lowPart (m : BitVec 4) : Nat := ((List.range 4).find? fun p => m.getLsbD p).getD 0

/-- The reset's regions go for ALIGN, or wait for the end of the generation holdoff. -/
def State.goAlign (s : State) (r : Reset) : State :=
  let x := s.advance (s.domsOfParts r.parts) (lowPart r.parts)
  x.1.modEsc fun e => { e with reset := some { r with phase := if x.2 then .aligning else .holdoff } }

/-- The wardens of reset tiles count the records lost on the mesh, keep their trace buffers and resume with a new block (R403); how many were on the
mesh is free. -/
def State.dropBlocks (s : State) (ts : List TileIx) : State :=
  let hit := s.obs.writers.filter fun e => (ts.any fun t => tileWriter t == e.1 % 256) && e.2.blk.isSome
  (s.each hit fun s e =>
    let n := Config.meshRecords s.free e.1
    let s1 := s.setWriter (e.1 / 256) (e.1 % 256) { e.2 with blk := none, lost := e.2.lost + n }
    s1.when (n != 0) fun s => s.traceLost (e.1 / 256) (e.1 % 256) n).drawn

/-- Steps 2 to 6 of a partition or compute-part reset (R244, R245). -/
def State.runCompute (s : State) (r : Reset) : State :=
  let ts := s.tilesOfParts r.parts
  let ds := s.domsOfParts r.parts
  let cs := (List.finRange 16).filter fun c => (s.ctx c).used && !(s.ctx c).faulted && ((s.victims r.level r.parts).contains c || r.cs.contains c)
  let s1 := (s.assertStop ds).assertKill ds
  let s2 := ((((((s1.dropDuties ts).dropCaptures ts).resetCases ts).endTests ts).when (s.strands ts) State.rewriteRecord).each ts fun s t => s.modTile t (clearTile cs)).dropSpills r.parts
  let s3 := (s2.failJobs cs 1 r.code (levelScope r.level).val 0xFFFFFFFF).each cs fun s c => s.sendKill c none
  let s4 := ((s3.resetArbs ts).abandonWatches fun w => cs.contains w.ctx).seekWaiting
  let s5 := s4.each ts fun s t => (s.countHeld (tileAgent t)).modAgent (tileAgent t) fun a => { a with resync := true, unitCmd := none, unitQ := 0, unitWait := 0 }
  let s6 := (s5.dropBlocks ts).snapReset fun a => ts.any fun t => tileAgent t == a
  s6.goAlign r

/-- The Hearth page at a chip reset: the command control block and the MSI-X structures return to their reset values (R483). -/
def State.resetCommandBlock (s : State) : State :=
  let s1 := { s with
    regs := s.regs.filter fun e => !(decide (0x800 ≤ e.1 % 0x1000000) && decide (e.1 % 0x1000000 ≤ 0x838))
    msix := { s.msix with table := [], pba := 0, d3Held := 0 } }
  s1.modHost fun h => { h with heldNotices := [], lostEpisode := 0 }

/-- The warden pages at a chip reset (R497); the anchor die's warden and router, and the sequencer, stand in standby. -/
def State.resetWardenPages (s : State) : State :=
  let kept := fun (e : Nat × Word) =>
    let o := e.1 % 0x1000000
    decide (o < 0x100000) || decide (0x800000 ≤ o) || (decide (dieReg s.anchor 0 ≤ o) && decide (o < dieReg s.anchor 0x1000)) ||
      (decide (0x300000 ≤ o) && o % 0x1000 == DWD_ISLAND)
  { s with regs := s.regs.filter kept, paths := s.paths.filter kept }

/-- HRT_BU_STAGE_END and HRT_BU_STAGE_DETAIL from stage `n` on read as not reached (R292, R323). -/
def State.clearStages (s : State) (n : Nat) : State :=
  s.each ((List.range 10).filter fun k => decide (n ≤ k)) fun s k =>
    (s.setNat (HRT_BU_STAGE_END + 8 * k) 0xFFFFFFFF).setNat (HRT_BU_STAGE_DETAIL + 8 * k) 0

/-- The anchor die's two temperature sensors, which lie in the standby domain (R326, R327). -/
def anchorSensor (k : Nat) : Bool := k == 208 || k == 209

/-- What of the thermal and power watch outlasts the wardens' reset (R43, R345): the anchor die's sensors, which are standby, the PMBus channels, the
input power; ratios are 16/16 again and levels and timers are cleared. -/
def Thermal.fresh (m : Thermal) : Thermal :=
  { temps := m.temps.filter fun e => anchorSensor e.1, failed := m.failed.filter anchorSensor
    channels := m.channels, power := m.power, swallowed := m.swallowed, pfSince := m.pfSince }

/-- Steps 3 to 6 of a chip reset (R247), and what the start of one does (R431, R442, R304). The scrub requests are answered ABANDONED (R174)
before the other commands end without an answer (assumption log 81). -/
def State.runChip (s : State) (r : Reset) : State :=
  let cs := s.victims .chip 0xF
  let s0 := (s.abandonScrubs true).dropCommands.endFreeze
  let s1 := s0.each cs fun s c => (s.killOutside c).modCtx c fun x => { x with faulted := true }
  let s2 := (s1.setPkg .safe).failJobs cs 1 r.code 3 0xFFFFFFFF
  let s3 := ((s2.resetCases (List.finRange 144)).resetArbs (List.finRange 144)).fnForceOff.abandonSnaps
  let s4 := ((s3.assertStop s3.stopReach).assertKill computeDomains).modHl fun h => { h with stop := h.trip, instants := [], armed := 0, thrt := 0 }
  let s5 := s4.resetCommandBlock.resetWardenPages.setNat (dieReg s.anchor DWD_QUENCH) 0 |>.setNat HRT_BIST_NEXT 0xFF00
  let s6 := { s5 with
    time := { s5.time with alignAt := none }
    pw := { s5.pw with domOn := 0, domGood := 0, locked := 0, gridOk := 0, pcieTrained := false, d3 := false }
    tiles := [], ports := [], hbm := [], ctxs := [], shadow := {}, test := {}
    plan := { s5.plan with waiting := [], slots := [none, none], fencing := []
                           writing := s5.plan.writing || (s5.recd.pfLock && s5.pw.mainGood && !s5.plan.writeQ.isEmpty) }
    ofd := { s5.ofd with handles := [], exhausted := [], latches := [], queue := [], running := none, known := [] }
    obs := { s5.obs with writers := [], watches := [] }
    routes := s5.routes.filter fun e => !isJobTag e.2.tag
    slices := s5.slices.filter fun e => !isJobTag e.2.tag
    bu := { s5.bu with stage := 2, failed := false, failCode := 0, chipPass := true, excluded := [], topo := 0, topoOk := false,
                       wiringWait := false, complete := false, passStart := r.since, cast := none }
    recd := { s5.recd with pfLock := s5.recd.pfLock && !s5.pw.mainGood }
    thm := s5.thm.fresh
    esc := { s5.esc with reset := some { r with phase := .aligning }, graph := [], spills := [], spilled := [], starved := []
                         bstop := s5.esc.bstop.filter fun (b : Bstop) => b.who == BstopFor.removal } }
  (s6.clearStages 3).startCensus

def State.runReset (s : State) (r : Reset) : State := if r.level = .chip then s.runChip r else s.runCompute r

/-- A reset begins (R244 steps 1 to 3): the cause is in the recorder and a forced flush starts, notices leave, a hold or the reset
itself follows. It kills the contexts that had state in its scope before it settled the re-placements, with those `also` named (R211,
R239). -/
def State.beginReset (s : State) (l : Level) (parts0 : BitVec 4) (code : Word) (holdable : Bool) (also : List CtxIx := []) : State :=
  let parts := levelParts l parts0
  let cs := (List.finRange 16).filter fun c => (s.victims l parts).contains c || also.contains c
  let now := s.time.tb
  let s1 := (((if l = .chip then s.endFreeze else s).setReg HRT_ESC_CAUSE code).askFlush .forced).irq 6
  let s2 := match l with
    | .partition => s1.bumpFld HRT_ESC_COUNTS 7 0
    | .computePart => s1.bumpFld HRT_ESC_COUNTS 15 8
    | .chip => s1.bumpFld HRT_ESC_COUNTS 23 16
  let s3 := s2.modEsc fun e => match l with
    | .partition => { e with lastPart := (partList parts).foldl (fun t p => tput t p.val now) e.lastPart }
    | .computePart => { e with lastCp := some now }
    | .chip => { e with lastChip := some now }
  let gens := (List.finRange 4).zip s3.partGens |>.map fun g => if parts.getLsbD g.1.val then s3.esc.gen + 1 else g.2
  let s4 := s3.abandonQuiesce.sendNotices s3.livePorts (levelScope l) (s3.esc.gen + 1) gens cs
  let s5 := s4.settleRepl (s4.tilesOfParts parts)
  let old := s5.esc.reset.filter fun r => r.level == l
  let all := (old.map Reset.parts).getD 0 ||| parts
  let r : Reset := ⟨l, all, code, .holding, now, (old.map Reset.cs).getD [] ++ cs⟩
  if holdable && s5.fld HRT_ESC_HOLD 10 0 != 0 then
    ((s5.assertStop (if l = .chip then s5.stopReach else s5.domsOfParts all)).modEsc fun e => { e with reset := some r }).event
      (.state s5.bu.pkg s5.bu.stage)
  else s5.runReset r

/-- Assertions of TRAY_PC_N under R248 within the last 24 hours of operating time. -/
def State.cyclesInDay (s : State) : Nat := (s.recd.hdr.trayTimes.filter fun t => decide (s.opTime < t + 86400 * 1024)).length

/-- The power cycle is permitted (R248): by policy, and within one in 10 minutes and three in 24 hours of operating time. -/
def State.mayCycle (s : State) : Bool :=
  s.fld HRT_PC_POLICY 0 0 == 1 && s.recd.hdr.trayTimes.all (fun t => decide (t + 600 * 1024 ≤ s.opTime)) && decide (s.cyclesInDay < 3)

/-- TRAY_PC_N is asserted once no flush that should precede it runs (R248). -/
def State.trayStep (s : State) : State :=
  if s.esc.trayDue && s.recd.flush.isNone then
    ((s.modEsc fun e => { e with trayDue := false }).bumpFld HRT_ESC_COUNTS 31 24).modPw fun p => { p with trayPc := true }
  else s

/-- The step above chip reset: a flush that takes the operating time into the header, and TRAY_PC_N after it; or POWER_CYCLE_LIMIT, and the package stays
SAFE: its bring-up does not go on. -/
def State.powerCycle (s : State) : State :=
  let s0 := s.modEsc fun e => { e with reset := none }
  if s.mayCycle then
    let s1 := (s0.setPkg .safe).modRec fun c => { c with hdr := { c.hdr with trayTimes := (s.opTime :: c.hdr.trayTimes).take 3 } }
    (((s1.emit ⟨6, 0, 0, 0x050C, s.resetData 0xF⟩).askFlush .forced).modEsc fun e => { e with trayDue := true }).trayStep
  else ((s0.setPkg .safe).modBu fun b => { b with failed := true }).emit ⟨6, 0, 0, 0x050D, s.resetData 0xF⟩

/-- A reset within the repeat window is a repeat (R241). -/
def State.within (s : State) (t : Option Nat) : Bool :=
  match t with
  | some t => decide (s.time.tb ≤ t + s.fld HRT_ESC_REPEAT 11 0 * 10 ^ 9)
  | none => false

def State.isRepeat (s : State) (l : Level) (parts : BitVec 4) : Bool :=
  match l with
  | .partition => (partList parts).any (fun p => s.within (tget? s.esc.lastPart p.val)) || s.within s.esc.lastCp || s.within s.esc.lastChip
  | .computePart => s.within s.esc.lastCp
  | .chip => s.within s.esc.lastChip

/-- A running reset covers a trigger (R249). -/
def Reset.covers (r : Reset) (l : Level) (parts : BitVec 4) : Bool :=
  decide (levelNum l ≤ levelNum r.level) && (r.level != .partition || (parts &&& ~~~ r.parts) == 0)

/-- Begin the reset one level higher than `l`. -/
def State.climb (s : State) (l : Level) (code : Word) (holdable : Bool) (also : List CtxIx := []) : State :=
  match l with
  | .partition => s.beginReset .computePart 0xF code holdable also
  | .computePart => s.beginReset .chip 0xF code holdable also
  | .chip => s.powerCycle

/-- Step 3 of a removal (R319, R322, R431, R442): a reset is abandoned, transactions and commands end, tests, scrubs and snapshots are
abandoned, and the whole package goes for its boundary. -/
def State.removalStop (s : State) : State :=
  let s1 := ((s.modEsc fun e => { e with reset := none }).abandonQuiesce).dropCommands
  let s2 := ((s1.fnForceOff).endTests (List.finRange 144) |>.when (s.strands (List.finRange 144)) State.rewriteRecord).abandonSnaps.endFreeze
  (s2.modBu fun b => { b with removal := .stopping }).modEsc fun e => { e with bstop := some ⟨0xF, false, .removal, false, false, []⟩ }

/-- A hold ends and the held reset proceeds (R250); what was fenced in its scope meanwhile moves its number first (R211). -/
def State.endHold (s : State) : State :=
  match s.esc.reset with
  | some r =>
    if r.phase = .holding then (s.settleRepl (s.tilesOfParts r.parts)).runReset { r with cs := r.cs ++ s.victims r.level r.parts } else s
  | none => s

/-- A trigger that a running reset covers is absorbed (R249): the contexts it names go with the reset. One that no hold applies to ends the
hold of a reset of its own level (R250, DEDUCED, assumption log 86). -/
def State.absorb (s : State) (l : Level) (holdable : Bool) (also : List CtxIx) : State :=
  let s1 := s.modEsc fun e => { e with reset := e.reset.map fun r => { r with cs := r.cs ++ also } }
  if !holdable && s.esc.reset.any (fun r => r.level == l) then s1.endHold else s1

/-- A trigger of partition level or above, its code already recorded: absorbed, raised for a repeat, or begun. A halted core, a
package without main power, Quench and TRIP stand outside the ladder, as does a bring-up that has failed, which goes on only as R290 says; a removal
goes on, from its step 3 (R30, R249, R322). -/
def State.trigger (s : State) (l : Level) (parts : BitVec 4) (code : Word) (holdable : Bool) (also : List CtxIx := []) : State :=
  if s.bu.removal = .notice ∨ s.bu.removal = .boundary then s.removalStop
  else if s.bu.failed ∨ s.sq.run = .halted ∨ s.sq.run = .off ∨ !s.pw.mainGood ∨ s.hl.tripLatch ∨ s.thm.quenching ∨ s.thm.quenched ∨ s.bu.removal ≠ .none then s
  else if s.esc.reset.any fun r => r.covers l parts then s.absorb l holdable also
  else if s.isRepeat l parts then s.climb l code holdable also
  else s.beginReset l parts code holdable also

/-- A reset fails (R246, R248): RESET_FAILED, and the ladder climbs. -/
def State.failReset (s : State) : State :=
  match s.esc.reset with
  | none => s
  | some r =>
    let e : Event := ⟨5, 0, levelNum r.level, 0x050B, s.resetData r.parts⟩
    ((s.emit e).modEsc fun x => { x with reset := none }).climb r.level e.word true

/-- The number of a memory unit's repair image, and the die of its warden (R265). -/
def memKey : TileIx ⊕ ArrayUnit → Nat
  | .inl t => t.val
  | .inr (.mesh d) => 144 + d.val
  | .inr (.stack n) => 152 + n.val
  | .inr (.port p) => 176 + p.val

def State.memDie (s : State) : TileIx ⊕ ArrayUnit → DieIx
  | .inl t => dieIx (dieOfTile t)
  | .inr (.mesh d) => dieIx d.val
  | .inr (.stack n) => (s.stackAgent n).die
  | .inr (.port p) => (portAgent p).die

/-- A warden writes its repair image, where it has one, into the repair latches of its arrays (R265). -/
def State.applyImage (s : State) (u : TileIx ⊕ ArrayUnit) : State :=
  if tget s.test.images (memKey u) [] = [] then s else s.bumpFld (dieReg (s.memDie u) DWD_ISLAND) 15 0

/-- ALIGN_GRID_POINT for the armed regions (R77): those not late leave reset with the chip generation in force; a late one stays in
reset and its die warden reports it. -/
def State.alignRelease (s : State) (late : List DomainIx) : State :=
  match s.time.alignAt with
  | none => s
  | some a =>
    let lateM := domMask (late.map Fin.val) &&& s.hl.armed
    let go := s.hl.armed &&& ~~~ lateM
    let s1 := { s with time := { s.time with tb := max s.time.tb a, alignPt := a, alignAt := none } }
    let s2 := (s1.modHl fun h => { h with kill := h.kill &&& ~~~ go, armed := 0
                                          released := (domainsIn go).foldl (fun t d => tput t d.val a) h.released }).releaseStop go
    let s3 := s2.modEsc fun e => { e with domGen := ((List.range 16).filter fun d => go.getLsbD d).foldl (fun t d => tput t d e.gen) e.domGen }
    let s4 := s3.each (domainsIn lateM) fun s d => s.wardenReport (dieAgent (s.dieOfDomain d)) (.domainLate d)
    let s5 := (s4.each ((List.finRange 144).filter fun t => go.getLsbD (regionOfTile t)) fun s t => s.applyImage (.inl t)).each
      ((List.finRange 8).filter fun d => go.getLsbD (2 * d.val)) fun s d => s.applyImage (.inr (.mesh d))
    if go = 0 then s5 else s5.each s5.livePorts State.sendIdentity

/-- RESET_COMPLETE (R244 step 8): ports OPEN and tiles ready, once step 7, the broadcast of the reset, is over. A tile whose lost warden has not
answered since the reset, its port still closed, is fenced as a tile that lost control (R240). A chip reset completes with its bring-up. -/
def doResetComplete (s : State) : State :=
  match s.esc.reset with
  | none => s
  | some r =>
    if r.level = .chip ∨ r.phase ≠ .aligning ∨ (s.hl.kill &&& s.domsOfParts r.parts) ≠ 0 ∨ (s.bu.cast.any fun c => c.reset.isSome) then s
    else
      let ts := s.tilesOfParts r.parts
      let lost := fun (t : TileIx) => (s.agent (tileAgent t)).failed
      let s1 := (s.each (ts.filter fun t => !lost t) fun s t => s.openPort (tileAgent t)).modEsc fun e => { e with reset := none }
      s1.each (ts.filter lost) fun s t => s.fencePlan t 6 none none s.time.tb

/-- RESET_BOUND_EXPIRY: the bound runs neither in a hold nor in the generation holdoff (R244, R246, R250). -/
def doResetBoundExpiry (s : State) : State := if s.esc.reset.any fun r => r.phase == .aligning then s.failReset else s

def serveEscRelease (p : Pend) (s : State) : State := s.serveAs p true none fun s => (s.ok p []).endHold

/-- GEN_HOLDOFF_EXPIRY (R219). -/
def doGenHoldoffExpiry (s : State) : State :=
  match s.esc.reset with
  | some r =>
    if r.phase = .holdoff then (s.modEsc fun e => { e with lastAdvance := none }).goAlign r
    else s
  | none => s

/-- Operator RESET_REQUEST at partition or compute-part level (R238): answered OK, then performed. -/
def serveReset (l : Level) (parts : BitVec 4) (p : Pend) (s : State) : State :=
  s.serveAs p true none fun s =>
    if s.bu.pkg = .safe then s.fail p .notReady else (s.ok p []).trigger l parts 0 false

/-- HARDLINE_FAULT (R74). DESIGN CHOICE (assumption log 113): its record carries the items of a reset event. -/
def doHardlineFault (d : DomainIx) (line : Fin 4) (s : State) : State :=
  if !s.domExists d then s
  else
    let e : Event := ⟨5, 0, d.val, 0x0006, s.resetData 0xF⟩
    let s1 := s.modHl fun h => { h with
      fault := h.fault ||| BitVec.ofNat 41 (2 ^ d.val)
      mismatch := tput h.mismatch d.val (satAdd 8 (tget h.mismatch d.val 0) 1)
      wrong := tput h.wrong d.val (tget h.wrong d.val 0 ||| 2 ^ line.val) }
    (s1.emit e).trigger .chip 0xF e.word false

/-- A warden is lost (R240): a tile's resets its partition, any other the chip. A tile that waits for the firmware of a broadcast is FW_FAIL at the
end of its rounds instead (R313). -/
def State.wardenLost (s : State) (a : AgentIx) : State :=
  let u := s.unitOf a
  let s1 := s.modAgent a fun x => { x with failed := true }
  if u.1 = 1 ∧ s.bu.cast.any (fun c => c.pending.contains (tileIx u.2)) then s1
  else if u.1 = 1 then
    let parts : BitVec 4 := BitVec.ofNat 4 (2 ^ (s.partOfTile (tileIx u.2)).val)
    let e : Event := ⟨4, 1, u.2, 0x050E, s.resetData parts⟩
    (s1.emit e).trigger .partition parts e.word false
  else
    let e : Event := ⟨5, u.1, u.2, 0x050E, s.resetData 0xF⟩
    (s1.emit e).trigger .chip 0xF e.word false

/-- FENCE_UNCONFIRMED (R200): the tile is FENCED and its number moves before the partition resets. -/
def doFenceUnconfirmed (t : TileIx) (s : State) : State :=
  match tget? s.plan.fencing t.val with
  | none => s
  | some (cause, at0, prefer, reason) =>
    let parts : BitVec 4 := BitVec.ofNat 4 (2 ^ (s.partOfTile t).val)
    let e : Event := ⟨4, 1, t.val, 0x0402, s.resetData parts⟩
    let s1 := (s.modPlan fun p => { p with fencing := tdel p.fencing t.val }).fencePlan t reason cause prefer at0 |>.payNotices t
    ((s1.emit e).settleRepl [t]).trigger .partition parts e.word true (s.victims .partition parts)

/-! ### Watchdogs (R224 to R226) -/

/-- Tiles that hold an open entry that meets a test. -/
def State.openTiles (s : State) (f : JEntry → Bool) : List TileIx :=
  (List.finRange 144).filter fun t => (s.tile t).jnl.any fun e => e.2.isOpen && f e.2

/-- A watchdog runs while its scope holds an open entry (R224); STOP on every domain of the scope, or a hold over it, suspends it (R226,
R250). -/
def State.watchdogRuns (s : State) (ts : List TileIx) (doms : BitVec 41) (parts : BitVec 4) : Bool :=
  let held := s.esc.reset.any fun r => r.phase == .holding && (parts &&& ~~~ r.parts) == 0
  ts != [] && !held && (doms &&& ~~~ s.hl.stop) != 0

/-- Domains and partitions of tiles. -/
def domsOfTiles (ts : List TileIx) : BitVec 41 := domMask (ts.map regionOfTile)
def State.partsOfTiles (s : State) (ts : List TileIx) : BitVec 4 :=
  ts.foldl (fun m t => m ||| BitVec.ofNat 4 (2 ^ (s.partOfTile t).val)) 0

/-- TILE_WATCHDOG_EXPIRY. -/
def doTileWatchdogExpiry (t : TileIx) (s : State) : State :=
  match s.running t with
  | some e =>
    if (s.tile t).gateClosed || !s.regionRuns t then s
    else
      let us := s.fld HRT_WDOG_TILE 9 0 * 1000
      ((s.setNat (tileReg t TWD_WDOG) (2 ^ 31 + us)).modTile t fun x => { x with detectAt := some s.time.tb }).wardenReport (tileAgent t)
        (.tileWatchdog t e.cmd.ctx e.cmd.seq)
  | none => s

/-- CONTEXT_WATCHDOG_EXPIRY: its scope is the tiles that hold the context's open entries. -/
def doContextWatchdogExpiry (c : CtxIx) (s : State) : State :=
  let ts := s.openTiles fun e => e.cmd.ctx == c
  if s.watchdogRuns ts (domsOfTiles ts) (s.partsOfTiles ts) then
    (s.emit ⟨2, 0, c.val, 0x0502, [iw (s.ctx c).step]⟩).contextFault c (codeOf 2 0 c.val 0x0502) (s.ctx c).step 0
  else s

/-- PARTITION_WATCHDOG_EXPIRY. -/
def doPartitionWatchdogExpiry (p : PartIx) (s : State) : State :=
  let parts : BitVec 4 := BitVec.ofNat 4 (2 ^ p.val)
  let e : Event := ⟨4, 0, p.val, 0x0503, s.resetData parts⟩
  if s.watchdogRuns ((s.openTiles fun _ => true).filter fun t => s.partOfTile t == p) (s.domsOfPart p) parts then
    (s.emit e).trigger .partition parts e.word true
  else s

/-- CHIP_WATCHDOG_EXPIRY. -/
def doChipWatchdogExpiry (s : State) : State :=
  let e : Event := ⟨5, 0, 0, 0x0504, s.resetData 0xF⟩
  if s.watchdogRuns (s.openTiles fun _ => true) s.stopReach 0xF then (s.emit e).trigger .chip 0xF e.word true else s

/-! ### The wait-for graph and knots (R228 to R235) -/

def sameEdge (a b : Edge) : Bool :=
  a.ctx == b.ctx && a.queue == b.queue && a.producer == b.producer && a.consumer == b.consumer && a.full == b.full

/-- EDGE_REPORT at the warden: its queue registers show the wait, which goes on from the edge threshold, and the edge is reported. -/
def doEdgeReport (t : TileIx) (e : Edge) (s : State) : State :=
  let k := e.queue % 256
  let q := tget (s.tile t).queues (e.ctx.val * 256 + k) {}
  let head := (q.tokens.head?.map fun x => x.2.1).getD (s.tile t).epoch
  let st := bit e.full 31 + bit (!e.full) 30 + bit (e.full && (s.ctx e.ctx).desc.creditFallback) 29 + head % 16 * 2 ^ 25 +
    s.fld HRT_KNOT_EDGE 9 0
  (((s.setNat (itemKey (tileReg t TWD_QSTATE) k) st).setReg (itemKey (tileReg t TWD_QPOS) k) e.pos).modTile t fun x =>
    { x with waits := tput x.waits k s.time.tb }).wardenReport (tileAgent t) (.edge e)

/-- EDGE_WITHDRAW. -/
def doEdgeWithdraw (t : TileIx) (e : Edge) (s : State) : State :=
  let k := e.queue % 256
  (((s.setFld (itemKey (tileReg t TWD_QSTATE) k) 31 29 0).setFld (itemKey (tileReg t TWD_QSTATE) k) 19 0 0).modTile t fun x =>
    { x with waits := tdel x.waits k }).wardenReport (tileAgent t) (.edgeGone e.ctx e.queue e.producer e.consumer)

/-- The Hearth takes an edge report; an edge again reported keeps its instant. -/
def State.takeEdge (s : State) (e : Edge) : State :=
  s.modEsc fun x => { x with graph := if x.graph.any fun g => sameEdge g.e e then x.graph else x.graph ++ [⟨e, s.time.tb⟩] }

def State.dropEdge (s : State) (c : CtxIx) (queue : Nat) (producer consumer : LogIx) : State :=
  s.modEsc fun x => { x with graph := x.graph.filter fun g =>
    !(g.e.ctx == c && g.e.queue == queue && g.e.producer == producer && g.e.consumer == consumer) }

def edgeFrom (e : Edge) : LogIx := if e.full then e.producer else e.consumer
def edgeTo (e : Edge) : LogIx := if e.full then e.consumer else e.producer

/-- A path of edges to `dst`, each tile met at most once. -/
def pathTo (es : List GEdge) (dst : LogIx) : Nat → List LogIx → LogIx → Option (List GEdge)
  | 0, _, _ => none
  | f + 1, seen, n =>
    if n = dst then some []
    else es.findSome? fun g =>
      if edgeFrom g.e = n ∧ seen.contains (edgeTo g.e) = false then
        (pathTo es dst f (edgeTo g.e :: seen) (edgeTo g.e)).map fun l => g :: l
      else none

/-- A cycle through an edge, within its context. -/
def cycleThrough (es : List GEdge) (g : GEdge) : Option (List GEdge) :=
  (pathTo (es.filter fun x => x.e.ctx == g.e.ctx) (edgeFrom g.e) 129 [edgeTo g.e] (edgeTo g.e)).map fun l => g :: l

/-- The cycle to act on: one with a full edge before one of empty edges only. -/
def findKnot (es : List GEdge) : Option (List GEdge) :=
  let full := (es.filter fun g => g.e.full).findSome? (cycleThrough es)
  match full with
  | some c => some c
  | none => (es.filter fun g => !g.e.full).findSome? (cycleThrough es)

/-- Data of knot records: the step and the edges of the cycle (R259). DESIGN CHOICE (assumption log 102): an edge is four bytes, producer, consumer,
queue and zero. -/
def State.knotData (s : State) (c : CtxIx) (cyc : List GEdge) : List (List Byte) :=
  iw (s.ctx c).step :: cyc.map fun g => i1 g.e.producer.val ++ i1 g.e.consumer.val ++ i1 g.e.queue ++ i1 0

/-- The timer of a cycle starts again. -/
def State.restartEdges (s : State) (cyc : List GEdge) : State :=
  s.modEsc fun x => { x with graph := x.graph.map fun g => if cyc.any fun h => sameEdge h.e g.e then { g with since := s.time.tb } else g }

/-- The full edge to spill (R230): least capacity, then lowest producer, then lowest queue. -/
def spillEdge (cyc : List GEdge) : Option Edge :=
  (minBy (fun (g : GEdge) => g.e.capacity * 2 ^ 15 + g.e.producer.val * 2 ^ 8 + g.e.queue % 256) (cyc.filter fun g => g.e.full)).map GEdge.e

/-- KiB in use of a partition's spill region. -/
def State.spillUsed (s : State) (p : PartIx) : Nat :=
  ((s.esc.spills.filter fun x => x.part == p).map fun x => (x.kib * x.left.length + x.total - 1) / max 1 x.total).sum

/-- One quantum, doubled for each spill of the queue in the step, up to a quarter of the region (R232). -/
def State.quantum (s : State) (e : Edge) : Nat :=
  let n := (s.esc.spilled.filter fun x => x == (e.ctx, (s.ctx e.ctx).step, e.queue, e.consumer.val)).length
  min (s.fld HRT_SPILL_QUANTUM 10 0 * 2 ^ n) (s.fld HRT_SPILL_SIZE 12 0 * 256)

/-- A spill event of a context's step: a spill or a restore (R184). -/
def State.countSpill (s : State) (c : CtxIx) : State := s.modCtx c fun x => { x with driftSpills := x.driftSpills + 1 }

/-- HRT_KNOT_LAST: the last knot spilled or reported (R257). -/
def State.knotLast (s : State) (e : Edge) : State :=
  s.setNat HRT_KNOT_LAST (e.ctx.val * 2 ^ 28 + e.producer.val * 2 ^ 12 + e.queue % 256)

/-- KNOT_SPILL (R231 to R233): `entries` is how many of the oldest entries the copied quantum holds; their space is freed, and their credits
go back to the producer. -/
def State.spill (s : State) (e : Edge) (cyc : List GEdge) (entries : Nat) : State :=
  match s.holder e.consumer with
  | none => s
  | some t =>
    let p := s.partOfTile t
    let size := min (s.quantum e) e.capacity
    if s.fld HRT_SPILL_SIZE 12 0 * 1024 < s.spillUsed p + size then
      let ev : Event := ⟨2, 0, e.ctx.val, 0x0506, s.knotData e.ctx cyc⟩
      (s.emit ev).contextFault e.ctx ev.word (s.ctx e.ctx).step 0
    else
      let qk := e.ctx.val * 256 + e.queue % 256
      let q := tget (s.tile t).queues qk {}
      let gone := q.tokens.take entries
      let s1 := s.modTile t fun x => { x with queues := tput x.queues qk { q with
        tokens := q.tokens.drop entries, depth := q.depth - gone.length, spilled := q.spilled ++ gone } }
      let s2 := s1.modEsc fun x => { x with
        spills := x.spills ++ [⟨e.ctx, e.queue, e.consumer, p, size, max 1 gone.length, gone.map Prod.fst⟩]
        spilled := (e.ctx, (s.ctx e.ctx).step, e.queue, e.consumer.val) :: x.spilled }
      let s3 := (((s2.countSpill e.ctx).knotLast e).unitCommand (tileAgent t) (.spill e entries)).emitOut (.credit e.ctx e.queue e.producer gone.length)
      s3.emit ⟨1, 0, e.ctx.val, 0x0505, s.knotData e.ctx cyc⟩

/-- The consumer of an edge drains for a reconfiguration and its queue holds old-epoch entries: no queue of the knot is spilled (R237). -/
def State.drainHolds (s : State) (e : Edge) : Bool :=
  match s.holder e.consumer with
  | none => false
  | some t =>
      let q := tget (s.tile t).queues (e.ctx.val * 256 + e.queue % 256) {}
      (s.tile t).draining.isSome && (q.tokens ++ q.spilled).any fun x => x.2.1 == (s.tile t).epoch

/-- The Hearth reads the consumed-position counters of a cycle again over Bellows: at each edge's consumer it selects the queue and reads TWD_QPOS
(R229, R258). -/
def State.readCounters (s : State) (cyc : List GEdge) : State :=
  s.each cyc fun s g => s.each (s.holder g.e.consumer).toList fun s t =>
    (s.emitOut (.bellows s.hearthAgent (tileAgent t) (.regWrite TWD_QSEL 0 (BitVec.ofNat 32 (g.e.queue % 256))))).emitOut
      (.bellows s.hearthAgent (tileAgent t) (.regRead TWD_QPOS 0))

/-- KNOT_TIMEOUT_EXPIRY (R229): the cycle whose edges have all lasted the knot timeout; its counters are read again, and one that moved (`still`
false) starts it again. DESIGN CHOICE (assumption log 103): a knot left to the drain window (R237) is not declared, and counts and shows
nowhere. -/
def doKnotTimeoutExpiry (still : Bool) (entries : Nat) (s : State) : State :=
  match findKnot (s.esc.graph.filter fun g => decide (g.since + s.fld HRT_KNOT_TIMEOUT 13 0 * 1000 ≤ s.time.tb)) with
  | none => s
  | some cyc =>
    let s1 := (s.restartEdges cyc).readCounters cyc
    if !still then s1
    else match cyc.head?, spillEdge cyc with
    | some g, some e =>
      let s2 := s1.bump HRT_KNOT_COUNT
      if (s.ctx g.e.ctx).desc.creditFallback then (s2.knotLast e).emit ⟨0, 0, e.ctx.val, 0x0507, s.knotData e.ctx cyc⟩
      else if cyc.any fun g => s.drainHolds g.e then s1
      else s2.spill e cyc entries
    | some g, none =>
      let c := g.e.ctx
      if s.esc.starved.contains (c, (s.ctx c).step) then s1
      else (s1.modEsc fun x => { x with starved := (c, (s.ctx c).step) :: x.starved }).emit ⟨0, 0, c.val, 0x0508, s.knotData c cyc⟩
    | none, _ => s1

/-- SPILL_READ: served from the spill region, whose space is freed, and consumed once its command commits; a restore counts as a spill event of
the step (R184). -/
def doSpillRead (c : CtxIx) (queue : Nat) (pos : Word) (s : State) : State :=
  let p := pos.toNat
  match s.esc.spills.find? fun x => x.ctx == c && x.queue == queue && x.left.contains p with
  | none => s
  | some x =>
    let y := { x with left := x.left.erase p }
    let s1 := (s.modEsc fun e => { e with
      spills := if y.left = [] then e.spills.erase x else e.spills.map fun z => if z = x then y else z }).countSpill c
    match s.holder x.consumer with
    | none => s1
    | some t =>
      let qk := c.val * 256 + queue % 256
      let k := itemKey (tileReg t TWD_QPOS) (queue % 256)
      (s1.modTile t fun z => { z with queues := tmod z.queues qk {} fun q => { q with
        spilled := q.spilled.filter fun k => k.1 != p, served := q.served ++ q.spilled.filter fun k => k.1 == p } }).setReg k (s.reg k + 1)

/-! ### Reconfiguration (R236, R237) -/

/-- RECONFIGURATION: every earlier command of the tile is finished, and the drain begins; not on a tile whose clock enables are down. -/
def doReconfiguration (t : TileIx) (seq : Word) (s : State) : State :=
  match (s.tile t).slotOf seq with
  | none => s
  | some (k, e) =>
    let older := (s.tile t).jnl.any fun x => x.1 != k && x.2.isOpen && x.2.state != .complete && later seq x.2.cmd.seq
    if e.cmd.kind ≠ .reconfig ∨ e.state ≠ .issued ∨ !e.isOpen ∨ older ∨ (s.tile t).gateClosed ∨ (s.tile t).draining.isSome ∨
        !s.regionRuns t ∨ s.stopsIssue t e.cmd.ctx then s
    else (s.setFld (tileReg t TWD_WDOG) 23 0 0).modTile t fun x => { (x.setSlot k { e with
        state := .running, execs := min 3 (e.execs + 1), startC := s.lightCounts t }) with
      draining := some (s.time.tb, seq), wdogCount := 0 }

/-- Old-epoch tokens in a tile's queues and in the spill region for them: queue, position, and whether the stream must drain. -/
def Tile.oldTokens (x : Tile) : List (Nat × Nat × Bool) :=
  x.queues.flatMap fun q => ((q.2.tokens ++ q.2.spilled).filter fun k => k.2.1 == x.epoch).map fun k => (q.1, k.1, k.2.2)

/-- A queue without the entries of an epoch, in the tile and spilled. -/
def Queue.without (q : Queue) (epoch : Nat) : Queue :=
  let keep := q.tokens.filter fun k => k.2.1 != epoch
  { q with tokens := keep, depth := q.depth - (q.tokens.length - keep.length), spilled := q.spilled.filter fun k => k.2.1 != epoch }

/-- The spill region gives up the entries of a consumer that its queues no longer list. -/
def State.trimSpills (s : State) (t : TileIx) : State :=
  let listed := fun (x : Spill) (p : Nat) => (tget (s.tile t).queues (x.ctx.val * 256 + x.queue % 256) {}).spilled.any fun k => k.1 == p
  s.modEsc fun e => { e with spills := (e.spills.map fun x =>
    if s.holder x.consumer = some t then { x with left := x.left.filter (listed x) } else x).filter fun x => x.left != [] }

/-- RECONFIG_COMMIT: with no old-epoch token left, or at the end of the window, when those still held, in the queues and in the spill region,
are discarded and counted; STOP pauses the window. `leftover` counts those on the mesh; with them, and with the tile's own, each context whose
must-drain stream lost a token faults. -/
def doReconfigCommit (t : TileIx) (expired : Bool) (leftover : Nat) (must : Option (CtxIx × Word)) (s : State) : State :=
  let x := s.tile t
  match x.draining with
  | none => s
  | some (_, seq) =>
    let old := x.oldTokens
    let n := old.length + leftover
    if (0 < n ∧ !expired) ∨ x.gateClosed ∨ !s.regionRuns t then s
    else
      let own := (List.finRange 16).filter fun c => (must.all fun m => m.1 != c) && old.any fun k => k.2.2 && k.1 / 256 == c.val
      let faults : List (CtxIx × Word) := must.toList ++ own.map fun c => (c, (s.ctx c).step)
      let y := { x with
        epoch := (x.epoch + 1) % 16
        draining := none
        queues := x.queues.map fun (q : Nat × Queue) => (q.1, q.2.without x.epoch) }
      let s1 := ((s.setTile t y).trimSpills t).bump (tileReg t TWD_EPOCH_DISCARD) n
      let s2 := s1.modEntry t seq fun e => { e with state := .complete, wrote := true, endC := s.lightCounts t }
      s2.each faults fun s m => s.wardenReport (tileAgent t) (.epochDrain t m.1 m.2)

/-! ### Context kill (R242, R243) -/

/-- CONTEXT_KILL: answered when the kill is complete. -/
def serveContextKill (c : CtxIx) (p : Pend) (s : State) : State :=
  s.serveAs p false (some c) fun s =>
    if !(s.ctx c).used || (s.ctx c).faulted then s.fail p .badOperand
    else (s.waitAnswer p).killContext c 0 0 0 (some p)

/-- CONTEXT_KILL_COMMAND: the warden discards the context's commands, in every role, with outcome 5 and its tokens, and confirms; a running
re-execution of such a command is abandoned (R102), and a commit withheld for one is withheld no more. What an arbitration judges the tiles by
stays (R146). -/
def doContextKillCommand (t : TileIx) (c : CtxIx) (s : State) : State :=
  let x := s.tile t
  let mine := fun (e : JEntry) => e.isOpen && e.cmd.ctx == c && (e.role == .primary || !(e.primary.any fun p => s.disputed p e.cmd.seq))
  let gone := (x.jnl.filter fun e => mine e.2).map fun e => e.2
  let rerun := x.retry.any fun r => gone.any fun e => e.cmd.seq == r.1
  let s0 := if rerun || gone.any JEntry.held then s.clearHeld t else s
  let s1 := s0.setTile t { x with
    reexecAbandoned := x.reexecAbandoned + bit rerun 0
    heldTokens := x.heldTokens.filter fun k => k.ctx != c
    jnl := x.jnl.map fun (e : Nat × JEntry) => if mine e.2 then (e.1, { e.2 with outcome := 5 }) else e
    gate := x.gate.filter fun k => k.ctx != c
    queues := x.queues.filter fun q => q.1 / 256 != c.val
    cons := x.cons.filter fun e => e.ctx != c
    consOver := x.consOver.filter fun o => o.2.1.ctx != c
    retry := x.retry.filter fun r => !gone.any fun e => e.cmd.seq == r.1
    failedTwice := if gone.any fun e => e.outcome == 3 then none else x.failedTwice
    draining := x.draining.filter fun d => !gone.any fun e => e.cmd.seq == d.2 }
  let s2 := s1.each (gone.filter fun e => e.sampled && e.state != .committed) fun s e => s.dropComparison t e.cmd.seq
  let s3 := s2.each gone fun s e => s.each e.primary.toList fun s p => s.freeCapture t p e.cmd.seq 5
  (s3.killConfirmed (tileAgent t) c).seekWaiting.drainGateOf t

/-- KILL_TIMEOUT (R242). -/
def doKillTimeout (t : TileIx) (c : CtxIx) (s : State) : State :=
  match (s.ctx c).killing with
  | some (ws, _) =>
    if ws.contains (tileAgent t) then (s.orderFence t 6 (some ⟨4, 1, t.val, 0x050A, [i1 c.val]⟩)).killConfirmed (tileAgent t) c else s
  | none => s

/-- QUARANTINE_EXPIRY: the number is free. -/
def doQuarantineExpiry (c : CtxIx) (s : State) : State :=
  if (s.ctx c).quarantine.isSome ∧ (s.ctx c).killing = none then s.setCtx c {} else s

/-! ### Meanings -/

def execHardlineFault (d : DomainIx) (line : Fin 4) (s : State) : Res := done (doHardlineFault d line s)
def execFenceUnconfirmed (t : TileIx) (s : State) : Res := done (doFenceUnconfirmed t s)
def execGenHoldoffExpiry (s : State) : Res := done (doGenHoldoffExpiry s)
def execTileWatchdogExpiry (t : TileIx) (s : State) : Res := done (doTileWatchdogExpiry t s)
def execContextWatchdogExpiry (c : CtxIx) (s : State) : Res := done (doContextWatchdogExpiry c s)
def execPartitionWatchdogExpiry (p : PartIx) (s : State) : Res := done (doPartitionWatchdogExpiry p s)
def execChipWatchdogExpiry (s : State) : Res := done (doChipWatchdogExpiry s)
def execEdgeReport (t : TileIx) (e : Edge) (s : State) : Res := done (doEdgeReport t e s)
def execEdgeWithdraw (t : TileIx) (e : Edge) (s : State) : Res := done (doEdgeWithdraw t e s)
def execKnotTimeoutExpiry (stillBlocked : Bool) (entries : Nat) (s : State) : Res := done (doKnotTimeoutExpiry stillBlocked entries s)
def execSpillRead (c : CtxIx) (queue : Nat) (pos : Word) (s : State) : Res := done (doSpillRead c queue pos s)
def execReconfiguration (t : TileIx) (seq : Word) (s : State) : Res := done (doReconfiguration t seq s)
def execReconfigCommit (t : TileIx) (windowExpired : Bool) (leftover : Nat) (mustDrain : Option (CtxIx × Word)) (s : State) : Res :=
  done (doReconfigCommit t windowExpired leftover mustDrain s)
def execContextKill (h : Hdr) (c : CtxIx) (s : State) : Res := done (s.intake h 0x30 (.contextKill h c) (serveContextKill c))
def execContextKillCommand (t : TileIx) (c : CtxIx) (s : State) : Res := done (doContextKillCommand t c s)
def execKillTimeout (t : TileIx) (c : CtxIx) (s : State) : Res := done (doKillTimeout t c s)
def execQuarantineExpiry (c : CtxIx) (s : State) : Res := done (doQuarantineExpiry c s)
def execResetComplete (s : State) : Res := done (doResetComplete s)
def execResetBoundExpiry (s : State) : Res := done (doResetBoundExpiry s)
def execEscHoldExpiry (s : State) : Res := done s.endHold
def execEscRelease (h : Hdr) (s : State) : Res := done (s.intake h 0x35 (.escRelease h) serveEscRelease)
def execBoundaryStop (h : Hdr) (parts : BitVec 4) (step : Bool) (s : State) : Res :=
  done (s.intake h 0x33 (.boundaryStop h parts step) (serveBoundaryStop parts step))
def execBoundaryResume (h : Hdr) (s : State) : Res := done (s.intake h 0x34 (.boundaryResume h) serveBoundaryResume)
def execResetRequestPartition (h : Hdr) (p : PartIx) (s : State) : Res :=
  done (s.intake h 0x32 (.resetRequestPartition h p) (serveReset .partition (BitVec.ofNat 4 (2 ^ p.val))))
def execResetRequestComputePart (h : Hdr) (s : State) : Res :=
  done (s.intake h 0x32 (.resetRequestComputePart h) (serveReset .computePart 0xF))

end Sys2Proof.Machine
end

