-- ==== Sys2Proof/Machine/SelfTest.lean ====
section
/-! DEFINITION. Self-test in service (R260 to R287): sliced BIST, return tests, Anvil kernels, HBM row slices. -/
namespace Sys2Proof.Machine

/-! ### BIST results (R261 to R266) -/

/-- The validity window of R261 as the samples show it. -/
def EnvWindow.valid (w : EnvWindow) : Bool :=
  supplyOk w.supply0 && supplyOk w.supply1 && clockOk w.clock0 && clockOk w.clock1 && w.droops == 0

/-- The enabled fraction that Temper and THRT leave keeps the 2.0 GHz base clock of a region at 1.2 GHz or above (R261, R283). -/
def State.clockLeft (s : State) (g : Nat) : Bool := decide (1200 * 1280 ≤ 2000 * (1280 - s.swallowedOf g))

/-- Results, numbered as TWD_BIST_STATUS has them. -/
inductive BistVerdict | pass | fail | invalid | aborted | repaired
deriving DecidableEq, Repr

def BistVerdict.num : BistVerdict → Nat
  | .pass => 1
  | .fail => 2
  | .invalid => 3
  | .aborted => 4
  | .repaired => 5

/-- An array could not be repaired (R266). -/
def memBad (l : List ArrayFail) : Bool := l.any fun a => !a.repaired

/-- The expected signature of a slice at a checkpoint, one set for all tiles (R263): of the BIST signatures of the image, eight bytes each, slice by
slice (the section's inner layout is not stated: DESIGN CHOICE, assumption log 106). -/
def State.expectedSig (s : State) (f : Fin 8 × Fin 64) : Word64 := s.bu.sigs.getD (f.1.val * 64 + f.2.val) 0

/-- The mismatches of a run: the observed MISRs that differ from what is expected (R264). -/
def State.logicFails (s : State) (r : BistRun) : List (Fin 8 × Fin 64 × Word64) := r.misrs.filter fun f => f.2.2 != s.expectedSig (f.1, f.2.1)

/-- A STOP has met the tile's BIST run since it began (R283). -/
def State.bistStopped (s : State) (t : TileIx) : Bool :=
  s.test.bist.any (fun b => b.tile == t && b.stopped) || s.test.returns.any fun x => x.tile == t && x.stopped

/-- The verdict on a run: ABORTED by STOP, INVALID outside the window, else by the signatures and the memory test. -/
def State.judgeBist (s : State) (t : TileIx) (r : BistRun) : BistVerdict :=
  if !s.regionRuns t || s.bistStopped t then .aborted
  else if !EnvWindow.valid r.window || !s.clockLeft (regionOfTile t) then .invalid
  else if s.logicFails r ≠ [] ∨ memBad r.arrays then .fail
  else if r.arrays ≠ [] then .repaired
  else .pass

/-- The first failing checkpoint of the lowest failing slice, with the signature observed there (R264). -/
def firstFail (l : List (Fin 8 × Fin 64 × Word64)) : Option (Fin 8 × Fin 64 × Word64) := minBy (fun f => f.1.val * 64 + f.2.1.val) l

/-- The bitmap of failing slices (R264). -/
def failMap (l : List (Fin 8 × Fin 64 × Word64)) : Nat :=
  ((List.finRange 8).map fun k => if l.any fun f => f.1 == k then 2 ^ k.val else 0).sum

/-- The warden's result registers (R264, R266, R285). -/
def State.bistRegs (s : State) (t : TileIx) (r : BistRun) (v : BistVerdict) : State :=
  let k := tileReg t TWD_BIST_STATUS
  let l := s.logicFails r
  let s1 := (s.setFld k 31 27 (v.num * 4)).setFld k 23 16 (failMap l)
  let s2 := match firstFail l with
    | some (_, c, sig) => (s1.setNat (tileReg t TWD_BIST_PATTERN) (512 * c.val)).set64 (tileReg t TWD_BIST_SIG_LO)
        (tileReg t TWD_BIST_SIG_HI) sig.toNat
    | none => s1
  let s3 := match r.arrays.head? with
    | none => s2
    | some a => (s2.setNat (tileReg t TWD_MBIST_ADDR) (a.array % 256 * 2 ^ 24 + a.word % 2 ^ 24)).setNat (tileReg t TWD_MBIST_BIT)
        (min 65535 a.cells * 2 ^ 16 + a.bit % 128)
  s3.setNat (tileReg t TWD_MBIST_REPAIR) (r.rowsUsed % 256 * 2 ^ 24 + r.rowsLeft % 256 * 2 ^ 16 + r.colsUsed % 256 * 2 ^ 8 + r.colsLeft % 256)

/-- The result fields of one failing array (R266). -/
def arrayData (a : ArrayFail) : List (List Byte) :=
  [i4 a.array, i8 a.word, i4 a.bit, i4 (min 65535 a.cells), i4 a.rowsUsed, i4 a.rowsLeft, i4 a.colsUsed, i4 a.colsLeft]

/-- The result fields of R264, without the exact flag, which is clear in every run: bitmap, checkpoint, signature, pattern index. -/
def logicData (l : List (Fin 8 × Fin 64 × Word64)) : List (List Byte) :=
  match firstFail l with
  | none => []
  | some (_, c, sig) => [i1 (failMap l), i4 c.val, i8 sig.toNat, i2 (512 * c.val)]

/-- Data of the records of a run (R287): the result fields, then the samples. -/
def State.bistData (s : State) (r : BistRun) : List (List Byte) := logicData (s.logicFails r) ++ r.arrays.flatMap arrayData ++ envItems r.window

/-- Repairs that a warden has made join its image (R265). -/
def addImage (old : List (Nat × Nat × Nat)) (l : List ArrayFail) : List (Nat × Nat × Nat) :=
  l.foldl (fun m a => (a.array, a.rowsUsed, a.colsUsed) :: m.filter fun e => e.1 != a.array) old

/-- The arrays that a run has repaired: the image takes them, the latches are written, and each is recorded (R265, R266). -/
def State.noteRepaired (s : State) (u : TileIx ⊕ ArrayUnit) (ut ix : Nat) (l : List ArrayFail) (w : EnvWindow) : State :=
  let l1 := l.filter ArrayFail.repaired
  if l1 = [] then s
  else ((s.modTest fun x => { x with images := tput x.images (memKey u) (addImage (tget x.images (memKey u) []) l1) }).applyImage u).each l1
    fun s a => s.emit ⟨1, ut, ix, 0x0605, arrayData a ++ envItems w⟩

/-- MBIST_REPAIRED for each array of a tile that a run repaired, MBIST_UNREPAIRABLE for each that it could not (R266). -/
def State.noteRepair (s : State) (t : TileIx) (r : BistRun) : State :=
  (s.noteRepaired (.inl t) 1 t.val r.arrays r.window).each (r.arrays.filter fun a => !a.repaired) fun s a =>
    s.emit ⟨1, 1, t.val, 0x0606, arrayData a ++ envItems r.window⟩

/-! ### Hand-over and hand-back (R272) -/

/-- The running command has committed: every open entry of role primary is ISSUED. -/
def Tile.handReady (x : Tile) : Bool := x.jnl.all fun e => !(e.2.isOpen && e.2.role == .primary) || e.2.state == .issued

/-- The logical number moves with the commands accepted and not started, the held ones and the queues; one change of the plan. -/
def State.handOver (s : State) (src dst : TileIx) (l : LogIx) (role : PoolRole) : State :=
  let es := s.openPrimary src
  let x := s.tile src
  let s1 := s.each es fun s e =>
    (((s.modTile dst fun y => y.push (e.reissue src.val s.time.tb)).setNat (tileReg dst TWD_SHD_ORDINAL)
      (e.cmd.ctx.val * 2 ^ 16 + e.ordinal)).modEntry src e.cmd.seq fun z => { z with outcome := 4 }).follow src dst e
  let s2 := s1.modTile src fun y => { y with handing := false, queues := [], gate := [] }
  let s3 := s2.modTile dst fun y => { y with gateClosed := false, handing := false, queues := x.queues, gate := x.gate
                                             epoch := x.epoch, draining := none, slag := x.slag }
  let s4 := ((s3.moveLogical l dst).modFp src fun f => { f with st := .spare }).setRole src role
  (s4.epochUp).drainGate dst l

/-- A hand-back begins: the tile that holds the number stops issuing; with none, the tile is an ordinary spare. -/
def State.startBack (s : State) (l : LogIx) : State :=
  match s.holder l with
  | some u => s.modTile u fun x => { x with handing := true }
  | none => s

/-- The number returns to the tested tile; the tile that held it is idle, and takes a number that no tile holds (R39). -/
def State.handBack (s : State) (t : TileIx) (l : LogIx) : State :=
  match s.holder l with
  | some u => (s.handOver u t l .idle).spareBack u
  | none => (s.setRole t .idle).spareBack t

/-! ### Sliced BIST (R271 to R274) -/

/-- Spares free of duties 1 to 3 (R273). -/
def State.spareMargin (s : State) : Nat :=
  ((s.tilesIn .spare).filter fun u => (s.tile u).role != .arbiter && (s.tile u).slots.all fun o => (o.map fun c => !c.hold).getD true).length

/-- BIST_SLOT_OPEN. -/
def doBistSlotOpen (s : State) : State :=
  match s.test.bist with
  | some b =>
    if b.phase = .waiting ∧ (s.tile b.tile).role = .idle then
      (s.modTest fun x => { x with bist := some { b with phase := .testing } }).startTest b.tile
    else s
  | none =>
    if !s.fnOn 3 then s
    else match s.rotation.head? with
    | none => s.bump HRT_BIST_SKIPPED
    | some t =>
      let go := fun (s : State) => s.setFld HRT_BIST_NEXT 7 0 ((t.val + 1) % 144)
      if (s.fpOf t).st = .spare then (go s).spareSlot t
      else match s.logicalOf t, (if 2 ≤ s.spareMargin then s.chooseCover t else none) with
      | some l, some c =>
        ((((go s).claimCover c).modTile t fun x => { x with handing := true }).setFld HRT_BIST_NEXT 15 8 t.val).modTest fun x =>
          { x with bist := some { tile := t, cover := some c, logical := some l, phase := .handOver } }
      | _, _ => s.spareOrSkip

def State.setAnvil (s : State) (i : Nat) (j : Option AnvilJob) : State := s.modTest fun x => { x with slots := x.slots.set i j }

/-- Each kernel is counted by the counter set in force as it begins (R381). -/
def State.latchFull (s : State) (j : AnvilJob) : AnvilJob := { j with full := (s.reg OBS_FULL_EN).getLsbD (s.partOfTile j.tile).val }

/-- HAND_OVER_COMPLETE, of the BIST slot or of an Anvil slot. -/
def doHandOverComplete (slot : Option (Fin 8)) (s : State) : State :=
  match slot with
  | none => match s.test.bist with
    | some b => match b.cover, b.logical with
      | some c, some l =>
        if b.phase = .handOver ∧ (s.tile b.tile).handReady then
          (((s.handOver b.tile c l .selfTest).modTest fun x => { x with bist := some { b with phase := .testing } }).startTest b.tile).drainFreed
        else s
      | _, _ => s
    | none => s
  | some k => match s.test.slots.getD k.val none with
    | some j => match j.cover, j.logical with
      | some c, some l =>
        if j.phase = .handOver ∧ (s.tile j.tile).handReady then
          (((s.handOver j.tile c l .selfTest).setAnvil k.val (some (s.latchFull { j with phase := .testing }))).anvilRegs j true).drainFreed
        else s
      | _, _ => s
    | none => s

/-- The slot's end for its tile: hand-back, or the role idle. -/
def State.endSlot (s : State) (b : BistSlot) : State :=
  match b.logical with
  | some l => (s.modTest fun x => { x with bist := some { b with phase := .handBack } }).startBack l
  | none => (((s.modTest fun x => { x with bist := none }).setFld HRT_BIST_NEXT 15 8 255).setRole b.tile .idle).spareBack b.tile

/-- A valid slot passed: rotation counts (R271). -/
def State.slotPassed (s : State) (t : TileIx) : State :=
  let ps := if s.test.passed.contains t then s.test.passed else t :: s.test.passed
  let all := ((s.tilesIn .good) ++ (s.tilesIn .spare)).all ps.contains
  let s1 := (s.modTest fun x => { x with passed := if all then [] else ps
                                         rotStart := if all then s.time.tb else x.rotStart
                                         envRuns := tdel x.envRuns (dieOfTile t) }).bumpFld HRT_BIST_ROTATION 15 0
  if all then ((s1.bumpFld HRT_BIST_ROTATION 31 16).setFld HRT_BIST_ROTATION 15 0 0).setNat HRT_BIST_ROT_TIME
    ((s.time.tb - s.test.rotStart) / 10 ^ 9) else s1

/-- An INVALID slot of a die (key its index) or of a stack (key 32 on): counted; after eight in a row the die is held out (R262). -/
def State.slotInvalid (s : State) (key d : Nat) (data : List (List Byte)) : State :=
  let n := tget s.test.envRuns key 0 + 1
  let s1 := (s.bump HRT_BIST_INVALID).modTest fun x => { x with envRuns := tput x.envRuns key n }
  if n = 8 then (s1.setFld HRT_BIST_DIE_HOLD d d 1).emit ⟨0, 4, d, 0x060D, data⟩ else s1

/-- A BIST run of a slot ends (R274): the first failure is kept for the record of a transient, and a repair made in either run is recorded. -/
def State.slotResult (s : State) (b : BistSlot) (r : BistRun) : State :=
  let t := b.tile
  let v := s.judgeBist t r
  let s1 := s.bistRegs t r v
  match v with
  | .aborted => s1.endSlot b
  | .invalid => (s1.slotInvalid (dieOfTile t) (dieOfTile t) (s.bistData r)).endSlot b
  | .fail => match b.first with
    | some r0 =>
      let s2 := ((((s1.noteRepaired (.inl t) 1 t.val r0.arrays r0.window).noteRepair t r).modTest fun x =>
        { x with bist := none, envRuns := tdel x.envRuns (dieOfTile t) }).setFld HRT_BIST_NEXT 15 8 255).orderFence
        t 4 (some ⟨3, 1, t.val, 0x0602, s.bistData r⟩)
      if b.logical.isSome then s2.rewriteRecord else s2
    | none => (s1.modTest fun x => { x with bist := some { b with first := some r, stopped := false } }).startTest t
  | _ =>
    let s2 := s1.each b.first.toList fun s r0 =>
      (s.emit ⟨1, 1, t.val, 0x0603, s.bistData r0⟩).noteRepaired (.inl t) 1 t.val r0.arrays r0.window
    ((s2.noteRepair t r).slotPassed t).endSlot b

/-! ### Return tests (R280, R262) -/

/-- A FENCED tile becomes SPARE with watch set (R192): its journal and gate start afresh. -/
def State.returnTile (s : State) (t : TileIx) : State :=
  let s1 := ((s.modTile t fun _ => { role := .idle, sampler := (s.tile t).sampler }).setNat (tileReg t TWD_FENCE) 0).modFp t fun f =>
    { f with st := .spare, reason := 0, retired := false }
  ((s1.watchOn t).emit ⟨0, 1, t.val, 0x0406, []⟩).spareBack t

/-- A return test's BIST run ends. -/
def State.returnResult (s : State) (x : ReturnTest) (r : BistRun) : State :=
  let t := x.tile
  let v := s.judgeBist t r
  let s1 := s.bistRegs t r v
  let drop := s1.modTest fun y => { y with returns := y.returns.filter fun z => z.tile != t }
  let keep := fun (z : ReturnTest) => s1.modTest fun y => { y with returns := y.returns.map fun w => if w.tile = t then z else w }
  match v with
  | .aborted => drop.requestAnvil t .fenced allKernels
  | .invalid => (keep (if x.tries < 3 then { x with tries := x.tries + 1, long := false, stopped := false } else { x with tries := 0, long := true, stopped := false })).bump
      HRT_BIST_INVALID
  | .fail => ((drop.noteRepair t r).emit ⟨3, 1, t.val, 0x0407, s.bistData r⟩).retireTile t
  | _ => (drop.noteRepair t r).returnTile t

def State.returnOf (s : State) (t : TileIx) : Option ReturnTest :=
  (s.test.returns.find? fun x => x.tile == t).filter fun _ => (s.fpOf t).st == .fenced && !(s.fpOf t).retired

/-- BIST_RESULT, of a slot or of a return test. -/
def doBistResult (r : BistRun) (t : TileIx) (s : State) : State :=
  match s.test.bist.filter fun b => b.tile == t && b.phase == .testing with
  | some b => s.slotResult b r
  | none => match (s.returnOf t).filter fun x => x.tries == 0 && !x.long with
    | some x => s.returnResult x r
    | none => s

/-- HAND_BACK_COMPLETE. -/
def doHandBackComplete (slot : Option (Fin 8)) (s : State) : State :=
  let ready : LogIx → Bool := fun (l : LogIx) => match s.holder l with
    | some u => (s.tile u).handReady
    | none => true
  match slot with
  | none => match s.test.bist with
    | some b => match b.logical with
      | some l =>
        if b.phase = .handBack ∧ ready l then
          ((s.modTest fun x => { x with bist := none }).setFld HRT_BIST_NEXT 15 8 255).handBack b.tile l
        else s
      | none => s
    | none => s
  | some k => match s.test.slots.getD k.val none with
    | some j => match j.logical with
      | some l =>
        if j.phase = .handBack ∧ ready l then
          let s1 := (s.modTest fun x => { x with slots := x.slots.set k.val none }).handBack j.tile l
          match j.why with
          | .request id => s1.reqDone id j
          | _ => s1
        else s
      | none => s
    | none => s

/-- RETURN_TEST_RETRY: 60 s after three repeats stayed INVALID. -/
def doReturnTestRetry (t : TileIx) (r : BistRun) (s : State) : State :=
  match (s.returnOf t).filter fun x => x.long with
  | some x => s.returnResult { x with long := false } r
  | none => s

/-- BIST_DIAG (R264): the exact pattern, within the failing interval of 512, of a FENCED or DEFECT tile whose logic BIST failed; no tile state
changes. -/
def doBistDiag (t : TileIx) (pattern : Nat) (s : State) : State :=
  let k := tileReg t TWD_BIST_STATUS
  if ((s.fpOf t).st = .fenced ∨ (s.fpOf t).st = .defect) ∧ s.fld k 23 16 ≠ 0 then
    (s.setFld k 27 27 1).setNat (tileReg t TWD_BIST_PATTERN)
      (2 ^ 15 + s.fld (tileReg t TWD_BIST_PATTERN) 14 9 * 512 + pattern % 512)
  else s

/-! ### HBM row slices (R275, R276) -/

/-- A stack or an I/O die (unit type 4, die index) is excluded under degraded service (R270). -/
def State.isExcluded (s : State) (ut ix : Nat) : Bool := s.bu.excluded.contains (ut, ix)

/-- The repair log in force (R268). -/
def State.repairLog (s : State) : RepairLog := s.nor.repairs.get.getD {}

/-- The repair log is written anew, but under the power-fail lock, when no NOR write begins (R343). -/
def State.modLog (s : State) (f : RepairLog → RepairLog) : State :=
  if s.recd.pfLock then s else { s with nor := { s.nor with repairs := s.nor.repairs.put (f s.repairLog) } }

/-- The repair is logged, with the bring-up that found the row failing (R268). -/
def State.logRow (s : State) (n : StackIx) (row : Nat) (pass : Option Nat) : State :=
  s.modLog fun l => { l with rows := (n.val, row, pass) :: l.rows }

/-- The row address of row `k` of the slice that a stack has come to, as SWD_HBM_FAIL_ADDR has it (R275, R286): slices advance through 64 banks, then
64 pseudo-channels, then groups of 16 rows (DEDUCED from the register's fields, assumption log 107). -/
def State.sliceRow (s : State) (n : StackIx) (k : Nat) : Nat :=
  let p := tget s.test.slicePos n.val 0
  p / 64 % 64 * 2 ^ 26 + p % 64 * 2 ^ 20 + p / 4096 * 16 + k

/-- Slices of a 32 GiB stack (R275). -/
def sliceCount : Nat := 2097152

/-- One failing row: repaired by sPPR with a resource, else on the weak-row list of 256. -/
def State.rowFail (s : State) (n : StackIx) (w : EnvWindow) (f : Nat × Bool × Nat × Nat) : State :=
  let row := f.1
  let ppr := stackReg n SWD_HBM_PPR
  if f.2.1 && s.fld HRT_HBM_PPR_POLICY 1 1 == 1 then
    (((s.bumpFld ppr 31 24).setFld ppr 15 8 (s.fld ppr 15 8 - 1)).logRow n row none).wardenReport (s.stackAgent n)
      (.hbmRow n true row f.2.2.1 f.2.2.2 w)
  else
    let l := ((tget s.test.weak n.val []).filter fun r => r != row) ++ [row]
    let l1 := l.drop (l.length - 256)
    ((s.modTest fun x => { x with weak := tput x.weak n.val l1 }).setNat (stackReg n SWD_HBM_WEAK_ROWS) l1.length).wardenReport
      (s.stackAgent n) (.hbmRow n false row f.2.2.1 f.2.2.2 w)

/-- The slice of a stack is over, and the next one is due; the last one ends a rotation (R275, R286). -/
def State.sliceDone (s : State) (n : StackIx) : State :=
  let p := tget s.test.slicePos n.val 0 + 1
  let s1 := (s.add64 (stackReg n SWD_HBM_SLICES_LO) (stackReg n SWD_HBM_SLICES_HI) 1).modTest fun x =>
    { x with slicePos := tput x.slicePos n.val (if p < sliceCount then p else 0), envRuns := tdel x.envRuns (32 + n.val) }
  if p < sliceCount then s1
  else (s1.setNat (stackReg n SWD_HBM_ROT_TIME) ((s.time.tb - tget s.test.rowStart n.val 0) / 10 ^ 9)).modTest fun x =>
    { x with rowStart := tput x.rowStart n.val s.time.tb }

/-- HBM_ROW_SLICE: while sliced BIST is ON, of a stack that the package has in use, whose die is not held out, while STOP does not hold the memory
domain. Failing rows are named within the slice; `lost` are the lines whose first read is uncorrectable or whose held contents read back wrongly
(R276). Above 95 degrees the result is INVALID, and the same slice is due again (R262). -/
def doHbmRowSlice (n : StackIx) (temp : Int) (fails : List (Fin 16 × Bool × Nat × Nat)) (lost : List Nat) (w : EnvWindow) (s : State) : State :=
  let d := (s.stackAgent n).die.val
  let mode := stackReg n SWD_HBM_TEST
  if !s.fnOn 3 || s.unitStopped (s.stackAgent n) || s.isExcluded 2 n.val || decide (s.stackCount ≤ n.val) || s.fld HRT_BIST_DIE_HOLD d d == 1 then s
  else if 380 < temp then (s.setNat mode (3 * 2 ^ 30 + 4 * 2 ^ 27)).slotInvalid (32 + n.val) d (envItems w)
  else
    let fs := fails.map fun f => (s.sliceRow n f.1.val, f.2)
    let fixed := fs.all fun f => f.2.1 && s.fld HRT_HBM_PPR_POLICY 1 1 == 1
    let res := if fs = [] then 1 else if fixed then 2 else 3
    let s1 := s.setNat mode (3 * 2 ^ 30 + res * 2 ^ 27 + min 65535 fs.length)
    let s2 := match fs.head? with
      | some f => (s1.setNat (stackReg n SWD_HBM_FAIL_ADDR) f.1).setNat (stackReg n SWD_HBM_FAIL_BIT) (f.2.2.1 % 256 * 2 ^ 8 + f.2.2.2 % 256)
      | none => s1
    ((s2.each fs fun s f => s.rowFail n w f).each lost fun s a => doHbmUncorrectable n a s).sliceDone n

/-! ### Anvil kernels (R277 to R282) -/

/-- The tile that a name of a request stands for. -/
def State.named (s : State) : TileName → Option TileIx
  | .phys t => some t
  | .logical l => s.holder l

def kernelList (m : BitVec 12) : List Nat := (List.range 12).filter fun k => m.getLsbD k

/-- ANVIL_RUN: queued, at most 16 requests, and answered when every tile is done. -/
def serveAnvilRun (tiles : List TileName) (kernels : BitVec 12) (times : Nat) (p : Pend) (s : State) : State :=
  s.serveAs p true none fun s =>
    let ts := tiles.map s.named
    let bad := fun (o : Option TileIx) => match o with
      | some t => (s.fpOf t).st == .defect || (s.fpOf t).retired
      | none => true
    if tiles = [] ∨ 8 < tiles.length ∨ kernels = 0 ∨ times = 0 ∨ 255 < times then s.fail p .badOperand
    else if ts.any bad then s.fail p .badTile
    else if 16 ≤ s.reqsQueued then s.fail p .busy
    else
      let n := s.test.reqCount + 1
      let ks := kernelList kernels
      let jobs := (ts.filterMap id).map fun t => ({ tile := t, why := .request n, kernels := ks, all := ks, times := times } : AnvilJob)
      (s.waitAnswer p).modTest fun x => { x with reqCount := n, reqs := x.reqs ++ [⟨n, p, ts.filterMap id, []⟩], queue := x.queue ++ jobs }

/-- A tile is in an Anvil slot, in the BIST slot or in a return test's BIST run. -/
def State.underTest (s : State) (t : TileIx) : Bool :=
  s.test.slots.any (fun o => o.any fun j => j.tile == t || j.cover == some t) ||
    s.test.bist.any (fun b => b.tile == t || b.cover == some t) || s.test.returns.any fun r => r.tile == t

/-- A job can start: its cover, if it needs one, and its phase. A spare with a duty of priority 1 to 3, an arbitration or the shadow of a
hold-commit command, is not taken (R118). -/
def State.canStart (s : State) (j : AnvilJob) : Option (Option TileIx × TPhase) :=
  let t := j.tile
  let moving := s.plan.waiting.any (fun r => r.failed == t || r.first == t) || (tget? s.plan.fencing t.val).isSome ||
    s.plan.slots.any fun o => o.any fun r => r.failed == t || r.first == t
  if s.underTest t || moving then none
  else match (s.fpOf t).st with
  | .fenced => if (s.fpOf t).retired then none else some (none, .testing)
  | .spare =>
    let held := (s.tile t).slots.any fun o => o.any Capture.hold
    if (s.tile t).role = .arbiter ∨ s.arbsOf t ≠ [] ∨ held then none else some (none, .testing)
  | .good => (s.chooseCover t).map fun c => (some c, .handOver)
  | .defect => none

/-- ANVIL_RUN_START: the oldest job that can start takes a free slot. -/
def doAnvilRunStart (s : State) : State :=
  match (List.range 8).find? fun i => s.test.slots.getD i none == none,
      s.test.queue.findSome? fun j => (s.canStart j).map fun x => (j, x) with
  | some i, some (j, c, ph) =>
    let s1 := s.modTest fun x => { x with queue := x.queue.erase j }
    let j1 := { s.latchFull j with cover := c, phase := ph, logical := if ph = .handOver then s.logicalOf j.tile else none }
    match c with
    | some u => ((s1.claimCover u).modTile j.tile fun x => { x with handing := true }).setAnvil i (some j1)
    | none =>
      let s2 := if (s.fpOf j.tile).st = .spare then (s1.preemptShadow j.tile).setRole j.tile .selfTest else s1
      (s2.setAnvil i (some j1)).anvilRegs j1 true
  | _, _ => s

/-- ANVIL_COVER_TIMEOUT: the oldest request that waits for a cover is refused NO_SPARE. -/
def doAnvilCoverTimeout (s : State) : State :=
  match s.test.queue.findSome? fun j => match j.why with
      | .request id => if (s.fpOf j.tile).st = .good ∧ s.chooseCover j.tile = none then some id else none
      | _ => none with
  | none => s
  | some id =>
    let who := (s.test.reqs.find? fun r => r.id == id)
    let s1 := s.modTest fun x => { x with reqs := x.reqs.filter fun r => r.id != id, queue := x.queue.filter fun j => j.why != .request id }
    match who with
    | some r => s1.finish r.who .noSpare 0 r.words
    | none => s1

/-- The kernel's four conditions (R278). -/
def KernelRes.ok (r : KernelRes) : Bool :=
  r.ofd == r.expected && r.countsEqual && r.checksPass && (r.kernel != 7 || r.conservationOk)

/-- Data of ANVIL_FAIL (R287): the kernel, the observed OFD, and the samples. -/
def failData (r : KernelRes) : List (List Byte) := [i4 (r.kernel.val + 1), i8 r.ofd.lane0, i8 r.ofd.lane1] ++ envItems r.window

/-- Data of ANVIL_SKIPPED: the kernel, and the samples. -/
def skipData (r : KernelRes) : List (List Byte) := i4 (r.kernel.val + 1) :: envItems r.window

/-- The tile of a failed run is fenced, reason 4; its number stays on the cover. -/
def State.fenceTested (s : State) (j : AnvilJob) (cause : Event) : State :=
  let s1 := s.orderFence j.tile 4 (some cause)
  if j.logical.isSome then s1.rewriteRecord else s1

/-- A run fails (R280). -/
def State.runFailed (s : State) (j : AnvilJob) (r : KernelRes) : State :=
  let e : Event := ⟨3, 1, j.tile.val, 0x060B, failData r⟩
  match j.why with
  | .fenced => ((s.emit e).emit ⟨3, 1, j.tile.val, 0x0407, failData r⟩).retireTile j.tile
  | .ret => ((s.emit e).emit ⟨3, 1, j.tile.val, 0x0407, failData r⟩).retireTile j.tile
  | .sSuspect a => (s.emit e).fenceTested j ⟨3, 1, j.tile.val, 0x0202, a.data⟩
  | .noArb a => ((((s.emit e).fenceTested j ⟨3, 1, j.tile.val, 0x0202, a.data⟩).freeArb a 0).each
      (a.shadows.filter fun b => b.s != j.tile) State.suspectS).releaseArb a
  | .request id => if (s.fpOf j.tile).st = .fenced then (s.emit e).reqDone id j else (s.fenceTested j e).reqDone id j
  | _ => s.fenceTested j e

/-- A run passes or ends ABORTED with nothing to decide: hand-back, or idle. -/
def State.runOver (s : State) (i : Nat) (j : AnvilJob) : State :=
  match j.logical with
  | some l => (s.setAnvil i (some { j with phase := .handBack })).startBack l
  | none =>
    let s1 := s.freeTest j.tile
    match j.why with
    | .request id => s1.reqDone id j
    | _ => s1.spareBack j.tile

/-- A run passes (R280). -/
def State.runPassed (s : State) (i : Nat) (j : AnvilJob) : State :=
  match j.why with
  | .fenced => (s.modTest fun x => { x with returns := x.returns ++ [{ tile := j.tile }] }).startTest j.tile
  | .ret => (s.modTest fun x => { x with returns := x.returns ++ [{ tile := j.tile }] }).startTest j.tile
  | .sSuspect _ => (s.watchOn j.tile).runOver i j
  | .noArb a => (((s.watchOn j.tile).freeTest j.tile).freeArb a 0).suspectP a 0x0205 2 (some j.tile)
  | .unresolved _ => (s.watchOn j.tile).runOver i j
  | _ => s.runOver i j

/-- ANVIL_KERNEL_RESULT: a pass goes on to the next kernel or repeat; a failure stops the run; an abort ends it. -/
def doAnvilKernelResult (i : Fin 8) (r : KernelRes) (s : State) : State :=
  match s.test.slots.getD i.val none with
  | none => s
  | some j =>
    if j.phase ≠ .testing ∨ j.kernels.head? ≠ some r.kernel.val then s
    else if r.aborted || j.stopped || !s.regionRuns j.tile then
      match j.why with
      | .request _ => ((s.setAnvil i.val none).anvilRegs j false).runOver i.val j
      | .nonidem => ((s.setAnvil i.val none).anvilRegs j false).runOver i.val j
      | .unresolved _ => ((s.setAnvil i.val none).anvilRegs j false).runOver i.val j
      | _ => ((((s.setAnvil i.val none).anvilRegs j false).freeTest j.tile).abortJob j).drainFreed
    else
      let b := 2 ^ r.kernel.val
      let s0 := if r.skipped then s else s.bump (tileReg j.tile TWD_ANVIL_RUNS)
      let set := fun (m : Nat) => m ||| b
      if !r.skipped && !r.invalid && !KernelRes.ok r then
        let j1 := { j with failed := set j.failed, first := some (r.kernel.val, r.ofd) }
        (((s0.bump HRT_ANVIL_FAILS).setAnvil i.val none).anvilRegs j1 false).runFailed j1 r
      else
        let s1 := if r.skipped then s0.emit ⟨0, 1, j.tile.val, 0x060C, skipData r⟩ else s0
        let j1 := { j with
          kernels := j.kernels.drop 1
          skipped := if r.skipped then set j.skipped else j.skipped
          invalid := if r.invalid && !r.skipped then set j.invalid else j.invalid
          passed := if r.skipped || r.invalid then j.passed else set j.passed }
        if j1.kernels ≠ [] then (s1.setAnvil i.val (some (s.latchFull j1))).anvilRegs j1 true
        else if 1 < j.times then
          let j2 := { j1 with kernels := j.all, times := j.times - 1 }
          (s1.setAnvil i.val (some (s.latchFull j2))).anvilRegs j2 true
        else ((s1.setAnvil i.val none).anvilRegs j1 false).runPassed i.val j1

/-! ### Meanings -/

def execBistSlotOpen (s : State) : Res := done (doBistSlotOpen s)
def execHandOverComplete (slot : Option (Fin 8)) (s : State) : Res := done (doHandOverComplete slot s)
def execBistResult (r : BistRun) (t : TileIx) (s : State) : Res := done (doBistResult r t s)
def execHandBackComplete (slot : Option (Fin 8)) (s : State) : Res := done (doHandBackComplete slot s)
def execReturnTestRetry (t : TileIx) (r : BistRun) (s : State) : Res := done (doReturnTestRetry t r s)
def execBistDiag (t : TileIx) (pattern : Nat) (s : State) : Res := done (doBistDiag t pattern s)
def execHbmRowSlice (n : StackIx) (temp : Int) (fails : List (Fin 16 × Bool × Nat × Nat)) (lost : List Nat) (w : EnvWindow) (s : State) : Res :=
  done (doHbmRowSlice n temp fails lost w s)
def execAnvilRun (h : Hdr) (tiles : List TileName) (kernels : BitVec 12) (times : Nat) (s : State) : Res :=
  done (s.intake h 0x50 (.anvilRun h tiles kernels times) (serveAnvilRun tiles kernels times))
def execAnvilRunStart (s : State) : Res := done (doAnvilRunStart s)
def execAnvilCoverTimeout (s : State) : Res := done (doAnvilCoverTimeout s)
def execAnvilKernelResult (slot : Fin 8) (r : KernelRes) (s : State) : Res := done (doAnvilKernelResult slot r s)

end Sys2Proof.Machine
end

