-- ==== Sys2Proof/Machine/Recorder.lean ====
section
/-! DEFINITION. The event recorder beyond the writing of records (R354 to R369): flushes into the MRAM, the store and sealed rings,
the header, freeze, throttle, erase, and what stage 0 restores. -/
namespace Sys2Proof.Machine

/-- Slots of the store ring and of a sealed section (R357, R359). -/
def storeSlots : Nat := 259968
def sectionSlots : Nat := 128

/-- A record at or below an erase point (R368). -/
def erased (p : Option Word) (r : Record) : Bool :=
  match p with
  | some q => !later r.seq q
  | none => false

/-- The sealed section of this power cycle (R359). -/
def State.sealSection (s : State) : Nat := s.recd.cycles % 16

/-- A record, sealed or not, with bit 5 of its flags set (R351). -/
def Record.sealedCopy (r : Record) : Record := { r with flags := r.flags ||| 0x20 }

/-- One record of a flush into the store ring (R362). -/
def Recorder.store1 (c : Recorder) (r : Record × Bool) : Recorder :=
  { c with
    store := tput c.store c.hdr.writeIx r.1
    hdr := { c.hdr with writeIx := (c.hdr.writeIx + 1) % storeSlots, lastSeq := r.1.seq }
    flushSeq := r.1.seq }

/-- One record of the power-on pass into the sealed section, slots 0 to 126; any more are counted (R359). -/
def Recorder.seal1 (c : Recorder) (r : Record × Bool) : Recorder :=
  if c.sealedCount < 127 then
    { c with sealedReg := tput c.sealedReg (c.cycles % 16 * sectionSlots + c.sealedCount) r.1.sealedCopy, sealedCount := c.sealedCount + 1 }
  else { c with diverted := c.diverted + 1 }

/-- The MRAM writes of a flush in their order, records and then sealed copies, as far as the first `n` of them have landed (R362). -/
def Recorder.land (c : Recorder) (l : List (Record × Bool)) (n : Nat) : Recorder :=
  ((l.filter Prod.snd).take (n - l.length)).foldl Recorder.seal1 ((l.take n).foldl Recorder.store1 c)

/-- The records of a running flush that are still dirty. -/
def Recorder.fresh (c : Recorder) (f : Flush) : List (Record × Bool) := f.recs.filter fun r => c.dirty.any fun d => d.1.seq == r.1.seq

/-- The bytes that an erase overwrites (R368). -/
def eraseBytes : Nat := 8384512

/-- Write the header, with the progress of an overwrite that runs: the other copy is overwritten and becomes the one in force (R354, R357, R368). -/
def State.writeHeader (s : State) : State :=
  s.modRec fun c =>
    let q := ((c.hdrs.newest.map Prod.fst).getD 0).toNat
    let h := { c.hdr with opTime := s.opTime, cycles := c.cycles
                          eraseAt := c.hdr.eraseAt.map fun p => min eraseBytes (p + Config.eraseProgress q) }
    { c with hdr := h, hdrs := c.hdrs.put h, lastHeader := s.opTime }

/-- The section is sealed once the pass has ended and its records are in it; REC_SEALED_FULL goes to slot 127 if any was diverted
(R359). While the recorder is frozen or throttled, which would drop that record, the sealing waits for a later flush. -/
def State.sealNow (s : State) : State :=
  let c := s.recd
  if c.passOpen || c.sealedDone || (c.dirty ++ c.hold).any fun d => d.2 then s
  else if c.diverted = 0 then s.modRec fun c => { c with sealedDone := true }
  else if c.throttled || c.freeze.isSome then s
  else
    let s1 := (s.modRec fun c => { c with sealedDone := true }).emit ⟨0, 0, s.sealSection, 0x0907, [i4 c.diverted]⟩
    match tget? s1.recd.ring (ringSlot s1.recd.seq) with
    | some r => s1.modRec fun x => { x with sealedReg := tput x.sealedReg (s.sealSection * sectionSlots + 127) r.sealedCopy }
    | none => s1

/-- The erase points are set, the RAM ring is cleared, and with it the held records, which lie below them; the overwrite runs, and REC_ERASED is the
first record after them. Nothing is dirty any more, so that a throttle is over (R363, R368; assumption log 109). -/
def State.eraseNow (s : State) (store sealed : Bool) : State :=
  let new := s.recd.seq
  let h := s.recd.hdr
  let prev := (if store then h.eraseStore else h.eraseSealed).getD 0
  let s1 := s.modRec fun c => { c with
    hdr := { c.hdr with eraseStore := if store then some new else c.hdr.eraseStore
                        eraseSealed := if sealed then some new else c.hdr.eraseSealed
                        eraseAt := some 0, lastSeq := new }
    ring := [], dirty := [], hold := [], throttled := false, throttleDrops := 0, erasePending := none
    erase := some (match c.erase with
      | some (a, b) => (a || store, b || sealed)
      | none => (store, sealed)) }
  let s2 := s1.writeHeader.emit ⟨0, 0, bit store 0 + bit sealed 1, 0x0906, [iw prev, iw new]⟩
  if s.recd.throttled then s2.emit (throttledEvent s.recd.throttleDrops) else s2

/-- REC_ERASE: at once, or when the running flush has ended (R369). -/
def State.askErase (s : State) (store sealed : Bool) : State :=
  if !store && !sealed then s
  else if s.recd.flush.isSome then
    s.modRec fun c => { c with erasePending := some (match c.erasePending with
      | some (a, b) => (a || store, b || sealed)
      | none => (store, sealed)) }
  else s.eraseNow store sealed

/-- Step 5 of a removal, once the flush of step 4 is over: the fence notices (R319). -/
def State.removalNotices (s : State) : State :=
  if s.bu.removal = .flushing ∧ s.recd.flush.isNone then
    let s1 := s.modBu fun b => { b with removal := .powerDown }
    s1.sendNotices s1.livePorts 4 s1.esc.gen s1.partGens s1.jobCtxs
  else s

/-- A flush has ended: the power-fail lock after the flush of a power-fail warning or of TRIP that still stands, the throttle, an erase that waited,
then the flush asked for meanwhile (R343, R346, R362, R369). -/
def State.flushOver (s : State) (f : Flush) (dur : Nat) : State :=
  let c := s.recd
  let s1 := s.modRec fun c => { c with flush := none, asked := none, lastFlush := s.time.tb }
  let s2 := if f.kind = .background then s1 else s1.setNat REC_FLUSH_TIME dur
  let s3 := if f.kind = .powerFail ∧ (s.pw.pfWarn || s.hl.tripLatch) then
      let s3 := (s2.modRec fun c => { c with pfLock := true }).modPlan fun p => { p with writing := false, recorded := if p.writing then p.recorded.cut else p.recorded }
      if s.pw.pfWarn then s3.setNat HRT_PF_FLUSH_TIME ((s.time.tb - s.thm.pfSince) / 1000) else s3
    else s2
  let s4 := s3.endThrottle
  let s5 := match s4.recd.erasePending with
    | some (a, b) => if s4.recd.pfLock then s4 else s4.eraseNow a b
    | none => s4
  match c.asked with
  | some k => if s5.recd.flush.isSome then s5 else s5.askFlush k
  | none => s5

/-- FLUSH_COMPLETE (R362, R364): on success the records are in the store ring, the sealed copies in their section, and the header is written; a failed
flush is repeated once, and then the store is failed. What waits for the flush follows: TRAY_PC_N, or the notices of a removal. -/
def doFlushComplete (ok : Bool) (dur : Nat) (s : State) : State :=
  match s.recd.flush with
  | none => s
  | some f =>
    if ok then
      let was := s.recd.failed
      let lost := s.recd.overrun
      let fresh := s.recd.fresh f
      let s1 := (s.modRec fun c => { c.land fresh (2 * fresh.length) with
        dirty := c.dirty.filter fun d => !f.recs.any fun r => r.1.seq == d.1.seq
        failed := false, overrun := 0 }).sealNow
      let s2 := s1.writeHeader.flushOver f dur
      (if was then s2.emit ⟨0, 6, 1, 0x0904, [i4 lost]⟩ else s2).trayStep.removalNotices
    else
      let s1 := s.bump REC_STORE_ERR
      if !f.again && !s.recd.failed then s1.modRec fun c => { c with flush := some { f with again := true } }
      else
        let s2 := (s1.modRec fun c => { c with failed := true }).flushOver f dur
        (if s.recd.failed then s2 else s2.emit ⟨0, 6, 1, 0x0903, []⟩).trayStep.removalNotices

/-- A background flush is due: 4 KiB dirty, or 1 s since the last flush with any record dirty (R362). -/
def State.flushDue (s : State) : Bool :=
  decide (128 ≤ s.recd.dirty.length) || (s.recd.dirty != [] && decide (s.recd.lastFlush + 10 ^ 9 ≤ s.time.tb))

/-- BACKGROUND_FLUSH. -/
def doBackgroundFlush (s : State) : State :=
  if !s.flushDue || s.recd.failed then s else s.askFlush .background

/-- HEADER_WRITE_TIMER (R354), from standby power good on; no MRAM write begins under the power-fail lock or while the store is failed. -/
def doHeaderWriteTimer (s : State) : State :=
  if !s.pw.standby || s.recd.pfLock || s.recd.failed then s else s.writeHeader

/-- STORE_RETRY: every 1 s while the store is failed. -/
def doStoreRetry (ok : Bool) (s : State) : State :=
  if !s.recd.failed || s.recd.pfLock then s
  else doFlushComplete ok 0 (s.askFlush .background)

/-- FREEZE_LIMIT_EXPIRY (R366). -/
def doFreezeLimitExpiry (s : State) : State := s.endFreeze

/-- ERASE_OVERWRITE_DONE: the erased slots hold all ones; a flush goes first (R369). -/
def doEraseOverwriteDone (s : State) : State :=
  match s.recd.erase with
  | none => s
  | some (a, b) =>
    if s.recd.pfLock || s.recd.flush.isSome then s
    else s.modRec fun c => { c with
      store := if a then c.store.filter fun e => !erased c.hdr.eraseStore e.2 else c.store
      sealedReg := if b then c.sealedReg.filter fun e => !erased c.hdr.eraseSealed e.2 else c.sealedReg
      erase := none, hdr := { c.hdr with eraseAt := none } }

/-- A power-fail or TRIP flush: a freeze ends, and the held records are in it (R362, R369). -/
def State.powerFlush (s : State) : State := s.endFreeze.releaseHold.askFlush .powerFail

/-! ### Stage 0 (R354 to R359) -/

/-- Operating time of a record, in 1/1024 s. -/
def Record.opTime (r : Record) : Nat := r.time.toNat / 2 ^ 20

/-- The latest record by sequence. -/
def newest (l : List Record) : Option Record :=
  l.foldl (fun b r => match b with
    | none => some r
    | some x => if later r.seq x.seq then some r else some x) none

/-- The header rebuilt from the whole store ring (R358). -/
def rebuilt (c : Recorder) : MramHdr :=
  match newest (c.store.map Prod.snd) with
  | none => ⟨0, 0, 0, 0, none, none, none, []⟩
  | some r =>
    let ix := ((c.store.find? fun e => e.2.seq == r.seq).map Prod.fst).getD 0
    ⟨(ix + 1) % storeSlots, r.seq, r.opTime, r.cycles, none, none, none, []⟩

/-- The scan forward from the header's write index. -/
def scanFrom (c : Recorder) : Nat → MramHdr → MramHdr
  | 0, h => h
  | f + 1, h => match tget? c.store h.writeIx with
    | some r => if r.seq = h.lastSeq + 1 ∧ !erased h.eraseStore r then
        scanFrom c f { h with writeIx := (h.writeIx + 1) % storeSlots, lastSeq := r.seq } else h
    | none => h

/-- What the recorder restores at stage 0, from the header copy in force or from the whole store ring where neither is good (R354, R358); the section of
the power cycle sixteen before is erased. -/
def State.recorderStart (s : State) (headersGood : Bool) : State :=
  let c := s.recd
  let hdrs := if headersGood then c.hdrs else {}
  let h := scanFrom c storeSlots (hdrs.get.getD (rebuilt c))
  let good := (c.store.map Prod.snd).filter fun r => !erased h.eraseStore r
  let base := max h.opTime ((newest good).map Record.opTime |>.getD 0)
  let n := min (h.cycles + 1) 0xFFFFFF
  let s1 := { s with
    time := { s.time with opBase := base }
    recd := { State.reset.recd with
      store := c.store
      sealedReg := c.sealedReg.filter fun e => e.1 / sectionSlots != n % 16
      hdr := h, hdrs := hdrs, seq := h.lastSeq, flushSeq := h.lastSeq, cycles := n, passOpen := true
      erase := if h.eraseAt.isSome then some (h.eraseStore.isSome, h.eraseSealed.isSome) else none } }
  let s2 := s1.writeHeader
  if hdrs.get.isSome then s2 else s2.emitSq ⟨1, 6, 1, 0x0905, []⟩

/-- What the MRAM holds once standby power is lost: of a flush under way a free number of its writes has landed, in their order, and the header copy
that it was to overwrite is bad where it had come so far (R294, R358, R369; assumption log 108). -/
def State.recorderOff (s : State) : Recorder :=
  let c := s.recd
  let keep := fun (c : Recorder) (hdrs : Copies MramHdr) => { State.reset.recd with store := c.store, sealedReg := c.sealedReg, hdrs := hdrs }
  match c.flush with
  | none => keep c c.hdrs
  | some f =>
    let l := c.fresh f
    let n := Config.landed s.free
    keep (c.land l n) (if n ≤ l.length + (l.filter Prod.snd).length then c.hdrs else c.hdrs.cut)

/-! ### Meanings -/

def execBackgroundFlush (s : State) : Res := done (doBackgroundFlush s)
def execFlushComplete (ok : Bool) (duration : Nat) (s : State) : Res := done (doFlushComplete ok duration s)
def execHeaderWriteTimer (s : State) : Res := done (doHeaderWriteTimer s)
def execStoreRetry (ok : Bool) (s : State) : Res := done (doStoreRetry ok s)
def execFreezeLimitExpiry (s : State) : Res := done (doFreezeLimitExpiry s)
def execEraseOverwriteDone (s : State) : Res := done (doEraseOverwriteDone s)

end Sys2Proof.Machine
end

