-- ==== Sys2Proof/Machine/Ranges.lean ====
section
/-! DEFINITION. Which values registers take: the range of every field (R7), where a register behind a selector lives, and the rules
that relate one setting to another (R125, R160, R227, R331, R332, R342, R395). -/
namespace Sys2Proof.Machine

/-- Ranges of Hearth-page and sequencer registers: offset, high and low bit, least and greatest value. -/
def hearthRanges : List (Nat × Nat × Nat × Nat × Nat) := [
  (HRT_SHD_LIMITS, 19, 16, 1, 5), (HRT_SHD_LIMITS, 3, 0, 3, 12), (HRT_SHD_LIMITS, 11, 8, 3, 12),
  (HRT_SHD_HOLD_WAIT, 31, 0, 1, 1000), (HRT_SHD_EPSILON, 31, 0, 3, 18), (HRT_SHD_WATCH, 31, 0, 1, 720),
  (HRT_SCRUB_BUDGET, 31, 0, 5, 100), (HRT_REPLICA_INTERVAL, 31, 0, 60, 86400), (HRT_GEN_HOLDOFF, 9, 0, 150, 1000),
  (HRT_WDOG_TILE, 31, 0, 1, 1000), (HRT_WDOG_CTX, 31, 0, 10, 10000), (HRT_WDOG_PART, 31, 0, 50, 30000),
  (HRT_WDOG_CHIP, 31, 0, 200, 60000), (HRT_KNOT_TIMEOUT, 31, 0, 50, 10000), (HRT_KNOT_EDGE, 31, 0, 10, 1000),
  (HRT_SPILL_SIZE, 31, 0, 16, 4096), (HRT_SPILL_QUANTUM, 31, 0, 4, 1024), (HRT_DRAIN_WINDOW, 31, 0, 1, 1000),
  (HRT_KILL_TIMEOUT, 31, 0, 1, 50), (HRT_ESC_HOLD, 31, 0, 0, 2000), (HRT_ESC_REPEAT, 31, 0, 10, 3600),
  (HRT_BSTOP_TIMEOUT, 31, 0, 1, 1000), (HRT_BIST_INTERVAL, 31, 0, 1, 600), (HRT_HBM_SLICE_INTERVAL, 31, 0, 10, 10000)]

def hearthRanges2 : List (Nat × Nat × Nat × Nat × Nat) := [
  (HRT_BU_WAITS, 21, 12, 0, 600), (HRT_BU_WAITS, 11, 4, 1, 60), (HRT_BU_WAITS, 1, 0, 0, 2), (HRT_BU_HOST_WAIT, 31, 0, 0, 1500),
  (HRT_BU_TRAIN_AGE, 31, 0, 1, 365), (HRT_THM_GRACE_MAX, 31, 0, 0, 5000), (HRT_THM_TEMPER, 19, 16, 1, 8),
  (HRT_THM_TEMPER, 9, 0, 10, 1000), (HRT_THM_GROUP, 6, 0, 1, 100), (HRT_THM_GROUP_SEL, 2, 0, 0, 4), (HRT_SNS_SEL, 15, 12, 0, 4),
  (HRT_PWR_LIMIT, 31, 0, 1000, 3400), (HRT_PMB_MAP, 19, 16, 0, 5), (REC_FREEZE_LIMIT, 31, 0, 10, 10000), (REC_NOTIFY, 2, 0, 0, 6),
  (REC_WINDOW_SRC, 3, 0, 0, 8), (OBS_TRACE_CFG, 26, 22, 8, 20), (OBS_LINK_STAMP, 31, 0, 0, 12), (OBS_WATCH_HOLD, 31, 0, 1, 1000),
  (TXN_TIMEOUT, 31, 0, 10, 1000), (HRT_FN_SEL, 2, 0, 0, 4), (HRT_CMP_CFG, 31, 16, 49152, 65535), (HRT_HL_SEL, 5, 0, 0, 40),
  (HRT_SQ_WDOG, 7, 0, 5, 200), (HRT_SQ_DIGEST_SEL, 2, 0, 1, 6)]

/-- Ranges of warden and router registers, by offset in the page. A patrol pass over 32 GiB takes seconds at the least scrub budget, so no period of an hour
or more is too short for it (R502, assumption log 111). -/
def wardenRanges : PageKind → List (Nat × Nat × Nat × Nat × Nat)
  | .tile => [(TWD_INJECT_INTERVAL, 4, 0, 12, 24), (TWD_CTX_SEL, 7, 4, 0, 9)]
  | .stack => [(SWD_PATROL, 7, 0, 1, 168)]
  | .die => [(BLW_RSP_TIMEOUT, 6, 0, 4, 100), (BLW_PORT_ERR_THRESH, 15, 0, 1, 65535)]
  | _ => []

def inRange (l : List (Nat × Nat × Nat × Nat × Nat)) (o v : Nat) : Bool :=
  l.all fun e => e.1 != o || (decide (e.2.2.2.1 ≤ field v e.2.1 e.2.2.1) && decide (field v e.2.1 e.2.2.1 ≤ e.2.2.2.2))

/-- A value lies in its register's own range (R7), reserved bits apart. `item` is what the selector selects. -/
def State.valueOk (s : State) (k : PageKind) (o item v : Nat) : Bool :=
  match k with
  | .hearth =>
    inRange hearthRanges o v && inRange hearthRanges2 o v &&
    (o != HRT_THM_GRACE && o != HRT_PWR_GRACE || decide (field v 12 0 ≤ s.fld HRT_THM_GRACE_MAX 12 0)) &&
    (o != OBS_WATCH_HOLD || decide (2 * field v 9 0 ≤ s.fld HRT_WDOG_CTX 13 0)) &&
    (o != OBS_TRACE_SIZE || decide (field v 14 0 = 0 ∨ (64 ≤ field v 14 0 ∧ field v 14 0 ≤ 16384 ∧ field v 14 0 % 64 = 0))) &&
    ((o != HRT_OFD_KEY_LO && o != HRT_OFD_KEY_HI) || decide (2 ≤ item))
  | .seqr => inRange hearthRanges2 o v
  | k => inRange (wardenRanges k) o v

/-! ### Where a register lives -/

/-- The item that a path selects for a register, and its key. A selector is a path's own copy (R481), but for the two
whose names do not end in _SEL. -/
def State.itemOf (s : State) (p : Path) (r : RegRow) (page : Nat) : Nat :=
  match r.sel with
  | some q => (if q = HRT_OFD_KEYSEL ∨ q = TWD_QSEL then s.reg (page + q) else s.own p (page + q)).toNat
  | none => 0

/-- The value of a register for a path: its own copy, or the item its selector selects. -/
def State.getReg (s : State) (p : Path) (r : RegRow) (page off : Nat) : Word :=
  if r.perPath then s.own p off else s.reg (itemKey off (s.itemOf p r page))

/-- Set the defined, writable bits of a register for a path. -/
def State.putReg (s : State) (p : Path) (r : RegRow) (page off : Nat) (v : Word) : State :=
  let old := s.getReg p r page off
  let m := r.mask &&& ~~~ r.fixed
  let x := (old &&& ~~~ m) ||| (v &&& m)
  if r.perPath then s.setOwn p off x else s.setReg (itemKey off (s.itemOf p r page)) x

/-! ### Rules between settings (R437) -/

/-- Thresholds of a class stand in their order (R331). -/
def limitsOk (v : Nat) : Bool :=
  let adv := field v 7 0
  let req := field v 15 8
  let q := field v 23 16
  let trip := field v 31 24
  decide (60 ≤ adv ∧ adv + 2 ≤ req ∧ req + 4 ≤ q ∧ q + 4 ≤ trip)

/-- A key set is acceptable (R160). -/
def State.keysOk (s : State) (set : Nat) : Bool :=
  s.ofdKey set 0 != 0 && s.ofdKey set 1 != 0 && s.ofdKey set 0 != s.ofdKey set 1

/-- Every relation between settings: whether it holds, and the registers it relates, the one refused for it first. -/
def State.relations (s : State) : List (Bool × List Nat) :=
  let tile := s.fld HRT_WDOG_TILE 9 0
  let ctx := s.fld HRT_WDOG_CTX 13 0
  let part := s.fld HRT_WDOG_PART 14 0
  let chip := s.fld HRT_WDOG_CHIP 15 0
  let rmin := s.fld HRT_SHD_LIMITS 3 0
  let rmax := s.fld HRT_SHD_LIMITS 11 8
  let base := s.fld HRT_SHD_POLICY 3 0
  let hi := s.fld HRT_SHD_POLICY 7 4
  [(decide (tile < ctx), [HRT_WDOG_CTX, HRT_WDOG_TILE]),
   (decide (ctx < part ∧ 5 * ctx ≤ part), [HRT_WDOG_PART, HRT_WDOG_CTX]),
   (decide (part < chip), [HRT_WDOG_CHIP, HRT_WDOG_PART]),
   (decide (2 * s.fld OBS_WATCH_HOLD 9 0 ≤ ctx), [HRT_WDOG_CTX, OBS_WATCH_HOLD]),
   (decide (rmin ≤ rmax), [HRT_SHD_LIMITS]),
   (decide (rmin ≤ base ∧ base ≤ rmax ∧ rmin ≤ hi ∧ hi ≤ base), [HRT_SHD_POLICY, HRT_SHD_LIMITS]),
   (decide (s.fld HRT_THM_GRACE 12 0 ≤ s.fld HRT_THM_GRACE_MAX 12 0), [HRT_THM_GRACE, HRT_THM_GRACE_MAX]),
   (decide (s.fld HRT_PWR_GRACE 12 0 ≤ s.fld HRT_THM_GRACE_MAX 12 0), [HRT_PWR_GRACE, HRT_THM_GRACE_MAX])] ++
  ((List.range 4).map fun c => (limitsOk (s.reg (itemKey HRT_THM_LIMITS c)).toNat, [itemKey HRT_THM_LIMITS c])) ++
  ((List.range 3).map fun k => (s.keysOk (k + 1), (List.range 2).flatMap fun j =>
    [itemKey HRT_OFD_KEY_LO ((k + 1) * 2 + j), itemKey HRT_OFD_KEY_HI ((k + 1) * 2 + j)]))

/-- All relations hold. -/
def State.related (s : State) : Bool := s.relations.all Prod.fst

end Sys2Proof.Machine
end

