-- ==== Sys2Proof/Machine/Wiring.lean ====
section
/-! DEFINITION. Coordinates, identity blocks and the wiring comparison (R447 to R453), and the package state that follows from it
(R315, R316). -/
namespace Sys2Proof.Machine

/-- Ports of tensor role that the grade has. -/
def State.tensorPorts (s : State) : List PortIx :=
  (List.finRange 48).filter fun p => decide (p.val < s.portCount) && (s.roleOf p).role == .tensor

/-- The entry of the expected wiring table for a port (R450). -/
def State.wireFor (s : State) (p : PortIx) : Option WireExp := s.cmp.table.bind fun l => l.find? fun e => e.port == p

/-- Ports of which a peer is expected. -/
def State.expectedPorts (s : State) : List PortIx :=
  s.tensorPorts.filter fun p => ((s.wireFor p).map WireExp.peer).getD false

/-- Another port reports a far end with the same coordinates and a different serial (R451). -/
def State.conflicts (s : State) (p : PortIx) (i : Identity) : Bool :=
  i.coords != 0xFFFFFFFF && s.tensorPorts.any fun q => q != p && (s.port q).up &&
    ((s.port q).far.map fun j => j.coords == i.coords && j.serial != i.serial).getD false

/-- The outcome of a port against the table held (R451); without a table it is not compared. -/
def State.wiredOf (s : State) (p : PortIx) : Wired :=
  let x := s.port p
  if s.cmp.table.isNone then .notCompared
  else
    let peer := ((s.wireFor p).map WireExp.peer).getD false
    if !x.up then (if peer then .absent else .notCompared)
    else match x.far with
      | none => .pending
      | some i =>
        if s.conflicts p i then .conflict
        else if i.coords = 0xFFFFFFFF then .pending
        else if i.serial = s.fused.serial then .wrong
        else if !peer then .unexpected
        else if (s.wireFor p).any fun e => e.coords == i.coords && e.farPort == i.port then .agree
        else .wrong

/-- A port closed to job traffic (R451). -/
def Wired.closed : Wired → Bool
  | .wrong => true
  | .conflict => true
  | .unexpected => true
  | .pending => true
  | _ => false

/-- Disagreement outcomes of a port. -/
def Wired.bad (w : Wired) : Bool := w == .wrong || w == .conflict

/-- Data of this chapter's records (R476): the port, the far coordinates. -/
def State.portData (s : State) (p : PortIx) : List (List Byte) := [i1 p.val, iw (s.farCoords p)]

/-- The wiring check in force (R315): 0 REQUIRED, 1 IF_PROVIDED, 2 OFF; and whether the comparison governs. -/
def State.wiringCheck (s : State) : Nat := s.fld HRT_BU_WAITS 1 0
def State.wiringGoverns (s : State) : Bool := s.wiringCheck == 0 || (s.wiringCheck == 1 && s.cmp.table.isSome)

/-- Every expected link agrees, and no port disagrees. -/
def State.wiringAgrees (s : State) : Bool :=
  s.cmp.table.isSome && s.expectedPorts.all (fun p => (s.port p).out == .agree) && s.tensorPorts.all fun p => !(s.port p).out.bad

/-- Ports that keep the package from agreement: expected ones that do not agree, and those that disagree. -/
def State.badPorts (s : State) : List PortIx :=
  s.tensorPorts.filter fun p => (s.port p).out.bad || (s.expectedPorts.contains p && (s.port p).out != .agree)

/-- TOPO_DISAGREE, naming the ports. -/
def State.topoDisagree (s : State) (ps : List PortIx) : State :=
  (s.modBu fun b => { b with topo := 2, topoOk := false }).emit ⟨4, 0, 0, 0x0714, ps.map fun p => i1 p.val⟩

def State.topoAgreed (s : State) : State :=
  (s.modBu fun b => { b with topo := 1, topoOk := true }).emit ⟨0, 0, 0, 0x0716, []⟩

/-- Outcomes of every port anew, with the records of R451; the answer names the ports that have become WRONG or CONFLICT. -/
def State.compareWiring (s : State) : State × List PortIx :=
  s.tensorPorts.foldl (fun a p =>
    let w := a.1.wiredOf p
    if w = (a.1.port p).out then a
    else
      let s1 := a.1.modPort p fun x => { x with out := w }
      match w with
      | .unexpected => (s1.emit ⟨0, 3, p.val, 0x0C02, s1.portData p⟩, a.2)
      | .conflict => (s1.emit ⟨4, 3, p.val, 0x0C03, s1.portData p⟩, a.2 ++ [p])
      | .wrong => (s1, a.2 ++ [p])
      | _ => (s1, a.2)) (s, [])

/-- Job tags with a filter entry on one of these ports. -/
def State.tagsOnPorts (s : State) (ps : List PortIx) : List (BitVec 16) :=
  ps.flatMap fun p => ((s.slicesOf p).map Slice.tag).filter isJobTag

/-- The comparison governs: in service, and between stage 7 and the end of bring-up, where stage 9 takes its outcome (R315). -/
def State.topoJudged (s : State) : Bool :=
  s.bu.pkg != .safe || (decide (8 ≤ s.bu.stage) && !s.bu.failed && !s.bu.complete && s.bu.removal == .none)

/-- The comparison in service: disagreement takes a READY package to READY_LOCAL and fails the jobs of the closed ports (R304, R451,
R473); agreement follows R316. `whole` is a new table, for which an absent link counts too. -/
def State.rewire (s : State) (whole : Bool) : State :=
  let x := s.compareWiring
  let s1 := x.1
  if !s1.topoJudged then s1
  else if !s1.wiringGoverns then s1.failTags ((s1.tagsOnPorts x.2).map fun t => (t, 0)) 3 0 0 0xFFFFFFFF
  else
    let bad := if whole then s1.badPorts else x.2
    if bad ≠ [] then
      let s2 := s1.topoDisagree bad
      if s2.bu.pkg = .safe then s2
      else if s2.bu.pkg = .ready then s2.setPkg .readyLocal else s2.failTags ((s2.tagsOnPorts x.2).map fun t => (t, 0)) 3 0 0 0xFFFFFFFF
    else if s1.bu.topo ≠ 1 ∧ s1.wiringAgrees then
      let s2 := s1.topoAgreed
      if s2.bu.pkg = .readyLocal ∧ s2.bu.excluded = [] ∧ s2.allHeld then s2.setPkg .ready else s2
    else s1

/-- Identity updates go out on every live tensor port (R448). -/
def State.sendIdentities (s : State) : State := s.each s.livePorts State.sendIdentity

/-- A port is up: its far end is unknown until an identity block arrives, message counts restart, its own identity goes out (R391,
R448). A far end marked gone stays so until that block (R463). -/
def State.linkUp (s : State) (p : PortIx) (floors : List Nat) : State :=
  let s1 := s.modPort p fun x => { x with up := true, far := none, gens := [], lossExpected := false, noPeer := false, floors := floors }
  let s2 := ((s1.setNat (linkReg p LWD_MSG_TX) 0).setNat (linkReg p LWD_MSG_RX) 0).setFld (linkReg p LWD_LINK_STATE) 31 29 2
  if (s.roleOf p).role = .tensor then s2.sendIdentity p else s2

end Sys2Proof.Machine
end

