-- ==== Sys2Proof/Machine/Image.lean ====
section
/-! DEFINITION. The configuration image in the NOR device (R294 to R302): the bytes of the slots, slot selection, authentication, and
the settings. -/
namespace Sys2Proof.Machine

/-! ### The bytes of the two image slots (R294) -/

/-- What an unlisted byte reads as: erased (assumption log 16). -/
def erasedByte : Byte := 0xFF

/-- The byte at a device offset. -/
def memRead (m : List Host.Cell) (a : Nat) : Byte := (tget? m a).getD erasedByte

/-- Write one byte; an erased byte is not listed. -/
def memWrite (m : List Host.Cell) (a : Nat) (b : Byte) : List Host.Cell := if b = erasedByte then tdel m a else tput m a b

/-- Write bytes from an offset upward. -/
def memWriteAll : List Host.Cell → Nat → List Byte → List Host.Cell
  | m, _, [] => m
  | m, a, b :: r => memWriteAll (memWrite m a b) (a + 1) r

/-- The canonical form: offsets strictly rising, and no byte that an unlisted offset reads as. -/
def Memory.wf (m : List Host.Cell) : Bool := trising m && m.all fun e => e.2 != erasedByte

def memBytes (m : List Host.Cell) (a n : Nat) : List Byte := (List.range n).map fun i => memRead m (a + i)

/-- Little-endian value of bytes (R14). -/
def leNat : List Byte → Nat
  | [] => 0
  | b :: r => b.toNat + 256 * leNat r

def slotBase (n : Fin 2) : Nat := if n = 0 then 0x400000 else 0x2200000
def slotLength : Nat := 0x1E00000

def State.nor8 (s : State) (n : Fin 2) (o k : Nat) : List Byte := memBytes s.nor.slots (slotBase n + o) k
def State.norNat (s : State) (n : Fin 2) (o k : Nat) : Nat := leNat (s.nor8 n o k)

/-! ### The manifest (R296, R297) -/

/-- A section entry. -/
structure Section where
  type : Nat
  critical : Bool
  offset : Nat
  length : Nat
  digest : BitVec 384
deriving DecidableEq, Repr

def State.section (s : State) (n : Fin 2) (k : Nat) : Section :=
  let o := 0x88 + 64 * k
  ⟨s.norNat n o 2, (s.norNat n (o + 2) 2) % 2 == 1, s.norNat n (o + 8) 4, s.norNat n (o + 12) 4, BitVec.ofNat 384 (s.norNat n (o + 16) 48)⟩

def State.sections (s : State) (n : Fin 2) : List Section := (List.range (s.norNat n 0x12 2)).map (s.section n)

/-- Length limits of the section types. -/
def sectionLimit (t : Nat) : Nat :=
  if t = 1 then 0xC0000 else if t = 2 then 0x10000 else if t = 3 then 0x200000 else if t = 4 then 0x800000
  else if t = 5 then 0x10000 else if t = 6 then 0x100000 else slotLength

def Section.ok (x : Section) : Bool :=
  decide (x.offset % 4096 = 0 ∧ x.offset + x.length ≤ slotLength ∧ x.length ≤ sectionLimit x.type) &&
    (x.type != 3 || x.length == 0x200000) && (decide (1 ≤ x.type ∧ x.type ≤ 6) || !x.critical)

/-- Check 1 of R298. -/
def State.manifestOk (s : State) (n : Fin 2) : Bool :=
  s.norNat n 0 4 == 0x41454C43 && s.norNat n 4 2 == 1 &&
    (let c := s.norNat n 0x12 2
     decide (1 ≤ c ∧ c ≤ 16) &&
      (let l := s.sections n
       l.all Section.ok && (List.range 6).all fun t => (l.filter fun x => x.type == t + 1).length == 1))

/-- The OTP slot that holds the hash of the signing key, not revoked (check 2). -/
def State.keySlotOf (s : State) (n : Fin 2) : Option Nat :=
  let h := Config.sha384 (s.nor8 n 0x20 97)
  (List.range 4).find? fun k => s.fused.keyProgrammed.getLsbD k && !s.fused.keyRevoked.getLsbD k && s.fused.keyHash.getD k 0 == h

/-- The number of the first check of R298 that fails. -/
def State.authenticate (s : State) (n : Fin 2) : Option Nat :=
  if !s.manifestOk n then some 1
  else if (s.keySlotOf n).isNone then some 2
  else if !Config.ecdsaVerify (s.nor8 n 0x20 97) (s.nor8 n 0x488 96) (Config.sha384 (s.nor8 n 0 0x488)) then some 3
  else if s.norNat n 0xE 1 < s.fused.secver then some 4
  else
    let g := BitVec.ofNat 8 (s.norNat n 0xF 1)
    let asm := match s.fused.grade with
      | .d => 0
      | .w => 1
      | .f => 2
    if !(g.getLsbD asm && g.getLsbD (if s.fused.l112 then 5 else 4)) then some 5
    else if !(s.sections n).all fun x => Config.sha384 (s.nor8 n x.offset x.length) == x.digest then some 6
    else none

/-- The directory in force, or its values where no copy is good (R295). -/
def State.dir (s : State) : Directory := s.nor.dir.get.getD ⟨0, 0, false, 0⟩

def otherSlot (n : Fin 2) : Fin 2 := 1 - n

/-- Write the directory: the other copy, with the next sequence (R294); not under the power-fail lock, when no NOR write begins (R343). -/
def State.writeDir (s : State) (f : Directory → Directory) : State :=
  if s.recd.pfLock then s else { s with nor := { s.nor with dir := s.nor.dir.put (f s.dir) } }

/-- The bytes of a directory copy (R295). -/
def dirBytes (c : Word × Directory) : List Byte :=
  let l := i4 0x52494443 ++ iw c.1 ++ i1 c.2.active.val ++ i1 c.2.trial.val ++ i1 (bit c.2.autoConfirm 0) ++ [0] ++ iw c.2.armed ++
    List.replicate 4076 0
  l ++ iw (crc32 l)

/-- Slot selection (R295): the slots rejected before, and the slot chosen. -/
def State.selectSlot (s : State) : List (Fin 2 × Nat) × Option (Fin 2) :=
  let d := s.dir
  let a := if d.trial = 1 then otherSlot d.active else d.active
  match s.authenticate a with
  | none => ([], some a)
  | some k => match s.authenticate (otherSlot a) with
    | none => ([(a, k)], some (otherSlot a))
    | some k2 => ([(a, k), (otherSlot a, k2)], none)

/-- The bytes of a payload section of the selected image (R296, R300). -/
def State.payload (s : State) (t : Nat) : List Byte :=
  match s.bu.slot with
  | some n => match (s.sections n).find? fun x => x.type == t with
    | some x => s.nor8 n x.offset x.length
    | none => []
  | none => []

/-- A payload section as it is fetched agrees with the digest that stage 1 recorded (R300). -/
def State.fetchOk (s : State) (t : Nat) : Bool :=
  s.bu.slot.isNone || (tget? s.bu.digests t).any fun d => Config.sha384 (s.payload t) == d

/-- The first `n` 64-bit words of bytes. -/
def words64 : Nat → List Byte → List Word64
  | 0, _ => []
  | n + 1, l => if l.length < 8 then [] else BitVec.ofNat 64 (leNat (l.take 8)) :: words64 n (l.drop 8)

/-- The training revision of the selected image: the first four bytes of section 6 (R297). -/
def State.trainRevision (s : State) : Word :=
  match s.bu.slot with
  | some n => match (s.sections n).find? fun x => x.type == 6 with
    | some x => BitVec.ofNat 32 (s.norNat n x.offset 4)
    | none => 0
  | none => 0

/-- What stage 1 takes from the slot chosen. -/
def State.loadImage (s : State) (n : Fin 2) : State :=
  let l := s.sections n
  s.modBu fun b => { b with
    slot := some n
    trial := s.dir.trial == 1 && n != s.dir.active
    digests := (l.filter fun x => decide (1 ≤ x.type ∧ x.type ≤ 6)).foldl (fun t x => tput t x.type x.digest) []
    settings := match l.find? fun x => x.type == 2 with
      | some x => s.nor8 n x.offset x.length
      | none => []
    version := BitVec.ofNat 32 (s.norNat n 8 4)
    secver := s.norNat n 0xE 1
    compRev := s.norNat n 0xC 2
    keySlot := (s.keySlotOf n).getD 0 }

/-! ### Settings (R301) -/

/-- Entries: identifier, length, value padded to four bytes. -/
def parseTlv : Nat → List Byte → List (Nat × List Byte)
  | 0, _ => []
  | f + 1, l =>
    if l.length < 4 then []
    else
      let n := leNat ((l.drop 2).take 2)
      (leNat (l.take 2), (l.drop 4).take n) :: parseTlv f (l.drop (4 + (n + 3) / 4 * 4))

def State.entries (s : State) : List (Nat × List Byte) := parseTlv s.bu.settings.length s.bu.settings

/-- Every partition of a map has 0, 2, 4 or 8 compute dies. -/
def partitionsOk (m : Nat) : Bool :=
  (List.range 4).all fun p => [0, 2, 4, 8].contains ((List.range 8).filter fun k => m / 4 ^ k % 4 == p).length

/-- A Hearth-page register that REGISTER_INIT may write, with its page offset. -/
def initRow (off : Nat) : Option RegRow :=
  if off < 0x10000 then (rowAt off).bind fun x => if x.1.code = .rw then some x.1 else none else none

/-- One pair of REGISTER_INIT; false when the offset or the value is refused. -/
def State.initOne (s : State) (off : Nat) (v : Word) : State × Bool :=
  match initRow off with
  | none => (s, false)
  | some r =>
    if s.valueOk .hearth off (s.itemOf .core r 0) (v &&& r.mask).toNat then (s.putReg .core r 0 off v, true) else (s, false)

/-- Pairs of offset and value. -/
def initPairs : List Byte → List (Nat × Word)
  | a :: b :: c :: d :: e :: f :: g :: h :: r => (leNat [a, b, c, d], BitVec.ofNat 32 (leNat [e, f, g, h])) :: initPairs r
  | _ => []

def hashes : Nat → List Byte → List (BitVec 384)
  | 0, _ => []
  | f + 1, l => if l.length < 48 then [] else BitVec.ofNat 384 (leNat (l.take 48)) :: hashes f (l.drop 48)

def State.initAll (s : State) (l : List (Nat × Word)) : State × Bool :=
  let x := l.foldl (fun (a : State × Bool) e =>
    let y := a.1.initOne e.1 e.2
    (y.1, a.2 && y.2)) (s, true)
  (x.1, x.2 && x.1.related)

/-- One setting applied; false when CONFIG_REJECT is due. -/
def State.applySetting (s : State) (id : Nat) (v : List Byte) : State × Bool :=
  if id = 0x8001 then
    let g := Config.gradeOf v
    let asm := match s.fused.grade with
      | .d => 0
      | .w => 1
      | .f => 2
    (s, g.1 == asm && g.2 == s.fused.l112)
  else if id = 0x8002 then
    let x := leNat (v.take 4)
    (s.modBu fun b => { b with degraded := x % 2 == 1, minStacks := field x 15 8, minDies := field x 23 16 },
      decide (1 ≤ field x 15 8 ∧ field x 15 8 ≤ s.stackCount ∧ field x 23 16 ≤ s.ioDies))
  else if id = 0x8003 then (s.setNat HRT_PARTITION_MAP (leNat (v.take 2)), partitionsOk (leNat (v.take 2)))
  else if id = 0x8004 then
    let l := Config.regionsOf v
    ({ s with regions := (l.take 64).zipIdx.map fun (e : RegionEntry × Nat) => (e.2, e.1) },
      decide (l.length ≤ 64) && l.all fun e => e.purpose != .anvil || decide (72 ≤ e.length))
  else if id = 0x8005 then (s.setNat HRT_WORLD_MAP (leNat (v.take 4) % 16), decide (leNat (v.take 4) < 16))
  else if id = 0x8006 then
    let l := Config.rolesOf v
    let role := fun n => if n = 1 then Role.ethernet else if n = 2 then Role.storage else Role.tensor
    ({ s with roles := (l.take 48).zipIdx.map fun (e : (Nat × Bool) × Nat) => (e.2, ⟨role e.1.1, e.1.2⟩) },
      decide (l.length ≤ 48) && l.all fun e => decide (e.1 ≤ 2))
  else if id = 0x8007 then (s.modBu fun b => { b with trust := (hashes 5 v).take 4 }, decide ((hashes 5 v).length ≤ 4))
  else if id = 0x0008 then
    let x := Config.bringupOf v
    let w := x.2.1 * 2 ^ 12 + x.1 * 2 ^ 4 + x.2.2.1
    let ok := decide (1 ≤ x.1 ∧ x.1 ≤ 60 ∧ x.2.1 ≤ 600 ∧ x.2.2.1 ≤ 2 ∧ 1 ≤ x.2.2.2.1 ∧ x.2.2.2.1 ≤ 365)
    (((s.setNat HRT_BU_WAITS w).setNat HRT_BU_TRAIN_AGE x.2.2.2.1).modBu fun b => { b with fullTest := x.2.2.2.2 }, ok)
  else if id = 0x0009 then (s.setNat HRT_BU_HOST_WAIT (Config.hotplugOf v), decide (Config.hotplugOf v ≤ 1500))
  else if id = 0x000A then s.initAll (initPairs v)
  else (s, decide (id < 0x8000))

/-- The settings applied in order, or the identifier of the first entry rejected. -/
def State.applySettings (s : State) : List (Nat × List Byte) → State × Option Nat
  | [] => (s, none)
  | e :: r =>
    let x := s.applySetting e.1 e.2
    if x.2 then x.1.applySettings r else (s, some e.1)

/-- Defaults of DEGRADED: not allowed, half of the stacks populated, no I/O die (R301). -/
def State.settingDefaults (s : State) : State :=
  s.modBu fun b => { b with degraded := false, minStacks := s.stackCount / 2, minDies := 0, fullTest := false, trust := [] }

end Sys2Proof.Machine
end

