-- ==== Sys2Proof/Machine/BringUp.lean ====
section
/-! DEFINITION. Bring-up (R288 to R316): the ten stages, the census (R82, R305), domain power (R306), start-up tests (R270), training
(R307), the firmware broadcast (R310 to R313), topology (R315), numbering (R193). -/
namespace Sys2Proof.Machine

/-! ### Stages (R288 to R291) -/

/-- No removal stands in the way of stage `n`; one asked for while a stage was under way waits for its end (R320). -/
def State.stageAllowed (s : State) (n : Nat) : Bool :=
  s.bu.removal == .none || (s.bu.removal == .boundary && decide (2 ≤ n) && decide (n ≤ 7))

/-- A removal that waited for the stage boundary goes on at step 3 (R320). -/
def State.boundaryRemoval (s : State) : State := if s.bu.removal = .boundary then s.endPass.removalStop else s

/-- Stage `n` is the current one and may act: nothing failed, no removal stands in its way, and from stage 2 the core runs. -/
def State.stageOpen (s : State) (n : Nat) : Bool :=
  s.pw.standby && s.bu.stage == n && !s.bu.failed && s.stageAllowed n && s.bu.pkg == .safe && !s.bu.complete && !s.hl.tripLatch &&
    !s.thm.quenching && !s.thm.quenched && !s.pw.pfWarn &&
    (decide (n < 2) || s.sq.run == .running)

/-- End and detail registers of a stage (R323), in µs from stage 0 or from the reset decision (R292). -/
def State.stageRegs (s : State) (n code count : Nat) (reached : Bool) : State :=
  let s1 := if reached then s.setNat (HRT_BU_STAGE_END + 8 * n) ((s.time.tb - s.bu.passStart) / 1000) else s
  s1.setNat (HRT_BU_STAGE_DETAIL + 8 * n) (code * 2 ^ 16 + count % 2 ^ 16)

/-- STAGE_DONE: the record, the report registers, the next stage (R289). -/
def State.stageDone (s : State) (n count : Nat) : State :=
  let e : Event := ⟨0, 0, n, 0x0701, []⟩
  let s1 := if n < 2 then s.emitSq e else s.emit e
  ((s1.stageRegs n 0x0701 count true).modBu fun b => { b with stage := min 9 (n + 1) }).boundaryRemoval

/-- A stage fails (R290): the failure code stands in place of STAGE_DONE and ends the pass; the package stays SAFE with compute under
KILL. A chip-reset pass that fails at its census is reported at stage 3, where it resumes (R247). -/
def State.stageFail (s : State) (e : Event) : State :=
  let n := if s.bu.chipPass then max 3 s.bu.stage else s.bu.stage
  let s1 := if n < 2 then s.emitSq e else s.emit e
  let s2 := ((s1.endPass.stageRegs n e.code 0 false).modBu fun b => { b with stage := n, failed := true, failCode := e.code }).setPkg .safe
  ((s2.assertKill computeDomains).modEsc fun x => { x with reset := none }).boundaryRemoval

/-! ### Units that are lost (R270, R305) -/

/-- I/O die of a port. -/
def ioDieOf (p : PortIx) : Nat := 8 + p.val / 3

/-- Degraded service still has its minimum without one more stack, or one more I/O die. -/
def State.canExclude (s : State) (ut : Nat) : Bool :=
  let gone := (s.bu.excluded.filter fun e => e.1 == ut).length + 1
  s.bu.degraded && (if ut = 2 then decide (s.bu.minStacks + gone ≤ s.stackCount) else decide (s.bu.minDies + gone ≤ s.ioDies))

/-- A stack or an I/O die (unit type 4, die index) is lost: excluded with class 4, or SAFE with class 5. A further failure of an excluded unit
is recorded. -/
def State.excludeUnit (s : State) (ut ix : Nat) (e : Event) : State :=
  if s.isExcluded ut ix then s.emit { e with cls := 4 }
  else if s.canExclude ut then (s.emit { e with cls := 4 }).modBu fun b => { b with excluded := b.excluded ++ [(ut, ix)] }
  else s.stageFail { e with cls := 5 }

/-- A die is lost: an I/O die is excluded, any other stops bring-up. -/
def State.loseDie (s : State) (d : DieIx) (e : Event) : State :=
  if 8 ≤ d.val ∧ d ≠ s.anchor then s.excludeUnit 4 d.val e else s.stageFail { e with cls := 5 }

/-- A tile is DEFECT (R192), retired still where that is the cause (R197): one change of the floor plan, which the sparing record takes in; before stage 9 has placed the numbers the rewrite
is due, and stage 9 makes it (R193, assumption log 84). -/
def State.makeDefect (s : State) (t : TileIx) (cause : Nat) : State :=
  ((((s.setFp t { st := .defect, reason := cause, retired := cause == 5 }).setRole t .out).modBu fun b => { b with good := b.good.erase t }).epochUp).modPlan fun p =>
    { p with rewriteDue := true }

def State.defects (s : State) : Nat := (s.plan.fp.filter fun e => e.2.st == .defect).length

/-- At least L + 4 good tiles (R5), or TILE_COUNT_SHORT. -/
def State.countOk (s : State) : Bool := decide (s.logicals + 4 ≤ s.bu.good.length)
def State.countShort (s : State) : State := s.stageFail ⟨5, 0, s.bu.good.length, 0x0717, []⟩

/-! ### Stages 0 and 1 -/

/-- Everything that standby power kept is lost; NOR, MRAM and fuses stay (R43, R354). A record copy being written is bad, and the other one stays in
force (R294). -/
def State.powerOff (s : State) : State :=
  { State.reset with
    fused := s.fused, nor := { s.nor with train := if s.bu.trainPending then s.nor.train.cut else s.nor.train }
    recd := s.recorderOff
    plan := { recorded := if s.plan.writing then s.plan.recorded.cut else s.plan.recorded }
    free := s.free + 1, out := s.out, pending := s.pending }

/-- Data of HEARTH_MEM_FAIL: the failing address and bit (R266). -/
def memData (f : MemFail) : List (List Byte) := [i8 f.addr, i4 f.bit]

/-- STANDBY_POWER_GOOD: stage 0 (R288). -/
def doStandbyPowerGood (i : Stage0In) (s : State) : State :=
  if s.pw.standby then s
  else
    let s0 := { s with pw := { s.pw with standby := true, sgmii := i.sgmii } }
    let s1 := if i.mramAnswers then s0.recorderStart i.headersGood else s0.modRec fun c => { c with passOpen := true, failed := true }
    match i.coreMem, i.recorderMem with
    | some f, _ => s1.stageFail ⟨5, 0, 0, 0x0702, memData f⟩
    | none, some f => s1.stageFail ⟨5, 0, 1, 0x0702, memData f⟩
    | none, none =>
      if !i.norAnswers then s1.stageFail ⟨5, 6, 0, 0x0703, []⟩
      else if !i.mramAnswers then s1.stageFail ⟨5, 6, 1, 0x0703, []⟩
      else s1.stageDone 0 0

/-- STAGE_1_AUTHENTICATION. -/
def doStage1 (s : State) : State :=
  if !s.stageOpen 1 then s
  else
    let x := s.selectSlot
    let s1 := s.each x.1 fun s r => s.emitSq ⟨1, 0, r.1.val, 0x0704, [i4 r.2]⟩
    match x.2 with
    | some n => (s1.loadImage n).stageDone 1 0
    | none => s1.stageFail ⟨5, 0, 0, 0x0705, []⟩

/-! ### Stage 2 -/

/-- The slot selected is the one that the directory does not name as active. -/
def State.onTrial (s : State) : Bool := s.bu.slot == some (otherSlot s.dir.active)

/-- The first act of the firmware: the trial is marked attempted, or a trial that did not become active is given up (R295). -/
def State.trialStep (s : State) : State :=
  let d := s.dir
  if s.onTrial && d.trial == 1 then s.writeDir fun d => { d with trial := 2 }
  else if d.trial = 2 ∧ !s.onTrial then (s.writeDir fun d => { d with trial := 0 }).emit ⟨1, 0, (otherSlot d.active).val, 0x071B, []⟩
  else s

/-- STAGE_2_HEARTH_BOOT: the core boots, the settings are applied, READY_FOR_MAIN is asserted (R301, R317). -/
def doStage2 (s : State) : State :=
  let s0 := s.modSq fun q => if q.run = .off then { q with run := .running, lastBeat := s.time.tb } else q
  if !s0.stageOpen 2 || s.bu.chipPass || s.pw.readyForMain then s
  else
    let x := s0.trialStep.settingDefaults.applySettings s0.entries
    match x.2 with
    | some id => x.1.stageFail ⟨5, 0, 0, 0x0706, [i4 id]⟩
    | none => x.1.modPw fun p => { p with readyForMain := true }

/-- Warden islands power up on every die that the grade has. -/
def State.islandsUp (s : State) : State :=
  let ds := (List.finRange 25).filter fun d => s.dieExists d
  (s.modPw fun p => { p with islands := BitVec.ofNat 25 (ds.map fun d => 2 ^ d.val).sum }).each ds fun s d =>
    s.bumpFld (dieReg d DWD_ISLAND) 31 16

/-- MAIN_INPUT_GOOD: at stage 2 the islands power up, test themselves, and the census starts; after a power-fail warning a chip reset
follows, once a core that restarts runs again, and lifts the power-fail lock (R318, R343). -/
def doMainInputGood (failed : List AgentIx) (s : State) : State :=
  if s.recd.pfLock || s.pw.pfWarn then
    let s1 := s.modPw fun p => { p with pfWarn := false, mainGood := true }
    match s1.sq.run with
    | .running => s1.trigger .chip 0xF (codeOf 6 6 0 0x080A) false
    | .restarting => s1.modSq fun q => { q with waiting := q.waiting ++ [.mainInputGood failed] }
    | _ => s1
  else if s.stageOpen 2 && s.pw.readyForMain && !s.pw.mainGood then
    let s0 := (s.modPw fun p => { p with mainGood := true }).islandsUp
    let tested := (List.finRange 25).filter fun d => s.dieExists d && !failed.contains (dieAgent d)
    let s1 := ((s0.each tested fun s d => s.bumpFld (dieReg d DWD_TRIP) 15 0).assertKill computeDomains).startCensus
    s1.each failed fun s a => s.modAgent a fun x => { x with failed := true }
  else s

/-- MAIN_POWER_TIMEOUT, once. -/
def doMainPowerTimeout (s : State) : State :=
  if s.stageOpen 2 && s.pw.readyForMain && !s.pw.mainGood && !s.bu.mainTimedOut then
    (s.modBu fun b => { b with mainTimedOut := true }).emit ⟨0, 6, 0, 0x0707, []⟩
  else s

/-! ### Census (R82, R83, R305) -/

/-- The census runs. -/
def State.censusOpen (s : State) : Bool := s.stageOpen 2 && s.pw.mainGood

/-- A part is missing: a tile is DEFECT, anything else is judged by R305. A failed self-test is recorded too (R269). -/
def State.missingPart (s : State) (a : AgentIx) (selfTest : Bool) : State :=
  let u := s.unitOf a
  let e : Event := ⟨1, u.1, u.2, 0x0708, []⟩
  let st := fun (s : State) (cls : Nat) => if selfTest then s.emit ⟨cls, u.1, u.2, 0x060A, []⟩ else s
  let s1 := s.modAgent a fun x => { x with probing := false, present := false, excluded := true }
  if u.1 = 1 then ((st s1 1).emit e).makeDefect (tileIx u.2) 3
  else
    let ut := if u.1 = 2 then 2 else 4
    let cls := if (u.1 = 2 ∨ (8 ≤ a.die.val ∧ a.die ≠ s.anchor)) ∧ s.canExclude ut then 4 else 5
    let s2 := st s1 cls
    if u.1 = 2 then s2.excludeUnit 2 u.2 e else s2.loseDie a.die e

/-- The census is over: the level is chosen and set, wardens below it are missing, and bring-up goes on (R82, R83). -/
def State.censusEnd (s : State) : State :=
  let here := s.allAgents.filter fun a => (s.agent a).present
  let level := here.foldl (fun l a => min l (s.agent a).maxLevel) 2
  let s1 := s.each (here.filter fun a => level < (s.agent a).minLevel) fun s a => s.missingPart a false
  if s1.bu.failed then s1
  else
    let there := s1.allAgents.filter fun a => (s1.agent a).present
    let wardens := (there.filter fun a => a.agent.val != 31).length
    let routers := (there.filter fun a => a.agent.val == 31).length
    let low := there.foldl (fun l a => min l (s1.agent a).stepping) 255
    let maxL := there.foldl (fun l a => min l (s1.agent a).maxLevel) 255
    let s2 := { s1 with bus := { s1.bus with level := level } }
    let s3 := (((s2.setFld HRT_GRADE 31 24 routers).setFld HRT_GRADE 23 16 wardens).setNat HRT_LEVEL
      ((s2.agent (dieAgent s2.anchor)).stepping % 256 * 2 ^ 24 + low % 256 * 2 ^ 16 + maxL % 256 * 2 ^ 8 + level % 16 * 2 ^ 4 + 2))
    let s4 := s3.each there fun s a => s.command a (.levelSet level s.rspTimeout)
    if s4.bu.chipPass then s4.modBu fun b => { b with stage := 3 } else s4.stageDone 2 wardens

/-- One agent has answered or is given up. The last one ends the census: what no probe could reach is missing too. -/
def State.censusNext (s : State) : State :=
  if s.bu.failed || s.allAgents.any fun a => (s.agent a).probing then s
  else
    let s1 := s.each (s.allAgents.filter fun a => !(s.agent a).present && !(s.agent a).excluded) fun s a =>
      if s.bu.failed then s else s.missingPart a false
    if s1.bu.failed then s1 else s1.censusEnd

/-- CENSUS_AGENT_TIMEOUT. -/
def doCensusAgentTimeout (a : AgentIx) (s : State) : State :=
  if s.censusOpen && s.agentExists a && (s.agent a).probing then
    ((s.answered a 1).missingPart a (s.agent a).failed).censusNext
  else s

/-! ### Stage 3 (R306, R76, R77) -/

def memDomain (k : Nat) : Nat := 16 + k
def linkDomain (d : Nat) : Nat := 24 + (d - 8)

/-- Link domains of the I/O dies that are not excluded. -/
def State.linkDomains (s : State) : List Nat :=
  ((List.range s.ioDies).filter fun k => !s.isExcluded 4 (8 + k)).map fun k => 24 + k

/-- Every domain that stage 3 powers. -/
def State.wanted (s : State) : BitVec 41 := domMask ([40] ++ List.range 16 ++ (List.range 8).map memDomain ++ s.linkDomains)

/-- Tiles that a bring-up pass tests: not DEFECT by the census, not retired, not fenced by the operator (R192, R197). -/
def State.candidates (s : State) : List TileIx :=
  (List.finRange 144).filter fun t =>
    let f := s.fpOf t
    !(s.agent (tileAgent t)).excluded && !f.retired && !(f.st == .fenced && f.reason == 7)

/-- Tiles retired in the sparing record become DEFECT at a power-on pass, and are not tested (R192). -/
def State.retireAtStart (s : State) : State :=
  if s.bu.chipPass then s
  else s.each ((s.plan.recorded.get.map Prod.snd).getD []) fun s t => s.makeDefect t 5

/-- The first domains of the dies in the order of R306: the anchor main domain, the memory domain of each compute die, the link domain of each I/O
die that is not excluded. -/
def State.firstDomains (s : State) : List Nat := 40 :: (List.range 8).map memDomain ++ s.linkDomains

/-- Every domain that stage 3 has still to start once a domain's power is good or judged: the first domain of the next die after 2 ms, and, where it is
good, the compute logic domains of its own die (R306; assumption log 97). -/
def State.nextDomains (s : State) (d : DomainIx) (good : Bool) : BitVec 41 :=
  domMask (((s.firstDomains.dropWhile fun k => k != d.val).drop 1).take 1 ++
    (if good ∧ 16 ≤ d.val ∧ d.val < 24 then [2 * (d.val - 16), 2 * (d.val - 16) + 1] else []))

/-- STAGE_3_DOMAIN_POWER: the first domain of the first die is started. -/
def doStage3 (s : State) : State :=
  if !s.stageOpen 3 || s.pw.domOn != 0 then s
  else if !s.time.refclk then s.stageFail ⟨5, 0, 0, 0x070C, []⟩
  else
    let s1 := (s.assertKill computeDomains).modPw fun p => { p with domOn := domMask [40] }
    let s2 := s1.retireAtStart
    s2.modBu fun b => { b with good := s2.candidates, retries := [], linkWaits := [], fullUnits := [], cast := none }

/-- Every domain is good, locked and on the grid: ALIGN, with a new generation in a chip-reset pass (R43, R306). -/
def State.tryAlign (s : State) : State :=
  let m := s.wanted
  if s.bu.failed || (s.pw.gridOk &&& m) != m then s
  else match s.esc.reset with
  | some r => s.goAlign r
  | none => { (s.modHl fun h => { h with armed := h.armed ||| (computeDomains &&& h.kill) }) with time := { s.time with alignAt := some s.nextGrid } }

/-- DOMAIN_POWER_GOOD. -/
def doDomainPowerGood (d : DomainIx) (r : DomainRes) (s : State) : State :=
  let b : BitVec 41 := BitVec.ofNat 41 (2 ^ d.val)
  if !s.stageOpen 3 || !s.pw.domOn.getLsbD d.val || s.pw.gridOk.getLsbD d.val then s
  else
    let die := s.dieOfDomain d
    let lose := fun (code : Nat) =>
      let why := if code = 0x070A then 1 else if code = 0x070B then 2 else 3
      let s1 := (s.setNat (dieReg die DWD_POWER_FAIL) (d.val * 2 ^ 8 + why)).loseDie die ⟨5, 4, die.val, code, [i4 d.val]⟩
      let next := if s1.bu.failed then 0 else s.nextDomains d false
      (s1.modPw fun p => { p with domOn := (p.domOn &&& ~~~ b) ||| next }).tryAlign
    match r with
    | .late => lose 0x070A
    | .notLocked => lose 0x070B
    | .gridFail => lose 0x070D
    | .ok =>
      (s.modPw fun p => { p with domOn := p.domOn ||| s.nextDomains d true, domGood := p.domGood ||| b, locked := p.locked ||| b, gridOk := p.gridOk ||| b }).tryAlign

/-! ### Firmware broadcast (R310 to R313) -/

/-- Tiles of partitions that take the image in a partition or compute-part reset. -/
def State.castTiles (s : State) (parts : BitVec 4) : List TileIx :=
  (s.tilesOfParts parts).filter fun t => (s.fpOf t).st == .good || (s.fpOf t).st == .spare

/-- Empty image state of a tile. -/
def State.clearImage (s : State) (t : TileIx) (status : Nat) : State :=
  let s1 := s.modTile t fun x => { x with fwOfd := ⟨0, 0⟩, fw := [] }
  (s1.each (List.range 16) fun s w => s.setNat (tileReg t (TWD_FW_BITMAP + 4 * w)) 0).setNat (tileReg t TWD_FW_STATUS) status

/-- The 32-bit units of bytes, with their offsets. -/
def units32 : Nat → List Byte → List (Nat × Nat)
  | k, a :: b :: c :: d :: r => (k, leNat [a, b, c, d]) :: units32 (k + 1) r
  | _, _ => []

/-- The OFD of the tile firmware in the copy region, under key set 0 in 32-bit units by their offset in the image (R311). -/
def State.imageOfd (s : State) : Ofd := s.digestOf 0 0 (units32 0 s.bu.fwCopy)

/-- A chunk of the image in the copy region, with its header (R310). -/
def State.chunkOf (s : State) (i : Nat) : FwChunk :=
  let d := (s.bu.fwCopy.drop (i * 4096)).take 4096
  ⟨s.bu.fwGen, i, 4096, crc32 d, d⟩

/-- Chunks leave for one tile, or by multicast for every tile of the broadcast (R310, R312). -/
def State.sendChunks (s : State) (dst : Option TileIx) (l : List Nat) : State := s.each l fun s i => s.emitOut (.chunk dst (s.chunkOf i))

/-- The broadcast starts with the next generation: each warden learns it and the expected OFD, and the 512 chunks are multicast (R310, R311). -/
def State.startCast (s : State) (ts : List TileIx) (reset : Option (BitVec 4)) : State :=
  let g := s.bu.fwGen + 1
  let expected := s.imageOfd
  let s1 := s.modBu fun b => { b with fwGen := g, cast := some { pending := ts, reset := reset } }
  (s1.each ts fun s t =>
    ((s.modTile t fun x => { x with fwGen := g, fwExpected := expected }).clearImage t (2 ^ 30 + g.toNat)).command (tileAgent t)
      (.broadcast g expected)).sendChunks none (List.range 512)

/-- The chunk bitmap of a tile. -/
def State.holdsChunk (s : State) (t : TileIx) (i : Nat) : Bool := (s.reg (tileReg t (TWD_FW_BITMAP + 4 * (i / 32)))).getLsbD (i % 32)

/-- The tile reports a full bitmap and a matching OFD, and its warden answers (R312, R313). -/
def State.imageOk (s : State) (t : TileIx) : Bool := s.fld (tileReg t TWD_FW_STATUS) 31 30 == 2 && !(s.agent (tileAgent t)).failed

/-- FW_CHUNK_RECEIVE (R311, R313): nothing moves under STOP; a chunk of another generation is dropped uncounted, a failing one is counted, a repeat is
ignored. -/
def doFwChunkReceive (t : TileIx) (c : FwChunk) (s : State) : State :=
  let x := s.tile t
  let k := tileReg t TWD_FW_STATUS
  if s.unitStopped (tileAgent t) ∨ c.gen ≠ x.fwGen ∨ s.fld k 31 30 = 0 then s
  else if 512 ≤ c.index ∨ crc32 c.data ≠ c.crc ∨ c.length ≠ 4096 ∨ c.data.length ≠ 4096 then s.bump (tileReg t TWD_FW_CRC_REJECT)
  else if s.holdsChunk t c.index then s
  else
    let o := s.digestOf 0 (c.index * 1024) (units32 0 c.data)
    let w := tileReg t (TWD_FW_BITMAP + 4 * (c.index / 32))
    let n := s.fld k 25 16 + 1
    let sum := ofdAdd x.fwOfd o
    let s1 := ((s.modTile t fun x => { x with fwOfd := sum, fw := tput x.fw c.index c.data }).setReg w (s.reg w ||| BitVec.ofNat 32 (2 ^ (c.index % 32)))).setFld k 25 16 n
    if n < 512 then s1 else s1.setFld k 31 30 (if sum = x.fwExpected then 2 else 3)

/-- The Hearth reads a tile's bitmap: three BLOCK_READs at level 2, sixteen REG_READs at level 1 (R312). -/
def State.readBitmap (s : State) (t : TileIx) : State :=
  let l : List Bell := if s.bus.level = 2 then [.blockRead TWD_FW_BITMAP 6, .blockRead (TWD_FW_BITMAP + 24) 6, .blockRead (TWD_FW_BITMAP + 48) 4]
    else (List.range 16).map fun w => .regRead (TWD_FW_BITMAP + 4 * w) 0
  s.each l fun s b => s.emitOut (.bellows s.hearthAgent (tileAgent t) b)

/-- What a repair round sends to a tile by unicast, and how many chunks: those its bitmap lacks, or all, where a full bitmap with an OFD mismatch is
cleared first (R312). -/
def State.repairTile (s : State) (t : TileIx) : State × Nat :=
  let full := 512 ≤ s.fld (tileReg t TWD_FW_STATUS) 25 16
  let s1 := if full then s.clearImage t (2 ^ 30 + s.bu.fwGen.toNat) else s
  let l := if full then List.range 512 else (List.range 512).filter fun i => !s.holdsChunk t i
  (s1.sendChunks (some t) l, l.length)

/-- HRT_BU_FW. -/
def State.castRegs (s : State) (c : Broadcast) : State :=
  s.setNat HRT_BU_FW (c.round * 2 ^ 30 + min 255 c.failed * 2 ^ 22 + min 255 c.first * 2 ^ 14 + min 16383 c.resent)

/-- A tile that never took the image: DEFECT in bring-up, fenced with reason "control lost" in a reset (R312). -/
def State.castFailed (s : State) (c : Broadcast) (t : TileIx) : State :=
  match c.reset with
  | none => (s.emit ⟨1, 1, t.val, 0x0712, []⟩).makeDefect t 2
  | some _ => s.fenceNow t 6 (some ⟨1, 1, t.val, 0x0712, []⟩)

/-- STOP on a tile that waits for chunks: the broadcast pauses until its release (R313). -/
def State.castPaused (s : State) (c : Broadcast) : Bool := c.pending.any fun t => s.unitStopped (tileAgent t)

/-- One decision of the repair procedure, on the bitmaps as they are read; the answer says whether the broadcast is over. -/
def State.repairStep (s0 : State) (c : Broadcast) : State × Bool :=
  let s := s0.each c.pending State.readBitmap
  let left := c.pending.filter fun t => !s.imageOk t
  let c1 := { c with pending := left, first := if c.round = 0 then left.length else c.first }
  if left = [] ∨ c.round = 3 then
    let c2 := { c1 with failed := left.length }
    (((s.each left fun s t => s.castFailed c2 t).castRegs c2).modBu fun b => { b with cast := none }, true)
  else
    let x := left.foldl (fun (a : State × Nat) t =>
      let y := a.1.repairTile t
      (y.1, a.2 + y.2)) (s, 0)
    let c2 := { c1 with round := c.round + 1, resent := c.resent + x.2 }
    ((x.1.castRegs c2).modBu fun b => { b with cast := some c2 }, false)

/-! ### ALIGN of any start (R77) -/

/-- ALIGN_GRID_POINT: at stage 3 it is the origin of the trace clock and ends the stage; after a partition or compute-part reset the
firmware broadcast of the reset starts (R244 step 7). A late domain is judged when its die warden's report is taken. -/
def doAlignGridPoint (late : List DomainIx) (s : State) : State :=
  match s.time.alignAt.filter fun _ => s.time.refclk with
  | none => s
  | some a =>
    let held := late.filter fun d => s.hl.armed.getLsbD d.val
    let s1 := s.alignRelease late
    if s.stageOpen 3 then
      if held ≠ [] then s1
      else (({ s1 with time := { s1.time with origin := some a } }).each (s1.allAgents.filter fun (a : AgentIx) => a.agent.val != 31) fun s a =>
        s.openPort a).stageDone 3 0
    else match s1.esc.reset with
    | some r => if held ≠ [] ∨ r.level = .chip then s1
        else s1.startCast (s1.castTiles r.parts) (some r.parts)
    | none => s1

/-- ALIGN_LATE is reported (R77, R246): a start at stage 3 fails the stage, a reset fails. -/
def State.lateDomain (s : State) (d : DomainIx) : State :=
  let e : Event := ⟨5, 4, (s.dieOfDomain d).val, 0x070E, [i4 d.val]⟩
  if s.stageOpen 3 then s.stageFail e
  else match s.esc.reset with
  | some r => if r.level = .chip then s.emit e else (s.emit e).failReset
  | none => s.emit e

/-! ### Stage 4 (R260 to R270) -/

/-- The repeat that a unit's test waits for (R262). -/
def State.retryOf (s : State) (k : TestKind) (u : Nat) : Option StartRetry := s.bu.retries.find? fun r => r.kind == k && r.unit == u

def State.dropRetry (s : State) (k : TestKind) (u : Nat) : State :=
  s.modBu fun b => { b with retries := b.retries.filter fun r => !(r.kind == k && r.unit == u) }

/-- An INVALID result at stage 4: counted, up to three repeats, then BIST_ENV_FAIL (R262, R284). -/
def State.invalidStart (s : State) (k : TestKind) (u die : Nat) (data : List (List Byte)) : State :=
  let s1 := s.bump HRT_BIST_INVALID
  match s.retryOf k u with
  | none => s1.modBu fun b => { b with retries := b.retries ++ [⟨k, u, 1⟩] }
  | some r =>
    if r.tries < 3 then s1.modBu fun b => { b with retries := b.retries.map fun (x : StartRetry) => if x == r then { r with tries := r.tries + 1 } else x }
    else s1.stageFail ⟨5, 4, die, 0x0604, data⟩

/-- One tile's start-up run. -/
def State.startRun (s : State) (t : TileIx) (r : BistRun) : State :=
  if s.bu.failed || !s.bu.good.contains t then s
  else
    let v := s.judgeBist t r
    let data := s.bistData r
    let s1 := (s.bumpFld (tileReg t TWD_BIST_STATUS) 15 0).bistRegs t r v
    match v with
    | .invalid => s1.invalidStart .tile t.val (dieOfTile t) data
    | .aborted => s1.invalidStart .tile t.val (dieOfTile t) data
    | .fail => (((s1.noteRepair t r).emit ⟨1, 1, t.val, 0x0601, data⟩).makeDefect t 1).dropRetry .tile t.val
    | _ => (s1.noteRepair t r).dropRetry .tile t.val

/-- An array outside tiles that could not be repaired: its unit is lost (R265, R270). -/
def State.arrayLost (s : State) (u : ArrayUnit) (data : List (List Byte)) : State :=
  if s.bu.failed then s
  else match u with
  | .mesh cd => s.stageFail ⟨5, 4, cd.val, 0x0606, data⟩
  | .stack n => s.excludeUnit 2 n.val ⟨5, 2, n.val, 0x0606, data⟩
  | .port p => s.excludeUnit 4 (ioDieOf p) ⟨5, 3, p.val, 0x0606, data⟩

/-- The window of an array test: the samples, and for a mesh the clock that Temper and THRT leave its die (R261). -/
def State.arrayValid (s : State) (x : ArrayRes) : Bool :=
  EnvWindow.valid x.window && (match x.unit with
    | .mesh cd => s.clockLeft (2 * cd.val) && s.clockLeft (2 * cd.val + 1)
    | _ => true)

/-- The arrays of a unit outside tiles (R265): each repaired or lost. -/
def State.startArray (s : State) (x : ArrayRes) : State :=
  let k := memKey (.inr x.unit)
  let u : Nat × Nat := match x.unit with
    | .mesh cd => (4, cd.val)
    | .stack n => (2, n.val)
    | .port p => (3, p.val)
  if s.bu.failed then s
  else if !s.arrayValid x then
    s.invalidStart .array k (s.memDie (.inr x.unit)).val (x.fails.flatMap arrayData ++ envItems x.window)
  else
    ((s.noteRepaired (.inr x.unit) u.1 u.2 x.fails x.window).each (x.fails.filter fun a => !a.repaired) fun s a =>
      s.arrayLost x.unit (arrayData a ++ envItems x.window)).dropRetry .array k

/-- A row found failing and repaired: by hPPR when the log shows it failing in the previous bring-up too and the policy allows it, else by sPPR
(R268). -/
def State.repairRow (s : State) (n : StackIx) (row col dq : Nat) (w : EnvWindow) : State :=
  let hard := s.fld HRT_HBM_PPR_POLICY 0 0 == 1 && s.repairLog.rows.contains (n.val, row, some (s.repairLog.passes - 1))
  let s1 := s.bumpFld (stackReg n SWD_HBM_PPR) (if hard then 23 else 31) (if hard then 16 else 24)
  (s1.logRow n row (some s.repairLog.passes)).emit ⟨1, 2, n.val, 0x0607, cellItems row col dq ++ envItems w⟩

/-- A saved entry is valid: serial, revision, age (R307). -/
def State.savedOk (s : State) (at0 : TrainRec → Option Nat) : Bool :=
  match s.nor.train.get with
  | none => false
  | some x => x.serial == s.fused.serial && x.revision == s.trainRevision &&
      match at0 x with
      | some t => decide (s.opTime ≤ t + s.fld HRT_BU_TRAIN_AGE 8 0 * 86400 * 1024)
      | none => false

/-- Mode of a start-up stack test (R267): FULL after power-on or by choice, or without valid saved settings. -/
def State.quickTest (s : State) (n : StackIx) : Bool :=
  s.bu.chipPass && !s.bu.fullTest && s.fld HRT_HBM_PPR_POLICY 2 2 == 0 && s.savedOk fun x => tget? x.hbm n.val

/-- What a stack test shows in the stack warden's registers (R286): mode and result, first failing cell, resources available. -/
def State.stackTestRegs (s : State) (x : StackTest) (mode res : Nat) : State :=
  let n := x.stack
  let ppr := stackReg n SWD_HBM_PPR
  let s1 := s.setNat (stackReg n SWD_HBM_TEST) (mode * 2 ^ 30 + res * 2 ^ 27 + min 65535 x.rows.length)
  let s2 := if x.answers then (s1.setFld ppr 15 8 (min 255 x.sppr)).setFld ppr 7 0 (min 255 x.hppr) else s1
  match x.rows.head? with
  | some r => (s2.setNat (stackReg n SWD_HBM_FAIL_ADDR) r.1).setNat (stackReg n SWD_HBM_FAIL_BIT) (r.2.2.1 % 256 * 2 ^ 8 + r.2.2.2 % 256)
  | none => s2

/-- One stack's start-up test: INVALID above 95 degrees; lost where its port does not answer or a row has no repair resource left (R270). -/
def State.startStack (s : State) (x : StackTest) : State :=
  let n := x.stack
  if s.bu.failed || s.isExcluded 2 n.val || !decide (n.val < s.stackCount) then s
  else
    let mode := if s.quickTest n then 1 else 2
    let bad := x.rows.filter fun r => !r.2.1
    let data := ((bad.head?.map fun r => cellItems r.1 r.2.2.1 r.2.2.2).getD []) ++ envItems x.window
    if x.answers && decide (380 < x.temp) then (s.stackTestRegs x mode 4).invalidStart .stack n.val (s.stackAgent n).die.val data
    else
      let lost := !x.answers || bad != []
      let s1 := (s.stackTestRegs x mode (if lost then 3 else if x.rows = [] then 1 else 2)).each (x.rows.filter fun r => r.2.1) fun s r =>
        s.repairRow n r.1 r.2.2.1 r.2.2.2 x.window
      (if lost then s1.excludeUnit 2 n.val ⟨5, 2, n.val, 0x0609, data⟩ else s1).dropRetry .stack n.val

/-- Stage 4 ends once no repeat is due. -/
def State.endStage4 (s : State) : State :=
  if s.bu.failed ∨ s.bu.retries ≠ [] then s
  else if !s.countOk then s.countShort
  else s.stageDone 4 s.defects

/-- A payload section that does not agree with the digest recorded at stage 1 fails the stage that uses it (R300). -/
def State.fetchFail (s : State) (sec : Nat) : State := s.stageFail ⟨5, 0, sec, 0x0713, [i2 sec]⟩

/-- The expected BIST signatures, which stage 4 loads into the tile wardens (R263, assumption log 106). -/
def State.loadSigs (s : State) : State :=
  s.modBu fun b => { b with sigs := words64 512 (s.payload 5) }

/-- STAGE_4_BIST. -/
def doStage4 (i : Stage4In) (s : State) : State :=
  if !s.stageOpen 4 || s.bu.retries ≠ [] then s
  else if !s.fetchOk 5 then s.fetchFail 5
  else
    let s0 := s.loadSigs.modLog fun l => { l with passes := l.passes + 1 }
    let s1 := s0.each i.tiles fun s x => s.startRun x.1 x.2
    let s2 := s1.each i.arrays State.startArray
    (s2.each i.stackTests State.startStack).endStage4

/-- BIST_INVALID_RETRY: of stage 4, or of a return test (R262). -/
def doBistInvalidRetry (r : Retry) (s : State) : State :=
  match r with
  | .tile t r =>
    if s.stageOpen 4 && (s.retryOf .tile t.val).isSome then (s.startRun t r).endStage4
    else match (s.returnOf t).filter fun x => decide (0 < x.tries) && !x.long with
      | some x => s.returnResult x r
      | none => s
  | .stack x => if s.stageOpen 4 && (s.retryOf .stack x.stack.val).isSome then (s.startStack x).endStage4 else s
  | .array x => if s.stageOpen 4 && (s.retryOf .array (memKey (.inr x.unit))).isSome then (s.startArray x).endStage4 else s

/-! ### Stage 5 (R307, R308) -/

/-- What happens to a unit: on saved settings, or trained in full, with TRAIN_SAVED_REJECT for a valid entry that failed its check. -/
def State.trained (s : State) (ut ix : Nat) (saved : Bool) (hi lo : Nat) : State :=
  if saved then
    let s1 := s.bumpFld HRT_BU_TRAIN hi lo
    if ut = 2 then s1.setFld (stackReg (Fin.ofNat 24 ix) SWD_STACK_STATE) 30 30 1 else s1
  else (s.bumpFld HRT_BU_TRAIN (hi - 8) (lo - 8)).modBu fun b => { b with fullUnits := b.fullUnits ++ [(ut, ix)] }

def State.trainReject (s : State) (ut ix : Nat) (valid : Bool) : State := if valid then s.emit ⟨1, ut, ix, 0x070F, []⟩ else s

def State.trainStack (s : State) (n : StackIx) (r : TrainRes) : State :=
  let valid := s.savedOk fun x => tget? x.hbm n.val
  if s.bu.failed || s.isExcluded 2 n.val || !decide (n.val < s.stackCount) then s
  else match r with
  | .saved => s.trained 2 n.val valid 31 24
  | .savedRejectedThenFull => (s.trainReject 2 n.val valid).trained 2 n.val false 31 24
  | .savedRejectedThenFailed => (s.trainReject 2 n.val valid).excludeUnit 2 n.val ⟨5, 2, n.val, 0x0710, []⟩
  | .failed => s.excludeUnit 2 n.val ⟨5, 2, n.val, 0x0710, []⟩
  | _ => s.trained 2 n.val false 31 24

def State.trainPort (s : State) (p : PortIx) (r : TrainRes) (floors : List Nat) : State :=
  let valid := s.savedOk fun x => (tget? x.links p.val).map Prod.fst
  let old := ((s.nor.train.get.bind fun x => tget? x.links p.val).map Prod.snd).getD []
  let full := fun (s : State) => (s.trained 3 p.val false 15 8).linkUp p floors
  if s.bu.failed || s.isExcluded 4 (ioDieOf p) || !decide (p.val < s.portCount) then s
  else match r with
  | .saved => if valid then (s.trained 3 p.val true 15 8).linkUp p old else full s
  | .full => full s
  | .savedRejectedThenFull => full (s.trainReject 3 p.val valid)
  | .failed => s.excludeUnit 4 (ioDieOf p) ⟨5, 3, p.val, 0x0710, []⟩
  | .savedRejectedThenFailed => (s.trainReject 3 p.val valid).excludeUnit 4 (ioDieOf p) ⟨5, 3, p.val, 0x0710, []⟩
  | .noPeer => s.modBu fun b => { b with linkWaits := b.linkWaits ++ [p] }

/-- Stage 5 ends once no port waits for its far end. -/
def State.endStage5 (s : State) : State :=
  if s.bu.failed ∨ s.bu.linkWaits ≠ [] then s else s.stageDone 5 s.bu.fullUnits.length

/-- STAGE_5_TRAINING. -/
def doStage5 (hs : List (StackIx × TrainRes)) (ps : List (PortIx × TrainRes × List Nat)) (s : State) : State :=
  if !s.stageOpen 5 || s.bu.linkWaits ≠ [] then s
  else if !s.fetchOk 6 then s.fetchFail 6
  else
    let s1 := (s.setNat HRT_BU_TRAIN 0).each hs fun s x => s.trainStack x.1 x.2
    (s1.each ps fun s x => s.trainPort x.1 x.2.1 x.2.2).endStage5

/-- LINK_WAIT_EXPIRY: the port is left down and its warden retries. -/
def doLinkWaitExpiry (p : PortIx) (s : State) : State :=
  if s.stageOpen 5 && s.bu.linkWaits.contains p then
    (((s.modBu fun b => { b with linkWaits := b.linkWaits.erase p }).modPort p fun x => { x with noPeer := true }).emit ⟨0, 3, p.val, 0x0711, []⟩).endStage5
  else s

/-! ### Stages 6 to 8 -/

/-- STAGE_6_PAYLOAD: the payloads are fetched and checked, the tile firmware enters the copy region, the known answers are written and the broadcast
starts; then the decisions of the repair. The same repair serves the broadcast of a reset. -/
def doStage6 (ph : Stage6Phase) (s : State) : State :=
  match ph with
  | .fetch kernels version =>
    if !s.stageOpen 6 || s.bu.cast.isSome then s
    else if !s.fetchOk 3 then s.fetchFail 3
    else if !s.fetchOk 4 then s.fetchFail 4
    else (((s.modBu fun b => { b with kernels := kernels, fwCopy := s.payload 3 }).setNat HRT_ANVIL_IMAGE
        (version % 65536 * 2 ^ 16 + kernels.toNat)).writeKnown).startCast s.bu.good none
  | .repair => match s.bu.cast with
    | none => s
    | some c =>
      if (c.reset.isNone && !s.stageOpen 6) || s.castPaused c then s
      else
        let x := s.repairStep c
        if x.2 && c.reset.isNone && !x.1.bu.failed then x.1.stageDone 6 x.1.defects else x.1

/-- Stage 7 concludes (R315); its count is the ports that agree. -/
def State.endStage7 (s : State) : State :=
  let agreeing := (s.tensorPorts.filter fun p => (s.port p).out == .agree).length
  (s.modBu fun b => { b with wiringWait := false }).stageDone 7 agreeing

/-- The comparison at stage 7. -/
def State.judgeTopo (s : State) : State :=
  let s1 := s.compareWiring.1
  if !s1.wiringGoverns then (s1.modBu fun b => { b with topo := 3, topoOk := true }).endStage7
  else if s1.cmp.table.isNone then s1.modBu fun b => { b with wiringWait := true }
  else if s1.wiringAgrees then s1.topoAgreed.endStage7
  else (s1.topoDisagree s1.badPorts).endStage7

/-- STAGE_7_TOPOLOGY: under REQUIRED without a table it waits for one. -/
def doStage7 (s : State) : State := if s.stageOpen 7 then s.judgeTopo else s

/-- WIRING_WAIT_EXPIRY. -/
def doWiringWaitExpiry (s : State) : State :=
  if s.stageOpen 7 && s.bu.wiringWait then
    (((s.modBu fun b => { b with topo := 0, topoOk := false }).emit ⟨4, 0, 0, 0x0715, []⟩)).endStage7
  else s

/-- One tile's kernels at stage 8, up to the first failure (R280). -/
def State.startKernels (s : State) (t : TileIx) : List KernelRes → Nat → State
  | [], passed => s.setNat (tileReg t TWD_ANVIL_STATUS) passed
  | r :: l, passed =>
    let b := 2 ^ r.kernel.val
    let s1 := s.bump (tileReg t TWD_ANVIL_RUNS)
    if r.skipped then (s.emit ⟨0, 1, t.val, 0x060C, skipData r⟩).startKernels t l passed
    else if r.invalid || r.aborted then s1.startKernels t l passed
    else if KernelRes.ok r then s1.startKernels t l (passed ||| b)
    else (((s1.bump HRT_ANVIL_FAILS).setNat (tileReg t TWD_ANVIL_STATUS) (b * 2 ^ 12 + passed)).emit ⟨1, 1, t.val, 0x060B, failData r⟩).makeDefect t 4

/-- STAGE_8_ANVIL. -/
def doStage8 (rs : List (TileIx × List KernelRes)) (s : State) : State :=
  if !s.stageOpen 8 then s
  else
    let s1 := s.each rs fun s x => if s.bu.good.contains x.1 then s.startKernels x.1 x.2 0 else s
    s1.stageDone 8 s1.defects

/-! ### Stage 9: numbering (R193) and READY (R303) -/

/-- Spares that each compute die gives up (R193 item 4): its share, at most its good tiles; a shortfall passes on. -/
def spareShares (g l : Nat) (cnt : List Nat) : List Nat :=
  let n := g - l
  let want := (List.range 8).map fun k => n / 8 + if k < n % 8 then 1 else 0
  let give := (List.range 8).map fun k => min (want.getD k 0) (cnt.getD k 0)
  (List.range 8).foldl (fun gv k =>
    let short := want.getD k 0 - cnt.getD k 0
    let x := (List.range 7).foldl (fun (a : List Nat × Nat) i =>
      let j := (k + 1 + i) % 8
      let take := min a.2 (cnt.getD j 0 - a.1.getD j 0)
      (a.1.set j (a.1.getD j 0 + take), a.2 - take)) (gv, short)
    x.1) give

/-- Numbering without a record. -/
def freshMap (l : Nat) (good : List TileIx) : Tab TileIx :=
  let of := fun k => good.filter fun t => dieOfTile t == k
  let give := spareShares good.length l ((List.range 8).map fun k => (of k).length)
  let rest := (List.range 8).flatMap fun k => (of k).take ((of k).length - give.getD k 0)
  (rest.zipIdx.map fun (e : TileIx × Nat) => (e.2, e.1)).take l

/-- A record is valid: numbers in range, no tile twice. -/
def State.recordOk (s : State) (m : Tab TileIx) : Bool :=
  m.all (fun e => decide (e.1 < s.logicals)) && decide ((m.map Prod.snd).Nodup)

/-- Place the logical numbers of a record (items 1 to 3). -/
def State.placeRecord (s : State) (m : Tab TileIx) : State :=
  let keep := m.filter fun e => (s.fpOf e.2).st == .spare
  let s1 := s.each keep fun s e => s.moveLogical (Fin.ofNat 128 e.1) e.2
  let s2 := s1.each (m.filter fun e => (s.fpOf e.2).st != .spare) fun s e =>
    match s.chooseSpare none (dieOfTile e.2) with
    | some u => s.moveLogical (Fin.ofNat 128 e.1) u
    | none => s
  s2.each ((List.range s.logicals).filter fun l => (tget? m l).isNone) fun s l =>
    match s.chooseSpare none (l * 8 / s.logicals) with
    | some u => s.moveLogical (Fin.ofNat 128 l) u
    | none => s

/-- The tiles are numbered: one change of the floor plan, and the record is rewritten. -/
def State.numberTiles (s : State) : State :=
  let src := if s.bu.chipPass then some s.plan.map else (s.plan.recorded.get.map Prod.fst)
  let s1 := s.each s.bu.good fun s t => (s.modFp t fun f => { f with st := .spare, reason := 0 }).setRole t .idle
  let s2 := s1.modPlan fun p => { p with map := [] }
  let s3 := match src.filter s.recordOk with
    | some m => s2.placeRecord m
    | none => s2.each (freshMap s.logicals s.bu.good) fun s e => s.moveLogical (Fin.ofNat 128 e.1) e.2
  s3.epochUp.rewriteRecord

/-- Service filters of the ports reserved from the torus (R460, R461). -/
def State.serviceFilters (s : State) : State :=
  s.each ((List.finRange 48).filter fun p => (s.roleOf p).reserved && (s.roleOf p).role == .tensor) fun s p =>
    { s with slices := tput s.slices (p.val * 16) ⟨0xFFFE, true, true, s.farCoords p⟩ }

/-- Functions whose default is ON, or which are locked, start (R430, R431). -/
def State.startFns (s : State) : State :=
  s.each (List.range 5) fun s f => if f ≠ 1 ∨ (s.reg HRT_FN_LOCK).getLsbD f then s.setFn f .starting else s

/-- Form of the command tag by partition (R390): TAG where the partition has 2 or 4 compute dies. -/
def State.fixTagForms (s : State) : State :=
  let form := fun (p : PartIx) => let n := ((List.range 8).filter fun d => s.partOfDie d == p).length
    decide (n = 2 ∨ n = 4)
  s.setNat OBS_TAG_FORM (((List.finRange 4).filter form).map fun p => 2 ^ p.val).sum

/-- STAGE_9_READY. -/
def doStage9 (s : State) : State :=
  if !s.stageOpen 9 then s
  else if !s.countOk then s.countShort
  else
    let s1 := s.numberTiles.startFns.serviceFilters.fixTagForms
    let s2 := s1.modEsc fun e => { e with reset := none }
    let s3 := { s2 with test := { s2.test with rotStart := s.time.tb, rowStart := (List.range s.stackCount).map fun n => (n, s.time.tb) } }
    let s4 := s3.setPkg (if s3.bu.excluded = [] ∧ s3.bu.topoOk then .ready else .readyLocal)
    let s5 := if s4.onTrial && s4.dir.trial == 2 && s4.dir.autoConfirm then
        (s4.writeDir fun d => { d with active := s4.bu.slot.getD d.active, trial := 0 }) else s4
    ((s5.stageDone 9 0).endPass).modBu fun b => { b with complete := true, trainPending := b.fullUnits != [], trainRetries := 0 }

/-- The training record with the units trained in full written anew (R309). -/
def State.trainRecord (s : State) : TrainRec :=
  let old := s.nor.train.get.filter fun x => x.serial == s.fused.serial && x.revision == s.trainRevision
  let base := old.getD ⟨s.fused.serial, s.trainRevision, [], []⟩
  s.bu.fullUnits.foldl (fun x u =>
    if u.1 = 2 then { x with hbm := tput x.hbm u.2 s.opTime }
    else { x with links := tput x.links u.2 (s.opTime, (s.port (Fin.ofNat 48 u.2)).floors) }) base

/-- TRAINING_RECORD_DONE: written, or failed and retried up to eight times, as the sparing record is (R309). -/
def doTrainingRecordDone (ok : Bool) (s : State) : State :=
  if !s.bu.trainPending || s.recd.pfLock || 8 < s.bu.trainRetries then s
  else if ok then { s with nor := { s.nor with train := s.nor.train.put s.trainRecord } }.modBu fun b => { b with trainPending := false, fullUnits := [] }
  else (s.modBu fun b => { b with trainRetries := b.trainRetries + 1 }).emit ⟨1, 0, 0, 0x040C, []⟩

/-! ### Meanings -/

def execStandbyPowerGood (i : Stage0In) (s : State) : Res := done (doStandbyPowerGood i s)
def execStandbyPowerLoss (s : State) : Res := done s.powerOff
def execStage1Authentication (s : State) : Res := done (doStage1 s)
def execStage2HearthBoot (s : State) : Res := done (doStage2 s)
def execMainInputGood (failedAgents : List AgentIx) (s : State) : Res := done (doMainInputGood failedAgents s)
def execMainPowerTimeout (s : State) : Res := done (doMainPowerTimeout s)
def execCensusAgentTimeout (a : AgentIx) (s : State) : Res := done (doCensusAgentTimeout a s)
def execStage3DomainPower (s : State) : Res := done (doStage3 s)
def execDomainPowerGood (d : DomainIx) (r : DomainRes) (s : State) : Res := done (doDomainPowerGood d r s)
def execAlignGridPoint (late : List DomainIx) (s : State) : Res := done (doAlignGridPoint late s)
def execStage4Bist (i : Stage4In) (s : State) : Res := done (doStage4 i s)
def execBistInvalidRetry (r : Retry) (s : State) : Res := done (doBistInvalidRetry r s)
def execStage5Training (stackRes : List (StackIx × TrainRes)) (portRes : List (PortIx × TrainRes × List Nat)) (s : State) : Res :=
  done (doStage5 stackRes portRes s)
def execLinkWaitExpiry (p : PortIx) (s : State) : Res := done (doLinkWaitExpiry p s)
def execStage6Payload (ph : Stage6Phase) (s : State) : Res := done (doStage6 ph s)
def execFwChunkReceive (t : TileIx) (c : FwChunk) (s : State) : Res := done (doFwChunkReceive t c s)
def execStage7Topology (s : State) : Res := done (doStage7 s)
def execWiringWaitExpiry (s : State) : Res := done (doWiringWaitExpiry s)
def execStage8Anvil (rs : List (TileIx × List KernelRes)) (s : State) : Res := done (doStage8 rs s)
def execStage9Ready (s : State) : Res := done (doStage9 s)
def execTrainingRecordDone (ok : Bool) (s : State) : Res := done (doTrainingRecordDone ok s)

end Sys2Proof.Machine
end

