-- ==== Sys2Proof/Machine/Txn.lean ====
section
/-! DEFINITION. The five Colea functions (R430 to R432) and configuration transactions (R433 to R442, R459). -/
namespace Sys2Proof.Machine

/-! ### Colea functions -/

/-- HRT_FN_STATE of a function. -/
def State.fnWord (s : State) (f : Nat) : Word := BitVec.ofNat 32 ((s.fn f).gen * 2 ^ 16 + fnStateNum (s.fn f).st)

/-- What entering STOPPING does at once: watches end ABANDONED, queued scrub requests are abandoned (R174, R396). -/
def State.stopWork (s : State) (f : Nat) : State :=
  if f = 2 then s.each ((s.obs.watches.filter fun e => e.2.st == 1 || e.2.st == 2).map fun e => e.1) fun s k => s.endWatch k 7
  else if f = 4 then s.abandonScrubs false
  else s

/-- FN_ENABLE of R431 by a world. -/
def State.fnGo (s : State) (f : Nat) (w : World) : State :=
  let set := fun (st : FnState) => s.modFn f fun x => { x with st := st, world := w }
  match (s.fn f).st with
  | .off => set .starting
  | .stopping => set .pendingOn
  | _ => s

/-- FN_DISABLE of R431. -/
def State.fnHalt (s : State) (f : Nat) : State :=
  match (s.fn f).st with
  | .starting => (s.setFn f .stopping).stopWork f
  | .on => (s.setFn f .stopping).stopWork f
  | .pendingOn => s.setFn f .stopping
  | _ => s

/-- FN_ENABLE: not while SAFE (R420); answered with the state and generation. -/
def serveFnEnable (f : FnIx) (p : Pend) (s : State) : State :=
  s.serveAs p true none fun s =>
    if s.bu.pkg = .safe then s.fail p .notReady
    else
      let s1 := s.fnGo f.val p.world
      s1.ok p [s1.fnWord f.val]

/-- FN_DISABLE: a locked function obeys the secure world only (R432). -/
def serveFnDisable (f : FnIx) (p : Pend) (s : State) : State :=
  s.serveAs p true none fun s =>
    if (s.reg HRT_FN_LOCK).getLsbD f.val && p.world == .nonSecure then s.refuseDenied p .deniedWorld
    else
      let s1 := s.fnHalt f.val
      s1.ok p [s1.fnWord f.val]

/-- A partition's trace region lies in one region of user-data class, purpose general, owned by the world that enabled the function
(R383). -/
def State.traceRegionOk (s : State) (p : Nat) : Bool :=
  let base := s.reg64 (itemKey OBS_TRACE_BASE_LO p) (itemKey OBS_TRACE_BASE_HI p)
  let size := s.fld (itemKey OBS_TRACE_SIZE p) 14 0 * 2 ^ 20
  s.regions.any fun e => decide (e.2.base * 2 ^ 20 ≤ base ∧ base + size ≤ (e.2.base + e.2.length) * 2 ^ 20) && !e.2.control &&
    e.2.purpose == .general && e.2.owner == (s.fn 1).world

def State.clearTrace (s : State) : State := { s with obs := { s.obs with writers := [], regions := [] } }

/-- Trace begins anew: no writer has a block, no region is claimed, and the blocks are counted since ON (R386, R404). -/
def State.startTrace (s : State) : State :=
  s.each (List.range 4) (fun s p => s.setReg (itemKey OBS_TRACE_BLOCKS p) 0) |>.clearTrace

/-- FN_START_COMPLETE: ON with a new generation, or OFF. Trace checks its regions. -/
def doFnStartComplete (f : FnIx) (ok : Bool) (s : State) : State :=
  if (s.fn f.val).st ≠ .starting then s
  else if f.val = 1 then
    let bad := (List.range 4).filter fun p => s.traced p && !s.traceRegionOk p
    let s1 := s.each bad fun s p => s.emit ⟨0, 0, p, 0x0A03, [i4 p]⟩
    if ok && bad = [] then (s1.startTrace).setFn 1 .on else s1.setFn 1 .off
  else if f.val = 0 ∧ ok then (s.setFn 0 .on).seekWaiting
  else s.setFn f.val (if ok then .on else .off)

/-- A writer still has records that wait under STOP (R403). -/
def State.traceHeld (s : State) : Bool := s.obs.writers.any fun e => e.2.blk.isSome && e.2.buf != [] && s.writerHeld (e.1 % 256)

/-- FN_STOP_COMPLETE: OFF, and from PENDING_ON at once STARTING. -/
def doFnStopComplete (f : FnIx) (s : State) : State :=
  let was := (s.fn f.val).st
  if was ≠ .stopping ∧ was ≠ .pendingOn then s
  else if (f.val = 3 ∧ s.test.bist.isSome) ∨ (f.val = 1 ∧ s.traceHeld) then s
  else
    let s1 := if f.val = 1 then s.closeTrace else s
    let s2 := s1.setFn f.val .off
    if was = .pendingOn then s2.setFn f.val .starting else s2

/-! ### Staging (R434 to R436) -/

/-- TXN_BEGIN. -/
def serveTxnBegin (p : Pend) (s : State) : State :=
  s.serveAs p true none fun s =>
    let w := p.world
    if (s.txn w).isOpen then s.fail p .busy
    else
      let n := ((s.txn w).ident + 1) % 65536
      (s.modTxn w fun x => { x with isOpen := true, ident := n, items := [], openedAt := s.time.tb, excluded := 0, commit := none }).ok p
        [BitVec.ofNat 32 n]

def sameReg (a b : TxnItem) : Bool :=
  match a, b with
  | .reg o i _, .reg o2 i2 _ => o == o2 && i == i2
  | _, _ => false

/-- Stage an item: a second write to the same register and selector value replaces the first; false when the bank of 256 is full. -/
def State.stage (s : State) (w : World) (it : TxnItem) : State × Bool :=
  let l := (s.txn w).items
  if l.any (sameReg it) then (s.modTxn w fun x => { x with items := x.items.map fun y => if sameReg it y then it else y }, true)
  else if l.length < 256 then (s.modTxn w fun x => { x with items := x.items ++ [it] }, true)
  else (s, false)

/-- TXN_ITEM: all kinds belong to the secure world; not while a commit runs. -/
def serveItem (it : TxnItem) (good : Bool) (p : Pend) (s : State) : State :=
  s.serveAs p true none fun s =>
    if p.world = .nonSecure then s.refuseDenied p .deniedWorld
    else if !(s.txn .secure).isOpen then s.fail p .notOpen
    else if !good then s.fail p .badOperand
    else if (s.txn .secure).commit.isSome then s.fail p .busy
    else
      let x := s.stage .secure it
      if x.2 then x.1.ok p [] else s.fail p .txnFull

/-- Range of a region entry (R301): within 2^24 MiB, an Anvil region of at least 72 MiB. -/
def regionGood (e : Option RegionEntry) : Bool :=
  match e with
  | some r => decide (1 ≤ r.length ∧ r.length < 2 ^ 24) && (r.purpose != .anvil || decide (72 ≤ r.length))
  | none => true

/-! ### Validation (R437, R441, R459) -/

/-- The defined, writable bits of a register, as a staged value leaves them. -/
def State.stagedValue (s : State) (off sel : Nat) (v : Word) : Word :=
  match rowAt off with
  | some x =>
    let m := x.1.mask &&& ~~~ x.1.fixed
    (s.reg (itemKey off sel) &&& ~~~ m) ||| (v &&& m)
  | none => v

/-- Apply one item that is no sparing request. -/
def State.putItem (s : State) : TxnItem → State
  | .reg off sel v => s.setReg (itemKey off sel) (s.stagedValue off sel v)
  | .region ix e => { s with regions := match e with
      | some r => tput s.regions ix.val r
      | none => tdel s.regions ix.val }
  | .role p r => { s with roles := tput s.roles p.val r }
  | .route ix r => { s with routes := match r with
      | some x => tput s.routes ix.val x
      | none => tdel s.routes ix.val }
  | .slice p ix e => { s with slices := match e with
      | some x => tput s.slices (p.val * 16 + ix.val) x
      | none => tdel s.slices (p.val * 16 + ix.val) }
  | .sparing .. => s

def clampTo (lo hi v : Nat) : Nat := min hi (max lo v)

/-- Values in force that a new secure limit leaves outside it, each with its register and the nearest value (R441). -/
def State.moves (s : State) : List (Nat × Word) :=
  let rmin := s.fld HRT_SHD_LIMITS 3 0
  let rmax := s.fld HRT_SHD_LIMITS 11 8
  let base := clampTo rmin rmax (s.fld HRT_SHD_POLICY 3 0)
  let hi := clampTo rmin base (s.fld HRT_SHD_POLICY 7 4)
  let g := s.fld HRT_THM_GRACE_MAX 12 0
  let pol := BitVec.ofNat 32 (withField (withField (s.reg HRT_SHD_POLICY).toNat 3 0 base) 7 4 hi)
  let grace := fun (r : Nat) => (r, BitVec.ofNat 32 (withField (s.reg r).toNat 12 0 (min g (s.fld r 12 0))))
  ([(HRT_SHD_POLICY, pol), grace HRT_THM_GRACE, grace HRT_PWR_GRACE]).filter fun e => s.reg e.1 != e.2

def stages (l : List TxnItem) (key : Nat) : Option Nat :=
  l.findIdx? fun it => match it with
    | .reg o i _ => itemKey o i == key
    | _ => false

/-- A region in use (R437): under trace that is not OFF, holding a full snapshot or spilled entries, or under a registered handle. -/
def State.regionInUse (s : State) (e : RegionEntry) : Bool :=
  let within := fun (b n : Nat) => decide (e.base * 2 ^ 20 ≤ b ∧ b + n ≤ (e.base + e.length) * 2 ^ 20)
  ((s.fn 1).st != .off && (List.range 4).any fun p => s.traced p &&
    within (s.reg64 (itemKey OBS_TRACE_BASE_LO p) (itemKey OBS_TRACE_BASE_HI p)) (s.fld (itemKey OBS_TRACE_SIZE p) 14 0 * 2 ^ 20)) ||
  (e.purpose == .snapshot && s.esc.snaps.any fun x => x.st == 2) ||
  (s.esc.spills.any fun x => e.purpose == .spill x.part) ||
  s.ofd.handles.any fun h => within h.2.d.region.base h.2.d.region.length

/-- A tag has a tx entry on a port. -/
def State.hasTx (s : State) (p : PortIx) (tag : BitVec 16) : Bool := (s.slicesOf p).any fun e => e.tx && e.tag == tag

def State.routePortOk (s : State) (tag : BitVec 16) (p : PortIx) : Bool :=
  (s.roleOf p).role == .tensor && !(s.roleOf p).reserved && s.hasTx p tag

/-- A job tag is admitted while a slice-filter entry names it (R461). -/
def State.admitted (s : State) (tag : BitVec 16) : Bool := s.slices.any fun e => e.2.tag == tag

/-- The state in which a sparing request applies (R197). -/
def State.spareOk (s : State) (r : SpareReq) (t : TileIx) : Bool :=
  let f := s.fpOf t
  match r with
  | .fence => f.st == .good || f.st == .spare
  | .ret => f.st == .fenced && !f.retired
  | .retire => f.st == .fenced && !f.retired
  | .unretire => f.retired

/-- One item that is no register passes: `s` in force, `n` with the bank applied. -/
def State.itemOk (s n : State) : TxnItem → Bool
  | .reg .. => true
  | .region ix e => match tget? s.regions ix.val with
      | some r => some r == e || !s.regionInUse r
      | none => true
  | .role .. => true
  | .route _ r => match r with
      | some x => n.routePortOk x.tag x.primary && x.alternate.all fun q => n.routePortOk x.tag q
      | none => true
  | .slice p _ e => match e with
      | some x => isJobTag x.tag && !(n.roleOf p).reserved && (s.port p).far.isSome && s.farCoords p == x.coords &&
          (s.bu.pkg == .ready || s.admitted x.tag)
      | none => true
  | .sparing r t => s.spareOk r t

/-- A key set named by a registered handle does not change (R160). -/
def State.keyLocked (s n : State) (set : Nat) : Bool :=
  s.ofd.handles.any (fun h => h.2.d.keySet.val == set) && (List.range 2).any fun j => s.ofdKey set j != n.ofdKey set j

def keyNames (set : Nat) : List Nat :=
  (List.range 2).flatMap fun j => [itemKey HRT_OFD_KEY_LO (set * 2 + j), itemKey HRT_OFD_KEY_HI (set * 2 + j)]

/-- The first failing item of a bank. -/
def State.firstFail (s : State) (w : World) : Option Nat :=
  let l := (s.txn w).items
  let n := l.foldl State.putItem s
  let moved := if w = .secure then n.moves.filter fun e => (stages l e.1).isNone else []
  let m := moved.foldl (fun s e => s.setReg e.1 e.2) n
  let rels := m.relations ++ (List.range 4).map fun k => (!s.keyLocked m k, keyNames k)
  let regFails := (rels.filter fun r => !r.1).filterMap fun r => r.2.findSome? (stages l)
  let others := (l.zipIdx.filter fun (e : TxnItem × Nat) => !s.itemOk m e.1).map fun e => e.2
  minBy id (regFails ++ others)

/-! ### Commit (R438 to R442) -/

def TxnItem.kind : TxnItem → Nat
  | .reg off _ _ => off % 65536
  | .region .. => 1
  | .role .. => 2
  | .route .. => 3
  | .slice .. => 4
  | .sparing .. => 5

/-- An item needs a quiesce (R436). -/
def TxnItem.quiesces : TxnItem → Bool
  | .reg off _ _ => off == HRT_WORLD_MAP
  | _ => true

/-- The quiesce scope (R438). -/
def State.txnScope (s : State) (l : List TxnItem) : BitVec 4 :=
  if l ≠ [] ∧ l.all (fun i => i.kind == 5) then
    l.foldl (fun m i => match i with
      | .sparing _ t => m ||| BitVec.ofNat 4 (2 ^ (s.partOfTile t).val)
      | _ => m) 0
  else 0xF

/-- A sparing request at its commit (R197). -/
def State.applySparing (s : State) (r : SpareReq) (t : TileIx) : State :=
  match r with
  | .fence => s.fenceNow t 7 (some ⟨3, 1, t.val, 0x0401, []⟩)
  | .ret => s.requestAnvil t .ret allKernels
  | .retire => (s.emit ⟨3, 1, t.val, 0x0407, []⟩).retireTile t
  | .unretire => ((s.modFp t fun f => { f with retired := false }).epochUp).rewriteRecord

/-- A lock committed on a function that is not on its way ON acts as FN_ENABLE (R432). -/
def State.lockGo (s : State) (was : Word) : State :=
  if s.bu.pkg = .safe then s
  else s.each ((List.range 5).filter fun f => (s.reg HRT_FN_LOCK).getLsbD f && !was.getLsbD f) fun s f => s.fnGo f .secure

def failReg (w : World) : Nat := if w = .secure then TXN_S_FAIL else TXN_NS_FAIL

/-- What TXN_CFG_STATUS shows (R439, R445): a bank is being applied. -/
def State.applying (s : State) : Bool := (s.txn .secure).applying || (s.txn .nonSecure).applying

/-- The apply begins: the bit is set. -/
def State.beginApply (s : State) (w : World) : State := s.modTxn w fun x => { x with applying := true }

/-- The apply goes through from the bank (R439): every item, the moves of R441, the epoch, and the bit is clear; an identity update on each port
whose filters changed (R448). -/
def State.finishApply (s : State) (w : World) : State :=
  let l := (s.txn w).items
  let lock := s.reg HRT_FN_LOCK
  let s1 := (l.foldl State.putItem s).modTxn w fun x => { x with isOpen := false, items := [], commit := none, applying := false }
  let s2 := s1.each (if w = .secure then s1.moves else []) fun s e =>
    (s.setReg e.1 e.2).emit ⟨0, 0, 0, 0x0B04, [i4 e.1]⟩
  let s3 := s2.each l fun s i => match i with
    | .sparing r t => s.applySparing r t
    | _ => s
  let s4 := (((if s3.ofd.known = [] then s3 else s3.writeKnown).lockGo lock).setReg TXN_CFG_EPOCH (s3.reg TXN_CFG_EPOCH + 1)).bump TXN_COMMITS
  let s5 := s4.emit ⟨0, 0, World.num w, 0x0B01, s4.txnData w 255⟩
  s5.each (s5.livePorts.filter fun p => l.any fun i => match i with
    | .slice q .. => q == p
    | _ => false) State.sendIdentity

/-- The apply is atomic: no command of another comes between its beginning and its end (R439). -/
def State.applyTxn (s : State) (w : World) : State := (s.beginApply w).finishApply w

/-- A restarted core finishes an apply that it finds begun, before anything else (R439). -/
def State.finishApplies (s : State) : State := s.each ([.secure, .nonSecure].filter fun w => (s.txn w).applying) State.finishApply

/-- A commit is refused; the transaction stays open, its time in the commit excluded. -/
def State.refuseTxn (s : State) (w : World) (k : Nat) : State :=
  let it := ((s.txn w).items[k]?.map TxnItem.kind).getD 0
  let s1 := ((s.setNat (failReg w) (23 * 2 ^ 24 + k % 256 * 2 ^ 16 + it)).bump TXN_REFUSED).modTxn w fun x => { x with commit := none }
  s1.emit ⟨0, 0, World.num w, 0x0B03, s1.txnData w k⟩

/-- Contexts that run. -/
def State.anyRunning (s : State) : Bool := (List.finRange 16).any fun c => (s.ctx c).used && !(s.ctx c).faulted

/-- TXN_COMMIT: validated at once; a bank that needs no stop is applied, any other waits for its cut. -/
def serveCommit (step : Bool) (p : Pend) (s : State) : State :=
  s.serveAs p true none fun s =>
    let w := p.world
    let x := s.txn w
    if !x.isOpen then s.fail p .notOpen
    else if x.commit.isSome then s.fail p .busy
    else
      let s0 := s.modTxn w fun x => { x with lastStep := step }
      match s0.firstFail w with
      | some k => (s0.refuseTxn w k).answer p .refused (codeOf 0 0 (World.num w) 0x0B03) [BitVec.ofNat 32 k]
      | none =>
        if !(step || x.items.any TxnItem.quiesces) || !s.anyRunning then
          let s1 := s0.applyTxn w
          s1.ok p [s1.reg TXN_CFG_EPOCH]
        else if s.esc.bstop.isSome then s0.fail p .busy
        else
          let s1 := s0.modTxn w fun x => { x with commit := some ⟨step, some p⟩, commitAt := s.time.tb }
          (s1.modEsc fun e => { e with bstop := some ⟨s.txnScope x.items, step, .txn w, false, false, []⟩ }).waitAnswer p

/-- The commit's requester is answered. -/
def State.answerCommit (s : State) (who : Option Pend) (st : Status) (data : List Word) : State :=
  match who with
  | some p => s.finish p st 0 data
  | none => s

/-- The commit ends without an apply: the time it took does not count against the timeout. -/
def State.endCommit (s : State) (w : World) : State :=
  s.modTxn w fun x => { x with commit := none, excluded := x.excluded + (s.time.tb - x.commitAt) }

/-- The cut of a commit is reached: validated again, applied, and the stop released (R438, R442). -/
def State.commitAtCut (s : State) (w : World) : State :=
  let who := (s.txn w).commit.bind Commit.who
  match s.firstFail w with
  | some k => (((s.endCommit w).refuseTxn w k).endBstop).answerCommit who .refused [BitVec.ofNat 32 k]
  | none =>
    let s1 := (s.applyTxn w).endBstop
    s1.answerCommit who .ok [s1.reg TXN_CFG_EPOCH]

/-- The stop of a commit times out: nothing is applied, and the stop is released. -/
def State.commitTimeout (s : State) (w : World) : State :=
  let who := (s.txn w).commit.bind Commit.who
  ((s.endCommit w).endBstop).answerCommit who .quiesceTimeout []

/-- TXN_ABORT; a commit that still waits for its cut is answered ABANDONED. -/
def serveTxnAbort (p : Pend) (s : State) : State :=
  s.serveAs p true none fun s =>
    let w := p.world
    let x := s.txn w
    if !x.isOpen then s.fail p .notOpen
    else
      let s1 := s.modTxn w fun x => { x with isOpen := false, items := [], commit := none }
      let s2 := match x.commit with
        | some c => s1.endBstop.answerCommit c.who .abandoned []
        | none => s1
      s2.ok p []

/-- TXN_TIMEOUT_EXPIRY: it waits for a running commit. -/
def doTxnTimeoutExpiry (w : World) (s : State) : State := if (s.txn w).commit.isSome then s else s.rollback w

/-! ### Meanings -/

def execTxnBegin (h : Hdr) (s : State) : Res := done (s.intake h 0x10 (.txnBegin h) serveTxnBegin)
def execTxnItemRegion (h : Hdr) (ix : Fin 64) (e : Option RegionEntry) (s : State) : Res :=
  done (s.intake h 0x11 (.txnItemRegion h ix e) (serveItem (.region ix e) (regionGood e)))
def execTxnItemPortRole (h : Hdr) (p : PortIx) (r : PortRole) (s : State) : Res :=
  done (s.intake h 0x11 (.txnItemPortRole h p r) (serveItem (.role p r) (decide (p.val < s.portCount))))
def execTxnItemRoute (h : Hdr) (ix : Fin 1024) (r : Option Route) (s : State) : Res :=
  done (s.intake h 0x11 (.txnItemRoute h ix r) (serveItem (.route ix r) true))
def execTxnItemSliceFilter (h : Hdr) (p : PortIx) (ix : Fin 16) (e : Option Slice) (s : State) : Res :=
  done (s.intake h 0x11 (.txnItemSliceFilter h p ix e) (serveItem (.slice p ix e) (decide (p.val < s.portCount))))
def execTxnItemSparing (h : Hdr) (r : SpareReq) (t : TileIx) (s : State) : Res :=
  done (s.intake h 0x11 (.txnItemSparing h r t) (serveItem (.sparing r t) true))
def execTxnCommitImmediate (h : Hdr) (s : State) : Res := done (s.intake h 0x12 (.txnCommitImmediate h) (serveCommit false))
def execTxnCommitStep (h : Hdr) (s : State) : Res := done (s.intake h 0x12 (.txnCommitStep h) (serveCommit true))
def execTxnAbort (h : Hdr) (s : State) : Res := done (s.intake h 0x13 (.txnAbort h) serveTxnAbort)
def execTxnTimeoutExpiry (w : World) (s : State) : Res := done (doTxnTimeoutExpiry w s)
def execFnEnable (h : Hdr) (f : FnIx) (s : State) : Res := done (s.intake h 0x20 (.fnEnable h f) (serveFnEnable f))
def execFnDisable (h : Hdr) (f : FnIx) (s : State) : Res := done (s.intake h 0x21 (.fnDisable h f) (serveFnDisable f))
def execFnStartComplete (f : FnIx) (ok : Bool) (s : State) : Res := done (doFnStartComplete f ok s)
def execFnStopComplete (f : FnIx) (s : State) : Res := done (doFnStopComplete f s)

end Sys2Proof.Machine
end

