-- ==== Sys2Proof/Machine/Removal.lean ====
section
/-! DEFINITION. Removal and insertion (R317 to R322), resets that come over the host link (R409, R516) and the operator's chip
reset (R338). -/
namespace Sys2Proof.Machine

/-- Record an event whose chapter sends it over CMP in addition to R361; a record is never announced twice. -/
def State.emitTell (s : State) (e : Event) : State :=
  let s1 := s.emit e
  if s.fld REC_NOTIFY 2 0 ≤ e.cls then s1
  else match (s1.recd.ring.map Prod.snd ++ s1.recd.hold.map Prod.fst).find? fun r => r.code == e.word && later r.seq s.recd.seq with
    | some r => s1.event (.record r)
    | none => s1

/-- Everything that main power held is gone: domains, units, contexts, wardens and their pages (R40, R43). -/
def State.clearMain (s : State) : State :=
  let s1 := s.resetWardenPages.freshAgents.setNat HRT_BIST_NEXT 0xFF00
  { s1 with
    time := { s1.time with alignAt := none }
    hl := { s1.hl with stop := s1.hl.trip, kill := s1.hl.kill ||| computeDomains, armed := 0, instants := [], thrt := 0 }
    pw := { s1.pw with domOn := 0, domGood := 0, locked := 0, gridOk := 0, pcieTrained := false, d3 := false, islands := 0 }
    tiles := [], ports := [], hbm := [], ctxs := [], shadow := {}, test := {}
    thm := { s1.thm.fresh with quenched := s1.thm.quenched }
    plan := { s1.plan with waiting := [], slots := [none, none], fencing := [] }
    ofd := { s1.ofd with handles := [], exhausted := [], latches := [], queue := [], running := none, known := [] }
    obs := { s1.obs with writers := [], watches := [] }
    routes := s1.routes.filter fun e => !isJobTag e.2.tag
    slices := s1.slices.filter fun e => !isJobTag e.2.tag
    esc := { s1.esc with reset := none, graph := [], spills := [], spilled := [], starved := [], bstop := none, domGen := [] } }

/-! ### Removal (R319) -/

/-- Step 4: a forced flush; where none can run, step 5 follows at once. -/
def State.removalFlush (s : State) : State := ((s.askFlush .forced).modBu fun b => { b with removal := .flushing }).removalNotices

/-- Bring-up is still before stage 9. -/
def State.bringingUp (s : State) : Bool := s.bu.pkg == .safe && !s.bu.complete

/-- A stage of a power-on pass is under way: the census, domain power, repeats of stage 4, link waits of stage 5, the broadcast, the
wiring wait. -/
def State.stageBusy (s : State) : Bool :=
  !s.bu.failed && s.esc.reset.isNone &&
    match s.bu.stage with
    | 2 => s.pw.mainGood
    | 3 => s.pw.domOn != 0
    | 4 => s.bu.retries != []
    | 5 => s.bu.linkWaits != []
    | 6 => s.bu.cast.isSome
    | 7 => s.bu.wiringWait
    | _ => false

/-- A removal request: `via` 0 ATTN_N, 1 CMP. It waits for the host driver; before stage 9 it ends bring-up at the boundary of the stage under
way and goes on to step 3, as it does at once when a reset stands (R320, R322). A Quench in progress goes first. -/
def State.startRemoval (s : State) (via : Nat) : State :=
  let s1 := ((s.endFreeze.emitTell ⟨0, 6, via, 0x0718, []⟩).irq 8).modBu fun b => { b with removal := .notice }
  if s1.thm.quenching then s1.modBu fun b => { b with removal := .stopping }
  else if s1.bringingUp && s1.stageBusy then s1.endPass.modBu fun b => { b with removal := .boundary }
  else if s1.bringingUp then s1.endPass.removalStop
  else if s1.esc.reset.isSome then s1.removalStop
  else s1

/-- OK_TO_REMOVE is released and bring-up restarts at stage 2 with the image already selected (R320). -/
def State.restartMain (s : State) : State :=
  ((s.clearStages 2).modPw fun p => { p with okToRemove := false, readyForMain := false, mainGood := false }).modBu fun b => { b with
    removal := .none, stage := 2, failed := false, failCode := 0, chipPass := false, excluded := [], topoOk := false, topo := 0, wiringWait := false
    mainTimedOut := false, complete := false, passStart := s.time.tb }

/-- A removal request by a path: ignored during a removal and under TRAY_PC_N (R322, R515); ATTN_N releases OK_TO_REMOVE (R320). -/
def State.removalRequest (s : State) (via : Nat) : State :=
  if !s.pw.standby || s.pw.trayPc || s.sq.run == .halted then s
  else match s.bu.removal with
  | .none => s.startRemoval via
  | .removable => if via = 0 then s.restartMain else s
  | _ => s

/-- ATTN_N_REQUEST; during a Hearth core restart it is served afterwards (R29). -/
def doAttnRequest (s0 : State) : State :=
  let s := s0.modPw fun p => { p with attnLow := true }
  if s.sq.run = .restarting then s.modSq fun q => { q with waiting := q.waiting ++ [.attnRequest] }
  else s.removalRequest 0

/-- HOST_NOTICE_WAIT_EXPIRY. -/
def doHostNoticeWaitExpiry (s : State) : State := if s.bu.removal = .notice then s.removalStop else s

/-- REMOVE_ACK ends the host notice wait; without one running it is not permitted. -/
def serveRemoveAck (p : Pend) (s : State) : State :=
  s.serveAs p true none fun s => if s.bu.removal = .notice then (s.ok p []).removalStop else s.fail p .notReady

/-- REMOVAL_POWER_DOWN_DONE (R319 steps 6 and 7). -/
def doRemovalPowerDownDone (s : State) : State :=
  if s.bu.removal ≠ .powerDown ∨ s.hl.tripLatch then s
  else
    let s1 := (s.setPkg .safe).clearMain
    let s2 := (s1.modPw fun p => { p with readyForMain := false, okToRemove := true }).modBu fun b => { b with removal := .removable }
    s2.emit ⟨0, 0, 0, 0x0719, []⟩

/-- MAIN_PATH_REMOVED: main power is gone; a removal that TRIP met then shows OK_TO_REMOVE (R322). -/
def doMainPathRemoved (s : State) : State :=
  let s1 := (s.setPkg .safe).clearMain.modPw fun p => { p with mainGood := false }
  if s1.hl.tripLatch ∧ s1.bu.removal ≠ .none then
    (s1.modPw fun p => { p with okToRemove := true }).modBu fun b => { b with removal := .removable }
  else s1

/-! ### Resets from the host link and the operator -/

/-- HOST_FULL_RESET (R409, R515, R516): PERST_N counts once the link has trained in this pass; while a power-fail warning stands the
reset is recorded and absorbed. It is never held. -/
def doHostFullReset (perst : Bool) (s : State) : State :=
  if perst && !s.pw.pcieTrained then s.modPw fun p => { p with perstSeen := true }
  else
    let e : Event := ⟨5, 6, if perst then 1 else 0, 0x0B07, s.resetData 0xF⟩
    let s1 := (s.modPw fun p => { p with perstSeen := p.perstSeen || perst }).emit e
    if s1.pw.pfWarn || s1.recd.pfLock then s1 else s1.trigger .chip 0xF e.word false

/-- PCIE_LINK_TRAINED (R516). -/
def doPcieLinkTrained (s : State) : State :=
  if s.pw.domOn.getLsbD 40 then s.modPw fun p => { p with pcieTrained := true } else s

/-- PM_STATE_CHANGE (R410): on return to D0 the latched messages go out. -/
def doPmStateChange (d3 : Bool) (s : State) : State :=
  if d3 then s.modPw fun p => { p with d3 := true }
  else
    let v := s.msix.d3Held &&& s.causes
    { s with
      pw := { s.pw with d3 := false }
      msix := { s.msix with d3Held := 0, pba := s.msix.pba ||| (v &&& s.vecMask) }
      out := ((vectorsIn (v &&& ~~~ s.vecMask)).map .msix) ++ s.out }

/-! ### Meanings -/

def execAttnRequest (s : State) : Res := done (doAttnRequest s)
def execHostNoticeWaitExpiry (s : State) : Res := done (doHostNoticeWaitExpiry s)
def execRemoveAck (h : Hdr) (s : State) : Res := done (s.intake h 0x31 (.removeAck h) serveRemoveAck)
def execRemovalPowerDownDone (s : State) : Res := done (doRemovalPowerDownDone s)
def execMainPathRemoved (s : State) : Res := done (doMainPathRemoved s)
def execHostFullReset (perst : Bool) (s : State) : Res := done (doHostFullReset perst s)
def execPcieLinkTrained (s : State) : Res := done (doPcieLinkTrained s)
def execPmStateChange (d3 : Bool) (s : State) : Res := done (doPmStateChange d3 s)

end Sys2Proof.Machine
end

