-- ==== Sys2Proof/Machine/Sequencer.lean ====
section
/-! DEFINITION. The sequencer's watchdog over the Hearth core (R28 to R30), the loss of REFCLK (R27), the core heartbeat (R491), and
what the JTAG instructions act as (R523). -/
namespace Sys2Proof.Machine

/-- A second expiry within 60 s, the bound included, of the expiry that started the previous restart (R8, R30). -/
def State.secondExpiry (s : State) : Bool :=
  match s.sq.prevExpiry with
  | some t => decide (s.time.tb ≤ t + 60 * 10 ^ 9)
  | none => false

/-- The core is not restarted again: STOP and then KILL, a flush, SAFE (R30). `cause` 0 digest mismatch, 1 second expiry. -/
def State.halt (s : State) (cause : Nat) : State :=
  let s1 := (s.modSq fun q => { q with run := .halted, haltSecond := decide (cause = 1) }).emitSq ⟨5, 0, cause, 0x0002, []⟩
  ((((s1.assertStop s1.stopReach).assertKill computeDomains).askFlush .forced).setPkg .safe).endPass

/-- The core restarts alone; every hard line keeps its state. Its CMP sessions end (R28, R469). -/
def State.restart (s : State) : State :=
  let s1 := (s.modSq fun q => { q with
    run := .restarting, restarts := satAdd 16 q.restarts 1, prevExpiry := some s.time.tb, lastRestart := some s.time.tb }).emitSq
      ⟨1, 0, 0, 0x0001, [i4 s.sq.wdogMs, i4 (satAdd 16 s.sq.restarts 1)]⟩
  { s1 with cmp := { s1.cmp with sessions := [none, none, none, none] } }

/-- CORE_WATCHDOG_EXPIRY; `digestOk` says whether the image in core SRAM still has its digest. -/
def doCoreWatchdogExpiry (digestOk : Bool) (s : State) : State :=
  if s.sq.run ≠ .running then s
  else if s.secondExpiry then s.halt 1
  else if !digestOk then s.halt 0
  else s.restart

/-- The heartbeat counts while the core runs; the watchdog period set takes effect with it (R28, R491). -/
def State.beat (s : State) : State :=
  if s.sq.run = .running then s.modSq fun q => { q with lastBeat := s.time.tb, wdogMs := s.fld HRT_SQ_WDOG 7 0 } else s

/-- REFCLK_LOSS: the time base stands still, a stage 3 under way fails (R288), and the loss is reported over I3C and over CMP; R471 has no event kind of its own for it, so it
goes out as the package state (DESIGN CHOICE, assumption log 65). -/
def doRefclkLoss (s : State) : State :=
  if s.time.refclk then
    let s1 := ({ s with time := { s.time with refclk := false, losses := satAdd 16 s.time.losses 1 } }.ibi 3 0).event (.state s.bu.pkg s.bu.stage)
    if s1.stageOpen 3 && s1.pw.domOn != 0 then s1.stageFail ⟨5, 0, 0, 0x070C, []⟩ else s1
  else s

/-- REFCLK_RETURN. -/
def doRefclkReturn (s : State) : State := { s with time := { s.time with refclk := true } }

/-! ### The test access port (R523) -/

/-- Instructions of the TAP, as R523 tells them apart. -/
inductive TapInstr | idcode | bypass | boundaryScan | test
deriving DecidableEq, Repr

/-- What a TAP instruction acts as: boundary scan and test act only while the package is SAFE with every compute region under KILL, and are BYPASS
otherwise (assumption log 85). No TAP activity is a command: it moves no hard line, message or record. -/
def State.tapActs (s : State) : TapInstr → TapInstr
  | .idcode => .idcode
  | .bypass => .bypass
  | i => if s.bu.pkg = .safe ∧ computeDomains &&& ~~~ s.hl.kill = 0 then i else .bypass

def execCoreWatchdogExpiry (digestOk : Bool) (s : State) : Res := done (doCoreWatchdogExpiry digestOk s)
def execRefclkLoss (s : State) : Res := done (doRefclkLoss s)
def execRefclkReturn (s : State) : Res := done (doRefclkReturn s)

end Sys2Proof.Machine
end

