-- ==== Sys2Proof/Machine/Thermal.lean ====
section
/-! DEFINITION. Thermal and power watch (R326 to R345): sensors, levels, the Temper loop, Quench, TRIP, PMBus, input power, the
power-fail warning; and the boundary stops' cut and timeout (R256), which end a quench's and a removal's stop too. Temperatures are in
quarters of a degree. -/
namespace Sys2Proof.Machine

/-! ### Sensors and units (R326, R327, R330) -/

/-- Sensor numbers: tiles, hot spots, I/O dies, anchor, stacks. -/
def sensorNum : Sensor → Nat
  | .tile t => t.val
  | .hotspot cd k => 144 + cd.val * 4 + k.val
  | .io d k => 176 + d.val * 2 + k.val
  | .anchor k => 208 + k.val
  | .stack n => 210 + n.val

def unitNum : ThermalUnit → Nat
  | .region g => g.val
  | .stack n => 16 + n.val
  | .io d => 40 + d.val
  | .anchor => 56

/-- The thermal unit a sensor belongs to. -/
def unitOfSensor : Sensor → ThermalUnit
  | .tile t => .region (Fin.ofNat 16 (regionOfTile t))
  | .hotspot cd k => .region (Fin.ofNat 16 (2 * cd.val + k.val / 2))
  | .io d _ => .io d
  | .anchor _ => .anchor
  | .stack n => .stack n

/-- Sensors of a unit. -/
def sensorsOf : ThermalUnit → List Nat
  | .region g => ((List.range 9).map fun i => g.val / 2 * 18 + g.val % 2 * 9 + i) ++
      [144 + g.val / 2 * 4 + g.val % 2 * 2, 144 + g.val / 2 * 4 + g.val % 2 * 2 + 1]
  | .stack n => [210 + n.val]
  | .io d => [176 + d.val * 2, 176 + d.val * 2 + 1]
  | .anchor => [208, 209]

/-- The grade has the sensor. -/
def State.sensorExists (s : State) : Sensor → Bool
  | .stack n => decide (n.val < s.stackCount)
  | .io d _ => decide (d.val < s.ioDies)
  | _ => true

/-- The grade has the unit. -/
def State.unitExists (s : State) : ThermalUnit → Bool
  | .stack n => decide (n.val < s.stackCount)
  | .io d => decide (d.val < s.ioDies)
  | _ => true

/-- Classes of R330. -/
def classOf : ThermalUnit → Nat
  | .region _ => 0
  | .stack _ => 1
  | .io _ => 2
  | .anchor => 3

/-- Unit type and index in records (R349): the die warden, or the stack warden. -/
def State.thermalUnit (s : State) : ThermalUnit → Nat × Nat
  | .region g => (4, g.val / 2)
  | .stack n => (2, n.val)
  | .io d => (4, 8 + d.val)
  | .anchor => (4, s.anchor.val)

/-- The die of a thermal unit. -/
def State.thermalDie (s : State) : ThermalUnit → DieIx
  | .region g => dieIx (g.val / 2)
  | .stack n => dieIx (n.val / s.perDie)
  | .io d => dieIx (8 + d.val)
  | .anchor => s.anchor

/-- Thresholds in force of a unit's class. -/
def State.limit (s : State) (u : ThermalUnit) (hi lo : Nat) : Int := 4 * (s.fld (itemKey HRT_THM_LIMITS (classOf u)) hi lo : Nat)
def State.advise (s : State) (u : ThermalUnit) : Int := s.limit u 7 0
def State.request (s : State) (u : ThermalUnit) : Int := s.limit u 15 8
def State.quenchAt (s : State) (u : ThermalUnit) : Int := s.limit u 23 16
def State.tripAt (s : State) (u : ThermalUnit) : Int := s.limit u 31 24

def State.modThm (s : State) (f : Thermal → Thermal) : State := { s with thm := f s.thm }
def State.levelOf (s : State) (u : ThermalUnit) : ThermalLevel := tget s.thm.levels (unitNum u) {}
def State.setLevel (s : State) (u : ThermalUnit) (x : ThermalLevel) : State :=
  s.modThm fun m => { m with levels := tput m.levels (unitNum u) x }
def State.setRegion (s : State) (g : Nat) (x : Temper) : State := s.modThm fun m => { m with regions := tput m.regions g x }

/-- A reading as a register holds it: signed, 16 bits. -/
def tempBits (t : Int) : Nat := (t % 65536).toNat

/-- Every sensor of the unit has failed. -/
def State.blind (s : State) (u : ThermalUnit) : Bool := (sensorsOf u).all s.thm.failed.contains

/-- The highest reading of the unit's working sensors. -/
def State.unitTemp (s : State) (u : ThermalUnit) : Option Int :=
  ((sensorsOf u).filter fun k => !s.thm.failed.contains k).foldl (fun b k =>
    match b, tget? s.thm.temps k with
    | none, t => t
    | b, none => b
    | some x, some y => some (max x y)) none

def insertInt (x : Int) : List Int → List Int
  | [] => [x]
  | y :: r => if x ≤ y then x :: y :: r else y :: insertInt x r

/-- Twice the median. -/
def median2 (l : List Int) : Int :=
  let m := l.foldl (fun a x => insertInt x a) []
  m.getD ((m.length - 1) / 2) 0 + m.getD (m.length / 2) 0

/-- A reading marks its sensor failed (R329): outside -40 to 150 degrees, or more than 20 degrees from the median of the others. -/
def State.sensorBad (s : State) (x : Sensor) (t : Int) : Bool :=
  let others := ((sensorsOf (unitOfSensor x)).filter fun k => k != sensorNum x && !s.thm.failed.contains k).filterMap fun k => tget? s.thm.temps k
  decide (t < -160) || decide (600 < t) || (others != [] && decide (160 < (2 * t - median2 others).natAbs))

/-- Register and warden of a sensor's last reading (R347, R348). -/
def State.sensorReg (s : State) : Sensor → Nat
  | .tile t => tileReg t TWD_TEMP
  | .hotspot cd k => dieReg (dieIx cd.val) (DWD_SNS + 4 * k.val)
  | .io d k => dieReg (dieIx (8 + d.val)) (DWD_SNS + 4 * k.val)
  | .anchor k => dieReg s.anchor (DWD_SNS + 4 * k.val)
  | .stack n => stackReg n SWD_TEMP

def State.sensorUnit (s : State) : Sensor → Nat × Nat
  | .tile t => (1, t.val)
  | x => s.thermalUnit (unitOfSensor x)

/-! ### Records (R349) -/

/-- Ratios in force of a die: west, east; 16 on dies without regions. -/
def State.dieRatios (s : State) (d : DieIx) : Nat × Nat :=
  if d.val < 8 then ((s.region (2 * d.val)).ratio, (s.region (2 * d.val + 1)).ratio) else (16, 16)

/-- An event of a thermal unit (R349): temperature, threshold, and the ratios in force of its die, west and east (DESIGN CHOICE, assumption log 88). -/
def State.thermalEvent (s : State) (cls code : Nat) (u : ThermalUnit) (t thr : Int) : Event :=
  let x := s.thermalUnit u
  let r := s.dieRatios (s.thermalDie u)
  ⟨cls, x.1, x.2, code, [i2 (tempBits t), i2 (tempBits thr), i4 r.1, i4 r.2]⟩

/-- Data of the power records (R349): the power, its limit, what `more` adds, and the ratios of the regions in their order, as far as three records
hold them (R352; assumption log 88). -/
def State.powerItems (s : State) (w : Nat) (more : List (List Byte)) : List (List Byte) :=
  [i2 w, i2 (s.fld HRT_PWR_LIMIT 11 0)] ++ more ++ (List.range 16).map fun g => i4 (s.region g).ratio

def State.powerData (s : State) (w : Nat) : List (List Byte) := s.powerItems w []

/-! ### Readings and regions -/

/-- A reading enters the last readings. -/
def State.putReading (s : State) (x : Sensor) (t : Int) : State := s.modThm fun m => { m with temps := tput m.temps (sensorNum x) t }

/-- A reading is shown with its verdict `bad`; SENSOR_FAULT once per sensor. -/
def State.judgeReading (s : State) (x : Sensor) (t : Int) (bad : Bool) : State :=
  let was := s.thm.failed.contains (sensorNum x)
  let s1 := s.setNat (s.sensorReg x) (bit bad 31 + tempBits t)
  if bad && !was then
    let u := s.sensorUnit x
    ((s1.modThm fun m => { m with failed := sensorNum x :: m.failed }).bumpFld HRT_THM_COUNTS 7 0).emit
      ⟨1, u.1, u.2, 0x0807, (s.thermalEvent 1 0x0807 (unitOfSensor x) t (s.request (unitOfSensor x))).items⟩
  else s1

/-- THRT follows the ratio in force (R334). -/
def State.setThrt (s : State) (g : Nat) : State :=
  let b : BitVec 41 := BitVec.ofNat 41 (2 ^ g)
  s.modHl fun h => { h with thrt := if (s.region g).ratio < 16 then h.thrt ||| b else h.thrt &&& ~~~ b }

/-- Regions that a unit's ENFORCE acts on (R330). -/
def State.enforces (s : State) : ThermalUnit → List Nat
  | .region g => [g.val]
  | .stack n => [2 * (n.val / s.perDie), 2 * (n.val / s.perDie) + 1]
  | _ => []

/-- The floor and raise interval of the Temper loop. -/
def State.floorRatio (s : State) : Nat := s.fld HRT_THM_TEMPER 19 16
def State.raiseEvery (s : State) : Nat := s.fld HRT_THM_TEMPER 9 0

/-- ENFORCE starts for a unit: the first step down, or the floor where no sensor works (R329, R333). A unit whose regions it drives already
stands in ENFORCE. -/
def State.enforce (s : State) (u : ThermalUnit) : State :=
  let gs := s.enforces u
  let stands := gs.all fun g => (s.region g).enforced && (s.region g).drivers.contains (unitNum u)
  if stands && !s.blind u then s
  else
    let s1 := s.each gs fun s g =>
      let x := s.region g
      (s.setRegion g { x with
        enforced := true, sinceRaise := 0
        drivers := if x.drivers.contains (unitNum u) then x.drivers else unitNum u :: x.drivers
        thermal := if s.blind u then s.floorRatio else max s.floorRatio (x.thermal - 1) }).setThrt g
    let t := (s1.unitTemp u).getD 0
    if stands then s1 else ((s1.bumpFld HRT_THM_COUNTS 31 16).irq 3).emit (s1.thermalEvent 0 0x0803 u t (s1.request u - 12))

/-- The grace of a unit ends with its reading still high: ENFORCE, for the classes that have it (R332). -/
def State.graceOver (s : State) (u : ThermalUnit) : State :=
  (s.setLevel u { s.levelOf u with grace := false, expired := true }).enforce u

/-- REQUEST is reached: recorded, asked of host and controller, the grace starts; a grace of 0 enforces at once. -/
def State.reachRequest (s : State) (u : ThermalUnit) (t : Int) : State :=
  let s1 := s.setLevel u { s.levelOf u with request := true, grace := true, expired := false }
  let s2 := (s1.emitTell (s1.thermalEvent 0 0x0802 u t (s1.request u))).irq 3
  if s2.fld HRT_THM_GRACE 12 0 = 0 then s2.graceOver u else s2

/-! ### Quench (R336 to R338) -/

/-- Steps 1 and 2 of Quench: `data` is of its record. What runs is abandoned and every context is killed. -/
def State.quenchBegin (s : State) (ut ix : Nat) (data : List (List Byte)) : State :=
  let cs := (List.finRange 16).filter fun c => (s.ctx c).used && !(s.ctx c).faulted
  let e : Event := ⟨6, ut, ix, 0x0805, data⟩
  let s1 := (((s.endFreeze.emit e).askFlush .forced).irq 3).bumpFld HRT_THM_COUNTS 15 8
  let s2 := (((s1.endPass.modBu fun b => { b with cast := none }).modEsc fun x => { x with reset := none }).abandonQuiesce.dropCommands).fnForceOff
  let s3 := (s2.endTests (List.finRange 144)).abandonSnaps
  let s4 := s3.sendNotices s3.livePorts 5 s3.esc.gen s3.partGens cs
  let s5 := (s4.failJobs cs 0 e.word 5 0xFFFFFFFF).each cs fun s c => s.sendKill c none
  let removing := s5.bu.removal == .notice || s5.bu.removal == .boundary
  let s6 := if removing then s5.modBu fun b => { b with removal := .stopping } else s5
  s6.modThm fun m => { m with quenching := true }

/-- No Quench starts while one runs or has left its SAFE state, or under TRIP. -/
def State.quenchBarred (s : State) : Bool := s.thm.quenching || s.thm.quenched || s.hl.tripLatch

/-- Steps 1 to 3 of Quench: the package goes for its boundary. -/
def State.startQuench (s : State) (ut ix : Nat) (data : List (List Byte)) : State :=
  if s.quenchBarred then s
  else (s.quenchBegin ut ix data).modEsc fun x => { x with bstop := some ⟨0xF, false, .quench, false, false, []⟩ }

/-- Steps 4 and 5: KILL, and the compute, memory and link domains lose power; a removal goes on from its step 4 (R322). -/
def State.quenchDown (s : State) : State :=
  let s1 := ((s.assertKill computeDomains).setPkg .safe).modThm fun m => { m with quenching := false, quenched := true, powerGrace := false, powerOn := false }
  let s2 := { s1 with
    pw := { s1.pw with domOn := s1.pw.domOn &&& domMask [40], domGood := s1.pw.domGood &&& domMask [40]
                       locked := s1.pw.locked &&& domMask [40], gridOk := s1.pw.gridOk &&& domMask [40] }
    esc := { s1.esc with bstop := none }
    ports := s1.ports.map fun (p : Nat × Port) => (p.1, { p.2 with up := false, gone := true }) }
  if s2.bu.removal = .stopping then s2.removalFlush else s2

/-- A QUENCH reading: the die's flag is set; during a core restart the sequencer asserts STOP and the rest follows it (R345). -/
def State.quenchReading (s : State) (u : ThermalUnit) (t : Int) : State :=
  let s1 := s.setNat (dieReg (s.thermalDie u) DWD_QUENCH) 1
  let x := s.thermalUnit u
  if s1.sq.run = .running then s1.startQuench x.1 x.2 (s1.thermalEvent 6 0x0805 u t (s1.quenchAt u)).items
  else (s1.assertStop computeDomains).modThm fun m => { m with quenchWait := m.quenchWait <|> some (u, t) }

/-! ### Levels (R332) -/

/-- One unit's levels after a round. -/
def State.judgeUnit (s : State) (u : ThermalUnit) : State :=
  let x := s.levelOf u
  if s.blind u then
    if x.request && x.expired then s.enforce u
    else
      let s1 := s.setLevel u { x with advise := true, request := true, grace := false, expired := true }
      ((s1.emitTell (s1.thermalEvent 0 0x0802 u 0 (s1.request u))).irq 3).enforce u
  else match s.unitTemp u with
  | none => s
  | some t =>
    let s1 :=
      if !x.advise && decide (s.advise u ≤ t) then
        let y := s.setLevel u { x with advise := true }
        y.emitTell (y.thermalEvent 0 0x0801 u t (y.advise u))
      else if x.advise && decide (t < s.advise u - 12) then s.setLevel u { x with advise := false }
      else s
    let y := s1.levelOf u
    let s2 :=
      if !y.request && decide (s1.request u ≤ t) then s1.reachRequest u t
      else if y.request && decide (t < s1.request u - 12) then s1.setLevel u { y with request := false, grace := false, expired := false }
      else s1
    if s2.quenchAt u ≤ t then s2.quenchReading u t else s2

/-- A unit's levels while the Hearth core does not run: only a QUENCH reading acts (R345). -/
def State.watchUnit (s : State) (u : ThermalUnit) : State :=
  if s.sq.run = .running then s.judgeUnit u
  else match s.unitTemp u with
    | some t => if s.quenchAt u ≤ t then s.quenchReading u t else s
    | none => s

def dedupUnits (l : List ThermalUnit) : List ThermalUnit := l.foldl (fun a u => if a.contains u then a else a ++ [u]) []

/-- A round's readings (R328): all are taken, then judged, each against the others of its unit that had not failed before the round (R329), then the
units' levels follow. -/
def State.takeReadings (s : State) (rs : List (Sensor × Int)) : State :=
  let l := rs.filter fun r => s.sensorExists r.1
  let s1 := s.each l fun s r => s.putReading r.1 r.2
  let s2 := s1.each l fun s r => s.judgeReading r.1 r.2 (s1.thm.failed.contains (sensorNum r.1) || s1.sensorBad r.1 r.2)
  s2.each (dedupUnits (l.map fun r => unitOfSensor r.1)) State.watchUnit

/-- A die held out of sliced BIST, with its stacks, rejoins the rotation once both samples of a round are inside the window of R261 (R262). -/
def State.rejoinDie (s : State) (d : DieSample) : State :=
  if s.fld HRT_BIST_DIE_HOLD d.die.val d.die.val = 1 ∧ supplyOk (10 * d.supply) ∧ clockOk d.clock then
    (s.setFld HRT_BIST_DIE_HOLD d.die.val d.die.val 0).modTest fun x => { x with
      envRuns := x.envRuns.filter fun e => (if e.1 < 32 then e.1 else (s.stackAgent (Fin.ofNat 24 (e.1 - 32))).die.val) != d.die.val }
  else s

/-- SENSOR_ROUND, with the supply, clock and droop samples of the dies. -/
def doSensorRound (rs : List (Sensor × Int)) (ds : List DieSample) (s : State) : State :=
  let s1 := s.each (ds.filter fun d => s.dieExists d.die) fun s d =>
    ((s.setNat (dieReg d.die DWD_SUPPLY) (d.supply % 65536 * 2 ^ 16 + d.clock % 65536)).bump (dieReg d.die DWD_DROOP) d.droops).rejoinDie d
  s1.takeReadings rs

/-- THERMAL_GRACE_EXPIRY. -/
def doThermalGraceExpiry (u : ThermalUnit) (s : State) : State :=
  if (s.levelOf u).grace && s.sq.run == .running then s.graceOver u else s

/-! ### PMBus channels (R341) -/

def State.channel (s : State) (c : Nat) : Channel := tget s.thm.channels c {}
def State.setChannel (s : State) (c : Nat) (x : Channel) : State := s.modThm fun m => { m with channels := tput m.channels c x }
def State.pmbPresent (s : State) (c : Nat) : Bool := (s.reg (itemKey HRT_PMB_MAP c)).getLsbD 31

/-- The input-power channel answers: kind 0, present, not skipped. -/
def State.inputChannel (s : State) : Option Nat :=
  (List.range 32).find? fun c => s.pmbPresent c && s.fld (itemKey HRT_PMB_MAP c) 19 16 == 0 && !(s.channel c).skipped

/-! ### The Temper loop (R333, R342) -/

def unitAt (k : Nat) : ThermalUnit :=
  if k < 16 then .region (Fin.ofNat 16 k) else if k < 40 then .stack (Fin.ofNat 24 (k - 16))
  else if k < 56 then .io (Fin.ofNat 16 (k - 40)) else .anchor

/-- One step of a ratio: down while hot, up once per raise interval while cool, else it holds. -/
def stepRatio (floor every : Nat) (hot cool : Bool) (r since : Nat) : Nat × Nat :=
  if hot then (max floor (r - 1), 0)
  else if cool then (if every ≤ since + 10 then (min 16 (r + 1), 0) else (r, since + 10))
  else (r, since)

/-- TEMPER_TICK: the region's own temperature drives its ratio, and that of every stack that enforces it. While the input channel does not answer the power limit is not enforced: the power ratio climbs (R342, DEDUCED, assumption
log 87). -/
def doTemperTick (g : Fin 16) (s : State) : State :=
  let x := s.region g.val
  if !x.enforced || s.sq.run != .running then s
  else
    let us := .region g :: (x.drivers.filter fun k => k != g.val).map unitAt
    let hot := us.any fun u => s.blind u || (match s.unitTemp u with
      | some t => decide (s.request u - 12 ≤ t)
      | none => false)
    let cool := us.all fun u => !s.blind u && (match s.unitTemp u with
      | some t => decide (t < s.request u - 24)
      | none => true)
    let lim := s.fld HRT_PWR_LIMIT 11 0
    let seen := s.inputChannel.isSome
    let a := stepRatio s.floorRatio s.raiseEvery hot cool x.thermal x.sinceRaise
    let b := if s.thm.powerOn then
        stepRatio s.floorRatio s.raiseEvery (seen && decide (95 * lim ≤ 100 * s.thm.power)) (!seen || decide (100 * s.thm.power < 90 * lim)) x.power x.sincePower
      else (x.power, x.sincePower)
    let full := a.1 == 16 && b.1 == 16
    let y := { x with thermal := a.1, sinceRaise := a.2, power := b.1, sincePower := b.2, enforced := !full, drivers := if full then [] else x.drivers }
    let s1 := (s.setRegion g.val y).setThrt g.val
    let s2 := s1.modThm fun m => { m with powerOn := m.powerOn && (List.range 16).any fun k => (s1.region k).power != 16 }
    if full then s2.emit (s2.thermalEvent 0 0x0804 (.region g) ((s2.unitTemp (.region g)).getD 0) (s2.request (.region g) - 24)) else s2

/-! ### TRIP (R339, R340) -/

/-- TRIP: latched on every domain with TRAY_PC_N, READY_FOR_MAIN released, a freeze ended first (DESIGN CHOICE, assumption log 109), THERMAL_TRIP recorded and flushed by the
sequencer; everything else is abandoned (R345). The sensor that crossed is named by its number among all sensors (DESIGN CHOICE, assumption log 110). -/
def State.trip (s : State) (x : Sensor) (t : Int) : State :=
  if s.hl.tripLatch then s
  else
    let u := unitOfSensor x
    let sensor := sensorNum x
    let s0 := s.latchStops (s.allDomains &&& ~~~ (s.hl.stop ||| s.hl.trip))
    let s1 := { s0 with
      hl := { s0.hl with trip := s.allDomains, tripLatch := true }
      pw := { s.pw with trayPc := true, readyForMain := false }
      esc := { s.esc with reset := none, bstop := none }
      thm := { s.thm with quenching := false, confirming := [] } }
    let s2 := s1.setNat (dieReg (s1.thermalDie u) DWD_TRIP) (2 ^ 31 + sensor % 256 * 2 ^ 16 + s1.fld (dieReg (s1.thermalDie u) DWD_TRIP) 15 0)
    let s3 := ((s2.endFreeze.emitSq (s2.thermalEvent 6 0x0806 u t (s2.tripAt u))).powerFlush).ibi 4 0
    (s3.endTests (List.finRange 144)).endPass.setPkg .safe

/-- TRIP_ASSERT: a die sensor has stood at or above TRIP for 100 µs. -/
def doTripAssert (x : Sensor) (t : Int) (s : State) : State :=
  if s.pw.standby && s.sensorExists x && decide (s.tripAt (unitOfSensor x) ≤ t) then s.trip x t else s

/-- STACK_TRIP_SAMPLE. -/
def doStackTripSample (n : StackIx) (t : Int) (s : State) : State :=
  if decide (n.val < s.stackCount) && decide (s.tripAt (.stack n) ≤ t) && !s.thm.confirming.contains n then
    s.modThm fun m => { m with confirming := n :: m.confirming }
  else s

/-- STACK_TRIP_CONFIRM: the trip request, or the end of the episode. -/
def doStackTripConfirm (n : StackIx) (t : Int) (s : State) : State :=
  if !s.thm.confirming.contains n then s
  else
    let s1 := s.modThm fun m => { m with confirming := m.confirming.erase n }
    if s1.tripAt (.stack n) ≤ t then s1.trip (.stack n) t else s1

/-! ### PMBus and input power (R341, R342) -/

/-- One channel of a round: a new fault bit is recorded once; the third round without an answer is recorded and the channel skipped. -/
def State.pmbRead (s : State) (r : PmbRead) : State :=
  let c := r.channel.val
  let x := s.channel c
  if !s.pmbPresent c then s
  else if r.answers && r.pecGood then
    let old := ((x.last.map PmbRead.statusWord).getD 0)
    let new := r.statusWord &&& ~~~ old
    let s1 := s.setChannel c ⟨0, false, some r⟩
    s1.each ((List.range 16).filter fun b => new.getLsbD b) fun s b => s.emit ⟨1, 6, c, 0x080B, [i4 r.statusWord.toNat, i4 b] ++ s.powerData s.thm.power⟩
  else
    let s1 := s.setChannel c { x with missed := min 3 (x.missed + 1), skipped := x.skipped || decide (3 ≤ x.missed + 1) }
    if x.skipped || !decide (3 ≤ x.missed + 1) then s1 else s1.emit ⟨0, 6, c, 0x080C, s1.powerData s1.thm.power⟩

/-- PMBUS_ROUND: READ_PIN of the input channel is one sample of the next average where that channel has answered in the round. -/
def doPmbusRound (rs : List PmbRead) (s : State) : State :=
  if s.sq.run ≠ .running then s
  else
    let s1 := s.each rs State.pmbRead
    match s1.inputChannel.bind fun c => rs.find? fun r => r.channel.val == c && r.answers && r.pecGood with
    | some r => s1.modThm fun m => { m with pins := r.pin :: m.pins }
    | none => s1

/-- The power grace is over, its last average `w` (R342). -/
def State.powerGraceOver (s : State) (w : Nat) : State :=
  let s0 := s.modThm fun m => { m with powerGrace := false }
  if s0.inputChannel.isSome && decide (s0.fld HRT_PWR_LIMIT 11 0 * 95 < w * 100) then
    let s1 := (s0.modThm fun m => { m with powerOn := true }).emit ⟨0, 6, 0, 0x0809, s0.powerData w⟩ |>.irq 4
    s1.each (List.range 16) fun s g =>
      let x := s.region g
      (s.setRegion g { x with enforced := true, sincePower := 0, power := max s.floorRatio (x.power - 1) }).setThrt g
  else s0

/-- The mean of samples; nothing where there are none. -/
def meanOf (l : List Nat) : Option Nat := if l = [] then none else some (l.sum / l.length)

/-- POWER_AVERAGE: the average of the samples of the last 10 ms; without an answering input channel the limit is not enforced. -/
def doPowerAverage (s : State) : State :=
  match s.inputChannel, (meanOf s.thm.pins).filter fun _ => s.sq.run == .running with
  | none, _ => s
  | _, none => s
  | some c, some w =>
    let v := (((s.channel c).last.map PmbRead.vin).getD 0) / 10
    let s1 := (s.modThm fun m => { m with power := w, pins := [] }).setNat HRT_PWR_INPUT (v % 65536 * 2 ^ 16 + min 65535 w)
    if s1.fld HRT_PWR_LIMIT 11 0 < w && !s1.thm.powerGrace && !s1.thm.powerOn then
      let s2 := (s1.modThm fun m => { m with powerGrace := true }).emit ⟨0, 6, 0, 0x0808, s1.powerData w⟩ |>.irq 4
      if s2.fld HRT_PWR_GRACE 12 0 = 0 then s2.powerGraceOver w else s2
    else s1

/-- POWER_GRACE_EXPIRY. -/
def doPowerGraceExpiry (s : State) : State :=
  if s.thm.powerGrace && s.sq.run == .running then s.powerGraceOver s.thm.power else s

/-- POWER_FLOOR_EXPIRY: every region at the floor and the power still above the limit, so Quench starts, its cause POWER_LIMIT_ENFORCE in its record. -/
def doPowerFloorExpiry (s : State) : State :=
  let lim := s.fld HRT_PWR_LIMIT 11 0
  if s.sq.run == .running && s.thm.powerOn && s.inputChannel.isSome && decide (lim < s.thm.power) && (List.range 16).all fun g => decide ((s.region g).ratio ≤ s.floorRatio) then
    s.startQuench 6 0 (s.powerItems s.thm.power [iw (codeOf 0 6 0 0x0809)])
  else s

/-! ### Power fail (R343) -/

/-- POWER_FAIL_WARN: a freeze ends first (DESIGN CHOICE, assumption log 109); STOP on the compute regions, the record, the sequencer's flush, the notices; the package is SAFE under KILL. -/
def doPowerFailWarn (s : State) : State :=
  if !s.pw.mainGood || s.pw.pfWarn then s
  else
    let s0 := ((s.modPw fun p => { p with pfWarn := true }).modThm fun m => { m with pfSince := s.time.tb }).bumpFld HRT_PF_STATUS 15 0
    let s1 := (s0.assertStop computeDomains).endFreeze.emitSq ⟨6, 6, 0, 0x080A, s.powerData s.thm.power⟩
    let s2 := s1.powerFlush.endPass
    let s3 := s2.sendNotices s2.livePorts 6 s2.esc.gen s2.partGens s2.jobCtxs
    (s3.setPkg .safe).assertKill computeDomains

/-! ### Cut and timeout of a boundary stop (R256) -/

/-- BOUNDARY_CUT_REACHED: the mesh holds no traffic of the scope any more; every tile of it must stand at its boundary. -/
def doBoundaryCutReached (s : State) : State :=
  match s.esc.bstop with
  | none => s
  | some b =>
    if b.held || b.timedOut || (s.stopTiles b).any fun t => !s.stands b t then s
    else match b.who with
    | .host _ => s.holdCut b
    | .txn w => (s.holdCut b).commitAtCut w
    | .removal => (s.holdCut b).removalFlush
    | .quench => (s.holdCut b).quenchDown

/-- BSTOP_TIMEOUT. -/
def doBstopTimeout (s : State) : State :=
  match s.esc.bstop with
  | none => s
  | some b =>
    if b.held || b.timedOut then s
    else match b.who with
    | .host _ => s.timeOutCut b
    | .txn w => (s.timeOutCut b).commitTimeout w
    | .removal => (s.timeOutCut b).removalFlush
    | .quench => (s.timeOutCut b).quenchDown

/-! ### The operator's chip reset (R238, R338) -/

/-- A working sensor reads above its REQUEST threshold less 10 degrees. -/
def State.tooHot (s : State) : Bool :=
  s.thm.temps.any fun e => !s.thm.failed.contains e.1 && decide (s.request (
    if e.1 < 144 then .region (Fin.ofNat 16 (regionOfTile (tileIx e.1)))
    else if e.1 < 176 then .region (Fin.ofNat 16 ((e.1 - 144) / 2))
    else if e.1 < 208 then .io (Fin.ofNat 16 ((e.1 - 176) / 2))
    else if e.1 < 210 then .anchor else .stack (Fin.ofNat 24 (e.1 - 210))) - 40 < e.2)

/-- RESET_REQUEST at chip level: answered OK and performed; TOO_HOT after Quench; NOT_READY without main power, under TRIP, or while
a Quench or a removal runs. -/
def serveResetChip (p : Pend) (s : State) : State :=
  s.serveAs p true none fun s =>
    if !s.pw.mainGood || s.hl.tripLatch || s.thm.quenching || s.bu.removal != .none || (s.bu.failed && decide (s.bu.stage ≤ 2)) then s.fail p .notReady
    else if s.thm.quenched && s.tooHot then s.fail p .tooHot
    else (((s.ok p []).modThm fun m => { m with quenched := false }).modBu fun b => { b with failed := false }).trigger .chip 0xF 0 false

/-! ### Meanings -/

def execSensorRound (readings : List (Sensor × Int)) (dies : List DieSample) (s : State) : Res := done (doSensorRound readings dies s)
def execThermalGraceExpiry (u : ThermalUnit) (s : State) : Res := done (doThermalGraceExpiry u s)
def execTemperTick (g : Fin 16) (s : State) : Res := done (doTemperTick g s)
def execTripAssert (x : Sensor) (temp : Int) (s : State) : Res := done (doTripAssert x temp s)
def execStackTripSample (n : StackIx) (temp : Int) (s : State) : Res := done (doStackTripSample n temp s)
def execStackTripConfirm (n : StackIx) (temp : Int) (s : State) : Res := done (doStackTripConfirm n temp s)
def execPmbusRound (rs : List PmbRead) (s : State) : Res := done (doPmbusRound rs s)
def execPowerAverage (s : State) : Res := done (doPowerAverage s)
def execPowerGraceExpiry (s : State) : Res := done (doPowerGraceExpiry s)
def execPowerFloorExpiry (s : State) : Res := done (doPowerFloorExpiry s)
def execPowerFailWarn (s : State) : Res := done (doPowerFailWarn s)
def execBoundaryCutReached (s : State) : Res := done (doBoundaryCutReached s)
def execBstopTimeout (s : State) : Res := done (doBstopTimeout s)
def execResetRequestChip (h : Hdr) (s : State) : Res := done (s.intake h 0x32 (.resetRequestChip h) serveResetChip)

end Sys2Proof.Machine
end

