-- ==== Sys2Proof/Machine/Links.lean ====
section
/-! DEFINITION. Link wardens in service: frames and filters (R391, R392, R449, R454 to R457, R464), training, identity, loss and
retraining (R308, R321, R448, R451), alarms by reach class (R452, R453), and fence notices received (R254, R463). -/
namespace Sys2Proof.Machine

/-- A port that the grade has, whose link domain is powered. -/
def State.portLives (s : State) (p : PortIx) : Bool :=
  decide (p.val < s.portCount) && s.pw.domOn.getLsbD (linkDomain (ioDieOf p)) && !s.isExcluded 4 (ioDieOf p)

def State.isTensor (s : State) (p : PortIx) : Bool := (s.roleOf p).role == .tensor

/-! ### Frames -/

/-- LINK_SEND (0x40) or LINK_RECV (0x41) for every count that is a multiple of 2^m (R389, R392); of the far end's generations the one byte holds the
chip generation of its identity block (DESIGN CHOICE, assumption log 28). -/
def State.traceLink (s : State) (p : PortIx) (ty count : Nat) (f : Frame) : State :=
  if s.traceSrc 18 none && count % 2 ^ s.fld OBS_LINK_STAMP 3 0 == 0 then
    match (List.range 4).find? s.traced with
    | some q => s.traceRec q (linkWriter p) [word4 ty p.val count (count / 2 ^ 8), BitVec.ofNat 32 s.clock, BitVec.ofNat 32 count,
        BitVec.ofNat 32 (f.tag.toNat + (((s.port p).far.map Identity.chipGen).getD 0).toNat * 2 ^ 16)]
    | none => s
  else s

/-- SLICE_FOREIGN for the first foreign frame of each tag in each second (R455). -/
def State.foreignFrame (s : State) (p : PortIx) (tag : BitVec 16) : State :=
  let s1 := s.bump (linkReg p LWD_SLICE_DROP)
  let sec := s.time.tb / 10 ^ 9
  if tag = 0 ∨ tget? (s.port p).foreign tag.toNat = some sec then s1
  else (s1.modPort p fun x => { x with foreign := tput x.foreign tag.toNat sec }).emit
    ⟨0, 3, p.val, 0x0C04, s.portData p ++ [i4 tag.toNat]⟩

/-- A tag has an entry in force on a port that is open to it (R451, R455). -/
def State.filterOpen (s : State) (p : PortIx) (f : Slice → Bool) : Bool :=
  !(s.port p).out.closed && (s.slicesOf p).any fun e => f e && s.sliceLive p e

/-- LINK_FRAME_RECEIVE. -/
def doLinkFrameReceive (p : PortIx) (f : Frame) (s : State) : State :=
  if !(s.port p).up then s
  else if !s.isTensor p then s.emitOut (.delivered p f)
  else
    let n := ((s.reg (linkReg p LWD_MSG_RX)).toNat + 1) % 2 ^ 32
    let s1 := s.setNat (linkReg p LWD_MSG_RX) n
    let s2 := if f.stamp.toNat = n % 2 ^ 16 then s1 else s1.bump (linkReg p LWD_TS_MISMATCH)
    let s3 := s2.traceLink p 0x41 n f
    let stale := !(s.port p).gens.contains f.gen
    let s4 := if stale then s3.bump (linkReg p LWD_GEN_DROP) else s3
    if stale && (s.reg (linkReg p LWD_GEN_CTRL)).getLsbD 0 then s4
    else if f.tag = 0xFFFF then s4
    else if s4.filterOpen p fun e => e.rx && e.tag == f.tag then s4.emitOut (.delivered p f)
    else s4.foreignFrame p f.tag

/-- The routing table sends a job tag and destination through a port (R457). -/
def State.routed (s : State) (p : PortIx) (f : Frame) : Bool :=
  f.tag == 0xFFFE || s.routes.any fun r => r.2.tag == f.tag && r.2.dest.val == f.destPkg && (r.2.primary == p || r.2.alternate == some p)

/-- LINK_FRAME_SEND by a tile, with the generation of its compute domain (R218). A write to a gone far end is dropped and counted, and a read of
one, or through a link that is down, is answered with Slag by the requester's own link warden (R216, R464). -/
def doLinkFrameSend (p : PortIx) (t : TileIx) (f : Frame) (s : State) : State :=
  if (s.hl.stop ||| s.hl.trip).getLsbD (24 + p.val / 3) then s
  else if !s.isTensor p then (if (s.port p).up then s.emitOut (.sent p f) else s)
  else if !f.isWrite && ((s.port p).gone || !(s.port p).up) then s.remoteGone p false f.bytes
  else if (s.port p).gone then s.bump (linkReg p LWD_REMOTE_WRITE_DROP)
  else if (s.port p).up && s.filterOpen p (fun e => e.tx && e.tag == f.tag) && s.routed p f then
    let n := ((s.reg (linkReg p LWD_MSG_TX)).toNat + 1) % 2 ^ 32
    let g : Frame := { f with stamp := BitVec.ofNat 16 n, gen := tget s.esc.domGen (regionOfTile t) 0 }
    ((s.setNat (linkReg p LWD_MSG_TX) n).traceLink p 0x40 n g).emitOut (.sent p g)
  else
    let e : Event := ⟨2, 3, p.val, 0x0C05, s.portData p ++ [i4 f.tag.toNat]⟩
    ((s.bump (linkReg p LWD_EGRESS_DROP)).emit e).contextFault f.ctx e.word (s.ctx f.ctx).step 0

/-! ### Training, identity, loss -/

/-- A port has trained with its far end: at stage 5 it may have been waited for; in service it is one more retraining. -/
def State.portTrained (s : State) (p : PortIx) (floors : List Nat) : State :=
  if s.bu.linkWaits.contains p then
    (((s.modBu fun b => { b with linkWaits := b.linkWaits.erase p }).trained 3 p.val false 15 8).linkUp p floors).endStage5
  else ((s.linkUp p floors).bumpFld (linkReg p LWD_POLICY) 23 16).rewire false

/-- LINK_TRAINED. -/
def doLinkTrained (p : PortIx) (floors : List Nat) (s : State) : State :=
  if s.portLives p && !(s.port p).up then s.portTrained p floors else s

/-- LINK_RETRAIN_TIMER: without a far end the port stays down and its warden tries again. -/
def doLinkRetrainTimer (p : PortIx) (ok farEnd : Bool) (floors : List Nat) (s : State) : State :=
  if ok && farEnd then doLinkTrained p floors s else s

/-- IDENTITY_BLOCK_RECEIVE, at training or as an update. -/
def doIdentityBlock (p : PortIx) (i : Identity) (s : State) : State :=
  if !(s.port p).up || !s.isTensor p then s
  else
    let s1 := s.modPort p fun x => { x with far := some i, gens := i.gens, gone := x.gone && x.lossExpected }
    let s2 := s1.set64 (linkReg p LWD_FAR_SERIAL_LO) (linkReg p LWD_FAR_SERIAL_HI) i.serial.toNat
    let s3 := s2.setReg (linkReg p LWD_FAR_ID) (word4 i.chipGen.toNat i.flags.toNat i.grade.toNat i.port.toNat)
    let g := fun (k : Nat) => (i.gens.getD k 0).toNat
    (s3.setReg (linkReg p LWD_FAR_GEN) (word4 (g 0) (g 1) (g 2) (g 3))).rewire false

/-- What a received notice, or a loss taken as one, does to the job tags it names, each with its step (R254, R472). -/
def State.failPeers (s : State) (l : List (BitVec 16 × Word)) (code : Word) (scope : Nat) (coords : Word) : State :=
  let cs := s.jobCtxs.filter fun c => l.any fun e => e.1 == (s.ctx c).desc.jobTag
  (s.each cs fun s c => s.markStep c (s.ctx c).step 3).failTags (l.filter fun e => isJobTag e.1) 2 code scope coords

/-- The notice as which a surprise loss counts (R321): of scope "power", of the far end as its identity block tells of it, naming every job tag with a
filter on the port (assumption log 48). -/
def State.lossNotice (s : State) (p : PortIx) : FenceNotice :=
  let es := (s.slicesOf p).map fun f => (f.tag, (0 : Word))
  match (s.port p).far with
  | some i => ⟨6, i.port, i.serial, i.coords, i.chipGen, i.chipGen, i.gens, es⟩
  | none => ⟨6, 0, 0, s.farCoords p, 0, 0, [], es⟩

/-- LINK_LOSS_OF_SIGNAL (R321): as though a fence notice had arrived; expected after a notice of scope 3 to 6, and then only counted (R463). -/
def doLinkLossOfSignal (p : PortIx) (s : State) : State :=
  if !(s.port p).up then s
  else
    let x := s.port p
    let s1 := (s.bumpFld (linkReg p LWD_LINK_STATE) 15 0).setFld (linkReg p LWD_LINK_STATE) 31 29 3
    let s2 := s1.modPort p fun x => { x with up := false, gone := x.gone || s.isTensor p }
    if !s.isTensor p then s2
    else if x.lossExpected then s2.rewire false
    else
      let e : Event := ⟨0, 3, p.val, 0x0511, s.portData p⟩
      let n := s.lossNotice p
      (((((s2.emit ⟨0, 3, p.val, 0x071A, s.portData p⟩).emit e).failPeers n.entries e.word n.scope.val n.coords).irq 7).event (.fence n false)).rewire false

/-! ### Alarms -/

/-- The reach class of a port: from the table, or inferred from the far coordinates; 0 while neither gives it (R450). -/
def State.reachOf (s : State) (p : PortIx) : Nat :=
  let given := ((s.wireFor p).map fun w => w.reach.val).getD 0
  let own := (s.reg HRT_TOPO_COORD).toNat
  let far := (s.farCoords p).toNat
  if !s.isTensor p then 1
  else if given ≠ 0 then given
  else if own = 0xFFFFFFFF ∨ far = 0xFFFFFFFF then 0
  else if own / 2 ^ 8 = far / 2 ^ 8 then 1
  else if own / 2 ^ 16 = far / 2 ^ 16 then 2
  else 3

/-- One alarm kind: its bit follows the check; LINK_DEGRADED once per kind per hour. -/
def State.alarm (s : State) (p : PortIx) (kind : Nat) (on : Bool) : State :=
  let s1 := s.setFld (linkReg p LWD_POLICY) kind kind (if on then 1 else 0)
  let due := match tget? (s.port p).alarms kind with
    | some t => decide (t + 3600 * 10 ^ 9 ≤ s.time.tb)
    | none => true
  if on && due then (s1.modPort p fun x => { x with alarms := tput x.alarms kind s.time.tb }).emit ⟨1, 3, p.val, 0x0C06, s.portData p⟩
  else s1

/-- LANE_MARGIN_CHECK: lanes as eye height in mV and eye width in 1/256 UI. A tensor port with a lane below its trained floor drops
for retraining (R452); other ports only report (R453). -/
def doLaneMarginCheck (p : PortIx) (lanes : List (Nat × Nat)) (s : State) : State :=
  if !(s.port p).up then s
  else
    let fl := fun (k : Nat) => (s.port p).floors.getD k 0
    let s1 := s.each lanes.zipIdx fun s l => s.setNat (itemKey (linkReg p LWD_LANE) l.2)
      (2 ^ 31 + fl l.2 % 256 * 2 ^ 16 + l.1.1 % 256 * 2 ^ 8 + l.1.2 % 256)
    let low := lanes.zipIdx.any fun l => decide (l.1.1 < fl l.2)
    let s2 := s1.alarm p 0 low
    if low && s.isTensor p then
      ((s2.modPort p fun x => { x with up := false }).setFld (linkReg p LWD_LINK_STATE) 31 29 3).rewire false
    else s2

/-- LINK_ALARM_CHECK over one second: corrected symbols per symbol in units of 10^-9, and retries (R452). -/
def doLinkAlarmCheck (p : PortIx) (fec retry : Nat) (s : State) : State :=
  if !(s.port p).up then s
  else
    let c := s.reachOf p
    let d := s.draw
    let n := Config.fecCounts d.1
    let s1 := ((d.2.add64 (linkReg p LWD_FEC_CORR_LO) (linkReg p LWD_FEC_CORR_HI) n.1).bump (linkReg p LWD_FEC_UNCORR) n.2).bump
      (linkReg p LWD_RETRY) retry
    let lim := 10 ^ (max 1 c - 1)
    (s1.alarm p 1 (decide (1000 * lim < fec))).alarm p 2 (decide (10 * lim < retry))

/-! ### Fence notices -/

/-- A notice that repeats the last one of the port (R463). -/
def sameNotice (a b : FenceNotice) : Bool :=
  a.genBefore == b.genBefore && a.genAfter == b.genAfter && a.gens == b.gens && a.entries == b.entries

/-- FENCE_NOTICE_RECEIVE (R463, R254). After a notice of scope 3 to 6 no generation of the far end is current until the link retrains and an
identity block arrives, so that every reply of the old generation is dropped (R254; assumption log 48). -/
def doFenceNotice (p : PortIx) (n : FenceNotice) (s : State) : State :=
  let x := s.port p
  if !x.up || !s.isTensor p then s
  else if x.lastNotice.any (sameNotice n) then s.bump (linkReg p LWD_NOTICE_DUP)
  else
    let s1 := (s.setFld (linkReg p LWD_NOTICE) 31 24 n.scope.val).bumpFld (linkReg p LWD_NOTICE) 15 0
    let g := fun (k : Nat) => (n.gens.getD k 0).toNat
    let s2 := match n.scope.val with
      | 0 => s1.modPort p fun x => { x with lastNotice := some n }
      | 1 | 2 => (s1.modPort p fun x => { x with lastNotice := some n, gens := n.gens }).setReg (linkReg p LWD_FAR_GEN)
          (word4 (g 0) (g 1) (g 2) (g 3))
      | _ => s1.modPort p fun x => { x with lastNotice := some n, gone := true, lossExpected := true, gens := [] }
    let e : Event := ⟨0, 3, p.val, 0x0511, s.portData p⟩
    (((s2.emit e).failPeers n.entries e.word n.scope.val n.coords).irq 7).event (.fence n false)

/-! ### Meanings -/

def execLinkFrameReceive (p : PortIx) (f : Frame) (s : State) : Res := done (doLinkFrameReceive p f s)
def execLinkFrameSend (p : PortIx) (t : TileIx) (f : Frame) (s : State) : Res := done (doLinkFrameSend p t f s)
def execLinkTrained (p : PortIx) (floors : List Nat) (s : State) : Res := done (doLinkTrained p floors s)
def execIdentityBlockReceive (p : PortIx) (i : Identity) (s : State) : Res := done (doIdentityBlock p i s)
def execLinkLossOfSignal (p : PortIx) (s : State) : Res := done (doLinkLossOfSignal p s)
def execLinkRetrainTimer (p : PortIx) (trained farEnd : Bool) (floors : List Nat) (s : State) : Res :=
  done (doLinkRetrainTimer p trained farEnd floors s)
def execLaneMarginCheck (p : PortIx) (lanes : List (Nat × Nat)) (s : State) : Res := done (doLaneMarginCheck p lanes s)
def execLinkAlarmCheck (p : PortIx) (fec retry : Nat) (s : State) : Res := done (doLinkAlarmCheck p fec retry s)
def execFenceNoticeReceive (p : PortIx) (n : FenceNotice) (s : State) : Res := done (doFenceNotice p n s)

end Sys2Proof.Machine
end

