-- ==== Sys2Proof/Machine/Views.lean ====
section
/-! DEFINITION. What read-only registers show when they stand for state that is held elsewhere: the Hearth page (R152, R186, R220,
R257, R284, R323, R346, R375, R404, R443 to R445, R474, R485, R488) and the secure view (R491 to R494). Every function answers none
for a register that stands for itself. -/
namespace Sys2Proof.Machine

def w32 (n : Nat) : Word := BitVec.ofNat 32 n

def countWhere {α : Type} (l : List α) (f : α → Bool) : Nat := (l.filter f).length

def sat (w n : Nat) : Nat := min n (2 ^ w - 1)

/-! ### Global, commands, transactions, worlds -/

/-- Lines driven on a domain, as HRT_HL_SUMMARY orders them; a line that does not reach the domain reads 0 (R73). -/
def State.linesOn (s : State) (d : Nat) : Nat :=
  bit (s.hl.stop.getLsbD d && s.stopReach.getLsbD d) 0 + bit (s.hl.kill.getLsbD d && computeDomains.getLsbD d) 1 +
    bit (s.hl.thrt.getLsbD d && computeDomains.getLsbD d) 2 + bit (s.hl.trip.getLsbD d) 3

/-- Lines of a domain that return what is not driven are seen inverted. -/
def State.hlState (s : State) (d : Nat) : Nat :=
  if s.allDomains.getLsbD d then
    let l := s.linesOn d
    tget s.hl.mismatch d 0 * 2 ^ 16 + bit (s.hl.fault.getLsbD d) 8 + (l ^^^ tget s.hl.wrong d 0) * 2 ^ 4 + l
  else 0

def State.txnState (s : State) (w : World) : Word :=
  let x := s.txn w
  w32 ((if !x.isOpen then 0 else if x.applying then 3 else if x.commit.isSome then 2 else 1) * 2 ^ 30 + bit x.lastStep 29 + x.items.length * 2 ^ 16 + x.ident)

/-- Milliseconds a transaction counts against the timeout (R440). -/
def State.txnAge (s : State) (w : World) : Nat :=
  let x := s.txn w
  if x.isOpen then ((if x.commit.isSome then x.commitAt else s.time.tb) - x.openedAt - x.excluded) / 10 ^ 6 else 0

/-- Purposes in the order of R301 (assumption log 5). -/
def purposeNum : Purpose → Nat
  | .firmware => 0
  | .anvil => 1
  | .spill p => 2 + p.val
  | .snapshot => 6
  | .general => 7

def State.viewGlobal (s : State) (o item : Nat) : Option Word :=
  if o = HRT_GRADE then some (w32 ((s.reg HRT_GRADE).toNat / 2 ^ 16 * 2 ^ 16 + s.logicals * 2 ^ 8 + bit s.fused.l112 4 + gradeNum s.fused.grade))
  else if o = HRT_STATUS then some (w32 (bit (s.sq.run == .running) 31 + bit (s.sq.run == .restarting) 30 + bit (s.sq.run == .halted) 29 +
    bit s.time.refclk 28 + bit s.hl.tripLatch 27 + bit (s.sq.run == .running && s.pw.standby) 26 + s.sq.restarts))
  else if o = HRT_HL_SUMMARY then some (w32 (countWhere (List.range 41) (fun d => s.hl.fault.getLsbD d) * 2 ^ 8 + bit (s.hl.stop != 0) 0 +
    bit (s.hl.kill != 0) 1 + bit (s.hl.thrt != 0) 2 + bit (s.hl.trip != 0) 3))
  else if o = HRT_HL_STATE then some (w32 (s.hlState item))
  else if o = HRT_CMD_CTRL then some (w32 (s.host.epoch * 2 ^ 8 + s.fld HRT_CMD_CTRL 1 0))
  else if o = HRT_CMD_INTAKE then some (w32 (s.unansweredCount * 2 ^ 8 + (64 - s.sq.waiting.length)))
  else if o = TXN_NS_STATUS then some (s.txnState .nonSecure)
  else if o = TXN_S_STATUS then some (s.txnState .secure)
  else if o = TXN_NS_AGE then some (w32 (sat 10 (s.txnAge .nonSecure)))
  else if o = TXN_CFG_STATUS then some (w32 (bit s.applying 31))
  else if o = HRT_WORLD_REGION then some (match tget? s.regions item with
    | some e => w32 (2 ^ 31 + bit e.control 30 + bit (e.owner == .nonSecure) 29 + purposeNum e.purpose * 2 ^ 24 + e.length % 2 ^ 24)
    | none => 0)
  else if o = HRT_WORLD_REGION_LO then some (w32 (((tget? s.regions item).map RegionEntry.base).getD 0 * 2 ^ 20))
  else if o = HRT_WORLD_REGION_HI then some (w32 (((tget? s.regions item).map RegionEntry.base).getD 0 / 2 ^ 12))
  else if o = HRT_FN_STATE then some (s.fnWord item)
  else none

/-! ### Thermal, power, recorder, bring-up -/

/-- Sensor of a kind and index, as HRT_SNS_SEL names it; hot-spots, I/O and anchor sensors numbered through their dies. -/
def sensorAt (kind ix : Nat) : Option Sensor :=
  match kind with
  | 0 => if h : ix < 144 then some (.tile ⟨ix, h⟩) else none
  | 1 => if ix < 32 then some (.hotspot (Fin.ofNat 8 (ix / 4)) (Fin.ofNat 4 ix)) else none
  | 2 => if ix < 32 then some (.io (Fin.ofNat 16 (ix / 2)) (Fin.ofNat 2 ix)) else none
  | 3 => if ix < 2 then some (.anchor (Fin.ofNat 2 ix)) else none
  | 4 => if h : ix < 24 then some (.stack ⟨ix, h⟩) else none
  | _ => none

def State.snsValue (s : State) (item : Nat) : Word :=
  match (sensorAt (item / 4096) (item % 4096)).filter s.sensorExists with
  | none => 0
  | some x => match tget? s.thm.temps (sensorNum x) with
    | none => w32 (bit (s.thm.failed.contains (sensorNum x)) 30)
    | some t => w32 (2 ^ 31 + bit (s.thm.failed.contains (sensorNum x)) 30 + tempBits t)

/-- The hottest unit with a reading. -/
def State.hottest (s : State) : Option (ThermalUnit × Int) :=
  ((List.range 57).map unitAt).foldl (fun b u => match b, s.unitTemp u with
    | none, some t => some (u, t)
    | some x, some t => if x.2 < t then some (u, t) else some x
    | b, none => b) none

/-- Die or stack index of a thermal unit. -/
def State.unitIndex (s : State) : ThermalUnit → Nat
  | .region g => g.val / 2
  | .stack n => n.val
  | .io d => 8 + d.val
  | .anchor => s.anchor.val

def State.thermalState (s : State) : Word :=
  let ls := s.thm.levels.map fun e => e.2
  let worst := if s.hl.tripLatch then 5 else if s.thm.quenching || s.thm.quenched then 4
    else if s.thm.regions.any (fun e => e.2.enforced) then 3 else if ls.any (fun l => l.request) then 2
    else if ls.any (fun l => l.advise) then 1 else 0
  match s.hottest with
  | none => w32 (worst * 2 ^ 28)
  | some (u, t) => w32 (worst * 2 ^ 28 + classOf u * 2 ^ 26 + s.unitIndex u * 2 ^ 16 + tempBits t)

/-- Both regions of a compute die in one word, 16 bits each. -/
def eastWest (f : Nat → Nat) (n : Nat) : Word := w32 (f (2 * n + 1) % 2 ^ 16 * 2 ^ 16 + f (2 * n) % 2 ^ 16)

def State.ratioByte (s : State) (g : Nat) : Nat :=
  (s.region g).ratio + bit (s.region g).enforced 6 + bit ((s.levelOf (unitAt g)).grace) 7

def State.viewThermal (s : State) (o item : Nat) : Option Word :=
  if o = HRT_THM_STATE then some s.thermalState
  else if o = HRT_SNS_VALUE then some (s.snsValue item)
  else if HRT_THM_RATIO ≤ o ∧ o < HRT_THM_RATIO + 32 then
    let n := (o - HRT_THM_RATIO) / 4
    some (w32 (s.ratioByte (2 * n + 1) * 2 ^ 8 + s.ratioByte (2 * n)))
  else if HRT_THM_REGION_TEMP ≤ o ∧ o < HRT_THM_REGION_TEMP + 32 then
    some (eastWest (fun g => ((s.unitTemp (unitAt g)).map tempBits).getD 0) ((o - HRT_THM_REGION_TEMP) / 4))
  else if o = HRT_PMB_READ0 then some (match (s.channel item).last with
    | some r => w32 (r.vout % 2 ^ 16 * 2 ^ 16 + r.iout % 2 ^ 16)
    | none => 0)
  else if o = HRT_PMB_READ1 then some (match (s.channel item).last with
    | some r => w32 (r.statusWord.toNat * 2 ^ 16 + tempBits r.temp)
    | none => 0)
  else if o = HRT_PF_STATUS then some (w32 (bit (s.pw.pfWarn || (s.pw.standby && !s.pw.mainGood)) 31 + bit (s.pw.mainGood && !s.pw.pfWarn) 30 + s.fld HRT_PF_STATUS 15 0))
  else none

def State.viewRecorder (s : State) (o : Nat) : Option Word :=
  let c := s.recd
  if o = REC_STATUS then some (w32 ((if c.failed then 1 else if c.erase.isSome then 2 else 0) * 2 ^ 30 + bit c.freeze.isSome 29 +
    bit c.flush.isSome 28 + bit c.pfLock 27 + sat 16 c.dirty.length))
  else if o = REC_HEAD_SEQ then some c.seq
  else if o = REC_HEAD_IDX then some (w32 (ringSlot c.seq))
  else if o = REC_FLUSH_SEQ then some c.flushSeq
  else if o = REC_HOLD then some (w32 (c.hold.length * 2 ^ 16 + s.fld REC_HOLD 15 0))
  else if o = REC_SEALED then some (w32 (s.sealSection * 2 ^ 28 + bit c.sealedDone 27 + min 127 c.sealedCount * 2 ^ 16 + sat 16 c.diverted))
  else if o = REC_OPTIME_LO then some (w32 s.opTime)
  else if o = REC_OPTIME_HI then some (w32 (s.subTick * 2 ^ 12 + s.opTime / 2 ^ 32 % 2 ^ 12))
  else none

def State.hotPlug (s : State) : Nat :=
  match s.bu.removal with
  | .none => if s.pw.mainGood then 2 else if s.pw.readyForMain then 1 else 0
  | .removable => 4
  | _ => 3

def State.viewBringUp (s : State) (o : Nat) : Option Word :=
  let b := s.bu
  if o = HRT_BU_STATE then some (w32 (pkgCode b.pkg * 2 ^ 28 + b.stage * 2 ^ 24 + bit b.failed 23 + bit b.chipPass 22 + b.failCode))
  else if o = HRT_BU_IMAGE then some b.version
  else if o = HRT_BU_SLOT then some (w32 (bit b.trial 29 + (b.slot.map Fin.val).getD 0 * 2 ^ 28 + b.secver % 64 * 2 ^ 22 +
    s.fused.secver % 64 * 2 ^ 16 + b.compRev % 2 ^ 16))
  else if o = HRT_BU_POWER_CYCLES then some (w32 s.recd.cycles)
  else if o = HRT_BU_POWER then some (w32 (bit s.pw.readyForMain 31 + bit s.pw.mainGood 30 + bit s.pw.okToRemove 29 + bit (s.pw.attnLow && (Config.measured s.free HRT_BU_POWER).getLsbD 0) 28 +
    bit s.pw.trayPc 27 + s.hotPlug * 2 ^ 24))
  else if o = HRT_BU_TOPO then some (w32 (b.topo * 2 ^ 30 + s.expectedPorts.length * 2 ^ 16 +
    countWhere s.tensorPorts (fun p => (s.port p).out == .agree) * 2 ^ 8 + countWhere s.tensorPorts (fun p => !(s.port p).up)))
  else none

/-! ### Shadow, digests, escalation, time base -/

def State.spares (s : State) : Nat := (s.tilesIn .spare).length

/-- Occupancy of a partition's spill region in 1/256. -/
def State.spillShare (s : State) (p : PartIx) : Nat := sat 8 (s.spillUsed p * 256 / max 1 (s.fld HRT_SPILL_SIZE 12 0 * 1024))

/-- Partitions of the tiles among wardens. -/
def State.partsOfAgents (s : State) (l : List AgentIx) : Nat :=
  (s.partsOfTiles ((l.filter fun a => (s.unitOf a).1 == 1).map fun a => tileIx (s.unitOf a).2)).toNat

/-- HRT_ESC_STATUS below the resets (R257): a power cycle asked for, a fence not confirmed, a kill not complete (assumption log 104). -/
def State.lowStatus (s : State) : Nat :=
  let kills := (List.finRange 16).filterMap fun c => (s.ctx c).killing
  if s.pw.trayPc && !s.hl.tripLatch then 2 ^ 30 + 5 * 2 ^ 26 + 15 * 2 ^ 22
  else if s.plan.fencing ≠ [] then 2 ^ 30 + 2 ^ 26 + (s.partsOfTiles (s.plan.fencing.map fun e => tileIx e.1)).toNat * 2 ^ 22
  else if kills ≠ [] then 2 ^ 30 + s.partsOfAgents (kills.flatMap Prod.fst) * 2 ^ 22
  else 0

def State.escStatus (s : State) : Nat :=
  match s.esc.reset with
  | none => s.lowStatus
  | some r =>
    let left := (r.since + s.fld HRT_ESC_HOLD 10 0 * 10 ^ 6 - s.time.tb) / 10 ^ 6
    (if r.phase = .holding then 2 ^ 29 + left % 2 ^ 11 else 2 ^ 30) + levelNum r.level * 2 ^ 26 + r.parts.toNat * 2 ^ 22

/-- MiB read by the running scrub request (R186): what its stacks have no longer to read (assumption log 80). -/
def State.scrubRead (s : State) : Nat :=
  match s.ofd.running with
  | none => 0
  | some r =>
    let ns := (List.finRange 24).filter fun n => Config.holdsPart n.val r.d.region.base r.d.region.length
    r.d.region.length / 2 ^ 20 - (ns.map fun n => Config.scrubLeft s.free n.val).sum

def State.viewShadow (s : State) (p : Path) (o : Nat) : Option Word :=
  if o = HRT_SHD_STATE then some (s.fnWord 0)
  else if o = HRT_SHD_RATE then
    let c : CtxIx := Fin.ofNat 16 (s.own p HRT_SHD_CTX_SEL).toNat
    some (w32 (s.spares * 2 ^ 16 + s.freeSpares.length * 2 ^ 8 + s.shadow.cap % 16 * 2 ^ 4 + (s.ctx c).r % 16))
  else if o = HRT_SHD_ARB_STATUS then some (w32 (s.shadow.waiting.length % 256 * 2 ^ 8 + countWhere s.shadow.running Option.isSome))
  else if o = HRT_OFD_HANDLES then some (w32 (s.ofd.handles.length * 2 ^ 8 + (255 - s.ofd.handles.length)))
  else if o = HRT_SCRUB_STATE then some (s.fnWord 4 ||| w32 (s.ofd.queue.length % 256 * 2 ^ 8))
  else if o = HRT_SCRUB_PROGRESS then some (w32 s.scrubRead)
  else if o = HRT_SPILL_USE then some (word4 (s.spillShare 0) (s.spillShare 1) (s.spillShare 2) (s.spillShare 3))
  else if o = HRT_ESC_STATUS then some (w32 s.escStatus)
  else if o = HRT_PC_POLICY then some (w32 (sat 8 s.cyclesInDay * 2 ^ 8 + s.fld HRT_PC_POLICY 0 0))
  else if o = HRT_BSTOP_STATUS then some (match s.esc.bstop with
    | none => 0
    | some b => w32 ((if b.held then 2 else if b.timedOut then 3 else 1) * 2 ^ 30 + bit b.step 29 + s.atBoundary b % 256))
  else if o = HRT_SNAP_STATUS then some (w32 ((s.snap 1).st * 2 ^ 30 + (s.snap 0).st * 2 ^ 28 + min s.esc.snapMissed 511))
  else none

def State.viewTime (s : State) (o : Nat) : Option Word :=
  let org := s.time.origin.getD 0
  if o = HRT_TB_LO then some (w32 s.time.tb)
  else if o = HRT_TB_HI then some (w32 (s.time.tb / 2 ^ 32))
  else if o = HRT_TB_ORIGIN_LO then some (w32 org)
  else if o = HRT_TB_ORIGIN_HI then some (w32 (bit s.time.origin.isSome 31 + org / 2 ^ 32 % 2 ^ 31))
  else if o = HRT_TB_ALIGN_LO then some (w32 s.time.alignPt)
  else if o = HRT_TB_ALIGN_HI then some (w32 (s.time.alignPt / 2 ^ 32))
  else if o = HRT_TB_REFCLK then some (w32 (bit s.time.refclk 31 + s.time.losses))
  else none

/-! ### Floor plan, self-test, topology, observation -/

def tstateNum : TState → Nat
  | .good => 0
  | .spare => 1
  | .defect => 2
  | .fenced => 3

def roleOfPool : PoolRole → Nat
  | .logical => 0
  | .idle => 1
  | .shadow => 2
  | .arbiter => 3
  | .selfTest => 4
  | .out => 5

/-- HRT_FP_PHYS of a tile; a tile not yet in the floor plan reads the reset value. -/
def State.fpWord (s : State) (t : TileIx) : Word :=
  match tget? s.plan.fp t.val with
  | none => 0xFF
  | some f => w32 (tstateNum f.st * 2 ^ 29 + bit f.watch.isSome 28 + bit f.retired 27 + roleOfPool (s.tile t).role * 2 ^ 24 +
      f.reason % 256 * 2 ^ 16 + s.logNum t)

/-- Milliseconds left of the generation holdoff (R219, R220). -/
def State.holdoffLeft (s : State) : Nat :=
  match s.esc.lastAdvance with
  | some t => (t + s.fld HRT_GEN_HOLDOFF 9 0 * 10 ^ 6 + 999999 - s.time.tb) / 10 ^ 6
  | none => 0

def State.viewPlan (s : State) (o : Nat) : Option Word :=
  let fps := s.plan.fp.map fun e => e.2
  if o = HRT_SPARE_EPOCH then some s.plan.epoch
  else if o = HRT_SPARE_STATUS then some (w32 (bit s.plan.updating 31 + countWhere fps (fun f => f.st == .spare) * 2 ^ 16 +
    countWhere fps (fun f => f.st == .fenced) * 2 ^ 8 + countWhere fps (fun f => f.st == .defect)))
  else if o = HRT_SPARE_COUNTS then some (w32 (countWhere fps (fun f => f.watch.isSome) * 2 ^ 16 + countWhere fps (fun f => f.retired) * 2 ^ 8 +
    s.plan.map.length))
  else if o = HRT_SPARE_RECORD then some (w32 (bit (!s.plan.writeQ.isEmpty || s.plan.rewriteDue) 31 + sat 16 s.plan.writes))
  else if o = HRT_GEN then some (w32 s.esc.gen.toNat)
  else if o = HRT_GEN_HOLDOFF then some (w32 (sat 10 s.holdoffLeft * 2 ^ 16 + s.fld HRT_GEN_HOLDOFF 9 0))
  else if o = HRT_GEN_PART then
    let g := fun (k : Nat) => (s.partGens.getD k 0).toNat
    some (word4 (g 0) (g 1) (g 2) (g 3))
  else if HRT_FP_PHYS ≤ o ∧ o < HRT_FP_PHYS + 576 then some (s.fpWord (tileIx ((o - HRT_FP_PHYS) / 4)))
  else if HRT_FP_LOGICAL ≤ o ∧ o < HRT_FP_LOGICAL + 512 then
    let l := (o - HRT_FP_LOGICAL) / 4
    some (match tget? s.plan.map l with
      | some t => if l < s.logicals then w32 (2 ^ 31 + t.val) else 0
      | none => 0)
  else if o = HRT_BIST_STATE then some (s.fnWord 3)
  else if o = HRT_BIST_NEXT then some (w32 (s.fld HRT_BIST_NEXT 15 8 * 2 ^ 8 + (s.rotation.head?.map Fin.val).getD (s.fld HRT_BIST_NEXT 7 0)))
  else if o = HRT_ANVIL_STATUS then
    let used := fun (i : Nat) => (s.test.slots.getD i none).isSome
    some (w32 (s.reqsQueued * 2 ^ 16 + ((List.range 8).map fun i => bit (used i) (8 + i)).sum + countWhere (List.range 8) used))
  else none

def roleCode : Role → Nat
  | .tensor => 0
  | .ethernet => 1
  | .storage => 2

def wiredNum : Wired → Nat
  | .agree => 0
  | .absent => 1
  | .wrong => 2
  | .conflict => 3
  | .unexpected => 4
  | .pending => 5
  | .notCompared => 6

def State.portWord (s : State) (p : PortIx) : Word :=
  let x := s.port p
  let r := s.roleOf p
  w32 (roleCode r.role * 2 ^ 30 + bit r.reserved 29 + s.reachOf p * 2 ^ 27 + wiredNum x.out * 2 ^ 24 + ((x.far.map fun i => i.port.toNat).getD 0))

def State.expPort (s : State) (p : PortIx) : Word :=
  match s.wireFor p with
  | none => 0
  | some e => w32 (e.reach.val * 2 ^ 14 + bit e.peer 8 + e.farPort.toNat)

def State.viewTopo (s : State) (o : Nat) : Option Word :=
  let outs := s.tensorPorts.map fun p => (s.port p).out
  let p := fun (b : Nat) => (Fin.ofNat 48 ((o - b) / 8) : PortIx)
  if o = HRT_TOPO_SERIAL_LO then some (w32 s.fused.serial.toNat)
  else if o = HRT_TOPO_SERIAL_HI then some (w32 (s.fused.serial.toNat / 2 ^ 32))
  else if o = HRT_TOPO_WIRING then some (w32 (bit s.cmp.table.isSome 31 + s.expectedPorts.length * 2 ^ 16 + countWhere outs Wired.bad * 2 ^ 8 +
    countWhere outs (fun w => w == .unexpected)))
  else if o = HRT_CMP_SESSIONS then some (w32 (countWhere s.cmp.sessions Option.isSome * 2 ^ 29 + s.subs.length * 2 ^ 24 + s.fld HRT_CMP_SESSIONS 15 0))
  else if o = HRT_CMP_EVENTQ then some (w32 (s.fld HRT_CMP_EVENTQ 31 16 * 2 ^ 16 + (s.subs.map fun u => u.queue.length).foldl max 0))
  else if o = HRT_JOB_ADMIT then some (w32 (bit (s.bu.pkg != .ready) 31 + s.admittedTags.length))
  else if o = HRT_ROUTE_USE then some (w32 s.routes.length)
  else if HRT_TOPO_PORT ≤ o ∧ o < HRT_TOPO_PORT + 384 then
    some (if o % 8 = 0 then s.portWord (p HRT_TOPO_PORT) else s.farCoords (p HRT_TOPO_PORT))
  else if HRT_TOPO_EXP ≤ o ∧ o < HRT_TOPO_EXP + 384 then
    some (if o % 8 = 0 then ((s.wireFor (p HRT_TOPO_EXP)).map WireExp.coords).getD 0xFFFFFFFF else s.expPort (p HRT_TOPO_EXP))
  else none

def State.viewObs (s : State) (o item : Nat) : Option Word :=
  let x := s.watch item
  if o = OBS_TRACE_STATE then some (s.fnWord 1)
  else if o = OBS_WATCH_STATE then some (s.fnWord 2)
  else if o = OBS_WATCH_STATUS then some (w32 (x.st * 2 ^ 28 +
    (match x.w with
      | some w => bit (isAddress w.sel) 27 + w.ctx.val * 2 ^ 20
      | none => 0)))
  else if o = OBS_WATCH_STEP then some ((x.w.map WatchDecl.step).getD 0)
  else if o = OBS_WATCH_BYTES then some (w32 (x.bytes / 1024))
  else none

/-- A register of the Hearth page that shows other state. -/
def State.viewHearth (s : State) (p : Path) (o item : Nat) : Option Word :=
  if o < 0x4000 then s.viewGlobal o item
  else if o < 0x5000 then s.viewThermal o item
  else if o < 0x6000 then s.viewRecorder o
  else if o < 0x7000 then s.viewBringUp o
  else if o < 0xA000 then s.viewShadow p o
  else if o < 0xB000 then s.viewTime o
  else if o < 0xC000 then s.viewPlan o
  else if o < 0xD000 then s.viewTopo o
  else s.viewObs o item

/-! ### The secure view (R490 to R494) -/

/-- Word `w` of a SHA-384, byte 4w in [7:0] (the digest's first byte is its most significant). -/
def hashWord (h : BitVec 384) (w : Nat) : Word :=
  let b := fun (i : Nat) => h.toNat / 2 ^ (8 * (47 - i)) % 256
  word4 (b (4 * w)) (b (4 * w + 1)) (b (4 * w + 2)) (b (4 * w + 3))

def State.viewSeq (s : State) (o item : Nat) : Option Word :=
  if o = HRT_SQ_RESTART then
    let ms := match s.sq.lastRestart with
      | some t => sat 14 ((s.time.tb - t) / 10 ^ 6)
      | none => 2 ^ 14 - 1
    some (w32 (s.sq.restarts * 2 ^ 16 + bit (s.sq.run == .halted) 15 + bit s.sq.haltSecond 14 + ms))
  else if HRT_SQ_DIGEST ≤ o ∧ o < HRT_SQ_DIGEST + 48 then
    some (((tget? s.bu.digests item).map fun h => hashWord h ((o - HRT_SQ_DIGEST) / 4)).getD 0)
  else if o = HRT_SV_NOR_SEG then some (w32 (bit s.plan.writing 31 + s.fld HRT_SV_NOR_SEG 3 0))
  else none

/-- The OTP view. -/
def State.viewOtp (s : State) (o : Nat) : Option Word :=
  if o < 0x100 then
    let k := o / 0x40
    if o % 0x40 < 0x30 then some (((s.fused.keyHash[k]?).map fun h => hashWord h (o % 0x40 / 4)).getD 0)
    else if o % 0x40 = 0x30 then some (w32 (bit (s.fused.keyProgrammed.getLsbD k) 1 + bit (s.fused.keyRevoked.getLsbD k) 0))
    else none
  else if o = 0x100 then some (w32 s.fused.secver)
  else if o = 0x104 then some (w32 s.fused.mac.toNat)
  else if o = 0x108 then some (w32 (s.fused.mac.toNat / 2 ^ 32))
  else none

/-- The body of an item that the bank shows: the bytes that R458 lays out for a route and a slice filter; of the others, whose bytes are
free (assumption log 5), the kind and the fields. -/
def State.itemBody (it : TxnItem) : List Nat :=
  match it with
  | .route ix r =>
    let x : Route := r.getD ⟨0, 0, 0, none⟩
    [ix.val / 256, ix.val % 256, x.tag.toNat / 256, x.tag.toNat % 256, x.dest.val / 256, x.dest.val % 256, x.primary.val,
      (x.alternate.map Fin.val).getD 255]
  | .slice p ix e =>
    let x : Slice := e.getD ⟨0, false, false, 0⟩
    [p.val, ix.val, x.tag.toNat / 256, x.tag.toNat % 256, bit e.isSome 0 + bit x.rx 1 + bit x.tx 2, x.coords.toNat / 2 ^ 24,
      x.coords.toNat / 2 ^ 16 % 256, x.coords.toNat / 2 ^ 8 % 256]
  | .role p r => [it.kind, p.val, roleCode r.role, bit r.reserved 0]
  | .region ix e => match e with
    | some r => [it.kind, ix.val, bit r.control 0, bit (r.owner == .nonSecure) 0, purposeNum r.purpose, r.base, r.length]
    | none => [it.kind, ix.val]
  | .sparing r t => [it.kind, match r with | .fence => 0 | .ret => 1 | .retire => 2 | .unretire => 3, t.val]
  | .reg .. => []

/-- A transaction bank (R493). -/
def State.viewBank (s : State) (w : World) (o : Nat) : Word :=
  let x := s.txn w
  match (if x.isOpen then x.items else [])[o / 16]? with
  | none => 0
  | some it =>
    let b := fun (k : Nat) => match it with
      | .route .. | .slice .. => (State.itemBody it).getD k 0
      | _ => (Config.bodyByte (State.itemBody it) k).toNat
    match it, o % 16 / 4 with
    | .reg _ sel _, 0 => w32 (2 ^ 31 + sel % 2 ^ 16)
    | .reg off _ _, 1 => w32 (off % 2 ^ 24)
    | .reg _ _ v, 2 => v
    | .reg .., _ => 0
    | i, 0 => w32 (2 ^ 31 + 2 ^ 30 + i.kind)
    | _, 1 => 0
    | _, 2 => word4 (b 0) (b 1) (b 2) (b 3)
    | _, _ => word4 (b 4) (b 5) (b 6) (b 7)

/-- CMP trust and sessions (R494). -/
def State.viewCmp (s : State) (o : Nat) : Option Word :=
  if o < 0x100 then
    let k := o / 0x40
    if o % 0x40 < 0x30 then some (((s.bu.trust[k]?).map fun h => hashWord h (o % 0x40 / 4)).getD 0)
    else if o % 0x40 = 0x30 then some (w32 (bit (decide (k < s.bu.trust.length)) 0))
    else none
  else if o < 0x140 then
    let x := s.cmp.sessions.getD ((o - 0x100) / 16) none
    match o % 16 / 4 with
    | 0 => some ((x.map Session.num).getD 0)
    | 1 => some (match x with
      | some y => w32 (2 ^ 31 + y.trust % 256)
      | none => 0)
    | 2 => some (match x with
      | some y => w32 ((s.time.tb - y.last) / 10 ^ 9)
      | none => 0)
    | _ => some ((x.bind Session.seq).getD 0)
  else none

/-- A word of the secure view beyond the sequencer block; none where it is reserved. -/
def State.viewSecure (s : State) (o : Nat) : Option Word :=
  if o < 0x801000 then none
  else if o < 0x802000 then s.viewOtp (o - 0x801000)
  else if o < 0x803000 then some (s.viewBank .secure (o - 0x802000))
  else if o < 0x804000 then some (s.viewBank .nonSecure (o - 0x803000))
  else if o < 0x805000 then s.viewCmp (o - 0x804000)
  else none

end Sys2Proof.Machine
end

