-- ==== Sys2Proof/Machine/WardenViews.lean ====
section
/-! DEFINITION. The wiring of the routers (R65), and what the read-only registers of warden pages and routers show when they stand
for state that is held elsewhere (R498 to R508 and the tables they name). -/
namespace Sys2Proof.Machine

/-! ### The links of R65 -/

/-- I/O dies of the grade, by number. -/
def State.ioDie (s : State) (k : Nat) : Nat := 8 + k % s.ioDies

/-- Every link of R65 in the order of its table, as a pair of die indices. -/
def State.dieLinks (s : State) : List (Nat × Nat) :=
  let d := s.fused.grade == .d
  (List.range 8).map (fun k => (k, (k + 1) % 8)) ++
  (if d then (List.range 4).map fun k => (k, k + 4) else []) ++
  (if d then (List.range 8).map fun k => (k, 8 + k) else (List.range 8).flatMap fun k => [(k, 8 + 2 * k), (k, 8 + 2 * k + 1)]) ++
  (List.range s.ioDies).map (fun k => (8 + k, s.ioDie (k + 1))) ++
  ((List.range 4).map fun k => (s.anchor.val, 8 + k * (s.ioDies / 4)))

/-- The neighbours of a die by port number: R65's links in the order in which it lists them (R507). -/
def State.neighbours (s : State) (d : Nat) : List Nat :=
  s.dieLinks.filterMap fun l => if l.1 = d then some l.2 else if l.2 = d then some l.1 else none

/-- The port of a die toward a neighbour. -/
def State.portTo (s : State) (d n : Nat) : Option Nat := (s.neighbours d).findIdx? fun m => m == n

/-- The router register behind a port selector. -/
def portReg (d : DieIx) (off p : Nat) : Nat := itemKey (dieReg d off) p

/-- A port is dead, in sink mode (R67). -/
def State.portDead (s : State) (d : DieIx) (p : Nat) : Bool := s.fld (portReg d BLW_PORT p) 30 30 == 1

/-! ### The common header (R498) -/

def State.headerView (s : State) (a : AgentIx) (o : Nat) : Option Word :=
  let x := s.agent a
  let u := s.unitOf a
  if o = TWD_ID then some (w32 (u.1 * 2 ^ 28 + u.2 * 2 ^ 20 + x.stepping % 256 * 2 ^ 12 + x.minLevel % 16 * 2 ^ 8 +
    x.maxLevel % 16 * 2 ^ 4 + x.level % 16))
  else if o = TWD_STATUS then
    let bad := if x.failed then (Config.measured s.free (s.pageBase a + o)).toNat / 2 ^ 25 % 32 else 0
    some (w32 (bit (x.present && !x.failed && !x.excluded) 31 + bit (!x.failed) 30 + bad * 2 ^ 25 + x.queue.length * 2 ^ 8))
  else if o = TWD_PORT_STATE then some (w32 (bit x.resync 30 + s.fld (s.pageBase a + o) 15 0))
  else if o = TWD_TAP then some (w32 (bit (s.unitStopped a ||
    (u.1 == 1 && s.fld (s.pageBase a + TWD_FENCE) 31 31 == 1 && (s.anvilRuns (tileIx u.2)).isNone)) 31))
  else none

/-! ### Tile wardens (R115, R153, R188, R221, R258, R405, R500) -/

def jstateNum : JState → Nat
  | .issued => 0
  | .running => 1
  | .complete => 2
  | .committed => 3

/-- A number of 64 bits as two words. -/
def two (n : Nat) : List Word := [w32 n, w32 (n / 2 ^ 32)]

/-- The 32 words of a journal entry (R202). -/
def JEntry.words (e : JEntry) : List Word :=
  let c := fun (x : Nat × Nat × Nat) => two (x.1 % 2 ^ 48) ++ two (x.2.1 % 2 ^ 48) ++ two (x.2.2 % 2 ^ 48)
  [e.cmd.seq, e.cmd.step,
    w32 (e.cmd.ctx.val + jstateNum e.state * 2 ^ 4 + bit e.cmd.idempotent 7 + bit e.cmd.hold 8 + bit e.held 9 + bit e.wrote 10 +
      min e.execs 3 * 2 ^ 11 + roleNum e.role * 2 ^ 13 + e.outcome % 16 * 2 ^ 16 + e.origin % 256 * 2 ^ 24),
    e.cmd.tag, w32 (e.ordinal % 2 ^ 16 + e.passes % 2 ^ 16 * 2 ^ 16), 0] ++ two e.issueTime ++ c e.startC ++ c e.endC ++
    ((List.range 4).flatMap fun i => two (e.bytes.getD i 0)) ++ two e.ofd.lane0 ++ two e.ofd.lane1

/-- The entry that TWD_CONS_SEL selects: parity, aggregate or keyed, number. The aggregate shows the sums over the contexts and
placements of a parity. -/
def State.consEntry (s : State) (t : TileIx) (item : Nat) : Option ConsEntry :=
  let l := (s.tile t).cons.filter fun e => e.parity == decide (item / 128 % 2 = 1)
  if item / 64 % 2 = 0 then (l.filter fun e => e.key.isSome)[item % 64]?
  else match l.filter fun e => e.key.isNone with
    | [] => none
    | e :: r => some (r.foldl (fun a b => { a with d := satAdd 32 a.d b.d, x := satAdd 32 a.x b.x, v := satAdd 32 a.v b.v, t := satAdd 32 a.t b.t }) e)

def consKeyWord (e : ConsEntry) : Word :=
  match e.key with
  | some k => w32 (k.expert.val * 2 ^ 22 + k.layer.val * 2 ^ 10 + e.ctx.val * 2 ^ 6 + 1)
  | none => 0

def keysInUse (x : Tile) (odd : Bool) : Nat := countWhere x.cons fun e => e.parity == odd && e.key.isSome

def State.consView (s : State) (t : TileIx) (o item : Nat) : Option Word :=
  let e := s.consEntry t item
  let n := fun (f : ConsEntry → Nat) => some (w32 ((e.map f).getD 0))
  if o = TWD_CONS_KEY then some ((e.map consKeyWord).getD 0)
  else if o = TWD_CONS_STEP then some ((e.map ConsEntry.step).getD 0)
  else if o = TWD_CONS_D then n ConsEntry.d
  else if o = TWD_CONS_X then n ConsEntry.x
  else if o = TWD_CONS_V then n ConsEntry.v
  else if o = TWD_CONS_T then n ConsEntry.t
  else if o = TWD_CONS_BANK then some (w32 (s.fld (tileReg t TWD_CONS_BANK) 31 16 * 2 ^ 16 + keysInUse (s.tile t) false * 2 ^ 7 +
    keysInUse (s.tile t) true))
  else none

/-- KiB of a tile's queues in the spill region. -/
def State.spilledKib (s : State) (t : TileIx) : Nat :=
  ((s.esc.spills.filter fun x => s.holder x.consumer == some t).map fun x => (x.kib * x.left.length + x.total - 1) / max 1 x.total).sum

def State.shadowView (s : State) (t : TileIx) (o : Nat) : Option Word :=
  let x := s.tile t
  if o = TWD_SHD_STATUS then some (w32 (((x.slots.findSome? fun c => c.map fun c => c.primary.val).getD 0) * 2 ^ 8 +
    bit (s.fpOf t).watch.isSome 3 + roleOfPool x.role))
  else if o = TWD_SHD_SEQ then some (match s.running t with
    | some e => if e.role = .shadow ∨ e.role = .arbiter then e.cmd.seq else 0
    | none => 0)
  else if o = TWD_SHD_SLOTS then
    let held := match x.slots.head? with
      | some (some c) => ((x.dutyOf c.primary c.seq).map fun e => e.2.cmd.captureBytes / 1024).getD 0
      | _ => 0
    some (w32 (countWhere x.slots Option.isSome * 2 ^ 24 + held % 2 ^ 24))
  else none

def State.obsState (s : State) (t : TileIx) : Word :=
  let p := (s.partOfTile t).val
  let stall : Option (Fin 8) := (fun (n : Nat) => if n < 8 then some (Fin.ofNat 8 n) else none)
    ((Config.measured s.free (tileReg t TWD_OBS_STATE)).toNat % 16)
  w32 (bit ((s.reg OBS_FULL_EN).getLsbD p) 31 + bit (s.traceOn && s.traced p && (s.reg OBS_TRACE_CFG).getLsbD 21) 30 +
    s.fld OBS_TRACE_CFG 26 22 * 2 ^ 25 + bit (s.writer p (tileWriter t)).blk.isSome 24 + stateByte (s.works t) stall)

/-- The epoch of the token at the head of a queue, 0 where it holds none; a spilled entry stands before those in the tile (R231). -/
def Tile.headEpoch (x : Tile) (item : Nat) : Nat :=
  ((x.queues.findSome? fun q => if q.1 % 256 = item then (q.2.spilled ++ q.2.tokens).head? else none).map fun k => k.2.1 % 16).getD 0

/-- TWD_QSTATE of a queue: the epoch of its head token (R258), and its wait, which goes on in µs while it lasts (R228). -/
def State.queueState (s : State) (t : TileIx) (item : Nat) : Word :=
  let k := itemKey (tileReg t TWD_QSTATE) item
  let wait := match tget? (s.tile t).waits item with
    | some t0 => sat 20 (s.fld k 19 0 + (s.time.tb - t0) / 1000)
    | none => s.fld k 19 0
  w32 (s.fld k 31 29 * 2 ^ 29 + (s.tile t).headEpoch item * 2 ^ 25 + wait)

def State.tileView (s : State) (t : TileIx) (o item : Nat) : Option Word :=
  let x := s.tile t
  let acc := (x.accs.getD item {}).ofd
  if o = TWD_OBS_STATE then some (s.obsState t)
  else if o = TWD_TRACE_BUF then some (w32 (s.writer (s.partOfTile t).val (tileWriter t)).buf.length)
  else if o = TWD_OFD_L0_LO then some (w32 acc.lane0)
  else if o = TWD_OFD_L0_HI then some (w32 (acc.lane0 / 2 ^ 32))
  else if o = TWD_OFD_L1_LO then some (w32 acc.lane1)
  else if o = TWD_OFD_L1_HI then some (w32 (acc.lane1 / 2 ^ 32))
  else if o = TWD_GEN then some (w32 (tget s.esc.domGen (regionOfTile t) 0).toNat)
  else if o = TWD_JNL_HEAD then some (if x.jnl = [] then 0 else w32 (x.jhead * 2 ^ 16 + x.openEntries.length * 2 ^ 8 + x.jnl.length))
  else if o = TWD_QSTATE then some (s.queueState t item)
  else if o = TWD_SPILLED then some (w32 (s.spilledKib t))
  else if o = TWD_EPOCH then some (w32 ((if x.pushed = 0 then 0 else (Config.measured s.free (tileReg t TWD_EPOCH)).toNat / 16 % 16 * 16) + x.epoch % 16))
  else (s.shadowView t o).orElse fun _ => s.consView t o item

/-! ### Stack wardens (R187, R502) -/

/-- Accumulator 0 runs live for a scrub that reads a part of its stack: what it holds by then is drawn (assumption log 80). -/
def State.scrubLive (s : State) (n : StackIx) (o item : Nat) : Option Word :=
  if item = 256 ∧ SWD_OFD_FLAGS ≤ o ∧ o ≤ SWD_OFD_COUNT_HI ∧
      s.ofd.running.any fun r => Config.holdsPart n.val r.d.region.base r.d.region.length then
    some (Config.measured s.free (stackReg n o))
  else none

/-- The bank that SWD_OFD_SEL selects: the latched copy, or the live bank of the step's parity. -/
def State.ofdBank (s : State) (n : StackIx) (item : Nat) : Bank :=
  let h := item % 256
  if item / 256 = 0 then tget (s.stack n).copies h {}
  else match s.handle? h with
    | some x => tget (s.stack n).banks (bankKey h (s.ctx x.d.ctx).step) {}
    | none => {}

def State.scrubStatus (s : State) (n : StackIx) : Word :=
  match s.ofd.running with
  | none => 0
  | some r =>
    if Config.holdsPart n.val r.d.region.base r.d.region.length then
      w32 ((if s.memoryStopped n then 2 else 1) * 2 ^ 30 + sat 30 (Config.scrubLeft s.free n.val))
    else 0

def State.stackView (s : State) (n : StackIx) (o item : Nat) : Option Word :=
  let b := s.ofdBank n item
  if o = SWD_OFD_FLAGS then some (w32 b.flags)
  else if o = SWD_OFD_L0_LO then some (w32 b.l0)
  else if o = SWD_OFD_L0_HI then some (w32 (b.l0 / 2 ^ 32))
  else if o = SWD_OFD_L1_LO then some (w32 b.l1)
  else if o = SWD_OFD_L1_HI then some (w32 (b.l1 / 2 ^ 32))
  else if o = SWD_OFD_COUNT_LO then some (w32 b.count)
  else if o = SWD_OFD_COUNT_HI then some (w32 (b.count / 2 ^ 32))
  else if o = SWD_SCRUB_STATUS then some (s.scrubStatus n)
  else if o = SWD_STACK_STATE then some (w32 (bit (s.isExcluded 2 n.val) 31 + bit (s.fld (stackReg n SWD_STACK_STATE) 30 30 == 1) 30))
  else none

/-! ### Link wardens (R406, R475, R504) -/

/-- The routing entry of a number, if it uses the port. -/
def State.routeAt (s : State) (p : PortIx) (item : Nat) : Option Route :=
  (tget? s.routes item).filter fun r => r.primary == p || r.alternate == some p

def State.linkView (s : State) (p : PortIx) (o item : Nat) : Option Word :=
  let x := s.port p
  if o = LWD_TS_STATE then some (w32 (bit (s.traceSrc 18 none) 31 + s.fld OBS_LINK_STAMP 3 0))
  else if o = LWD_ROUTE_KEY then some (match s.routeAt p item with
    | some r => w32 (r.tag.toNat * 2 ^ 16 + r.dest.val)
    | none => 0)
  else if o = LWD_ROUTE_PORTS then some (match s.routeAt p item with
    | some r => w32 (2 ^ 31 + ((r.alternate.map Fin.val).getD 255) * 2 ^ 8 + r.primary.val)
    | none => 0xFF)
  else if LWD_SLICE ≤ o ∧ o < LWD_SLICE + 64 then some (match tget? s.slices (p.val * 16 + (o - LWD_SLICE) / 4) with
    | some e => w32 (2 ^ 31 + bit e.rx 30 + bit e.tx 29 + bit (!s.sliceLive p e) 28 + e.tag.toNat)
    | none => 0)
  else if o = LWD_LINK_STATE then some (w32 (s.fld (linkReg p o) 31 29 * 2 ^ 29 + roleCode (s.roleOf p).role * 2 ^ 27 + bit x.gone 26 +
    s.fld (linkReg p o) 15 0))
  else if o = LWD_POLICY then some (w32 (s.reachOf p * 2 ^ 30 + s.fld (linkReg p o) 23 16 * 2 ^ 16 + s.fld (linkReg p o) 2 0))
  else none

/-! ### Die wardens and routers (R347, R506 to R508) -/

/-- The clock domain of a local number on a die. -/
def State.localDomain (s : State) (d : DieIx) (k : Nat) : Option Nat :=
  if d.val < 8 then (if k < 2 then some (2 * d.val + k) else if k = 2 then some (16 + d.val) else none)
  else if d = s.anchor then (if k = 0 then some 40 else none)
  else if k = 0 then some (24 + (d.val - 8)) else none

/-- DWD_DOMAIN. A warden island has no clock of its own: power and power-good only. -/
def State.domainView (s : State) (d : DieIx) (k : Nat) : Word :=
  match s.localDomain d k with
  | some n =>
    let l := s.linesOn n
    w32 (bit (s.pw.domOn.getLsbD n) 31 + bit (s.pw.domGood.getLsbD n) 30 + bit (s.pw.locked.getLsbD n) 29 +
      bit (s.pw.gridOk.getLsbD n) 28 + bit (s.hl.armed.getLsbD n) 27 + bit (l.testBit 0) 26 + bit (l.testBit 1) 25 +
      bit (l.testBit 2) 24 + bit (l.testBit 3) 23 + cyclesOf (Fin.ofNat 41 n))
  | none => if k = 3 then w32 (bit (s.islandOn d.val) 31 + bit (s.islandOn d.val) 30) else 0

/-- BLW_PORT: the neighbour's ALIVE follows its warden island (R50). -/
def State.portView (s : State) (d : DieIx) (p : Nat) : Word :=
  let k := portReg d BLW_PORT p
  match (s.neighbours d.val)[p]? with
  | none => 0x1F000000
  | some n =>
    let low := s.fld k 30 30 == 1 && s.fld k 29 29 == 0
    w32 (bit (s.islandOn n && !low) 31 + s.fld k 30 29 * 2 ^ 29 + n * 2 ^ 24 + s.fld k 15 0)

def State.dieView (s : State) (d : DieIx) (o item : Nat) : Option Word :=
  let ag := fun (k : Nat) => s.agent ⟨d, Fin.ofNat 32 k⟩
  if o = DWD_RATIO then some (w32 ((s.dieRatios d).2 * 2 ^ 8 + (s.dieRatios d).1))
  else if o = DWD_DOMAIN then some (s.domainView d item)
  else if o = DWD_DOMAIN_GEN then some (if d.val < 8 ∧ item < 2 then w32 (tget s.esc.domGen (2 * d.val + item) 0).toNat else 0)
  else if o = DWD_SELFTEST then some (w32 (bit (ag 31).failed 31 + bit (ag 30).failed 30 + ((List.range 21).map fun k => bit (ag k).failed k).sum))
  else if o = BLW_ID then some (w32 (d.val * 2 ^ 27 + (ag 31).level % 16 * 2 ^ 20 + (ag 31).stepping % 256))
  else if o = BLW_PORT then some (s.portView d item)
  else if o = BLW_HEARTH_REPORTQ then some (w32 s.bus.queue.length)
  else none

/-! ### Any page -/

/-- Registers that measure events no command carries (assumption log 18). -/
def measuredRegs : PageKind → List Nat
  | .tile => []
  | .stack => [SWD_ECC_CE_LO, SWD_ECC_CE_HI, SWD_PATROL_PROG, SWD_REFRESH_DELAY, SWD_REFRESH_RATE, SWD_1500]
  | .die => []
  | _ => []

/-- The agent that serves a page offset: the warden, or the router of its die (R505). -/
def State.pageAgent (s : State) (k : PageKind) (n o : Nat) : AgentIx :=
  match k with
  | .tile => tileAgent (tileIx n)
  | .stack => s.stackAgent (Fin.ofNat 24 n)
  | .link => portAgent (Fin.ofNat 48 n)
  | _ => if 0x800 ≤ o then routerAgent (dieIx n) else dieAgent (dieIx n)

/-- A register of a warden page that shows other state. -/
def State.wardenView (s : State) (k : PageKind) (n o item : Nat) : Option Word :=
  if (measuredRegs k).contains o then
    some (Config.measured s.free (s.pageBase (s.pageAgent k n o) + itemKey o item) &&& ((findRow (rowsOf k) o).map RegRow.mask).getD 0)
  else if o < 0x28 then s.headerView (s.pageAgent k n o) o
  else match k with
    | .tile => s.tileView (tileIx n) o item
    | .stack => (s.scrubLive (Fin.ofNat 24 n) o item).orElse fun _ => s.stackView (Fin.ofNat 24 n) o item
    | .link => s.linkView (Fin.ofNat 48 n) o item
    | .die => s.dieView (dieIx n) o item
    | _ => none

end Sys2Proof.Machine
end

