-- ==== Sys2Proof/Machine/Registers.lean ====
section
/-! DEFINITION. Accesses to registers on every path (R15 to R19, R427, R433 to R435, R477 to R496): what a read gives and clears,
what a write does, the windows, and the access errors. An access to a warden page is one event here, with the Bellows exchange
that serves it (R479, assumption log 19). -/
namespace Sys2Proof.Machine

/-- The world of an access path (R425): CMP copies 0 to 3 are sessions. -/
def worldOf : Path → World
  | .host => .nonSecure
  | .core => .secure
  | .cmp k => if k.val < 4 then .secure else .nonSecure

/-- An access that needs the secure world (R16, R429). -/
def State.secError (s : State) (p : Path) (off : Nat) : State := (s.denied .nonSecure).accessError p 2 off

def ones : Word := 0xFFFFFFFF

/-! ### Who answers a page -/

/-- A page, or a block of it, that the grade does not have (R478, R508). -/
def State.unpopulated (s : State) (k : PageKind) (n o : Nat) : Bool :=
  match k with
  | .stack => decide (s.stackCount ≤ n)
  | .link => decide (s.portCount ≤ n)
  | .die => !s.dieExists (dieIx n) || (decide (0x880 ≤ o) && dieIx n != s.anchor)
  | _ => false

def isWarden (k : PageKind) : Bool := k != .hearth && k != .seqr

/-- The error kind of an access to a warden page that nothing serves (R478, R479): absent, core unavailable, no response. -/
def State.pageError (s : State) (k : PageKind) (n o : Nat) : Option Nat :=
  if !isWarden k then none
  else
    let a := s.pageAgent k n o
    if (s.agent a).excluded then some 5
    else if s.sq.run ≠ .running then some 7
    else if (s.agent a).failed || !s.islandOn a.die.val then some 6
    else none

/-! ### The windows -/

/-- A word of a record slot; what an empty slot reads as is not stated (assumption log 18). -/
def State.slotWord (s : State) (r : Option Record) (w off : Nat) : Word :=
  match r with
  | some x => wordAt x.bytes w
  | none => Config.measured s.free off

/-- The bytes of a good header copy (R357): the fields in their order, in widths of the model's (DESIGN CHOICE, assumption log 109), and the CRC-32
at its end. -/
def hdrBytes (c : Word × MramHdr) : List Byte :=
  let h := c.2
  let l := i4 0x43455243 ++ iw c.1 ++ i4 h.writeIx ++ iw h.lastSeq ++ i8 h.opTime ++ i4 h.cycles ++ iw (h.eraseStore.getD 0) ++
    iw (h.eraseSealed.getD 0) ++ i4 (h.eraseAt.getD 0) ++ (List.range 3).flatMap fun k => i8 (h.trayTimes.getD k 0)
  let b := l ++ List.replicate (2044 - l.length) 0
  b ++ iw (crc32 b)

/-- A word of the MRAM by byte offset (R357). A slot erased, or at or below an erase point, reads all ones (R368); a header copy that is not good is
drawn. -/
def State.mramWord (s : State) (o : Nat) : Word :=
  let at' := fun (t : Tab Record) (p : Option Word) (k : Nat) => match (tget? t k).filter fun r => !erased p r with
    | some r => wordAt r.bytes (o % 32 / 4)
    | none => ones
  if o < 0x1000 then match (if o < 0x800 then s.recd.hdrs.c0 else s.recd.hdrs.c1) with
    | some c => wordAt (hdrBytes c) (o % 0x800 / 4)
    | none => Config.measured s.free o
  else if o < 0x11000 then at' s.recd.sealedReg s.recd.hdr.eraseSealed ((o - 0x1000) / 32)
  else at' s.recd.store s.recd.hdr.eraseStore ((o - 0x11000) / 32)

/-- The recorder read window (R367). -/
def State.windowWord (s : State) (p : Path) (o : Nat) : Word :=
  let src := (s.own p REC_WINDOW_SRC).toNat
  if src = 0 then s.slotWord (tget? s.recd.ring (o / 32)) (o % 32 / 4) o else s.mramWord ((src - 1) * 2 ^ 20 + o)

/-- A word of the NOR device (R294, R295): the good directory copies, the image slots; the layout of the other record copies, which the spec does not
give, is drawn. -/
def State.norWord (s : State) (o : Nat) : Word :=
  if o < 0x20000 then match (if o < 0x10000 then s.nor.dir.c0 else s.nor.dir.c1).filter fun _ => decide (o % 0x10000 < 0x1000) with
    | some c => wordAt (dirBytes c) (o % 0x10000 / 4)
    | none => Config.measured s.free o
  else if o < 0x400000 then Config.measured s.free o
  else
    let b := fun i => (memRead s.nor.slots (o + i)).toNat
    word4 (b 0) (b 1) (b 2) (b 3)

/-- The NOR window (R495): all ones while the device programs or erases. -/
def State.norWindow (s : State) (o : Nat) : Word := if s.plan.writing then ones else s.norWord (s.fld HRT_SV_NOR_SEG 3 0 * 2 ^ 22 + o)

/-- MSI-X table and pending bits (R489). -/
def State.msixWord (s : State) (off : Nat) : Word :=
  if off < 0xE100 then tget s.msix.table ((off - 0xE000) / 4) (if off % 16 = 12 then 1 else 0)
  else if off < 0xF000 then 0
  else if off = 0xF000 then s.msix.pba.setWidth 32 else 0

def isMsix (off : Nat) : Bool := (decide (0xE000 ≤ off) && decide (off < 0xE100)) || (decide (0xF000 ≤ off) && decide (off < 0xF008))

/-! ### Reads -/

/-- The value of a register for a path, defined bits only. -/
def State.valueOf (s : State) (p : Path) (r : RegRow) (k : PageKind) (n page off : Nat) : Word :=
  let o := off - page
  let item := s.itemOf p r page
  let v := match k with
    | .hearth => s.viewHearth p o item
    | .seqr => s.viewSeq o item
    | _ => s.wardenView k n o item
  v.getD (s.getReg p r page off) &&& r.mask

/-- Read a catalogued register: the low half of a pair latches the high half, an RC register clears (R16, R19). -/
def State.readRow (s : State) (p : Path) (r : RegRow) (k : PageKind) (n page off : Nat) : State × Word :=
  match r.code, r.half with
  | .wo, _ => (s, 0)
  | _, .high => (s, s.own p (off + 1))
  | _, .low =>
    let v := s.valueOf p r k n page off
    match rowAt (off + 4) with
    | some x => (s.drawn.setOwn p (off + 5) (s.valueOf p x.1 k n page (off + 4)), v)
    | none => (s.drawn, v)
  | .rc, _ =>
    let v := s.valueOf p r k n page off
    (s.drawn.setReg (itemKey off (s.itemOf p r page)) 0, v)
  | _, _ => (s.drawn, s.valueOf p r k n page off)

/-- Read one aligned word on a path. -/
def State.readWord (s : State) (p : Path) (off : Nat) : State × Word :=
  let bad := fun (kind : Nat) (v : Word) => (s.accessError p kind off, v)
  if !s.pathUp p then (s, 0)
  else if 0x800000 ≤ off ∧ off < 0x1000000 ∧ worldOf p = .nonSecure then (s.secError p off, 0)
  else if 0xC00000 ≤ off ∧ off < 0x1000000 then (s.drawn, s.norWindow (off - 0xC00000))
  else if 0x400000 ≤ off ∧ off < 0x500000 then (s.drawn, s.windowWord p (off - 0x400000))
  else if 0x1000 ≤ off ∧ off < 0x2000 then (s, 0)
  else if isMsix off then (s, s.msixWord off)
  else match pageOf off, rowAt off with
    | some (k, n, o), some (r, page) =>
      if s.unpopulated k n o then bad 1 0
      else if r.sec && worldOf p == .nonSecure then (s.secError p off, 0)
      else match s.pageError k n o with
        | some 5 => bad 5 0
        | some e => bad e ones
        | none => s.readRow p r k n page off
    | some (k, n, o), none => if isWarden k && !s.unpopulated k n o && (s.pageError k n o).isSome then bad ((s.pageError k n o).getD 1) 0 else bad 1 0
    | none, _ => match s.viewSecure off with
      | some v => (s, v)
      | none => bad 1 0

/-- A register read, and the data that it returns. -/
def regReadAt (a : Acc) (s : State) : State :=
  if !s.pathUp a.path then s
  else if !a.aligned || a.off % 4 != 0 then (s.accessError a.path 0 a.off).emitOut (.read a.path a.off 0)
  else
    let x := s.readWord a.path a.off
    x.1.emitOut (.read a.path a.off x.2)

/-! ### What particular writes do -/

/-- HRT_NTC_CONS (R422, R423): forward and within what was written; held notices then enter the ring, and the end of an episode of
drops is recorded. -/
def State.writeNtcCons (s : State) (p : Path) (v : Word) : State :=
  let c := s.reg HRT_NTC_CONS
  if (v - c).toNat ≤ (s.reg HRT_NTC_PROD - c).toNat then
    let s1 := s.setReg HRT_NTC_CONS v
    let k := min s1.host.heldNotices.length (256 - s1.noticeFill)
    let s2 := (s1.host.heldNotices.take k).foldl State.ringNotice (s1.modHost fun h => { h with heldNotices := h.heldNotices.drop k })
    if s2.host.lostEpisode = 0 ∨ s2.noticeFill = 256 then s2
    else (s2.modHost fun h => { h with lostEpisode := 0 }).emit ⟨0, 0, 0, 0x0B08, [i4 s2.host.lostEpisode]⟩
  else s.accessError p 3 HRT_NTC_CONS

/-- HRT_TB_CAPTURE (R488): seven words of the path in one instant. -/
def State.capture (s : State) (p : Path) : State :=
  let t := s.time.tb
  let tr := t - s.time.origin.getD 0
  let was := (s.own p HRT_TB_CAP_TRACE_HI).getLsbD 31
  let valid := s.time.origin.isSome && (s.time.refclk || was)
  s.each [(HRT_TB_CAP_TB_LO, w32 t), (HRT_TB_CAP_TB_HI, w32 (t / 2 ^ 32)), (HRT_TB_CAP_OPTIME_LO, w32 s.opTime),
    (HRT_TB_CAP_OPTIME_HI, w32 (s.subTick * 2 ^ 12 + s.opTime / 2 ^ 32 % 2 ^ 12)), (HRT_TB_CAP_TRACE_LO, w32 tr),
    (HRT_TB_CAP_TRACE_HI, w32 (bit valid 31 + tr / 2 ^ 32 % 2 ^ 16)), (HRT_TB_CAP_GEN, w32 s.esc.gen.toNat)]
    fun s e => s.setOwn p e.1 e.2

/-- HRT_CONS_SEL (R487): the entry is copied for the writing path. -/
def State.latchCons (s : State) (p : Path) (n : Nat) : State :=
  let r := s.ofd.cons[n]?
  let num := fun (f : ConsRow → Nat) => w32 ((r.map f).getD 0)
  let key := match r.bind fun x => x.key.map fun k => (x, k) with
    | some (x, k) => w32 (k.expert.val * 2 ^ 22 + k.layer.val * 2 ^ 10 + x.ctx.val * 2 ^ 6 + bit (!x.saturated) 1 + 1)
    | none => 0
  let res := match r with
    | some x => w32 (bit x.failed.isSome 31 + x.failed.getD 0 * 2 ^ 28 +
        (match x.place with | .localExpert => 0 | .remoteExpert => 1 | .serving => 2))
    | none => 0
  s.each [(HRT_CONS_KEY, key), (HRT_CONS_STEP, (r.map ConsRow.step).getD 0), (HRT_CONS_D, num ConsRow.d), (HRT_CONS_X, num ConsRow.x),
    (HRT_CONS_V, num ConsRow.v), (HRT_CONS_T, num ConsRow.t), (HRT_CONS_RESULT, res)] fun s e => s.setOwn p e.1 e.2

/-- TWD_JNL_SEL with the latch bit (R204, R221): the whole entry enters the path's window. -/
def State.latchJournal (s : State) (p : Path) (t : TileIx) (n : Nat) : State :=
  let x := s.tile t
  let ws := match tget? x.jnl n with
    | some e => (x.partWritten s.free n e).words
    | none => []
  s.drawn.each (List.range 32) fun s w => s.setOwn p (tileReg t TWD_JNL_WORD + 4 * w) (ws.getD w 0)

/-- REC_FREEZE (R366). -/
def State.writeFreeze (s : State) (v : Word) : State :=
  if v.getLsbD 0 then
    if s.recd.freeze.isSome then s
    else (s.setNat REC_FREEZE 1).modRec fun c => { c with freeze := some ⟨s.time.tb, s.fld REC_FREEZE_LIMIT 13 0, 0, 0⟩ }
  else s.endFreeze

/-- REC_ERASE (R368): the power-fail lock refuses it with kind 4, any other confirmation as a value out of range. -/
def State.writeErase (s : State) (p : Path) (v : Word) : State :=
  if s.recd.pfLock then s.accessError p 4 REC_ERASE
  else if field v.toNat 31 16 ≠ 0x5EA1 then s.accessError p 3 REC_ERASE
  else s.askErase (v.getLsbD 0) (v.getLsbD 1)

/-- HRT_SNS_REQ (R328): the selected sensor is read now. -/
def State.readSensor (s : State) (p : Path) (temp : Option Int) : State :=
  let item := (s.own p HRT_SNS_SEL).toNat
  match (sensorAt (item / 4096) (item % 4096)).filter s.sensorExists, temp with
  | some x, some t => s.takeReadings [(x, t)]
  | _, _ => s

/-- OBS_FULL_EN (R379): a turn-on clears the reason counters of the partition's tiles. -/
def State.writeFullEn (s : State) (v : Word) : State :=
  let up := (List.range 4).filter fun q => v.getLsbD q && !(s.reg OBS_FULL_EN).getLsbD q
  let ts := (List.finRange 144).filter fun t => up.contains (s.partOfTile t).val
  s.each ts fun s t => s.each (List.range 8) fun s r => s.set64 (tileReg t TWD_FC_LO + 8 * r) (tileReg t TWD_FC_HI + 8 * r) 0

/-- HRT_CMD_CTRL (R416): the epoch advances when enable is set. -/
def State.writeCtrl (s : State) (v : Word) : State :=
  if v.getLsbD 0 && !(s.reg HRT_CMD_CTRL).getLsbD 0 then
    s.modHost fun h => { h with epoch := if h.epoch = 255 then 1 else h.epoch + 1 }
  else s

/-- BLW_RSP_TIMEOUT (R508): a LEVEL_SET that repeats the level goes to every agent. -/
def State.sendTimeout (s : State) (v : Nat) : State :=
  s.each (s.allAgents.filter fun a => (s.agent a).present) fun s a => s.command a (.levelSet s.bus.level v)

/-- What a write does besides setting the register, or instead of it: the answer says whether the register is set too. -/
def State.hearthAct (s : State) (p : Path) (o : Nat) (v : Word) (temp : Option Int) : State × Bool :=
  if o = HRT_CMD_CTRL then (s.writeCtrl v, true)
  else if o = HRT_NTC_CONS then (s.writeNtcCons p v, false)
  else if o = HRT_TB_CAPTURE then (if v.getLsbD 0 then s.capture p else s, false)
  else if o = HRT_CONS_SEL then (s.latchCons p (v.toNat % 4096), true)
  else if o = REC_FREEZE then (s.writeFreeze v, false)
  else if o = REC_FLUSH_REQ then (if v.getLsbD 0 then s.askFlush .forced else s, false)
  else if o = REC_ERASE then (s.writeErase p v, false)
  else if o = HRT_SNS_REQ then (if v.getLsbD 0 then s.readSensor p temp else s, false)
  else if o = OBS_FULL_EN then (s.writeFullEn v, true)
  else if o = HRT_SQ_HEARTBEAT then (if p = .core then s.beat else s.accessError p 2 HRT_SQ_HEARTBEAT, false)
  else (s, true)

/-- The same in a warden page; `set` is the value to set. -/
def State.wardenAct (s : State) (p : Path) (k : PageKind) (n o : Nat) (v : Word) : State × Word × Bool :=
  match k with
  | .tile =>
    if o = TWD_JNL_SEL then
      (if v.getLsbD 6 then s.latchJournal p (tileIx n) (v.toNat % 64) else s, v &&& 0x3F, true)
    else (s, v, true)
  | .die =>
    if o = BLW_DEAD_CLEAR then
      (s.each ((List.range 4).filter fun q => v.getLsbD q) fun s q => s.setFld (portReg (dieIx n) BLW_PORT q) 30 29 0, v, false)
    else if o = BLW_RSP_TIMEOUT then (s.sendTimeout (v.toNat % 128), v, true)
    else (s, v, true)
  | _ => (s, v, true)

/-! ### Writes -/

/-- Registers of trace, writable only while the function is OFF (R382), and the response base, while intake is disabled (R443). -/
def State.stateRefuses (s : State) (off : Nat) : Bool :=
  ([OBS_TRACE_CFG, OBS_TRACE_BASE_LO, OBS_TRACE_BASE_HI, OBS_TRACE_SIZE, OBS_LINK_STAMP].contains off && (s.fn 1).st != .off) ||
    ((off == HRT_CMD_RSP_BASE_LO || off == HRT_CMD_RSP_BASE_HI) && (s.reg HRT_CMD_CTRL).getLsbD 0)

/-- The world that owns a warden class (R427). -/
def State.classSecure (s : State) (k : PageKind) : Bool :=
  let m := s.reg HRT_WORLD_MAP
  match k with
  | .tile => !m.getLsbD 0
  | .stack => !m.getLsbD 1
  | .link => !m.getLsbD 2
  | .die => !m.getLsbD 3
  | _ => false

/-- A value that the register refuses (R7, R115). -/
def State.outOfRange (s : State) (k : PageKind) (o item : Nat) (v : Word) : Bool :=
  !s.valueOk k o item v.toNat || (k == .tile && o == TWD_CHECK_INJECT && v.getLsbD 31 && field v.toNat 25 13 == 0)

/-- A write would be refused for its value (R7). -/
def State.refusesValue (s : State) (p : Path) (off : Nat) (v : Word) : Bool :=
  match pageOf off, rowAt off with
  | some (k, _, _), some (r, page) =>
    (r.code == .rw || r.code == .wo) && s.outOfRange k (off - page) (s.itemOf p r page) (v &&& r.mask)
  | _, _ => false

/-- Stage a transactional write in the writer's world (R433, R435). -/
def State.stageWrite (s : State) (p : Path) (off item : Nat) (v : Word) : State :=
  let w := worldOf p
  if !(s.txn w).isOpen || (s.txn w).commit.isSome then s.accessError p 3 off
  else
    let x := s.stage w (.reg off item v)
    if x.2 then x.1 else s.accessError p 3 off

/-- A write that may act: reserved bits raise an error, a value out of range refuses it, then it is staged or takes effect. A cause bit that
rises in the instant in which it is written as 1 stays set (R17). -/
def State.writeRow (s0 : State) (p : Path) (r : RegRow) (k : PageKind) (n page off : Nat) (v0 : Word) (temp : Option Int) : State :=
  let reserved := fun (s : State) => if v0 &&& ~~~ r.mask ≠ 0 then s.accessError p 1 off else s
  let s := reserved s0
  let v := v0 &&& r.mask
  let o := off - page
  let item := s.itemOf p r page
  if r.code = .w1c then reserved (s0.setReg off (s0.reg off &&& ~~~ v))
  else if s.outOfRange k o item v then s.accessError p 3 off
  else if s.stateRefuses off then s.accessError p 4 off
  else if r.txn then s.stageWrite p off item v
  else if isWarden k then
    let x := s.wardenAct p k n o v
    if x.2.2 then x.1.putReg p r page off x.2.1 else x.1
  else
    let x := s.hearthAct p o v temp
    if x.2 then x.1.putReg p r page off v else x.1

/-- A write to the Hearth page while the core restarts or is halted (R479): RW registers wait, up to 16. -/
def State.heldWrite (s : State) (p : Path) (off : Nat) (v : Word) : State :=
  if s.sq.run = .restarting ∧ s.sq.held.length < 16 then s.modSq fun q => { q with held := q.held ++ [(⟨p, off, true⟩, v)] }
  else s.accessError p 7 off

/-- Write one aligned word on a path. -/
def State.writeWord (s : State) (p : Path) (off : Nat) (v : Word) (temp : Option Int) : State :=
  if !s.pathUp p then s
  else if 0x800000 ≤ off ∧ off < 0x1000000 ∧ worldOf p = .nonSecure then s.secError p off
  else if (0xC00000 ≤ off ∧ off < 0x1000000) ∨ (0x400000 ≤ off ∧ off < 0x500000) then s.accessError p 1 off
  else if 0x1000 ≤ off ∧ off < 0x2000 then ((s.bump HRT_CMD_DROPPED).accessError p 0 off).malformed false
  else if isMsix off then
    if off < 0xE100 then
      { s with msix := { s.msix with table := tput s.msix.table ((off - 0xE000) / 4) (if off % 16 = 12 then v &&& 1 else v) } }
    else s
  else match pageOf off, rowAt off with
    | some (k, n, o), some (r, page) =>
      if s.unpopulated k n o then s.accessError p 1 off
      else if r.sec && worldOf p == .nonSecure then s.secError p off
      else match s.pageError k n o with
        | some e => s.accessError p e off
        | none =>
          if r.code = .ro ∨ r.code = .rc then s
          else if isWarden k && worldOf p == .nonSecure && s.classSecure k then (s.denied .nonSecure).accessError p 4 off
          else if k = .hearth ∧ r.code = .rw ∧ (s.sq.run = .restarting ∨ s.sq.run = .halted) then s.heldWrite p off v
          else s.writeRow p r k n page off v temp
    | some (k, n, o), none => s.accessError p (if isWarden k && !s.unpopulated k n o then (s.pageError k n o).getD 1 else 1) off
    | none, _ => if (s.viewSecure off).isSome then s else s.accessError p 1 off

/-- A register write; a sensor that a request names reads `temp`. -/
def regWriteAt (a : Acc) (v : Word) (temp : Option Int) (s : State) : State :=
  if !s.pathUp a.path then s
  else if !a.aligned || a.off % 4 != 0 then s.accessError a.path 0 a.off
  else s.writeWord a.path a.off v temp

/-- A plain register write: a sensor read that it requests gives a reading the command does not carry (log 18). -/
def doRegisterWrite (a : Acc) (v : Word) (s : State) : State :=
  regWriteAt a v (some (Config.measured s.free a.off).toInt) s.drawn

/-- The access of a row that names its register. -/
def Acc.to (a : Acc) (off : Nat) : Acc := { a with off := off }

/-- The page of a kind that an access names. -/
def pageNo (base off : Nat) : Nat := (off - base) / 0x1000

/-! ### Meanings -/

def execCounterLowRead (a : Acc) (s : State) : Res := done (regReadAt a s)
def execCounterHighRead (a : Acc) (s : State) : Res := done (regReadAt a s)
def execRcRead (a : Acc) (s : State) : Res := done (regReadAt a s)
def execRegisterWrite (a : Acc) (v : Word) (s : State) : Res := done (doRegisterWrite a v s)
def execTransactionalRegisterWrite (a : Acc) (v : Word) (s : State) : Res := done (doRegisterWrite a v s)
def execHeartbeat (path : Path) (value : Word) (s : State) : Res := done (regWriteAt ⟨path, HRT_SQ_HEARTBEAT, true⟩ value none s)
def execSensorReadRequest (a : Acc) (v : Word) (temp : Option Int) (s : State) : Res := done (regWriteAt (Acc.to a HRT_SNS_REQ) v temp s)
def execRecFlushReq (a : Acc) (v : Word) (s : State) : Res := done (regWriteAt (Acc.to a REC_FLUSH_REQ) v none s)
def execRecFreeze (a : Acc) (v : Word) (s : State) : Res := done (regWriteAt (Acc.to a REC_FREEZE) v none s)
def execRecErase (a : Acc) (v : Word) (s : State) : Res := done (regWriteAt (Acc.to a REC_ERASE) v none s)
def execHrtCmdCtrlWrite (a : Acc) (v : Word) (s : State) : Res := done (regWriteAt (Acc.to a HRT_CMD_CTRL) v none s)
def execHrtNtcConsWrite (a : Acc) (v : Word) (s : State) : Res := done (regWriteAt (Acc.to a HRT_NTC_CONS) v none s)
def execHrtIrqCauseClear (a : Acc) (v : Word) (s : State) : Res := done (regWriteAt (Acc.to a HRT_IRQ_CAUSE) v none s)
def execHrtTbCapture (a : Acc) (v : Word) (s : State) : Res := done (regWriteAt (Acc.to a HRT_TB_CAPTURE) v none s)
def execHrtConsSelWrite (a : Acc) (v : Word) (s : State) : Res := done (regWriteAt (Acc.to a HRT_CONS_SEL) v none s)
def execTwdJnlSelWrite (a : Acc) (v : Word) (s : State) : Res :=
  done (regWriteAt (Acc.to a (tileReg (tileIx (pageNo 0x100000 a.off)) TWD_JNL_SEL)) v none s)
def execTwdCheckInjectWrite (a : Acc) (v : Word) (s : State) : Res :=
  done (regWriteAt (Acc.to a (tileReg (tileIx (pageNo 0x100000 a.off)) TWD_CHECK_INJECT)) v none s)
def execBlwDeadClear (a : Acc) (v : Word) (s : State) : Res :=
  done (regWriteAt (Acc.to a (dieReg (dieIx (pageNo 0x300000 a.off)) BLW_DEAD_CLEAR)) v none s)
def execBlwRspTimeoutWrite (a : Acc) (v : Word) (s : State) : Res := done (regWriteAt (Acc.to a (dieReg s.anchor BLW_RSP_TIMEOUT)) v none s)
def execObsFullEnWrite (a : Acc) (v : Word) (s : State) : Res := done (regWriteAt (Acc.to a OBS_FULL_EN) v none s)

end Sys2Proof.Machine
end

