-- ==== Sys2Proof/Machine/Snapshot.lean ====
section
/-! DEFINITION. What a hang snapshot reads of a unit (R251, R399), and SNAPSHOT_COMPLETE. -/
namespace Sys2Proof.Machine

/-! ### Queues of a tile (R399) -/

/-- A queue of a snapshot: context and queue number as one key, and its wait in µs. -/
def State.queueWait (s : State) (t : TileIx) (key : Nat) : Nat := field (s.queueState t (key % 256)).toNat 19 0

/-- Insert by wait time, longest first, then by queue number. -/
def insertWait (f : Nat → Nat) (k : Nat) : List Nat → List Nat
  | [] => [k]
  | x :: r => if f x < f k ∨ (f x = f k ∧ k % 256 < x % 256) then k :: x :: r else x :: insertWait f k r

/-- The queues of a tile in the order in which they are listed. -/
def State.listedQueues (s : State) (t : TileIx) : List Nat :=
  ((s.tile t).queues.map Prod.fst).foldl (fun l k => insertWait (s.queueWait t) k l) []

/-- The four words of queue `key`, the `i`-th listed: what the tile alone knows, its occupancy in bytes and its credits, is drawn. -/
def State.queueWords (s : State) (t : TileIx) (q i key : Nat) : List Word :=
  let x := tget (s.tile t).queues key {}
  let head := (x.tokens.head?.map fun k => k.2.1).getD (s.tile t).epoch
  [word4 (key % 256) (key / 256) (field (s.queueState t (key % 256)).toNat 31 29) head, s.reg (itemKey (tileReg t TWD_QPOS) (key % 256)),
    Config.unitWord q (2 * i + 1), w32 ((Config.unitWord q (2 * i + 2)).toNat % 2 ^ 16 + sat 16 (s.queueWait t key) * 2 ^ 16)]

/-! ### Entries (R399) -/

/-- The words of a tile's entry; its program counter is drawn. -/
def State.tileEntry (s : State) (t : TileIx) (taps : Bool) (q : Nat) : List Word :=
  let r := s.running t
  let l := s.lightCounts t
  let ks := s.listedQueues t
  [word4 t.val (if taps then 1 else 0) (s.logNum t) ((r.map fun e => e.cmd.ctx.val).getD 0),
   w32 (field (s.obsState t).toNat 7 0 + bit (s.tile t).gateClosed 8 + bit (decide (28 < ks.length)) 9), Config.unitWord q 0,
   (r.map fun e => e.cmd.seq).getD 0, (s.tileView t TWD_JNL_HEAD 0).getD 0, s.reg (tileReg t TWD_WDOG)] ++
  two (s.instantOf (regionOfTile t)) ++ two l.1 ++ two l.2.1 ++ two l.2.2 ++ [0, 0] ++
  ((ks.take 28).zipIdx.flatMap fun k => s.queueWords t q k.2 k.1)

/-- The unit state of another warden, in the order of its list, a word each: a stack's queue depths and the age of its oldest request, a
link's queue depths and credits are drawn. -/
def State.unitState (s : State) (a : AgentIx) (q : Nat) : List Word :=
  match s.unitOf a with
  | (2, n) => [Config.unitWord q 0, Config.unitWord q 1, Config.unitWord q 2, s.reg (stackReg (Fin.ofNat 24 n) SWD_STALE_DROP)]
  | (3, n) =>
    let r := fun o => s.reg (linkReg (Fin.ofNat 48 n) o)
    [Config.unitWord q 0, Config.unitWord q 1, Config.unitWord q 2, r LWD_RETRY, r LWD_FAR_GEN, r LWD_MSG_TX, r LWD_MSG_RX]
  | _ => [(s.dieView a.die DWD_RATIO 0).getD 0, s.reg (dieReg a.die DWD_SUPPLY)] ++ (List.range 4).map fun k => s.reg (dieReg a.die (DWD_SNS + 4 * k))

/-- The words of another warden's entry: its first status register is that of the common header (R498). -/
def State.wardenEntry (s : State) (a : AgentIx) (taps : Bool) (q : Nat) : List Word :=
  let u := s.unitOf a
  [word4 u.1 u.2 (if taps then 1 else 0) 0, (s.headerView a TWD_STATUS).getD 0] ++ two (s.instantOf (s.domainOfUnit a)) ++ s.unitState a q

def State.readUnit (s : State) (a : AgentIx) : AgentIx × Bool × List Word :=
  let taps := s.unitStopped a
  let u := s.unitOf a
  (a, taps, if u.1 = 1 then s.tileEntry (tileIx u.2) taps s.free else s.wardenEntry a taps s.free)

/-- A unit answers the read of a snapshot: it is read as it stands, and the next unit's read leaves (R251). -/
def State.unitRead (s : State) (a : AgentIx) : State :=
  match (List.range 2).find? fun b => (s.snap b).st == 1 && ((s.snap b).todo.take 8).contains a with
  | some b =>
    let x := s.snap b
    { s with free := s.free + 1 }.moveSnap b { x with todo := x.todo.erase a, read := x.read ++ [s.readUnit a] }
  | none => s

/-- The response timeout of a snapshot's read is the unit's (R251): NORESP, and nothing is sent again. -/
def State.readLate (s : State) (a : AgentIx) : State :=
  match (List.finRange 2).find? fun b => (s.snap b.val).st == 1 && (s.snap b.val).todo.contains a with
  | some b => doSnapshotUnitTimeout b a s
  | none => s.dropRead a

/-- SNAPSHOT_COMPLETE: every unit has been read or given up, the buffer is full, SNAPSHOT_TAKEN is recorded. -/
def doSnapshotComplete (b : Fin 2) (s : State) : State :=
  let x := s.snap b.val
  if x.st ≠ 1 ∨ x.todo ≠ [] then s
  else
    let ds := ((List.finRange 41).filter fun d => s.domExists d).map fun (d : DomainIx) =>
      (d.val, bit (s.hl.stop.getLsbD d) 0 + bit (s.hl.trip.getLsbD d) 1 + bit (s.hl.kill.getLsbD d) 2, cyclesOf d,
        (s.instantOf d.val) / 2 ^ 16, (s.instantOf d.val) % 2 ^ 16)
    let s1 := s.emit ⟨0, 0, b.val, 0x0A07, [i4 (x.noresp.length + x.lost.length)]⟩
    s1.setSnap b.val { x with st := 2, t1 := s.time.tb, doms := ds, smear := s.reg HRT_SMEAR
                              recSeq := s1.recd.seq }

/-! ### Meanings -/

def execSnapshotComplete (buffer : Fin 2) (s : State) : Res := done (doSnapshotComplete buffer s)

end Sys2Proof.Machine
end

