-- ==== Sys2Proof/Machine/Bellows.lean ====
section
/-! DEFINITION. Bellows (R50 to R83): routes and routers, messages at their receivers, the census, reports from a warden's queue to
what the Hearth does with them, responses and retransmission, warden ports. -/
namespace Sys2Proof.Machine

/-! ### Routes (R65, R66) -/

/-- Breadth-first layers: the elements at distance 0, 1, 2 and so on. -/
def layers {α : Type} [DecidableEq α] (next : α → List α) : Nat → List α → List α → List (List α)
  | 0, cur, _ => [cur]
  | f + 1, cur, seen =>
    let new := (cur.flatMap next).foldl (fun l x => if l.contains x || seen.contains x then l else l ++ [x]) []
    if new = [] then [cur] else cur :: layers next f new (seen ++ new)

/-- The neighbours of every die, by die index. -/
def State.adjacency (s : State) : List (List Nat) :=
  let ls := s.dieLinks
  (List.range 25).map fun d => ls.filterMap fun l => if l.1 = d then some l.2 else if l.2 = d then some l.1 else none

/-- A route graph: the neighbours of every die, the level of every router (its hop distance from the anchor router, R66 item 1), the
links not to use, and whether routes must be legal. -/
structure Graph where
  adj : List (List Nat)
  level : List Nat
  avoid : List (Nat × Nat) := []
  legal : Bool := true

def State.graph (s : State) : Graph :=
  let adj := s.adjacency
  let ls := layers (fun d => adj.getD d []) 14 [s.anchor.val] [s.anchor.val]
  ⟨adj, (List.range 25).map fun d => (ls.findIdx? fun l => l.contains d).getD 15, [], true⟩

/-- The neighbours of a die over the links in use. -/
def Graph.next (g : Graph) (x : Nat) : List Nat := (g.adj.getD x []).filter fun y => !(g.avoid.contains (x, y) || g.avoid.contains (y, x))

/-- A link is up from `x` to `y`. -/
def Graph.up (g : Graph) (x y : Nat) : Bool :=
  let a := g.level.getD x 15
  let b := g.level.getD y 15
  decide (b < a) || (decide (b = a) && decide (x < y))

/-- A route that has or has not gone down takes the link from `x` to `y`: whether it then has, if the step is legal (R66 item 2). -/
def Graph.hop (g : Graph) (x y : Nat) (down : Bool) : Option Bool :=
  if !g.legal then some false
  else if g.up x y then (if down then none else some false)
  else some true

/-- Routers, with whether the route has gone down there, from which `dst` lies at distance 0, 1, 2 and so on. -/
def Graph.routes (g : Graph) (dst : Nat) : List (List (Nat × Bool)) :=
  let back := fun (n : Nat × Bool) => (g.next n.1).flatMap fun x =>
    [false, true].filterMap fun b => if g.hop x n.1 b = some n.2 then some (x, b) else none
  layers back 14 [(dst, false), (dst, true)] [(dst, false), (dst, true)]

/-- The first link of the shortest route, ties to the highest die index (R66 item 4). -/
def Graph.firstHop (g : Graph) (r dst : Nat) : Option Nat :=
  let ns := g.next r
  (g.routes dst).findSome? fun l => (ns.filter fun n => ((g.hop r n false).map fun b => l.contains (n, b)).getD false).max?

/-- The links of the primary route from a router, entry by entry. -/
def Graph.route (g : Graph) (dst : Nat) : Nat → Nat → List (Nat × Nat)
  | 0, _ => []
  | f + 1, r =>
    if r = dst then []
    else match g.firstHop r dst with
      | some n => (r, n) :: g.route dst f n
      | none => []

/-- The primary entry (R66 item 4). -/
def State.primaryHop (s : State) (r dst : Nat) : Option Nat := s.graph.firstHop r dst

/-- The next link of a shortest route that has or has not gone down, and whether it then has. -/
def Graph.nextHop (g : Graph) (r : Nat) (down : Bool) (dst : Nat) : Option (Nat × Bool) :=
  let ns := (g.next r).filterMap fun n => (g.hop r n down).map fun b => (n, b)
  (g.routes dst).findSome? fun l => ((ns.filter fun x => l.contains x).map Prod.fst).max?.bind fun n => ns.find? fun x => x.1 = n

/-- The links of one shortest route, from its first router on. -/
def Graph.walk (g : Graph) (dst : Nat) : Nat → Nat → Bool → List (Nat × Nat)
  | 0, _, _ => []
  | f + 1, r, down =>
    if r = dst then []
    else match g.nextHop r down dst with
      | some (n, b) => (r, n) :: g.walk dst f n b
      | none => []

/-- The alternate route from a router (R66 item 5): the shortest legal one that shares no link with the primary route from there, else
the shortest that shares none. Read router by router the item admits no entry beside the destination; so a message keeps to the
alternate route of the router that marked it (DEDUCED, log 20). -/
def State.alternateRoute (s : State) (m dst : Nat) : List (Nat × Nat) :=
  let g := { s.graph with avoid := s.graph.route dst 14 m }
  let l := g.walk dst 14 m false
  if l = [] then { g with legal := false }.walk dst 14 m false else l

/-- The alternate entry at a router of a message that router `m` marked: the next link of the route from `m`, or of the router's own where it
lies off that route. -/
def State.alternateHop (s : State) (m r dst : Nat) : Option Nat :=
  (((s.alternateRoute m dst).find? fun e => e.1 = r).orElse fun _ => (s.alternateRoute r dst).head?).map Prod.snd

/-! ### Routers (R52, R53, R54, R66, R67) -/

/-- Flits of a message: HEAD, bodies, TAIL. -/
def flitsOf (h : Head) : Nat := h.bodyCount.val + 2

/-- The number of a router's port: its die ports 0 to 3, its agent port 4, whose counts no register shows (log 62). -/
def portNo (p : Option RPort) : Nat := (p.map Fin.val).getD 4

/-- A flit error is counted against the receiving port (R52). -/
def State.flitError (s : State) (d : DieIx) (p : Option RPort) : State := s.bump (portReg d BLW_PORT_FLITERR (portNo p))

/-- A router's island is powered and the router works. -/
def State.routerUp (s : State) (d : DieIx) : Bool :=
  s.dieExists d && s.islandOn d.val && !(s.agent (routerAgent d)).failed

/-- The router sends a message on a port. -/
def State.forwardOn (s : State) (d : DieIx) (p : Nat) (alt aborted : Bool) : State :=
  let s1 := s.add64 (portReg d BLW_PORT_MSGS_LO p) (portReg d BLW_PORT_MSGS_HI p) 1
  (if alt then s1.bump (dieReg d BLW_ROUTE_ALT) else s1).emitOut (.forward d (Fin.ofNat 4 p) alt aborted)

/-- The router ends a message with BAD_AGENT. -/
def State.badAgent (s : State) (d : DieIx) (src : AgentIx) : State := s.emitOut (.bellows (routerAgent d) src (.answer 5 []))

/-- The live port of a message that a router passes on, and whether it leaves marked alternate: by the primary entry, by the alternate
entry once it is marked or the primary port is dead (R66, R67). -/
def State.wayOn (s : State) (d : DieIx) (h : Head) : Option (Nat × Bool) :=
  let live := fun (n : Option Nat) => (n.bind fun n => s.portTo d.val n).filter fun p => !s.portDead d p
  let prim := if h.alternate.isSome then none else live (s.primaryHop d.val h.destDie.val)
  match prim with
  | some p => some (p, false)
  | none => (live (s.alternateHop (h.alternate.getD d).val d.val h.destDie.val)).map fun p => (p, true)

/-- A message on its way through a router. -/
def State.routeOn (s : State) (d : DieIx) (h : Head) : State :=
  match s.wayOn d h with
  | some (p, alt) => s.forwardOn d p alt h.error.isSome
  | none => s.badAgent d h.src

/-- One message at a router. -/
def State.forwardOne (s : State) (d : DieIx) (h : Head) : State :=
  if !s.routerUp d then s
  else if (h.port.map fun p => s.portDead d p.val).getD false then
    s.bump (portReg d BLW_PORT_SINK (portNo h.port)) (flitsOf h)
  else if h.error = some .head ∨ h.bodyCount.val < 2 ∨ 25 ≤ h.destDie.val then s.flitError d h.port
  else
    let s1 := if h.error.isSome then s.flitError d h.port else s
    if h.destDie.val = d.val then
      let a : AgentIx := ⟨d, h.destAgent⟩
      if !s.agentExists a then s1.badAgent d h.src else s1.emitOut (.deliver a h.error.isSome)
    else s1.routeOn d h

/-- Requests in the order in which a mutual-exclusion element grants them: one after another, each drawn from those still present (R68). -/
def grantOrder (draw : Nat) : Nat → List Head → List Head
  | 0, l => l
  | _, [] => []
  | f + 1, l =>
    let i := Config.grant draw l.length % l.length
    l[i]?.toList ++ grantOrder draw f (l.eraseIdx i)

/-- Requests in rounds: every waiting input once before any input again (R69). -/
def grantRounds (draw : Nat) : Nat → List Head → List Head
  | 0, l => l
  | f + 1, l =>
    let now := l.zipIdx.filter fun (x : Head × Nat) => !((l.take x.2).any fun y => y.port == x.1.port)
    let then' := l.zipIdx.filter fun (x : Head × Nat) => (l.take x.2).any fun y => y.port == x.1.port
    grantOrder draw now.length (now.map Prod.fst) ++ (if then' = [] then [] else grantRounds draw f (then'.map Prod.fst))

/-- The output of a message at a router: a die port, the agent port (4), or none where the router ends it itself. -/
def State.outputOf (s : State) (d : DieIx) (h : Head) : Option Nat :=
  if h.error = some .head ∨ h.bodyCount.val < 2 ∨ 25 ≤ h.destDie.val then none
  else if h.destDie.val = d.val then (if s.agentExists ⟨d, h.destAgent⟩ then some 4 else none)
  else (s.wayOn d h).map Prod.fst

/-- Ties of an output: each grant made while further requests for it are present decides one (R68). -/
def State.countTies (s : State) (d : DieIx) (hs : List Head) : State :=
  s.each (List.range 5) fun s' p =>
    let n := (hs.filter fun h => s.outputOf d h == some p).length
    if 2 ≤ n then s'.bump (portReg d BLW_PORT_TIES p) (n - 1) else s'

/-- ROUTER_FORWARD: the requests present together at a router. -/
def doRouterForward (d : DieIx) (h : Head) (others : List Head) (s : State) : State :=
  if others = [] ∨ !s.routerUp d then s.forwardOne d h
  else ((s.countTies d (h :: others)).each (grantRounds s.free (others.length + 1) (h :: others)) fun s h => s.forwardOne d h).drawn

/-- A wired port is declared dead (R67): sink mode, counted, reported. -/
def State.declareDead (s : State) (d : DieIx) (p : RPort) (timeout : Bool) : State :=
  let k := portReg d BLW_PORT p.val
  if !s.routerUp d || (s.neighbours d.val)[p.val]? == none || s.portDead d p.val then s
  else ((s.setFld k 30 29 (2 + bit timeout 0)).bumpFld k 15 0).wardenReport (routerAgent d) (.portDead d p timeout)

/-- ALIVE_LOW. -/
def doAliveLow (d : DieIx) (p : RPort) (s : State) : State := s.declareDead d p false

/-- HANDSHAKE_TIMEOUT: timed by the tick of REFCLK (R63). -/
def doHandshakeTimeout (d : DieIx) (p : RPort) (s : State) : State := if s.time.refclk then s.declareDead d p true else s

/-- PORT_ERROR_SAMPLE (R64): each whole second the Hearth compares the flit-error counts with those of the last sample. -/
def doPortErrorSample (s : State) : State :=
  if s.sq.run ≠ .running then s
  else
    let thr := s.fld (dieReg s.anchor BLW_PORT_ERR_THRESH) 15 0
    let ports := ((List.finRange 25).filter s.dieExists).flatMap fun d => (List.range (s.neighbours d.val).length).map fun p => (d, p)
    s.each ports fun s e =>
      let k := e.1.val * 4 + e.2
      let now := (s.reg (portReg e.1 BLW_PORT_FLITERR e.2)).toNat
      let was := tget s.bus.fliterr k 0
      let rise := if was ≤ now then now - was else now
      let s1 := { s with bus := { s.bus with fliterr := tput s.bus.fliterr k now } }
      if thr < rise then s1.emit ⟨1, 5, e.1.val, 0x0004, [i1 e.2, i4 rise]⟩ else s1

/-! ### Warden ports (R80) -/

/-- PORT_RESET_SEEN: the port resynchronises; what was unread is discarded and counted. -/
def doPortResetSeen (a : AgentIx) (unread : Nat) (s : State) : State :=
  if !s.agentExists a || a == s.hearthAgent then s
  else (s.modAgent a fun x => { x with resync := true, discard := x.discard + unread, unitQ := 0, unitHeld := none }).bump
    (s.pageBase a + TWD_PORT_DISCARD) unread

/-- PORT_OPEN: both sides are ready. A tile warden held lost that opens its port in the reset its loss has brought answers again (R240, assumption
log 82). -/
def doPortOpen (a : AgentIx) (s : State) : State :=
  let back := (s.agent a).failed && (s.agent a).resync && (s.unitOf a).1 == 1 &&
    s.esc.reset.any fun r => r.phase == .aligning && r.parts.getLsbD (s.partOfTile (tileIx (s.unitOf a).2)).val
  (if back then s.modAgent a fun x => { x with failed := false } else s).openPort a

/-! ### Messages at wardens and routers (R53 to R60) -/

/-- An agent's response. -/
def State.respond (s : State) (a : AgentIx) (st : Nat) (data : List Word) : State :=
  s.emitOut (.bellows a s.hearthAgent (.answer st data))

/-- A request from the Hearth at an agent, with its class, opcode and operand flits: a source other than the Hearth is counted and discarded;
a broken message is answered RETRY, a repeated one with the cached response; a wrong level LEVEL_MISMATCH, then an unassigned opcode
BAD_OPCODE; else it is acted on, and its answer kept. The census is carried out at level 1 (R82), so its LEVEL_SET is taken at level 1 also by an
agent of the anchor die that has kept a level through a chip reset (R43). -/
def State.atAgent (s : State) (e : Env) (cls op : Nat) (operands : List Nat) (act : State → State × Nat × List Word) : State :=
  let a := e.dst
  let x := s.agent a
  if !s.dieExists a.die || !s.islandOn a.die.val || a == s.hearthAgent then s
  else if !s.agentExists a then s.badAgent a.die (envSrc e)
  else if x.failed then s
  else if e.srcDie ≠ s.anchor ∨ e.srcAgent ≠ 0 then s.bump (s.pageBase a + TWD_SRC_ERR)
  else if !envIntact e cls op operands then s.respond a 1 []
  else match (tget? x.last cls).filter fun l => l.seq == e.seq.val with
    | some l => s.respond a l.status l.data
    | none =>
      let level := if op = 0x40 ∨ x.level = 0 then 1 else x.level
      let r := if e.wire.level.val ≠ level ∧ ¬ (op = 0x42 ∧ e.wire.level.val = 1) then (s, 2, []) else if wireBadOp e.wire then (s, 3, []) else act s
      (r.1.modAgent a fun x => { x with last := tput x.last cls ⟨e.seq.val, r.2.1, r.2.2⟩ }).respond a r.2.1 r.2.2

/-- The path of offset bits [13:12]: host, core, CMP. -/
def pathOf (p : Fin 4) : Option Path :=
  match p.val with
  | 0 => some .host
  | 1 => some .core
  | 2 => some (.cmp 0)
  | _ => none

/-- The register of an agent's page at an offset: a router serves its own block of the die warden's page (R505). -/
def State.agentRow (s : State) (a : AgentIx) (off : Nat) : Option (RegRow × PageKind × Nat × Nat) :=
  let base := s.pageBase a
  if 0x1000 ≤ off ∨ off % 4 ≠ 0 then none
  else match pageOf (base + off), rowAt (base + off) with
    | some (k, n, _), some (r, _) =>
      let mine := if a.agent = 31 then decide (0x800 ≤ off) else (k != .die || decide (off < 0x800))
      if mine && !s.unpopulated k n off then some (r, k, n, base) else none
    | _, _ => none

/-- REG_READ at an agent. -/
def doRegRead (e : Env) (off : Nat) (path : Fin 4) (s : State) : State :=
  s.atAgent e 3 0x01 [off % 4096 + path.val * 2 ^ 12] fun s => match s.agentRow e.dst off, pathOf path with
    | some (r, k, n, base), some p =>
      let x := s.readRow p r k n base (base + off)
      (x.1, 0, [x.2])
    | _, _ => (s, 4, [])

/-- REG_WRITE at an agent: the Hearth has made the checks of world and transaction. A value out of range changes nothing, is an access error
of kind 3, and is answered BAD_OFFSET, the one status of R57 that turns a register access away (R7, assumption log 63). A write that is not 0 to
reserved bits is an access error of kind 1, and the defined bits are written (R18). -/
def doRegWrite (e : Env) (off : Nat) (path : Fin 4) (v : Word) (s : State) : State :=
  s.atAgent e 3 0x02 ((off % 4096 + path.val * 2 ^ 12) :: flits 2 v.toNat) fun s => match s.agentRow e.dst off, pathOf path with
    | some (r, k, n, base), some p =>
      let o := base + off
      let w := v &&& r.mask
      let s1 := if v &&& ~~~ r.mask = 0 then s else s.accessError p 1 o
      if r.code = .ro ∨ r.code = .rc then (s, 0, [])
      else if r.code = .w1c then (s1.setReg o (s1.reg o &&& ~~~ w), 0, [])
      else if s1.outOfRange k off (s1.itemOf p r base) w then (s1.accessError p 3 o, 4, [])
      else
        let x := s1.wardenAct p k n off w
        (if x.2.2 then x.1.putReg p r base o x.2.1 else x.1, 0, [])
    | _, _ => (s, 4, [])

/-- BLOCK_READ at an agent: level 2 only, one to six words. -/
def doBlockRead (e : Env) (off count : Nat) (s : State) : State :=
  s.atAgent e 3 0x03 [off % 4096, count] fun s =>
    if (s.agent e.dst).level ≠ 2 then (s, 3, [])
    else
      let offs := (List.range count).map fun i => off + 4 * i
      if count = 0 ∨ 6 < count ∨ offs.any fun o => (s.agentRow e.dst o).isNone then (s, 4, [])
      else
        let x := offs.foldl (fun (x : State × List Word) o => match x.1.agentRow e.dst o with
          | some (r, k, n, base) => let y := x.1.readRow .core r k n base (base + o); (y.1, x.2 ++ [y.2])
          | none => x) (s, [])
        (x.1, 0, x.2)

/-- A port flit of a router's CENSUS_REPLY: ALIVE in bit 15, the neighbour's die index in [4:0], 0x1F for an unwired port. -/
def portFlit (p : Option (DieIx × Bool)) : Nat :=
  match p with
  | some (d, alive) => bit alive 15 + d.val
  | none => 0x1F

/-- Two flits as a data word, low flit first (R53). -/
def flitPair (lo hi : Nat) : Word := w32 (lo % 65536 + hi % 65536 * 65536)

/-- The data of a CENSUS_REPLY (R55, R82): an identity flit and a levels flit, then a router's mask and four port flits: 6 and 12 flits in all.
DESIGN CHOICE (assumption log 64): the spec names what the flits hold and not their bits; here identity is [15:12] the kind, [11:4] the
page index, [0] a failed self-test; levels is [15:8] the stepping, [7:4] the maximum and [3:0] the minimum level; a port flit has ALIVE in
bit 15 and the die index in [4:0]. -/
def State.censusWords (s : State) (a : AgentIx) (b : CensusBody) : List Word :=
  let u := s.unitOf a
  let head := fun (st mn mx : Nat) (bad : Bool) =>
    flitPair (u.1 * 2 ^ 12 + u.2 * 2 ^ 4 + bit bad 0) (st % 256 * 2 ^ 8 + mx % 16 * 2 ^ 4 + mn % 16)
  match b with
  | .agent st mn mx bad => [head st mn mx bad]
  | .router m ps =>
    let x := s.agent a
    let f := fun (k : Nat) => portFlit (ps.getD k none)
    [head x.stepping x.minLevel x.maxLevel x.failed, m, flitPair (f 0) (f 1), flitPair (f 2) (f 3)]

/-- CENSUS_PROBE at an agent: it answers with what it is. -/
def doCensusProbe (e : Env) (b : CensusBody) (s : State) : State :=
  s.atAgent e 1 0x40 [] fun s =>
    let s1 := match b with
      | .agent st mn mx bad => s.modAgent e.dst fun x => { x with stepping := st, minLevel := mn, maxLevel := mx, failed := x.failed || bad }
      | .router m _ => if e.dst.agent = 31 then s.setReg (dieReg e.dst.die BLW_AGENTS) m else s
    (s1, 0, s.censusWords e.dst b)

/-- LEVEL_SET at an agent: the level in force and the response timeout. -/
def doLevelSet (e : Env) (level : Fin 16) (timeout : Nat) (s : State) : State :=
  s.atAgent e 1 0x42 [level.val + timeout % 128 * 2 ^ 4] fun s => (s.modAgent e.dst fun x => { x with level := level.val, timeout := timeout }, 0, [])

/-! ### The census at the Hearth (R82, R305) -/

/-- A neighbour that disagrees with R65 counts as missing at both ends, and each end is recorded under its own die (R305). -/
def State.wiringBad (s : State) (d : DieIx) (p : Nat) : State :=
  let s1 := s.loseDie d ⟨5, 5, d.val, 0x0709, [i1 p]⟩
  match (s.neighbours d.val)[p]? with
  | some n => if s1.bu.failed then s1 else s1.loseDie (dieIx n) ⟨5, 5, n, 0x0709, [i1 ((s.portTo n d.val).getD p)]⟩
  | none => s1

/-- What a router's reply shows: its neighbours are compared, and the agents and routers it leads to are probed. -/
def State.censusRouter (s : State) (d : DieIx) (m : BitVec 32) (ports : List (Option (DieIx × Bool))) : State :=
  let got := fun p => ports.getD p none
  let agrees := fun p => decide ((s.neighbours d.val)[p]? = (got p).map fun x => x.1.val)
  let s1 := s.each ((List.range 4).filter fun p => !agrees p) fun s p => if s.bu.failed then s else s.wiringBad d p
  let unseen := fun (a : AgentIx) => s1.agentExists a && a != s1.hearthAgent && !(s1.agent a).present && !(s1.agent a).probing &&
    !(s1.agent a).excluded
  let here := ((List.finRange 32).filter fun k => m.getLsbD k.val).map fun k => (⟨d, k⟩ : AgentIx)
  let far := ((List.range 4).filter agrees).filterMap fun p => (got p).bind fun x => if x.2 then some (routerAgent x.1) else none
  if s1.bu.failed then s1 else s1.each ((here ++ far).filter unseen) State.probe

/-- CENSUS_REPLY: a failed self-test is a missing part (R269). -/
def doCensusReply (a : AgentIx) (b : CensusBody) (s : State) : State :=
  if !(s.censusOpen && s.agentExists a && (s.agent a).probing) then s
  else
    let s1 := (s.answered a 1).modAgent a fun x => { x with probing := false, present := true }
    let s2 := match b with
      | .agent st mn mx bad =>
        let s2 := s1.modAgent a fun x => { x with stepping := st, minLevel := mn, maxLevel := mx, failed := x.failed || bad }
        if bad then s2.missingPart a true else s2
      | .router m ps => if a.agent = 31 then (s1.setReg (dieReg a.die BLW_AGENTS) m).censusRouter a.die m ps else s1
    s2.censusNext

/-! ### What the Hearth does with a report -/

/-- At level 1 the Hearth reads what a level-2 report carries in its parts (R133, R166): it writes the selection and reads the registers behind
it, under its own path. -/
def State.readBehind (s : State) (a : AgentIx) (sel : Nat) (v : Nat) (offs : List Nat) : State :=
  if (s.agent a).level = 2 then s
  else (s.command a (.regWrite sel 1 (w32 v))).each offs fun s o => s.command a (.regRead o 1)

/-- The registers behind SWD_OFD_SEL. -/
def digestOffsets : List Nat :=
  [SWD_OFD_FLAGS, SWD_OFD_L0_LO, SWD_OFD_L0_HI, SWD_OFD_L1_LO, SWD_OFD_L1_HI, SWD_OFD_COUNT_LO, SWD_OFD_COUNT_HI]

/-- The journal slot that holds a comparison's items. -/
def State.itemsSlot (s : State) (t p : TileIx) (role : DigestRole) (seq : Word) : Nat :=
  ((if role = .primary then (s.tile t).slotOf seq else (s.tile t).dutyOf p seq).map Prod.fst).getD 0

/-- The Hearth acts on a report whose parts have all arrived. -/
def State.actOn (s : State) (r : Rep) : State :=
  let e := repEvent s r
  match r with
  | .residueTransient .. => s.emit e
  | .residueRepeat t .. =>
    if (s.reg (tileReg t TWD_FENCE)).getLsbD 30 && tget? s.plan.fencing t.val == none && ((s.fpOf t).st == .good || (s.fpOf t).st == .spare) then
      doTileFenceCommand t 1 (s.modPlan fun p => { p with fencing := tput p.fencing t.val (some e, s.detected t 1, none, 1) })
    else s.orderFence t 1 (some e)
  | .residueInputSuspect _ c st q .. => (s.emit e).contextFault c e.word st q
  | .residueNonidem t c st q .. => ((s.emit e).contextFault c e.word st q).requestAnvil t .nonidem [0, 1]
  | .residueNoReplay t c st q .. => ((s.emit e).contextFault c e.word st q).requestAnvil t .nonidem [0, 1]
  | .checkerFault t .. => s.orderFence t 2 (some e)
  | .tileWatchdog t .. => s.orderFence t 5 (some e)
  | .epochDrain _ c st => (s.emit e).contextFault c e.word st 0
  | .slagTile .. => s.emit e
  | .slagStack .. => s.emit e
  | .controlUE .. => (s.emit e).trigger .chip 0xF e.word false
  | .pathParity .. => s.emit e
  | .slagConsumed _ c st q _ => ((s.emit e).bump HRT_SLAG_CONSUMED).contextFault c e.word st q
  | .shadowDigest t role p it =>
    let s1 := s.readBehind (tileAgent t) TWD_JNL_SEL (64 + s.itemsSlot t p role it.seq) ((List.range 32).map fun w => TWD_JNL_WORD + 4 * w)
    if role = .arbiter then s1.verdict t it else s1.takeItems t role p it
  | .latch n h st o k f _ =>
    (s.readBehind (s.stackAgent n) SWD_OFD_SEL h.val digestOffsets).takeLatch h.val st ⟨o.lane0, o.lane1, k, f⟩
  | .accumFault .. => s.emit e
  | .edge g => s.takeEdge g
  | .edgeGone c q p k => s.dropEdge c q p k
  | .portResync _ _ n => if n = 0 then s else s.emit e
  | .portDead .. => s.emit e
  | .unitNoresp t => s.orderFence t 6 none
  | .hbmRow .. => s.emit e
  | .domainLate d => s.lateDomain d
  | .wardenFailed a => (s.emit e).wardenLost a

/-! ### Reports on their way (R29, R59 to R62) -/

def Sending.sentNow : Sending → Bool
  | .sent _ => true
  | _ => false

/-- The level an agent sends at: 1 until LEVEL_SET (R53). -/
def State.sendLevel (s : State) (a : AgentIx) : Nat := if (s.agent a).level = 2 then 2 else 1

/-- The message of a queued report: the level it is sent at, its part, its operand flits (R55, R56). -/
def State.reportBell (s : State) (a : AgentIx) (q : QRep) : Bell := .report q.rep (s.sendLevel a) q.part (repFlits s q.rep (s.sendLevel a) q.part)

/-- The first report of an idle queue is sent, with the next sequence number. -/
def State.sendReport (s : State) (a : AgentIx) : State :=
  let x := s.agent a
  match x.queue with
  | q :: r =>
    if x.queue.all fun e => e.state == .unsent then
      (s.setAgent a { x with queue := { q with state := .sent 0, seq := x.nextSeq } :: r, nextSeq := (x.nextSeq + 1) % 64 }).emitOut
        (.bellows a s.hearthAgent (s.reportBell a q))
    else s
  | [] => s

/-- REPORT_SEND. -/
def doReportSend (a : AgentIx) (s : State) : State :=
  if s.agentExists a && s.islandOn a.die.val && !(s.agent a).failed then s.sendReport a else s

/-- REPORT_DROPPED: a new report meets a queue that holds 16. -/
def doReportDropped (a : AgentIx) (r : Rep) (s : State) : State := s.when (decide (16 ≤ (s.agent a).queue.length)) fun s => s.dropReport a r

/-- The sequence number of a report that arrives: it is the one outstanding, or has just been sent. -/
def State.seqOf (s : State) (a : AgentIx) (r : Rep) : State × Nat :=
  match (s.agent a).queue.find? fun q => q.rep == r && q.state != .unsent with
  | some q => (s, q.seq)
  | none =>
    let s1 := if (s.agent a).queue.any fun q => q.rep == r then s else s.wardenReport a r
    let n := (s1.agent a).nextSeq
    (s1.modAgent a fun x => { x with
      nextSeq := (n + 1) % 64
      queue := x.queue.map fun (q : QRep) => if q.rep = r then { q with state := .sent 0, seq := n } else q }, n)

/-- The Hearth answers an agent's message. -/
def State.hearthAnswers (s : State) (a : AgentIx) (st : Nat) : State := s.emitOut (.bellows s.hearthAgent a (.answer st []))

/-- A report message at the Hearth, with its opcode, operand flits, part and parts: broken ones are answered RETRY; one taken already is
answered again; one held is discarded; a wrong level is answered LEVEL_MISMATCH, an unassigned opcode or a REPORT_DATA at level 1
BAD_OPCODE (R57); any other joins the report queue. A core that does not run answers nothing (R61). -/
def State.reportAt (s : State) (a : AgentIx) (r : Rep) (op : Nat) (operands : List Nat) (part count tag : Nat) (w : Wire) : State :=
  let x := s.seqOf a r
  let reply := fun (st : Nat) => if s.sq.run = .running then x.1.hearthAnswers a st else x.1
  if !s.agentExists a || a == s.hearthAgent then s
  else if !wireIntact w s.hearthAgent a 0 x.2 op operands then reply 1
  else if tget? x.1.bus.taken (agentKey a) = some x.2 then reply 0
  else if x.1.bus.queue.any fun h => h.src == a && h.seq == x.2 then x.1
  else if w.level.val ≠ x.1.bus.level then reply 2
  else if wireBadOp w || (op == 0x11 && x.1.bus.level != 2) then reply 3
  else { x.1 with bus := { x.1.bus with queue := x.1.bus.queue ++ [⟨a, r, x.2, part, count, tag⟩] } }

/-- REPORT: the error code alone. -/
def doReport (a : AgentIx) (r : Rep) (w : Wire) (s : State) : State := s.reportAt a r 0x10 (repFlits s r 1 0) 0 1 0 w

/-- REPORT_DATA: the code with data, one part of as many as the report has. -/
def doReportData (a : AgentIx) (r : Rep) (part : Nat) (w : Wire) (s : State) : State :=
  s.reportAt a r 0x11 (repFlits s r 2 part) part (repParts r) (repTag r) w

/-- A part of a report is there: the report is acted on once it has every part (R56). -/
def State.takePart (s : State) (h : HRep) : State :=
  let same := fun (p : AgentIx × Rep × Nat × List Nat) => p.1 == h.src && p.2.1 == h.rep && p.2.2.1 == h.tag
  let seen := ((s.bus.parts.find? same).map fun p => p.2.2.2).getD []
  let now := if seen.contains h.part then seen else h.part :: seen
  let rest := s.bus.parts.filter fun p => !same p
  if h.count ≤ now.length then ({ s with bus := { s.bus with parts := rest } }).actOn h.rep
  else { s with bus := { s.bus with parts := rest ++ [(h.src, h.rep, h.tag, now)] } }

/-- REPORT_TAKEN: the firmware takes the oldest report, answers it, and acts on it once (R60, R61). -/
def doReportTaken (s : State) : State :=
  match s.bus.queue with
  | h :: rest =>
    if s.sq.run ≠ .running then s
    else
      let s1 := ({ s with bus := { s.bus with queue := rest, taken := tput s.bus.taken (agentKey h.src) h.seq } }).hearthAnswers h.src 0
      s1.takePart h
  | [] => s

/-! ### Responses and timeouts (R57, R60, R62) -/

def bellOpcode : Bell → Nat
  | .censusProbe => 0x40
  | .levelSet .. => 0x42
  | .regRead .. => 0x01
  | .regWrite .. => 0x02
  | .snapshotRead => 0x03
  | _ => 0x20

/-- The Hearth abandons a message: counted, recorded, a fence taken as unconfirmed, the warden lost (R62, R200, R240). -/
def State.hearthAbandon (s : State) (a : AgentIx) (m : Sent) : State :=
  let s1 := ((s.answered a (bellClass m.bell)).bump (dieReg s.anchor BLW_HEARTH_ABANDON)).emit
    ⟨5, 5, a.die.val, 0x0003, [i4 a.agent.val, i4 (bellOpcode m.bell)]⟩
  let s2 := match m.bell with
    | .fence t _ => doFenceUnconfirmed t s1
    | _ => s1
  s2.wardenLost a

/-- One more transmission of the Hearth's outstanding message, or its abandonment after the fourth; the last two take the alternate route
(R50, R62). -/
def State.hearthAgain (s : State) (a : AgentIx) (m : Sent) (rest : List Sent) : State :=
  if 4 ≤ m.tries then (if m.bell = .snapshotRead then s.readLate a else s.hearthAbandon a m)
  else
    let s1 := { s with bus := { s.bus with out := tput s.bus.out (agentKey a * 4 + bellClass m.bell) ({ m with tries := m.tries + 1 } :: rest) } }
    (s1.bump (dieReg s.anchor BLW_HEARTH_RETRY)).emitOut (.again s.hearthAgent a m.bell (decide (2 ≤ m.tries)))

/-- A response to the Hearth. A stack or link warden confirms a kill by it (R242). -/
def State.hearthResponse (s : State) (a : AgentIx) (cls seq st : Nat) : State :=
  match tget s.bus.out (agentKey a * 4 + cls) [] with
  | m :: rest =>
    if m.seq ≠ seq ∨ bellClass m.bell ≠ cls then s
    else if st = 1 then s.hearthAgain a m rest
    else if st = 5 then (if m.bell = .snapshotRead then s.readLate a else s.hearthAbandon a m)
    else
      let s1 := (s.answered a cls).modAgent a fun x => { x with unitCmd := if m.bell.forUnit then none else x.unitCmd }
      let u := s.unitOf a
      let s2 := match m.bell with
        | .kill c => if u.1 = 1 then s1 else s1.killConfirmed a c
        | .snapshotRead => if st = 0 then s1.unitRead a else s1
        | _ => s1
      if st = 6 ∧ u.1 = 1 then s2.orderFence (tileIx u.2) 6 none else s2
  | [] => s

/-- The warden's outstanding report is abandoned: it keeps it, and counts (R62). -/
def State.wardenAbandon (s : State) (a : AgentIx) : State :=
  (s.modAgent a fun x => { x with queue := x.queue.map fun (q : QRep) => if q.state.sentNow then { q with state := .again, part := 0 } else q }).bump
    (s.pageBase a + TWD_ABANDON)

/-- One more transmission of the warden's outstanding report, or its abandonment after the fourth. -/
def State.wardenAgain (s : State) (a : AgentIx) : State :=
  match (s.agent a).queue.find? fun q => q.state.sentNow with
  | some q => match q.state with
    | .sent n =>
      if 4 ≤ n then s.wardenAbandon a
      else (s.modAgent a fun x => { x with
        queue := x.queue.map fun (r : QRep) => if r.state.sentNow then { r with state := .sent (n + 1) } else r }).emitOut
          (.again a s.hearthAgent (s.reportBell a q) (decide (2 ≤ n)))
    | _ => s
  | none => s

/-- The warden's outstanding report is answered: the next part of it follows, or it leaves the queue, where a latch report that waits takes the
room. -/
def State.reportDone (s : State) (a : AgentIx) (q : QRep) : State :=
  if q.part + 1 < partsAt (s.sendLevel a) q.rep then
    s.modAgent a fun x => { x with queue := x.queue.map fun (r : QRep) => if r = q then { r with state := .unsent, part := r.part + 1 } else r }
  else
    let s1 := s.modAgent a fun x => { x with queue := x.queue.erase q }
    if (s.unitOf a).1 = 2 then s1.pumpReports (Fin.ofNat 24 (s.unitOf a).2) else s1

/-- A response to a warden. -/
def State.wardenResponse (s : State) (a : AgentIx) (seq st : Nat) : State :=
  match (s.agent a).queue.find? fun q => q.state.sentNow && q.seq == seq with
  | some q => if st = 1 then s.wardenAgain a else if st = 5 then s.wardenAbandon a else s.reportDone a q
  | none => s

/-- RESPONSE. -/
def doResponse (who : Sender) (a : AgentIx) (cls : MsgClass) (seq : Fin 64) (st : Fin 16) (s : State) : State :=
  match who with
  | .hearth => s.hearthResponse a (classNum cls) seq.val st.val
  | .warden w => if cls = .report then s.wardenResponse w seq.val st.val else s

/-- RESPONSE_TIMEOUT: the Hearth times by the time base, wardens by the tick of REFCLK (R63). -/
def doResponseTimeout (who : Sender) (a : AgentIx) (cls : MsgClass) (s : State) : State :=
  match who with
  | .hearth => match tget s.bus.out (agentKey a * 4 + classNum cls) [] with
    | m :: rest =>
      if m.bell = .snapshotRead then s.readLate a
      else if bellClass m.bell = classNum cls then s.hearthAgain a m rest else s
    | [] => s
  | .warden w => if s.time.refclk && cls == .report then s.wardenAgain w else s

/-- REPORT_RESEND_TIMER: 100 µs after an abandonment, the same message in a new series. -/
def doReportResendTimer (a : AgentIx) (s : State) : State :=
  match (s.agent a).queue.find? fun q => q.state == .again with
  | some q =>
    if s.time.refclk then
      (s.modAgent a fun x => { x with queue := x.queue.map fun (r : QRep) => if r = q then { r with state := .sent 0 } else r }).emitOut
        (.bellows a s.hearthAgent (s.reportBell a q))
    else s
  | none => s

/-! ### Commands for a unit (R79) -/

/-- The one response to a unit command. -/
def State.unitAnswers (s : State) (a : AgentIx) (st : Nat) : State :=
  match (s.agent a).unitCmd with
  | some q => (s.modAgent a fun x => { x with unitCmd := none, last := tput x.last 1 ⟨q, st, []⟩ }).respond a st []
  | none => s

/-- The unit has read the queue. -/
def State.unitReads (s : State) (a : AgentIx) : State := (s.countHeld a).modAgent a fun x => { x with unitQ := 0 }

/-- UNIT_TAKES_COMMAND. -/
def doUnitTakesCommand (a : AgentIx) (s : State) : State := if (s.agent a).unitCmd.isSome then (s.unitReads a).unitAnswers a 0 else s

/-- UNIT_WAIT_EXPIRY. -/
def doUnitWaitExpiry (a : AgentIx) (s : State) : State :=
  if s.time.refclk && (s.agent a).unitCmd.isSome then ((s.countHeld a).bump (s.pageBase a + TWD_NORESP)).unitAnswers a 6 else s

/-! ### Meanings -/

def execReportSend (a : AgentIx) (s : State) : Res := done (doReportSend a s)
def execReportDropped (a : AgentIx) (r : Rep) (s : State) : Res := done (doReportDropped a r s)
def execRouterForward (d : DieIx) (h : Head) (others : List Head) (s : State) : Res := done (doRouterForward d h others s)
def execRegRead (e : Env) (off : Nat) (path : Fin 4) (s : State) : Res := done (doRegRead e off path s)
def execRegWrite (e : Env) (off : Nat) (path : Fin 4) (v : Word) (s : State) : Res := done (doRegWrite e off path v s)
def execBlockRead (e : Env) (off count : Nat) (s : State) : Res := done (doBlockRead e off count s)
def execReport (a : AgentIx) (r : Rep) (w : Wire) (s : State) : Res := done (doReport a r w s)
def execReportData (a : AgentIx) (r : Rep) (part : Nat) (w : Wire) (s : State) : Res := done (doReportData a r part w s)
def execReportTaken (s : State) : Res := done (doReportTaken s)
def execResponse (who : Sender) (a : AgentIx) (cls : MsgClass) (seq : Fin 64) (st : Fin 16) (s : State) : Res :=
  done (doResponse who a cls seq st s)
def execResponseTimeout (who : Sender) (a : AgentIx) (cls : MsgClass) (s : State) : Res := done (doResponseTimeout who a cls s)
def execReportResendTimer (a : AgentIx) (s : State) : Res := done (doReportResendTimer a s)
def execCensusProbe (e : Env) (b : CensusBody) (s : State) : Res := done (doCensusProbe e b s)
def execCensusReply (a : AgentIx) (b : CensusBody) (s : State) : Res := done (doCensusReply a b s)
def execLevelSet (e : Env) (level : Fin 16) (timeout : Nat) (s : State) : Res := done (doLevelSet e level timeout s)
def execUnitWaitExpiry (a : AgentIx) (s : State) : Res := done (doUnitWaitExpiry a s)
def execUnitTakesCommand (a : AgentIx) (s : State) : Res := done (doUnitTakesCommand a s)
def execAliveLow (d : DieIx) (p : RPort) (s : State) : Res := done (doAliveLow d p s)
def execHandshakeTimeout (d : DieIx) (p : RPort) (s : State) : Res := done (doHandshakeTimeout d p s)
def execPortErrorSample (s : State) : Res := done (doPortErrorSample s)
def execPortResetSeen (a : AgentIx) (unread : Nat) (s : State) : Res := done (doPortResetSeen a unread s)
def execPortOpen (a : AgentIx) (s : State) : Res := done (doPortOpen a s)

end Sys2Proof.Machine
end

