-- ==== Sys2Proof/Machine/HostCmds.lean ====
section
/-! DEFINITION. NOP, unassigned opcodes, and the host command that a row or a CMP COMMAND carries (R419, R470). -/
namespace Sys2Proof.Machine

/-- NOP: operator or any context. -/
def serveNop (p : Pend) (s : State) : State := s.serveAs p false none fun s => s.ok p []

/-- An opcode that R419 does not list. -/
def serveBad (p : Pend) (s : State) : State := s.fail p .badOpcode

/-- Opcodes (R419). -/
def hostOpcode : HostCmd → Nat
  | .nop => 0x01
  | .txnBegin => 0x10
  | .itemRegion .. => 0x11
  | .itemPortRole .. => 0x11
  | .itemRoute .. => 0x11
  | .itemSlice .. => 0x11
  | .itemSparing .. => 0x11
  | .txnCommit _ => 0x12
  | .txnAbort => 0x13
  | .fnEnable _ => 0x20
  | .fnDisable _ => 0x21
  | .contextKill _ => 0x30
  | .removeAck => 0x31
  | .resetPartition _ => 0x32
  | .resetComputePart => 0x32
  | .resetChip => 0x32
  | .boundaryStop .. => 0x33
  | .boundaryResume => 0x34
  | .escRelease => 0x35
  | .snapshot _ => 0x36
  | .snapCopy .. => 0x37
  | .snapRelease _ => 0x38
  | .ofdRegister _ => 0x40
  | .ofdRelease _ => 0x41
  | .ofdRead _ => 0x42
  | .scrubDigest _ => 0x43
  | .ofdVerify .. => 0x44
  | .anvilRun .. => 0x50
  | .obsCtxRead _ => 0x60
  | .watchSet _ => 0x61
  | .watchRelease .. => 0x62
  | .bad o => o.toNat

/-- What serves a host command. -/
def serveHost : HostCmd → Pend → State → State
  | .nop => serveNop
  | .txnBegin => serveTxnBegin
  | .itemRegion ix e => serveItem (.region ix e) (regionGood e)
  | .itemPortRole p r => fun q s => serveItem (.role p r) (decide (p.val < s.portCount)) q s
  | .itemRoute ix r => serveItem (.route ix r) true
  | .itemSlice p ix e => fun q s => serveItem (.slice p ix e) (decide (p.val < s.portCount)) q s
  | .itemSparing r t => serveItem (.sparing r t) true
  | .txnCommit b => serveCommit b
  | .txnAbort => serveTxnAbort
  | .fnEnable f => serveFnEnable f
  | .fnDisable f => serveFnDisable f
  | .contextKill c => serveContextKill c
  | .removeAck => serveRemoveAck
  | .resetPartition p => serveReset .partition (BitVec.ofNat 4 (2 ^ p.val))
  | .resetComputePart => serveReset .computePart 0xF
  | .resetChip => serveResetChip
  | .boundaryStop m b => serveBoundaryStop m b
  | .boundaryResume => serveBoundaryResume
  | .escRelease => serveEscRelease
  | .snapshot sc => serveSnapshot sc
  | .snapCopy b o l => serveSnapCopy b o l
  | .snapRelease b => serveSnapRelease b
  | .ofdRegister d => serveOfdRegister d
  | .ofdRelease h => serveOfdRelease h
  | .ofdRead h => serveOfdRead h
  | .scrubDigest d => serveScrubDigest d
  | .ofdVerify d e n => serveOfdVerify d e n
  | .anvilRun ts ks n => serveAnvilRun ts ks n
  | .obsCtxRead c => serveObsCtxRead c
  | .watchSet w => serveWatchSet w
  | .watchRelease p w => serveWatchRelease p w
  | .bad _ => serveBad

/-- The header and the command of a row that carries a host command. -/
def hostOf : Instr → Option (Hdr × HostCmd)
  | .nop h => some (h, .nop)
  | .txnBegin h => some (h, .txnBegin)
  | .txnItemRegion h ix e => some (h, .itemRegion ix e)
  | .txnItemPortRole h p r => some (h, .itemPortRole p r)
  | .txnItemRoute h ix r => some (h, .itemRoute ix r)
  | .txnItemSliceFilter h p ix e => some (h, .itemSlice p ix e)
  | .txnItemSparing h r t => some (h, .itemSparing r t)
  | .txnCommitImmediate h => some (h, .txnCommit false)
  | .txnCommitStep h => some (h, .txnCommit true)
  | .txnAbort h => some (h, .txnAbort)
  | .fnEnable h f => some (h, .fnEnable f)
  | .fnDisable h f => some (h, .fnDisable f)
  | .contextKill h c => some (h, .contextKill c)
  | .removeAck h => some (h, .removeAck)
  | .resetRequestPartition h p => some (h, .resetPartition p)
  | .resetRequestComputePart h => some (h, .resetComputePart)
  | .resetRequestChip h => some (h, .resetChip)
  | .boundaryStop h m b => some (h, .boundaryStop m b)
  | .boundaryResume h => some (h, .boundaryResume)
  | .escRelease h => some (h, .escRelease)
  | .snapshot h sc => some (h, .snapshot sc)
  | .snapCopy h b o l => some (h, .snapCopy b o l)
  | .snapRelease h b => some (h, .snapRelease b)
  | .ofdRegister h d => some (h, .ofdRegister d)
  | .ofdRelease h k => some (h, .ofdRelease k)
  | .ofdRead h k => some (h, .ofdRead k)
  | .scrubDigest h d => some (h, .scrubDigest d)
  | .ofdVerify h d e n => some (h, .ofdVerify d e n)
  | .anvilRun h ts ks n => some (h, .anvilRun ts ks n)
  | .obsCtxRead h c => some (h, .obsCtxRead c)
  | .watchSet h w => some (h, .watchSet w)
  | .watchRelease h p w => some (h, .watchRelease p w)
  | .badOpcode h o => some (h, .bad o)
  | _ => none

def execNop (h : Hdr) (s : State) : Res := done (s.intake h 0x01 (.nop h) serveNop)
def execBadOpcode (h : Hdr) (opcode : BitVec 16) (s : State) : Res := done (s.intake h opcode.toNat (.badOpcode h opcode) serveBad)

end Sys2Proof.Machine
end

