-- ==== Sys2Proof/Machine/Cmp.lean ====
section
/-! DEFINITION. CMP (R465 to R472): what every message goes through, versions and features, sessions, and the messages of R470. -/
namespace Sys2Proof.Machine

/-! ### Transport (R466, R467, R469) -/

/-- A CMP copy reads zero when it is first used (R481). -/
def State.clearCopy (s : State) (k : Nat) : State := { s with paths := s.paths.filter fun e => e.1 / 0x1000000 != 2 + k }

/-- A dropped message is counted. -/
def State.cmpDropped (s : State) : State := s.bumpFld HRT_CMP_SESSIONS 15 0

/-- A message with a bad magic, length or tag: dropped, counted, and recorded at most once per second. -/
def State.cmpBad (s : State) : State :=
  let s1 := s.cmpDropped
  if s.secondPassed s.cmp.lastFail then
    ({ s1 with cmp := { s1.cmp with lastFail := some s.time.tb } }).emit ⟨0, 6, 0, 0x0C08, []⟩
  else s1

/-- The slot of an open session. -/
def State.sessionOf (s : State) (n : Word) : Option Nat := s.cmp.sessions.findIdx? fun x => (x.map Session.num) == some n

/-- The slot of an unauthenticated source: its own, a free one, or that of the source silent longest (R481). -/
def State.sourceOf (s : State) (addr : Nat) : Nat :=
  let l := s.cmp.sources
  match l.findIdx? fun x => (x.map Source.addr) == some addr with
  | some j => j
  | none => match l.findIdx? Option.isNone with
    | some j => j
    | none => (minBy (fun j => ((l.getD j none).map Source.last).getD 0) (List.range l.length)).getD 0

def State.setSession (s : State) (k : Nat) (x : Option Session) : State :=
  { s with cmp := { s.cmp with sessions := s.cmp.sessions.set k x } }

def State.setSource (s : State) (k : Nat) (x : Source) : State :=
  { s with cmp := { s.cmp with sources := s.cmp.sources.set k (some x) } }

/-- The path of a message: the copy of its session, or of its source. -/
def State.cmpPath (s : State) (m : CmpHdr) : Path :=
  match (if m.session = 0 then none else s.sessionOf m.session) with
  | some k => .cmp (Fin.ofNat 12 k)
  | none => .cmp (Fin.ofNat 12 (4 + s.sourceOf m.addr))

def State.reply (s : State) (m : CmpHdr) (st : Status) (body : List Word) : State := s.cmpAnswer m (.cmpReply m st body)

/-- The cached answer of a repeat. -/
def State.again (s : State) (o : Option Out) : State :=
  match o with
  | some o => s.emitOut o
  | none => s

/-- A message of a session: a closed one is answered NOT_OPEN, an untagged one is bad; a repeat is answered from the cache, an older
sequence dropped. -/
def State.inSession (s : State) (m : CmpHdr) (k : State → State) : State :=
  match s.sessionOf m.session with
  | none => s.emitOut (.cmpReply m .notOpen [])
  | some i => match s.cmp.sessions.getD i none with
    | none => s
    | some y =>
      if !m.auth then s.cmpBad
      else
        let s1 := s.setSession i (some { y with last := s.time.tb })
        if y.seq = some m.seq then s1.again y.answer
        else if y.seq.all fun q => later m.seq q then
          k (s.setSession i (some { y with last := s.time.tb, seq := some m.seq, answer := none }))
        else s1.cmpDropped

/-- A message outside sessions. -/
def State.outsideSession (s : State) (m : CmpHdr) (k : State → State) : State :=
  if m.auth then s.cmpBad
  else
    let j := s.sourceOf m.addr
    match (s.cmp.sources.getD j none).filter fun y => y.addr == m.addr with
    | some y =>
      if y.seq = some m.seq then (s.setSource j { y with last := s.time.tb }).again y.answer
      else k (s.setSource j { y with last := s.time.tb, seq := some m.seq, answer := none })
    | none => k ((s.clearCopy (4 + j)).setSource j { addr := m.addr, last := s.time.tb, seq := some m.seq })

/-- A message reaches the management port. A core that restarts or is halted serves only what the sequencer serves (R470). -/
def State.cmpIn (s : State) (m : CmpHdr) (i : Instr) (bySequencer : Bool) (act : State → State) : State :=
  let run := fun (s : State) =>
    if bySequencer then act s
    else match s.sq.run with
      | .running => act s
      | .restarting => s.modSq fun q => { q with waiting := q.waiting ++ [i] }
      | .halted => s.reply m .halted []
      | .off => s
  if !s.pw.standby then s
  else if !m.good then s.cmpBad
  else if m.session = 0 then s.outsideSession m run
  else s.inSession m run

/-! ### Features and worlds (R425, R426, R468) -/

/-- The features in force for a message. -/
def State.features (s : State) (m : CmpHdr) : Word :=
  match (if m.session = 0 then none else s.sessionOf m.session) with
  | some k => ((s.cmp.sessions.getD k none).map Session.features).getD 0
  | none => (((s.cmp.sources.getD (s.sourceOf m.addr) none).bind Source.features)).getD 0

/-- A message that needs a feature not in force is REFUSED. -/
def State.needing (s : State) (m : CmpHdr) (bit : Nat) (k : State → State) : State :=
  if (s.features m).getLsbD bit then k s else s.reply m .refused []

/-- A message of the secure world outside a session is refused for world. -/
def State.securely (s : State) (m : CmpHdr) (k : State → State) : State :=
  if m.auth then k s else (s.denied .nonSecure).reply m .deniedWorld []

def State.good (s : State) (m : CmpHdr) (body : List Word) : State := s.reply m .ok body
def State.bad (s : State) (m : CmpHdr) (st : Status) : State := s.reply m st []

/-! ### HELLO and sessions (R468, R469) -/

/-- Words of bytes. -/
def wordsOf (l : List Byte) : List Word := (List.range ((l.length + 3) / 4)).map (wordAt l)

/-- HELLO: versions 2.0 to 2.2. Version 2.0 lacks features 1 and 2. -/
def serveHello (m : CmpHdr) (lowest highest : BitVec 16) (mask : Word) (s : State) : State :=
  let lo := lowest.toNat / 256
  let hi := highest.toNat / 256
  let nonce := Config.nonce s.free
  let s1 := s.drawn
  let body := [s.reg HRT_CMP_VERSION, s.reg HRT_CMP_FEATURES] ++ two s.fused.serial.toNat ++
    [s.reg HRT_TOPO_COORD, w32 (pkgCode s.bu.pkg)] ++ wordsOf nonce
  if lo ≤ 2 ∧ 2 ≤ hi then
    let v20 := decide (hi = 2 ∧ highest.toNat % 256 = 0)
    let f := mask &&& s.reg HRT_CMP_FEATURES &&& (if v20 then ~~~ 0x6#32 else 0xFFFFFFFF)
    let s2 := match s.sessionOf m.session with
      | some k => if m.session = 0 then s1 else s1.setSession k ((s1.cmp.sessions.getD k none).map fun (y : Session) => { y with features := f })
      | none => s1
    let s3 := if m.session = 0 then
        let j := s2.sourceOf m.addr
        match s2.cmp.sources.getD j none with
        | some y => s2.setSource j { y with nonce := some nonce, features := some f }
        | none => s2
      else s2
    s3.good m body
  else (s1.emit ⟨0, 6, 0, 0x0C07, []⟩).reply m .refused body

/-- SESSION_OPEN: the nonce of the last HELLO, a trusted key, a good signature, and a free slot; else REFUSED. -/
def serveSessionOpen (m : CmpHdr) (ephemeral nonce : List Byte) (index : Nat) (key sig : List Byte) (s : State) : State :=
  s.needing m 0 fun s =>
    let j := s.sourceOf m.addr
    let src := s.cmp.sources.getD j none
    let fresh := (src.bind Source.nonce) == some nonce
    let trusted := s.bu.trust[index]? == some (Config.sha384 key)
    let signed := Config.ecdsaVerify key sig (Config.sha384 (ephemeral ++ nonce ++ [BitVec.ofNat 8 index] ++ key))
    match s.cmp.sessions.findIdx? Option.isNone, src with
    | some k, some y =>
      if fresh && trusted && signed then
        let n := Config.sessionNumber s.free
        let e := Config.ephemeralKey s.free
        let x : Session := ⟨n, m.addr, s.time.tb, index, y.features.getD 0, none, none⟩
        let s1 := ((s.drawn.clearCopy k).setSession k (some x)).setSource j { y with nonce := none }
        s1.good m (n :: wordsOf e)
      else s.bad m .refused
    | _, _ => s.bad m .refused

def State.closeSession (s : State) (k : Nat) : State := (s.setSession k none).clearCopy k

/-- SESSION_CLOSE. -/
def serveSessionClose (m : CmpHdr) (s : State) : State :=
  s.securely m fun s => match s.sessionOf m.session with
    | some k => (s.good m []).closeSession k
    | none => s

/-- SESSION_IDLE_EXPIRY: 600 s without a message. -/
def doSessionIdleExpiry (k : Fin 4) (s : State) : State := if (s.cmp.sessions.getD k.val none).isSome then s.closeSession k.val else s

/-! ### Reading (R367, R400, R470) -/

/-- A register on the message's path, without what a read returns besides. -/
def State.peek (s : State) (m : CmpHdr) (off : Nat) : Word := (s.readWord (s.cmpPath m) off).2

/-- STATUS. -/
def serveStatus (m : CmpHdr) (s : State) : State :=
  s.good m (([HRT_BU_STATE, HRT_THM_STATE, HRT_SPARE_STATUS, HRT_ESC_STATUS].map (s.peek m)) ++ s.reg HRT_TOPO_COORD ::
    s.admittedTags.map fun t => t.setWidth 32)

/-- The record of a sequence that readers find: in the RAM ring, or in the store ring above its erase point (R368). -/
def State.recordOf (s : State) (q : Word) : Option Record :=
  match (tget? s.recd.ring (ringSlot q)).filter fun r => r.seq == q with
  | some r => some r
  | none => ((s.recd.store.find? fun e => e.2.seq == q).map Prod.snd).filter fun r => !erased s.recd.hdr.eraseStore r

/-- RECORD_READ. -/
def serveRecordRead (m : CmpHdr) (first : Word) (count : Nat) (s : State) : State :=
  if 1 ≤ count ∧ count ≤ 32 then
    s.cmpAnswer m (.cmpRecords m ((List.range count).filterMap fun i => s.recordOf (first + BitVec.ofNat 32 i)))
  else s.bad m .badOperand

/-- One register of a REG_READ. -/
def State.readOne (s : State) (p : Path) (off : Nat) : State × Word :=
  if off % 4 ≠ 0 then (s.accessError p 0 off, 0) else s.readWord p off

/-- REG_READ. -/
def serveRegRead (m : CmpHdr) (offs : List Nat) (s : State) : State :=
  s.needing m 5 fun s =>
    if 64 < offs.length then s.bad m .badOperand
    else
      let x := offs.foldl (fun (a : State × List Word) o => let y := a.1.readOne (s.cmpPath m) o; (y.1, a.2 ++ [y.2])) (s, [])
      x.1.good m x.2

/-- REG_WRITE: in order, staged where transactional. -/
def serveRegWrite (m : CmpHdr) (pairs : List (Nat × Word)) (s : State) : State :=
  s.needing m 5 fun s =>
    if 32 < pairs.length then s.bad m .badOperand
    else
      let x := pairs.foldl (fun (a : State × Bool) e =>
        (doRegisterWrite ⟨a.1.cmpPath m, e.1, true⟩ e.2 a.1, a.2 || a.1.refusesValue (a.1.cmpPath m) e.1 e.2)) (s, false)
      if x.2 then x.1.bad m .badOperand else x.1.good m []

/-- SNAPSHOT_READ: a chunk of 1 KiB of a full buffer. -/
def serveSnapshotRead (m : CmpHdr) (b : Fin 2) (chunk : Nat) (s : State) : State :=
  s.needing m 2 fun s =>
    if (s.snap b.val).st ≠ 2 then s.bad m .notReady
    else if 128 ≤ chunk then s.bad m .badOperand
    else s.good m ((List.range 256).map fun i => s.snapWord (s.snap b.val) (chunk * 256 + i))

/-! ### Commands and settings (R178, R447, R450, R470) -/

/-- COMMAND: with operator privilege, in the world of its sender (R401, R425). -/
def serveCommand (m : CmpHdr) (c : HostCmd) (s : State) : State :=
  serveHost c ⟨⟨.cmp m, m.seq, true, 0, false, false⟩, hostOpcode c⟩ s

/-- SET_COORDINATES. -/
def serveSetCoordinates (m : CmpHdr) (c : Word) (s : State) : State :=
  s.securely m fun s =>
    let top := if s.fused.grade = .d then 7 else 15
    if top < c.toNat % 256 then s.bad m .badOperand
    else if s.admittedTags ≠ [] then s.bad m .refused
    else (((s.setReg HRT_TOPO_COORD c).emit ⟨0, 0, 0, 0x0C01, [iw c]⟩).sendIdentities.rewire false).good m []

/-- A whole wiring table replaces the old one and is compared at once; a stage 7 that waits for it is judged (R314, R450). -/
def State.newTable (s : State) (l : List WireExp) : State :=
  let s1 := { s with cmp := { s.cmp with table := some l, parts := none } }
  if s1.stageOpen 7 && s1.bu.wiringWait then s1.judgeTopo else s1.rewire true

/-- WIRING_SET: applied when all parts have arrived within 1 s. -/
def serveWiringSet (m : CmpHdr) (part count : Nat) (l : List WireExp) (s : State) : State :=
  s.securely m fun s =>
    if count ≤ part ∨ 48 < l.length then s.bad m .badOperand
    else
      let old := s.cmp.parts.filter fun p => decide (p.2.1 = count ∧ s.time.tb ≤ p.1 + 10 ^ 9)
      let t0 := (old.map fun p => p.1).getD s.time.tb
      let got := ((old.map fun p => p.2.2).getD []).filter fun e => e.1 != part
      let now := tput got part l
      let s1 := s.good m []
      if count ≤ now.length then s1.newTable (now.flatMap fun e => e.2)
      else { s1 with cmp := { s1.cmp with parts := some (t0, count, now) } }

/-- REPLICA_DECLARE: a group of 2 to 16 members, an interval of 60 to 86,400 s. -/
def serveReplicaDeclare (m : CmpHdr) (group : Word) (members : List Word) (self : Fin 16) (interval : Nat) (s : State) : State :=
  s.securely m fun s => s.needing m 1 fun s =>
    if members.length < 2 ∨ 16 < members.length ∨ members.length ≤ self.val ∨ interval < 60 ∨ 86400 < interval then s.bad m .badOperand
    else
      let s1 := s.modOfd fun o => { o with groups := (o.groups.filter fun g => g.ident != group) ++ [{ ident := group, members := members, self := self.val }] }
      ((s1.setNat HRT_REPLICA_INTERVAL interval).setFld HRT_REPLICA_STATUS 23 16 members.length).good m []

/-! ### The image (R295, R299, R302) -/

/-- The slot that stage 1 did not select, which may be written but under the power-fail lock (R302, R343). -/
def State.spareSlotNo (s : State) : Option (Fin 2) := (s.bu.slot.map otherSlot).filter fun _ => !s.recd.pfLock

/-- IMAGE_WRITE. -/
def serveImageWrite (m : CmpHdr) (off : Nat) (data : List Byte) (s : State) : State :=
  s.securely m fun s => s.needing m 4 fun s =>
    match s.spareSlotNo with
    | none => s.bad m .refused
    | some n =>
      if off % 256 ≠ 0 ∨ data.length % 256 ≠ 0 ∨ data.length < 256 ∨ 1024 < data.length ∨ slotLength < off + data.length then s.bad m .badOperand
      else ({ s with nor := { s.nor with slots := memWriteAll s.nor.slots (slotBase n + off) data } }).good m []

/-- IMAGE_ARM: the slot is authenticated, then the directory arms it. -/
def serveImageArm (m : CmpHdr) (auto : Bool) (s : State) : State :=
  s.securely m fun s => s.needing m 4 fun s =>
    match s.spareSlotNo with
    | none => s.bad m .refused
    | some n =>
      if (s.authenticate n).isSome then s.bad m .refused
      else (s.writeDir fun d => { d with trial := 1, autoConfirm := auto, armed := BitVec.ofNat 32 (s.norNat n 8 4) }).good m []

/-- IMAGE_CONFIRM: the trial that booted becomes active. -/
def serveImageConfirm (m : CmpHdr) (s : State) : State :=
  s.securely m fun s => s.needing m 4 fun s =>
    if s.onTrial && s.dir.trial == 2 && !s.recd.pfLock then
      (s.writeDir fun d => { d with active := s.bu.slot.getD d.active, trial := 0 }).good m []
    else s.bad m .refused

/-- The booted image is confirmed active. -/
def State.confirmed (s : State) : Bool := s.bu.slot == some s.dir.active

/-- ROLLBACK_COMMIT (R299). -/
def serveRollbackCommit (m : CmpHdr) (s : State) : State :=
  s.securely m fun s => s.needing m 4 fun s =>
    if s.confirmed && decide (s.fused.secver < s.bu.secver) then
      (({ s with fused := { s.fused with secver := s.bu.secver } }).emit ⟨0, 0, s.bu.secver, 0x071C, []⟩).good m []
    else s.bad m .refused

/-- KEY_REVOKE (R299). -/
def serveKeyRevoke (m : CmpHdr) (k : Fin 4) (s : State) : State :=
  s.securely m fun s => s.needing m 4 fun s =>
    if s.fused.keyHash.getD k.val 0 = s.fused.keyHash.getD s.bu.keySlot 0 then s.bad m .refused
    else ({ s with fused := { s.fused with keyRevoked := s.fused.keyRevoked ||| BitVec.ofNat 4 (2 ^ k.val) } }).good m []

/-! ### Removal (R319, R320) -/

/-- REMOVE_REQUEST. -/
def serveRemoveRequest (m : CmpHdr) (s : State) : State := s.securely m fun s => (s.good m []).removalRequest 1

/-- MAIN_ON, while OK_TO_REMOVE is asserted. -/
def serveMainOn (m : CmpHdr) (s : State) : State :=
  s.securely m fun s => if s.bu.removal = .removable then (s.good m []).restartMain else s.bad m .notReady

/-! ### Events (R471) -/

/-- EVENT_SUBSCRIBE: at most two subscribers; a subscriber that names itself again changes its mask. -/
def serveSubscribe (m : CmpHdr) (addr port : Nat) (mask : Word) (s : State) : State :=
  s.needing m 3 fun s =>
    if s.subs.any fun u => u.addr == addr && u.port == port then
      ({ s with subs := s.subs.map fun (u : Sub) => if u.addr = addr ∧ u.port = port then { u with mask := mask } else u }).good m []
    else if s.subs.length < 2 then ({ s with subs := s.subs ++ [(⟨addr, port, mask, 0, [], false⟩ : Sub)] }).good m []
    else s.bad m .refused

/-- EVENT_ACK: an acknowledgement of a subscriber is not answered. -/
def doEventAck (m : CmpHdr) (q : Word) (s : State) : State :=
  if !s.pw.standby then s
  else if !m.good then s.cmpBad
  else { s with subs := s.subs.map fun (u : Sub) => if u.addr = m.addr then { u with queue := u.queue.filter fun e => e.1 != q } else u }

/-- The resends of one subscriber: an event sent eight times is dropped. -/
def State.resend (s : State) (n : Nat) (u : Sub) : State :=
  let keep : List (Word × EvBody × Nat) := u.queue.filter fun e => decide (e.2.2 < 8)
  let lost := u.queue.length - keep.length
  let v := { u with queue := keep.map fun (e : Word × EvBody × Nat) => (e.1, e.2.1, e.2.2 + 1), losing := u.losing || decide (0 < lost) }
  let s1 := { s with subs := s.subs.set n v, out := (keep.map fun (e : Word × EvBody × Nat) => Out.cmpEvent n e.1 e.2.1).reverse ++ s.out }
  let s2 := s1.bumpFld HRT_CMP_EVENTQ 31 16 lost
  if 0 < lost ∧ u.losing = false then s2.emit (eventLost n) else s2

/-- EVENT_RESEND_TIMER. -/
def doEventResendTimer (s : State) : State :=
  if s.pw.standby then s.each s.subs.zipIdx fun s e => s.resend e.2 e.1 else s

/-! ### Messages that wait for a restarted core -/

/-- The message of a row that the Hearth firmware serves. -/
def cmpOf : Instr → Option (State → State)
  | .sessionOpen m e n i k g => some (serveSessionOpen m e n i k g)
  | .sessionClose m => some (serveSessionClose m)
  | .cmpRegRead m l => some (serveRegRead m l)
  | .cmpRegWrite m l => some (serveRegWrite m l)
  | .snapshotRead m b o => some (serveSnapshotRead m b o)
  | .cmpCommand m c => some (serveCommand m c)
  | .setCoordinates m c => some (serveSetCoordinates m c)
  | .wiringSet m p n l => some (serveWiringSet m p n l)
  | .replicaDeclare m g l k n => some (serveReplicaDeclare m g l k n)
  | .imageWrite m o d => some (serveImageWrite m o d)
  | .imageArm m b => some (serveImageArm m b)
  | .imageConfirm m => some (serveImageConfirm m)
  | .rollbackCommit m => some (serveRollbackCommit m)
  | .keyRevoke m k => some (serveKeyRevoke m k)
  | .removeRequest m => some (serveRemoveRequest m)
  | .mainOn m => some (serveMainOn m)
  | .eventSubscribe m a p k => some (serveSubscribe m a p k)
  | .digestExchange m g k v ks o n st => some (doDigestExchange m g k v ks o n st)
  | _ => none

/-- DIGEST_EXCHANGE from a peer: it waits for a restarting core, and is answered with nothing. -/
def State.exchange (s : State) (m : CmpHdr) (i : Instr) (act : State → State) : State :=
  if !s.pw.standby then s
  else if !m.good then s.cmpBad
  else match s.sq.run with
    | .running => act s
    | .restarting => s.modSq fun q => { q with waiting := q.waiting ++ [i] }
    | _ => s

/-! ### Meanings -/

def execHello (m : CmpHdr) (lo hi : BitVec 16) (f : Word) (s : State) : Res := done (s.cmpIn m (.hello m lo hi f) true (serveHello m lo hi f))
def execSessionOpen (m : CmpHdr) (e n : List Byte) (i : Nat) (k g : List Byte) (s : State) : Res :=
  done (s.cmpIn m (.sessionOpen m e n i k g) false (serveSessionOpen m e n i k g))
def execSessionClose (m : CmpHdr) (s : State) : Res := done (s.cmpIn m (.sessionClose m) false (serveSessionClose m))
def execSessionIdleExpiry (k : Fin 4) (s : State) : Res := done (doSessionIdleExpiry k s)
def execCmpStatus (m : CmpHdr) (s : State) : Res := done (s.cmpIn m (.cmpStatus m) true (serveStatus m))
def execRecordRead (m : CmpHdr) (q : Word) (n : Nat) (s : State) : Res := done (s.cmpIn m (.recordRead m q n) true (serveRecordRead m q n))
def execCmpRegRead (m : CmpHdr) (l : List Nat) (s : State) : Res := done (s.cmpIn m (.cmpRegRead m l) false (serveRegRead m l))
def execCmpRegWrite (m : CmpHdr) (l : List (Nat × Word)) (s : State) : Res := done (s.cmpIn m (.cmpRegWrite m l) false (serveRegWrite m l))
def execSnapshotRead (m : CmpHdr) (b : Fin 2) (o : Nat) (s : State) : Res :=
  done (s.cmpIn m (.snapshotRead m b o) false (serveSnapshotRead m b o))
def execCmpCommand (m : CmpHdr) (c : HostCmd) (s : State) : Res := done (s.cmpIn m (.cmpCommand m c) false (serveCommand m c))
def execSetCoordinates (m : CmpHdr) (c : Word) (s : State) : Res :=
  done (s.cmpIn m (.setCoordinates m c) false (serveSetCoordinates m c))
def execWiringSet (m : CmpHdr) (p n : Nat) (l : List WireExp) (s : State) : Res :=
  done (s.cmpIn m (.wiringSet m p n l) false (serveWiringSet m p n l))
def execReplicaDeclare (m : CmpHdr) (g : Word) (l : List Word) (k : Fin 16) (n : Nat) (s : State) : Res :=
  done (s.cmpIn m (.replicaDeclare m g l k n) false (serveReplicaDeclare m g l k n))
def execDigestExchange (m : CmpHdr) (g : Word) (k : Fin 16) (v : Word) (ks : Fin 4) (o : Ofd) (n : Nat) (st : Fin 9) (s : State) : Res :=
  done (s.exchange m (.digestExchange m g k v ks o n st) (doDigestExchange m g k v ks o n st))
def execImageWrite (m : CmpHdr) (o : Nat) (d : List Byte) (s : State) : Res := done (s.cmpIn m (.imageWrite m o d) false (serveImageWrite m o d))
def execImageArm (m : CmpHdr) (b : Bool) (s : State) : Res := done (s.cmpIn m (.imageArm m b) false (serveImageArm m b))
def execImageConfirm (m : CmpHdr) (s : State) : Res := done (s.cmpIn m (.imageConfirm m) false (serveImageConfirm m))
def execRollbackCommit (m : CmpHdr) (s : State) : Res := done (s.cmpIn m (.rollbackCommit m) false (serveRollbackCommit m))
def execKeyRevoke (m : CmpHdr) (k : Fin 4) (s : State) : Res := done (s.cmpIn m (.keyRevoke m k) false (serveKeyRevoke m k))
def execRemoveRequest (m : CmpHdr) (s : State) : Res := done (s.cmpIn m (.removeRequest m) false (serveRemoveRequest m))
def execMainOn (m : CmpHdr) (s : State) : Res := done (s.cmpIn m (.mainOn m) false (serveMainOn m))
def execEventSubscribe (m : CmpHdr) (a p : Nat) (k : Word) (s : State) : Res :=
  done (s.cmpIn m (.eventSubscribe m a p k) false (serveSubscribe m a p k))
def execEventAck (m : CmpHdr) (q : Word) (s : State) : Res := done (doEventAck m q s)
def execEventResendTimer (s : State) : Res := done (doEventResendTimer s)

end Sys2Proof.Machine
end

