-- ==== Sys2Proof/Machine/I3c.lean ====
section
/-! DEFINITION. The I3C target (R518 to R520): addresses, the pointer space, in-band interrupts. -/
namespace Sys2Proof.Machine

/-! ### The pointer space (R519) -/

/-- A register of the Hearth page over I3C: as from the host BAR, every selector taken as zero, nothing cleared. -/
def State.i3cValue (s : State) (r : RegRow) (off : Nat) : Word :=
  let regs := if off = HRT_OFD_KEYSEL then s.regs else tdel s.regs HRT_OFD_KEYSEL
  { s with paths := [], regs := regs }.valueOf .host r .hearth 0 0 off

/-- A word of the pointer space; a low word latches its high word in the one holding register. -/
def State.i3cWord (s : State) (off : Nat) : State × Word :=
  if off < 0x10000 then
    if (0x1000 ≤ off ∧ off < 0x2000) ∨ isMsix off then (s, 0)
    else match rowAt off with
      | none => (s, 0)
      | some (r, _) =>
        if r.sec ∨ r.code = .wo then (s, 0)
        else match r.half with
          | .high => (s, s.i3c.hold)
          | .low =>
            let hi := ((rowAt (off + 4)).map fun x => s.i3cValue x.1 (off + 4)).getD 0
            ({ s.drawn with i3c := { s.i3c with hold := hi } }, s.i3cValue r off)
          | .none => (s.drawn, s.i3cValue r off)
  else if 0x100000 ≤ off ∧ off < 0x200000 then
    (s.drawn, s.slotWord (tget? s.recd.ring ((off - 0x100000) / 32)) (off % 32 / 4) off)
  else if 0x200000 ≤ off ∧ off < 0x210000 then (s.drawn, s.mramWord (off - 0x200000 + 0x1000))
  else (s, 0)

/-- I3C_POINTER_WRITE: exactly three bytes, most significant first. -/
def doI3cPointerWrite (b : List Byte) (s : State) : State :=
  match b with
  | [x, y, z] => { s with i3c := { s.i3c with pointer := x.toNat * 2 ^ 16 + y.toNat * 2 ^ 8 + z.toNat } }
  | _ => s

/-- I3C_PRIVATE_READ: 4 to 256 bytes from the pointer, which advances. -/
def doI3cPrivateRead (len : Nat) (s : State) : State :=
  if !s.pw.standby then s
  else
    let n := min 256 (max 4 len)
    let p := s.i3c.pointer
    let first := p / 4
    let x := (List.range ((p + n + 3) / 4 - first)).foldl (fun (a : State × List Byte) k =>
      let y := a.1.i3cWord (4 * (first + k))
      (y.1, a.2 ++ leBytes 4 y.2.toNat)) (s, [])
    ({ x.1 with i3c := { x.1.i3c with pointer := (p + n) % 2 ^ 24 } }).emitOut (.i3c ((x.2.drop (p % 4)).take n))

/-! ### Addresses and CCCs (R518) -/

/-- Bytes of a value, most significant first. -/
def beBytes (n v : Nat) : List Byte := (leBytes n v).reverse

/-- The provisional ID: the manufacturer field over the low bits of the package serial. -/
def State.provisionalId (s : State) : List Byte :=
  beBytes 6 (Config.manufacturer.toNat * 2 ^ 32 + s.fused.serial.toNat % 2 ^ 32)

def State.setAddr (s : State) (a : Option (Fin 128)) : State := { s with i3c := { s.i3c with addr := a } }

/-- The target answers from stage 0 on. -/
def State.i3cSays (s : State) (b : List Byte) : State := if s.pw.standby then s.emitOut (.i3c b) else s

/-- ENTDAA: a target without an address gives its ID and takes one. -/
def doEntdaa (a : Fin 128) (s : State) : State :=
  if s.pw.standby && s.i3c.addr.isNone then (s.setAddr (some a)).i3cSays (s.provisionalId ++ [Config.bcr, Config.dcr]) else s

/-- SETDASA to the static address 0x4A. -/
def doSetdasa (static a : Fin 128) (s : State) : State :=
  if s.pw.standby && static.val == 0x4A && s.i3c.addr.isNone then s.setAddr (some a) else s

def doRstdaa (s : State) : State := s.setAddr none
def doGetpid (s : State) : State := s.i3cSays s.provisionalId
def doGetbcr (s : State) : State := s.i3cSays [Config.bcr]
def doGetdcr (s : State) : State := s.i3cSays [Config.dcr]
def doGetstatus (s : State) : State := s.i3cSays (beBytes 2 (Config.targetStatus s.i3c.pend.length).toNat)

/-- GETMXDS: a read turnaround of 2 µs in its last three bytes; the two speed bytes are not stated (log 8). -/
def doGetmxds (s : State) : State :=
  s.drawn.i3cSays ([(Config.measured s.free 0).setWidth 8, (Config.measured s.free 1).setWidth 8] ++ leBytes 3 2)

def doEnec (s : State) : State := if s.pw.standby then { s with i3c := { s.i3c with ibiOn := true } } else s
def doDisec (s : State) : State := { s with i3c := { s.i3c with ibiOn := false } }

/-! ### In-band interrupts (R520) -/

/-- IBI_RETRY_TIMER for the oldest interrupt not accepted: raised again up to eight times, then dropped. -/
def doIbiRetryTimer (accepted : Bool) (s : State) : State :=
  match s.i3c.pend with
  | [] => s
  | (m, p, n) :: r =>
    if accepted ∨ 8 ≤ n then { s with i3c := { s.i3c with pend := r } }
    else if s.i3c.ibiOn then ({ s with i3c := { s.i3c with pend := (m, p, n + 1) :: r } }).emitOut (.ibi m p)
    else s

/-! ### Meanings -/

def execI3cPointerWrite (b : List Byte) (s : State) : Res := done (doI3cPointerWrite b s)
def execI3cPrivateRead (len : Nat) (s : State) : Res := done (doI3cPrivateRead len s)
def execEntdaa (a : Fin 128) (s : State) : Res := done (doEntdaa a s)
def execSetdasa (static a : Fin 128) (s : State) : Res := done (doSetdasa static a s)
def execRstdaa (s : State) : Res := done (doRstdaa s)
def execGetpid (s : State) : Res := done (doGetpid s)
def execGetbcr (s : State) : Res := done (doGetbcr s)
def execGetdcr (s : State) : Res := done (doGetdcr s)
def execGetstatus (s : State) : Res := done (doGetstatus s)
def execGetmxds (s : State) : Res := done (doGetmxds s)
def execEnec (s : State) : Res := done (doEnec s)
def execDisec (s : State) : Res := done (doDisec s)
def execIbiRetryTimer (accepted : Bool) (s : State) : Res := done (doIbiRetryTimer accepted s)

end Sys2Proof.Machine
end

