-- ==== Sys2Proof/Machine/Restart.lean ====
section
/-! DEFINITION. The end of a Hearth core restart (R28, R29, R345, R411, R442, R479). -/
namespace Sys2Proof.Machine

/-- REPORT_DROPPED, once per warden that dropped reports during the restart (R29, R524). -/
def State.reportDrops (s : State) : State :=
  s.each (s.allAgents.filter fun a => (s.agent a).dropsInRestart != 0) fun s a =>
    let n := (s.agent a).dropsInRestart
    let u := s.unitOf a
    (s.modAgent a fun x => { x with dropsInRestart := 0 }).emit ⟨0, u.1, u.2, 0x0008, [i4 n]⟩

/-- A command or a CMP request that waited is served now. -/
def serveWaited (i : Instr) (s : State) : State :=
  match hostOf i with
  | some (h, c) => serveHost c ⟨h, hostOpcode c⟩ s
  | none => match cmpOf i with
    | some f => f s
    | none => match i with
      | .mainInputGood a => doMainInputGood a s
      | _ => s.removalRequest 0

/-- What waited is served in arrival order, until one of the commands drops the rest (R442). -/
def serveAllWaited : List Instr → State → State
  | [], s => s
  | i :: rest, s =>
    let s1 := serveWaited i (s.modSq fun q => { q with waiting := rest })
    if s1.sq.waiting = [] then s1 else serveAllWaited rest s1

/-- Register writes that were held take effect in arrival order (R479). -/
def State.applyHeld (s : State) : State :=
  (s.modSq fun q => { q with held := [] }).each s.sq.held fun s e => s.writeWord e.1.path e.1.off e.2 none

/-- A Quench that waited for the core runs now, its steps 1, 2, 4 and 5 (R345). -/
def State.quenchAfter (s : State) : State :=
  match s.thm.quenchWait with
  | some (u, t) =>
    let s1 := s.modThm fun m => { m with quenchWait := none }
    if s1.quenchBarred then s1
    else (s1.quenchBegin (s.thermalUnit u).1 (s.thermalUnit u).2 (s.thermalEvent 6 0x0805 u t (s.quenchAt u)).items).quenchDown
  | none => s

/-- Changes of the sparing map that the restart has met are completed (R195): the moves of re-placements that wait, as far as two run at a
time (R208). -/
def State.finishMoves (s : State) : State := s.each s.plan.waiting fun s _ => doReplacementStart s

/-- HEARTH_RESTART_COMPLETE: the restarted core runs, its watchdog period afresh. An apply and the changes of the sparing map that the restart has
met are completed before anything else (R195, R439); it reads the Bellows level from the anchor router (R83); open transactions are
discarded; what was held and what waited follows in order. -/
def doHearthRestartComplete (s : State) : State :=
  if s.sq.run ≠ .restarting then s
  else
    let s0 := { s with bus := { s.bus with level := max 1 (s.agent (routerAgent s.anchor)).level } }
    let s1 := (s0.modSq fun q => { q with run := .running, lastBeat := s.time.tb }).finishApplies.finishMoves
    let s2 := s1.abandonQuiesce.discardTxns.reportDrops.applyHeld.quenchAfter
    serveAllWaited s2.sq.waiting s2

def execHearthRestartComplete (s : State) : Res := done (doHearthRestartComplete s)

end Sys2Proof.Machine
end

