-- ==== Sys2Proof/Machine/Clock.lean ====
section
/-! DEFINITION. One period of the alignment grid (R76), which passes when no command waits: the time base counts, and every tile
whose clock enables are up counts its cycles (R225, R376 to R380). No other timer acts by itself: what a timer does on its expiry is
a command of its own (assumption log 2). -/
namespace Sys2Proof.Machine

/-- A compute region's clock runs: powered, and none of STOP, KILL and TRIP stands there. -/
def State.clocked (s : State) (g : Nat) : Bool :=
  s.pw.domOn.getLsbD g && !((s.hl.stop ||| s.hl.kill ||| s.hl.trip).getLsbD g)

/-- Stall reasons in order of priority, but for throttle, which comes first (R378). -/
def stallOrder : List Nat := [7, 6, 4, 3, 2, 1, 0]

/-- The eight stall counts of a period: throttle takes the swallowed cycles, then each reason takes its free value as far as
cycles are left; check retry takes what writes have waited on start copies besides (R127). While a hold-commit command waits on the tile,
every stalled cycle below Spill meets that reason, and counts under it (R138). -/
def stallCounts (draw tile swallowed owed : Nat) (hold : Bool) : Tab Nat :=
  (stallOrder.foldl (fun (a : Nat × Tab Nat) r =>
    let n := min a.1 (Config.stallCycles draw tile r + if r = 6 then owed else 0)
    let k := if hold ∧ r ≠ 7 then 6 else r
    (a.1 - n, tmod a.2 k 0 fun m => m + n)) (1280 - swallowed, [(5, swallowed)])).2

/-- Advance a 48-bit counter (R376). -/
def State.count48 (s : State) (lo hi n : Nat) : State := if n = 0 then s else s.add64 lo hi n 48

/-- Per-context counter `k` of a tile (R380). -/
def State.countCtx (s : State) (t : TileIx) (c : CtxIx) (k n : Nat) : State :=
  s.count48 (itemKey (tileReg t TWD_CTX_LO) (k * 16 + c.val)) (itemKey (tileReg t TWD_CTX_HI) (k * 16 + c.val)) n

/-- The tile watchdog's count: enabled cycles of the running command without those that wait on others (R225), shown in µs of the
base clock. -/
def State.countWdog (s : State) (t : TileIx) (n : Nat) : State :=
  let c := (s.tile t).wdogCount + n
  (s.modTile t fun x => { x with wdogCount := c }).setFld (tileReg t TWD_WDOG) 23 0 (min (c / 2000) (2 ^ 24 - 1))

/-- Busy and stalled cycles of a period of a tile, and with the full set the stalls by reason (R376, R378). -/
def State.countCycles (s : State) (t : TileIx) (full : Bool) (stalls : Tab Nat) : State :=
  let stalled := (stalls.map fun x => x.2).sum
  let s1 := (s.count48 (tileReg t TWD_LC_BUSY_LO) (tileReg t TWD_LC_BUSY_HI) (1280 - stalled)).count48
    (tileReg t TWD_LC_STALL_LO) (tileReg t TWD_LC_STALL_HI) stalled
  s1.when full fun s => s.each stalls fun s x => s.count48 (tileReg t TWD_FC_LO + 8 * x.1) (tileReg t TWD_FC_HI + 8 * x.1) x.2

/-- A period under a command of the journal: the cycles of a primary belong to its context too (R380). -/
def State.countWork (s : State) (t : TileIx) (e : JEntry) (stalls : Tab Nat) : State :=
  let stalled := (stalls.map fun x => x.2).sum
  let busy := 1280 - stalled
  (s.countCycles t e.full stalls).when (e.role == .primary) fun s =>
    let c := e.cmd.ctx
    ((s.countCtx t c 0 busy).countCtx t c 1 stalled).when e.full fun s => s.each stalls fun s x => s.countCtx t c (2 + x.1) x.2

/-- A period of a tile that runs a command: its watchdog counts what is the command's own (R225). -/
def State.countRunning (s : State) (t : TileIx) (e : JEntry) (stalls : Tab Nat) : State :=
  let stalled := (stalls.map fun x => x.2).sum
  (s.countWork t e stalls).countWdog t (1280 - stalled + tget stalls 4 0 + tget stalls 6 0)

/-- The hold-commit command of a tile that waits for its comparison (R138). -/
def State.waitingHold (s : State) (t : TileIx) : Option JEntry :=
  ((s.tile t).entries.find? fun e => e.2.isOpen && e.2.state == .complete && e.2.role == .primary && e.2.cmd.hold && e.2.cmpWait && !e.2.held).map
    Prod.snd

/-- The context that a watch holds at its barrier on a tile: its cycles are stalled, reason barrier (R395). -/
def State.heldAtBarrier (s : State) (t : TileIx) : Option CtxIx :=
  if (s.logicalOf t).isNone then none
  else (List.finRange 16).find? fun c => (s.ctx c).watchHold && (s.ctx c).used && s.worksOn c t

/-- A period of a tile that waits with no command RUNNING, under a context. -/
def State.countHold (s : State) (t : TileIx) (c : CtxIx) (stalls : Tab Nat) : State :=
  let full := (s.reg OBS_FULL_EN).getLsbD (s.partOfTile t).val
  ((s.countCycles t full stalls).countCtx t c 1 1280).when full fun s => s.each stalls fun s x => s.countCtx t c (2 + x.1) x.2

/-- Waits of an engine that the full set and the samples cause (R402). -/
def State.countObsWait (s : State) (t : TileIx) : State :=
  let p := (s.partOfTile t).val
  s.when ((s.reg OBS_FULL_EN).getLsbD p || (s.traceOn && s.traced p && (s.reg OBS_TRACE_CFG).getLsbD 21)) fun s =>
    s.bump (tileReg t TWD_OBS_PORT_WAIT) (min 1280 (Config.obsPortWait s.free t.val))

/-- A period of one tile: its counters stand while its clock enables are down (R377).
While nothing runs because a hold-commit command waits for its comparison, the cycles are stalled, reason check retry, as R127 and R138 have it
(assumption log 83). An Anvil kernel is a command in RUNNING of no context (R376, R380). -/
def State.countTile (s : State) (t : TileIx) : State :=
  if !s.enabled t then s
  else
    let n := s.swallowedOf (regionOfTile t)
    let hold := s.waitingHold t
    let owed := (s.tile t).retryOwed
    let s1 := s.when (owed != 0) fun s => s.modTile t fun x => { x with retryOwed := 0 }
    match s.running t, s.anvilRuns t, hold, s.heldAtBarrier t with
    | some e, _, _, _ => (s1.countRunning t e (stallCounts s.free t.val n owed hold.isSome)).countObsWait t
    | none, some j, _, _ => (s1.countCycles t j.full (stallCounts s.free t.val n owed false)).countObsWait t
    | none, none, some e, _ => s1.countWork t e [(5, n), (6, 1280 - n)]
    | none, none, none, some c => s1.countHold t c [(5, n), (3, 1280 - n)]
    | none, none, none, none => s1.count48 (tileReg t TWD_LC_IDLE_LO) (tileReg t TWD_LC_IDLE_HI) 1280

/-- What one grid period does to the block; without REFCLK nothing counts (R27). -/
def doGridPeriod (s : State) : State :=
  if !s.pw.standby || !s.time.refclk then s
  else
    let on := (List.range 16).filter s.clocked
    let s1 : State := { s with
      time := { s.time with tb := s.time.tb + 640 }
      thm := { s.thm with swallowed := on.foldl (fun t g => tmod t g 0 fun n => n + s.swallowedOf g) s.thm.swallowed } }
    (s1.each (List.finRange 144) State.countTile).drawn

/-- The period, settled as every command is. -/
def gridPeriod (s : State) : Res := done (doGridPeriod s)

end Sys2Proof.Machine
end

