-- ==== Sys2Proof/Machine/Dispatch.lean ====
section
/-! DEFINITION. The dispatch: one arm per command of spec/opcode_table.json, each one call of its meaning. -/
namespace Sys2Proof.Machine

/-- The effect of a command on everything but the queue. -/
def exec (i : Instr) (s : State) : Host.Outcome State Fault Refusal :=
  match i with
  | .standbyPowerGood x => Sys2Proof.Machine.execStandbyPowerGood x s
  | .standbyPowerLoss => Sys2Proof.Machine.execStandbyPowerLoss s
  | .stage1Authentication => Sys2Proof.Machine.execStage1Authentication s
  | .stage2HearthBoot => Sys2Proof.Machine.execStage2HearthBoot s
  | .mainInputGood failedAgents => Sys2Proof.Machine.execMainInputGood failedAgents s
  | .mainPowerTimeout => Sys2Proof.Machine.execMainPowerTimeout s
  | .censusAgentTimeout a => Sys2Proof.Machine.execCensusAgentTimeout a s
  | .stage3DomainPower => Sys2Proof.Machine.execStage3DomainPower s
  | .domainPowerGood d r => Sys2Proof.Machine.execDomainPowerGood d r s
  | .alignGridPoint late => Sys2Proof.Machine.execAlignGridPoint late s
  | .stage4Bist x => Sys2Proof.Machine.execStage4Bist x s
  | .bistInvalidRetry r => Sys2Proof.Machine.execBistInvalidRetry r s
  | .stage5Training stackRes portRes => Sys2Proof.Machine.execStage5Training stackRes portRes s
  | .linkWaitExpiry p => Sys2Proof.Machine.execLinkWaitExpiry p s
  | .stage6Payload ph => Sys2Proof.Machine.execStage6Payload ph s
  | .fwChunkReceive t c => Sys2Proof.Machine.execFwChunkReceive t c s
  | .stage7Topology => Sys2Proof.Machine.execStage7Topology s
  | .wiringWaitExpiry => Sys2Proof.Machine.execWiringWaitExpiry s
  | .stage8Anvil rs => Sys2Proof.Machine.execStage8Anvil rs s
  | .stage9Ready => Sys2Proof.Machine.execStage9Ready s
  | .trainingRecordDone ok => Sys2Proof.Machine.execTrainingRecordDone ok s
  | .coreWatchdogExpiry digestOk => Sys2Proof.Machine.execCoreWatchdogExpiry digestOk s
  | .hearthRestartComplete => Sys2Proof.Machine.execHearthRestartComplete s
  | .heartbeat path value => Sys2Proof.Machine.execHeartbeat path value s
  | .refclkLoss => Sys2Proof.Machine.execRefclkLoss s
  | .reportSend a => Sys2Proof.Machine.execReportSend a s
  | .reportDropped a r => Sys2Proof.Machine.execReportDropped a r s
  | .routerForward die h others => Sys2Proof.Machine.execRouterForward die h others s
  | .regRead e offset path => Sys2Proof.Machine.execRegRead e offset path s
  | .regWrite e offset path data => Sys2Proof.Machine.execRegWrite e offset path data s
  | .blockRead e offset count => Sys2Proof.Machine.execBlockRead e offset count s
  | .report a r w => Sys2Proof.Machine.execReport a r w s
  | .reportData a r part w => Sys2Proof.Machine.execReportData a r part w s
  | .reportTaken => Sys2Proof.Machine.execReportTaken s
  | .response who a cls seq status => Sys2Proof.Machine.execResponse who a cls seq status s
  | .responseTimeout who a cls => Sys2Proof.Machine.execResponseTimeout who a cls s
  | .reportResendTimer a => Sys2Proof.Machine.execReportResendTimer a s
  | .censusProbe e b => Sys2Proof.Machine.execCensusProbe e b s
  | .censusReply a b => Sys2Proof.Machine.execCensusReply a b s
  | .levelSet e level timeout => Sys2Proof.Machine.execLevelSet e level timeout s
  | .unitWaitExpiry a => Sys2Proof.Machine.execUnitWaitExpiry a s
  | .unitTakesCommand a => Sys2Proof.Machine.execUnitTakesCommand a s
  | .aliveLow die port => Sys2Proof.Machine.execAliveLow die port s
  | .handshakeTimeout die port => Sys2Proof.Machine.execHandshakeTimeout die port s
  | .portErrorSample => Sys2Proof.Machine.execPortErrorSample s
  | .hardlineFault d line => Sys2Proof.Machine.execHardlineFault d line s
  | .portResetSeen a unread => Sys2Proof.Machine.execPortResetSeen a unread s
  | .portOpen a => Sys2Proof.Machine.execPortOpen a s
  | .commandIssue l c => Sys2Proof.Machine.execCommandIssue l c s
  | .commandStart t seq => Sys2Proof.Machine.execCommandStart t seq s
  | .passCheckResult t p => Sys2Proof.Machine.execPassCheckResult t p s
  | .indexParityError t seq pass exec => Sys2Proof.Machine.execIndexParityError t seq pass exec s
  | .operandParityError t seq pass exec => Sys2Proof.Machine.execOperandParityError t seq pass exec s
  | .converterMismatch t seq pass exec => Sys2Proof.Machine.execConverterMismatch t seq pass exec s
  | .checkerInjection t row col d => Sys2Proof.Machine.execCheckerInjection t row col d s
  | .reexecResult t seq failed cause pass l => Sys2Proof.Machine.execReexecResult t seq failed cause pass l s
  | .selfFenceTimer t => Sys2Proof.Machine.execSelfFenceTimer t s
  | .commandComplete t seq outs => Sys2Proof.Machine.execCommandComplete t seq outs s
  | .commandCommit t seq => Sys2Proof.Machine.execCommandCommit t seq s
  | .taggedWrite n w => Sys2Proof.Machine.execTaggedWrite n w s
  | .tokenArrival t k => Sys2Proof.Machine.execTokenArrival t k s
  | .stepBarrier b => Sys2Proof.Machine.execStepBarrier b s
  | .samplerUpdate t c seed r => Sys2Proof.Machine.execSamplerUpdate t c seed r s
  | .startCopyDone t waited => Sys2Proof.Machine.execStartCopyDone t waited s
  | .multicastOverrun t => Sys2Proof.Machine.execMulticastOverrun t s
  | .holdWaitExpiry t seq => Sys2Proof.Machine.execHoldWaitExpiry t seq s
  | .arbitrationStart => Sys2Proof.Machine.execArbitrationStart s
  | .captureCopyDone slot ofd parityError => Sys2Proof.Machine.execCaptureCopyDone slot ofd parityError s
  | .watchPeriodExpiry t => Sys2Proof.Machine.execWatchPeriodExpiry t s
  | .tileFenceCommand t reason => Sys2Proof.Machine.execTileFenceCommand t reason s
  | .fenceUnconfirmed t => Sys2Proof.Machine.execFenceUnconfirmed t s
  | .replacementStart => Sys2Proof.Machine.execReplacementStart s
  | .reloadComplete slot slag => Sys2Proof.Machine.execReloadComplete slot slag s
  | .spareRecordWriteDone ok => Sys2Proof.Machine.execSpareRecordWriteDone ok s
  | .spareRecordRetry => Sys2Proof.Machine.execSpareRecordRetry s
  | .hbmUncorrectable n addr => Sys2Proof.Machine.execHbmUncorrectable n addr s
  | .tileSramUE t addr control => Sys2Proof.Machine.execTileSramUE t addr control s
  | .pathParityFail p addr => Sys2Proof.Machine.execPathParityFail p addr s
  | .slagConsumed t seq code addr => Sys2Proof.Machine.execSlagConsumed t seq code addr s
  | .dataReplyArrival via dom gen ctx => Sys2Proof.Machine.execDataReplyArrival via dom gen ctx s
  | .remoteGoneAnswer p selfReset bytes => Sys2Proof.Machine.execRemoteGoneAnswer p selfReset bytes s
  | .genHoldoffExpiry => Sys2Proof.Machine.execGenHoldoffExpiry s
  | .tileWatchdogExpiry t => Sys2Proof.Machine.execTileWatchdogExpiry t s
  | .contextWatchdogExpiry c => Sys2Proof.Machine.execContextWatchdogExpiry c s
  | .partitionWatchdogExpiry p => Sys2Proof.Machine.execPartitionWatchdogExpiry p s
  | .chipWatchdogExpiry => Sys2Proof.Machine.execChipWatchdogExpiry s
  | .edgeReport t e => Sys2Proof.Machine.execEdgeReport t e s
  | .edgeWithdraw t e => Sys2Proof.Machine.execEdgeWithdraw t e s
  | .knotTimeoutExpiry stillBlocked entries => Sys2Proof.Machine.execKnotTimeoutExpiry stillBlocked entries s
  | .spillRead c queue pos => Sys2Proof.Machine.execSpillRead c queue pos s
  | .reconfiguration t seq => Sys2Proof.Machine.execReconfiguration t seq s
  | .reconfigCommit t windowExpired leftover mustDrain => Sys2Proof.Machine.execReconfigCommit t windowExpired leftover mustDrain s
  | .contextKill h c => Sys2Proof.Machine.execContextKill h c s
  | .contextKillCommand t c => Sys2Proof.Machine.execContextKillCommand t c s
  | .killTimeout t c => Sys2Proof.Machine.execKillTimeout t c s
  | .quarantineExpiry c => Sys2Proof.Machine.execQuarantineExpiry c s
  | .resetComplete => Sys2Proof.Machine.execResetComplete s
  | .resetBoundExpiry => Sys2Proof.Machine.execResetBoundExpiry s
  | .escHoldExpiry => Sys2Proof.Machine.execEscHoldExpiry s
  | .escRelease h => Sys2Proof.Machine.execEscRelease h s
  | .snapshot h scope => Sys2Proof.Machine.execSnapshot h scope s
  | .snapshotUnitTimeout buffer a => Sys2Proof.Machine.execSnapshotUnitTimeout buffer a s
  | .snapshotComplete buffer => Sys2Proof.Machine.execSnapshotComplete buffer s
  | .snapshotWriteTimeout buffer => Sys2Proof.Machine.execSnapshotWriteTimeout buffer s
  | .snapCopy h buffer offset length => Sys2Proof.Machine.execSnapCopy h buffer offset length s
  | .snapRelease h buffer => Sys2Proof.Machine.execSnapRelease h buffer s
  | .fenceNoticeReceive p n => Sys2Proof.Machine.execFenceNoticeReceive p n s
  | .boundaryStop h parts step => Sys2Proof.Machine.execBoundaryStop h parts step s
  | .boundaryCutReached => Sys2Proof.Machine.execBoundaryCutReached s
  | .bstopTimeout => Sys2Proof.Machine.execBstopTimeout s
  | .boundaryResume h => Sys2Proof.Machine.execBoundaryResume h s
  | .bistSlotOpen => Sys2Proof.Machine.execBistSlotOpen s
  | .handOverComplete slot => Sys2Proof.Machine.execHandOverComplete slot s
  | .bistResult r t => Sys2Proof.Machine.execBistResult r t s
  | .handBackComplete slot => Sys2Proof.Machine.execHandBackComplete slot s
  | .returnTestRetry t r => Sys2Proof.Machine.execReturnTestRetry t r s
  | .bistDiag t pattern => Sys2Proof.Machine.execBistDiag t pattern s
  | .hbmRowSlice n temp fails lost w => Sys2Proof.Machine.execHbmRowSlice n temp fails lost w s
  | .anvilRun h tiles kernels times => Sys2Proof.Machine.execAnvilRun h tiles kernels times s
  | .anvilRunStart => Sys2Proof.Machine.execAnvilRunStart s
  | .anvilCoverTimeout => Sys2Proof.Machine.execAnvilCoverTimeout s
  | .anvilKernelResult slot r => Sys2Proof.Machine.execAnvilKernelResult slot r s
  | .txnBegin h => Sys2Proof.Machine.execTxnBegin h s
  | .txnItemRegion h ix e => Sys2Proof.Machine.execTxnItemRegion h ix e s
  | .txnItemPortRole h p r => Sys2Proof.Machine.execTxnItemPortRole h p r s
  | .txnItemRoute h ix r => Sys2Proof.Machine.execTxnItemRoute h ix r s
  | .txnItemSliceFilter h p ix e => Sys2Proof.Machine.execTxnItemSliceFilter h p ix e s
  | .txnItemSparing h r t => Sys2Proof.Machine.execTxnItemSparing h r t s
  | .txnCommitImmediate h => Sys2Proof.Machine.execTxnCommitImmediate h s
  | .txnCommitStep h => Sys2Proof.Machine.execTxnCommitStep h s
  | .txnAbort h => Sys2Proof.Machine.execTxnAbort h s
  | .txnTimeoutExpiry w => Sys2Proof.Machine.execTxnTimeoutExpiry w s
  | .transactionalRegisterWrite a v => Sys2Proof.Machine.execTransactionalRegisterWrite a v s
  | .fnEnable h f => Sys2Proof.Machine.execFnEnable h f s
  | .fnDisable h f => Sys2Proof.Machine.execFnDisable h f s
  | .fnStartComplete f ok => Sys2Proof.Machine.execFnStartComplete f ok s
  | .fnStopComplete f => Sys2Proof.Machine.execFnStopComplete f s
  | .nop h => Sys2Proof.Machine.execNop h s
  | .removeAck h => Sys2Proof.Machine.execRemoveAck h s
  | .resetRequestPartition h p => Sys2Proof.Machine.execResetRequestPartition h p s
  | .resetRequestComputePart h => Sys2Proof.Machine.execResetRequestComputePart h s
  | .resetRequestChip h => Sys2Proof.Machine.execResetRequestChip h s
  | .ofdRegister h d => Sys2Proof.Machine.execOfdRegister h d s
  | .ofdRelease h handle => Sys2Proof.Machine.execOfdRelease h handle s
  | .ofdRead h handle => Sys2Proof.Machine.execOfdRead h handle s
  | .scrubDigest h d => Sys2Proof.Machine.execScrubDigest h d s
  | .ofdVerify h d expected count => Sys2Proof.Machine.execOfdVerify h d expected count s
  | .scrubStart => Sys2Proof.Machine.execScrubStart s
  | .scrubComplete parts => Sys2Proof.Machine.execScrubComplete parts s
  | .digestLatchCommand n c step => Sys2Proof.Machine.execDigestLatchCommand n c step s
  | .bankLatch n c step kat => Sys2Proof.Machine.execBankLatch n c step kat s
  | .replicaInterval group r => Sys2Proof.Machine.execReplicaInterval group r s
  | .digestExchange m group member version keySet ofd count status => Sys2Proof.Machine.execDigestExchange m group member version keySet ofd count status s
  | .obsCtxRead h c => Sys2Proof.Machine.execObsCtxRead h c s
  | .watchSet h w => Sys2Proof.Machine.execWatchSet h w s
  | .watchRelease h part wp => Sys2Proof.Machine.execWatchRelease h part wp s
  | .watchCopyDone part wp bytes => Sys2Proof.Machine.execWatchCopyDone part wp bytes s
  | .watchHoldExpiry part wp bytes => Sys2Proof.Machine.execWatchHoldExpiry part wp bytes s
  | .pcSample t pc stall => Sys2Proof.Machine.execPcSample t pc stall s
  | .traceBlockClaim part writer => Sys2Proof.Machine.execTraceBlockClaim part writer s
  | .traceBlockCloseTimer part writer => Sys2Proof.Machine.execTraceBlockCloseTimer part writer s
  | .traceTimeRecord => Sys2Proof.Machine.execTraceTimeRecord s
  | .traceRecordDrop part writer count => Sys2Proof.Machine.execTraceRecordDrop part writer count s
  | .linkFrameReceive p f => Sys2Proof.Machine.execLinkFrameReceive p f s
  | .linkFrameSend p t f => Sys2Proof.Machine.execLinkFrameSend p t f s
  | .linkTrained p floors => Sys2Proof.Machine.execLinkTrained p floors s
  | .identityBlockReceive p x => Sys2Proof.Machine.execIdentityBlockReceive p x s
  | .linkLossOfSignal p => Sys2Proof.Machine.execLinkLossOfSignal p s
  | .linkRetrainTimer p trained farEnd floors => Sys2Proof.Machine.execLinkRetrainTimer p trained farEnd floors s
  | .laneMarginCheck p lanes => Sys2Proof.Machine.execLaneMarginCheck p lanes s
  | .linkAlarmCheck p fec retry => Sys2Proof.Machine.execLinkAlarmCheck p fec retry s
  | .sensorRound readings dies => Sys2Proof.Machine.execSensorRound readings dies s
  | .thermalGraceExpiry u => Sys2Proof.Machine.execThermalGraceExpiry u s
  | .temperTick g => Sys2Proof.Machine.execTemperTick g s
  | .tripAssert x temp => Sys2Proof.Machine.execTripAssert x temp s
  | .stackTripSample n temp => Sys2Proof.Machine.execStackTripSample n temp s
  | .stackTripConfirm n temp => Sys2Proof.Machine.execStackTripConfirm n temp s
  | .sensorReadRequest a v temp => Sys2Proof.Machine.execSensorReadRequest a v temp s
  | .pmbusRound rs => Sys2Proof.Machine.execPmbusRound rs s
  | .powerAverage => Sys2Proof.Machine.execPowerAverage s
  | .powerGraceExpiry => Sys2Proof.Machine.execPowerGraceExpiry s
  | .powerFloorExpiry => Sys2Proof.Machine.execPowerFloorExpiry s
  | .powerFailWarn => Sys2Proof.Machine.execPowerFailWarn s
  | .attnRequest => Sys2Proof.Machine.execAttnRequest s
  | .hostNoticeWaitExpiry => Sys2Proof.Machine.execHostNoticeWaitExpiry s
  | .removalPowerDownDone => Sys2Proof.Machine.execRemovalPowerDownDone s
  | .hostFullReset perst => Sys2Proof.Machine.execHostFullReset perst s
  | .pmStateChange d3 => Sys2Proof.Machine.execPmStateChange d3 s
  | .backgroundFlush => Sys2Proof.Machine.execBackgroundFlush s
  | .flushComplete ok duration => Sys2Proof.Machine.execFlushComplete ok duration s
  | .headerWriteTimer => Sys2Proof.Machine.execHeaderWriteTimer s
  | .storeRetry ok => Sys2Proof.Machine.execStoreRetry ok s
  | .recFlushReq a v => Sys2Proof.Machine.execRecFlushReq a v s
  | .recFreeze a v => Sys2Proof.Machine.execRecFreeze a v s
  | .freezeLimitExpiry => Sys2Proof.Machine.execFreezeLimitExpiry s
  | .recErase a v => Sys2Proof.Machine.execRecErase a v s
  | .eraseOverwriteDone => Sys2Proof.Machine.execEraseOverwriteDone s
  | .hrtCmdCtrlWrite a v => Sys2Proof.Machine.execHrtCmdCtrlWrite a v s
  | .hrtNtcConsWrite a v => Sys2Proof.Machine.execHrtNtcConsWrite a v s
  | .hrtIrqCauseClear a v => Sys2Proof.Machine.execHrtIrqCauseClear a v s
  | .hrtTbCapture a v => Sys2Proof.Machine.execHrtTbCapture a v s
  | .hrtConsSelWrite a v => Sys2Proof.Machine.execHrtConsSelWrite a v s
  | .twdJnlSelWrite a v => Sys2Proof.Machine.execTwdJnlSelWrite a v s
  | .twdCheckInjectWrite a v => Sys2Proof.Machine.execTwdCheckInjectWrite a v s
  | .blwDeadClear a v => Sys2Proof.Machine.execBlwDeadClear a v s
  | .blwRspTimeoutWrite a v => Sys2Proof.Machine.execBlwRspTimeoutWrite a v s
  | .obsFullEnWrite a v => Sys2Proof.Machine.execObsFullEnWrite a v s
  | .counterLowRead a => Sys2Proof.Machine.execCounterLowRead a s
  | .counterHighRead a => Sys2Proof.Machine.execCounterHighRead a s
  | .rcRead a => Sys2Proof.Machine.execRcRead a s
  | .registerWrite a v => Sys2Proof.Machine.execRegisterWrite a v s
  | .hello m lowest highest features => Sys2Proof.Machine.execHello m lowest highest features s
  | .sessionOpen m ephemeral nonce index key signature => Sys2Proof.Machine.execSessionOpen m ephemeral nonce index key signature s
  | .sessionClose m => Sys2Proof.Machine.execSessionClose m s
  | .sessionIdleExpiry slot => Sys2Proof.Machine.execSessionIdleExpiry slot s
  | .cmpStatus m => Sys2Proof.Machine.execCmpStatus m s
  | .recordRead m first count => Sys2Proof.Machine.execRecordRead m first count s
  | .cmpRegRead m offs => Sys2Proof.Machine.execCmpRegRead m offs s
  | .cmpRegWrite m pairs => Sys2Proof.Machine.execCmpRegWrite m pairs s
  | .snapshotRead m buffer offset => Sys2Proof.Machine.execSnapshotRead m buffer offset s
  | .cmpCommand m c => Sys2Proof.Machine.execCmpCommand m c s
  | .setCoordinates m coords => Sys2Proof.Machine.execSetCoordinates m coords s
  | .wiringSet m part count entries => Sys2Proof.Machine.execWiringSet m part count entries s
  | .replicaDeclare m group members self interval => Sys2Proof.Machine.execReplicaDeclare m group members self interval s
  | .imageWrite m offset data => Sys2Proof.Machine.execImageWrite m offset data s
  | .imageArm m autoConfirm => Sys2Proof.Machine.execImageArm m autoConfirm s
  | .imageConfirm m => Sys2Proof.Machine.execImageConfirm m s
  | .rollbackCommit m => Sys2Proof.Machine.execRollbackCommit m s
  | .keyRevoke m slot => Sys2Proof.Machine.execKeyRevoke m slot s
  | .removeRequest m => Sys2Proof.Machine.execRemoveRequest m s
  | .mainOn m => Sys2Proof.Machine.execMainOn m s
  | .eventSubscribe m addr port mask => Sys2Proof.Machine.execEventSubscribe m addr port mask s
  | .eventAck m event => Sys2Proof.Machine.execEventAck m event s
  | .eventResendTimer => Sys2Proof.Machine.execEventResendTimer s
  | .i3cPointerWrite bytes => Sys2Proof.Machine.execI3cPointerWrite bytes s
  | .i3cPrivateRead len => Sys2Proof.Machine.execI3cPrivateRead len s
  | .entdaa addr => Sys2Proof.Machine.execEntdaa addr s
  | .setdasa static addr => Sys2Proof.Machine.execSetdasa static addr s
  | .rstdaa => Sys2Proof.Machine.execRstdaa s
  | .getpid => Sys2Proof.Machine.execGetpid s
  | .getbcr => Sys2Proof.Machine.execGetbcr s
  | .getdcr => Sys2Proof.Machine.execGetdcr s
  | .getstatus => Sys2Proof.Machine.execGetstatus s
  | .getmxds => Sys2Proof.Machine.execGetmxds s
  | .enec => Sys2Proof.Machine.execEnec s
  | .disec => Sys2Proof.Machine.execDisec s
  | .ibiRetryTimer accepted => Sys2Proof.Machine.execIbiRetryTimer accepted s
  | .refclkReturn => Sys2Proof.Machine.execRefclkReturn s
  | .pcieLinkTrained => Sys2Proof.Machine.execPcieLinkTrained s
  | .contextAssigned c d => Sys2Proof.Machine.execContextAssigned c d s
  | .mainPathRemoved => Sys2Proof.Machine.execMainPathRemoved s
  | .badOpcode h opcode => Sys2Proof.Machine.execBadOpcode h opcode s

end Sys2Proof.Machine
end

