-- ==== Sys2Proof/Safety.lean ====
section
/-! DEFINITION. The terms that claims use: what a safe step is, the invariant of the signals, frames. -/
namespace Sys2Proof.Machine

/-- A step is safe when the block goes on: neither a fault nor a refusal. -/
def Safe (r : Res) : Prop := ∃ t, r = .next t

/-- What stands between two commands: a pending bit or a message held in D3hot has its cause set (R489), a pending vector outside
D3hot is masked (R489), and the TRIP latch holds TRAY_PC_N asserted (R339, R514). -/
def State.Signals (s : State) : Prop :=
  s.msix.pba &&& ~~~ s.causes = 0 ∧ s.msix.d3Held &&& ~~~ s.causes = 0 ∧
    (s.pw.d3 = false → s.msix.pba &&& ~~~ s.vecMask = 0) ∧ (s.hl.tripLatch = true → s.pw.trayPc = true)

/-- The fields of the state, for frames. -/
inductive Part
  | regs | paths | fused | sq | time | hl | pw | recd | msix | host | fns | txns | regions | roles | routes | slices
  | subs | i3c | tiles | plan | shadow | ctxs | agents | bus | bu | ofd | hbm | esc | test | thm | obs | ports | cmp
  | nor | free | out | pending
deriving DecidableEq, Repr

/-- A field is the same in two states. -/
def Part.same (s t : State) : Part → Prop
  | .regs => t.regs = s.regs
  | .paths => t.paths = s.paths
  | .fused => t.fused = s.fused
  | .sq => t.sq = s.sq
  | .time => t.time = s.time
  | .hl => t.hl = s.hl
  | .pw => t.pw = s.pw
  | .recd => t.recd = s.recd
  | .msix => t.msix = s.msix
  | .host => t.host = s.host
  | .fns => t.fns = s.fns
  | .txns => t.txns = s.txns
  | .regions => t.regions = s.regions
  | .roles => t.roles = s.roles
  | .routes => t.routes = s.routes
  | .slices => t.slices = s.slices
  | .subs => t.subs = s.subs
  | .i3c => t.i3c = s.i3c
  | .tiles => t.tiles = s.tiles
  | .plan => t.plan = s.plan
  | .shadow => t.shadow = s.shadow
  | .ctxs => t.ctxs = s.ctxs
  | .agents => t.agents = s.agents
  | .bus => t.bus = s.bus
  | .bu => t.bu = s.bu
  | .ofd => t.ofd = s.ofd
  | .hbm => t.hbm = s.hbm
  | .esc => t.esc = s.esc
  | .test => t.test = s.test
  | .thm => t.thm = s.thm
  | .obs => t.obs = s.obs
  | .ports => t.ports = s.ports
  | .cmp => t.cmp = s.cmp
  | .nor => t.nor = s.nor
  | .free => t.free = s.free
  | .out => t.out = s.out
  | .pending => t.pending = s.pending

/-- Every field but those listed is the same. -/
def Frame (l : List Part) (s t : State) : Prop := ∀ p, p ∉ l → p.same s t

/-- Every register but those of a class reads as before. -/
def RegsBut (f : Nat → Bool) (s t : State) : Prop := ∀ k, f k = false → t.reg k = s.reg k

/-- The registers that recording an event may move: the cause register, the losses of subscribers, the recorder's drop counts, the
trace's loss counts and a tile's error count (R352 to R366, R376, R387, R424, R471). -/
def eventReg (k : Nat) : Bool :=
  [HRT_IRQ_CAUSE, HRT_CMP_EVENTQ, REC_OVERRUN, REC_HOLD, REC_FREEZE_DROP, REC_THROTTLE_DROP].contains k ||
    [OBS_TRACE_LOST_LO, OBS_TRACE_LOST_HI].contains (k % 0x1000000) ||
    (decide (0x100000 ≤ k) && [TWD_TRACE_DROP, TWD_LC_ERR_LO, TWD_LC_ERR_HI, LWD_TS_DROP].contains (k % 0x1000))

/-- Registers that a served host command may move besides its own effect. -/
def commandReg (k : Nat) : Bool := eventReg k || k == HRT_CMD_NEXT_SEQ

/-- A host command is served at once: over the window with the host port up (R42), aligned, enabled, in sequence, with fewer than 64 waiting (R413 to R415), or
carried by CMP (R470); the core runs (R411), and the operands lie in their ranges (R420). -/
def State.Serves (s : State) (h : Hdr) : Prop :=
  s.sq.run = .running ∧ h.badOperand = false ∧ match h.via with
    | .cmp _ => True
    | .window aligned => s.hostUp = true ∧ aligned = true ∧ (s.reg HRT_CMD_CTRL).getLsbD 0 = true ∧ h.seq = s.reg HRT_CMD_NEXT_SEQ ∧ s.sq.waiting.length < 64

/-- The state in which a served command's own chapter finds the block: over the window the next sequence is due (R414). -/
def State.accepted (s : State) (h : Hdr) : State :=
  match h.via with
  | .cmp _ => s
  | .window _ => s.setReg HRT_CMD_NEXT_SEQ (h.seq + 1)

/-- The command is answered with a status and data words: in its response slot, with the epoch, and vector 0 unless it asked for none
(R416, R424), or over CMP. -/
def Answered (s t : State) (h : Hdr) (opcode : Nat) (st : Status) (data : List Word) : Prop :=
  match h.via with
  | .cmp m => Out.cmpReply m st (0 :: data) ∈ t.out
  | .window _ => Out.response h.seq opcode st s.host.epoch 0 data ∈ t.out ∧ (h.noMsix = false → t.causes.getLsbD 0 = true)

/-- A trigger at a level begins its own reset: the core runs, main power is good, no removal, TRIP, Quench or reset stands in the way,
and the trigger is no repeat (R30, R241, R249, R322). -/
def State.LadderFree (s : State) (l : Level) (parts : BitVec 4) : Prop :=
  s.sq.run = .running ∧ s.bu.removal = .none ∧ s.pw.mainGood = true ∧ s.hl.tripLatch = false ∧ s.thm.quenching = false ∧
    s.thm.quenched = false ∧ s.bu.failed = false ∧ s.esc.reset = none ∧ s.isRepeat l parts = false

/-- A request of the Hearth reaches an agent that acts on it: its island has power, it exists and works, and the message is whole, its TAIL the
CRC of its flits, its opcode the row's own, at the level in force, and no repeat of the last one in its class (R53, R54, R58 to R60, R82). -/
def State.Reaches (s : State) (e : Env) (cls level op : Nat) (operands : List Nat) : Prop :=
  s.dieExists e.dst.die = true ∧ s.islandOn e.dst.die.val = true ∧ e.dst ≠ s.hearthAgent ∧ s.agentExists e.dst = true ∧
    (s.agent e.dst).failed = false ∧ e.srcDie = s.anchor ∧ e.srcAgent = 0 ∧ envIntact e cls op operands = true ∧
    ((tget? (s.agent e.dst).last cls).any fun l => l.seq == e.seq.val) = false ∧ e.wire.level.val = level ∧ e.wire.opcode = none

/-- The level in force at an agent; before the census sets one it is 1 (R82). -/
def State.levelAt (s : State) (a : AgentIx) : Nat := if (s.agent a).level = 0 then 1 else (s.agent a).level

/-- The response of an agent to the Hearth leaves. -/
def Responded (s t : State) (a : AgentIx) (st : Nat) (data : List Word) : Prop := Out.bellows a s.hearthAgent (.answer st data) ∈ t.out

/-- A CMP message is new: with standby power and a good message, untagged outside a session and no repeat of its source's last one, or
tagged in an open session and later than the last one acted on (R466, R467, R469). -/
def State.fresh (s : State) (m : CmpHdr) : Bool :=
  s.pw.standby && m.good &&
    (if m.session = 0 then
      !m.auth && !((s.cmp.sources.getD (s.sourceOf m.addr) none).any fun y => y.addr == m.addr && y.seq == some m.seq)
    else m.auth && (s.sessionOf m.session).any fun i => (s.cmp.sessions.getD i none).any fun y =>
      y.seq != some m.seq && y.seq.all fun q => later m.seq q)

/-- The state in which the chapter of a new message finds the block: its session or source has its sequence and the time (R467). -/
def State.taken (s : State) (m : CmpHdr) : State :=
  if m.session = 0 then
    let j := s.sourceOf m.addr
    match (s.cmp.sources.getD j none).filter fun y => y.addr == m.addr with
    | some y => s.setSource j { y with last := s.time.tb, seq := some m.seq, answer := none }
    | none => (s.clearCopy (4 + j)).setSource j { addr := m.addr, last := s.time.tb, seq := some m.seq }
  else match s.sessionOf m.session with
    | some i => match s.cmp.sessions.getD i none with
      | some y => s.setSession i (some { y with last := s.time.tb, seq := some m.seq, answer := none })
      | none => s
    | none => s

/-- A new message that the core serves, with a feature in force where one is needed (R426, R468, R470). -/
def State.Hears (s : State) (m : CmpHdr) (feature : Option Nat) : Prop :=
  s.fresh m = true ∧ s.sq.run = .running ∧ ∀ k ∈ feature, ((s.taken m).features m).getLsbD k = true

/-- An aligned access to a catalogued register that the block serves: standby power, the host port up on the host path, no window, a page and a register that the grade has,
the secure world for a secure register, and a page that answers (R15, R425, R478, R479). -/
def State.Opens (s : State) (a : Acc) (r : RegRow) (k : PageKind) (n page : Nat) : Prop :=
  s.pathUp a.path = true ∧ a.aligned = true ∧ a.off % 4 = 0 ∧ rowAt a.off = some (r, page) ∧ pageOf a.off = some (k, n, a.off - page) ∧
    (0x800000 ≤ a.off → worldOf a.path = .secure) ∧ (a.off < 0x1000 ∨ 0x2000 ≤ a.off) ∧ isMsix a.off = false ∧
    s.unpopulated k n (a.off - page) = false ∧ (r.sec = false ∨ worldOf a.path = .secure) ∧ s.pageError k n (a.off - page) = none

/-- A write to it may act: code RW or WO, no reserved bit, a value in range, no refusing state, and for a warden page a world
that owns its class; the core runs for the Hearth page (R18, R427, R443, R479, R482). -/
def State.Takes (s : State) (a : Acc) (v : Word) (r : RegRow) (k : PageKind) (n page : Nat) : Prop :=
  s.Opens a r k n page ∧ (r.code = .rw ∨ r.code = .wo) ∧ v &&& ~~~ r.mask = 0 ∧ s.outOfRange k (a.off - page) (s.itemOf a.path r page) v = false ∧
    s.stateRefuses a.off = false ∧ (isWarden k = true → worldOf a.path = .secure ∨ s.classSecure k = false) ∧ (k = .hearth → s.sq.run = .running)

/-- The value of a register after a write of `v`: its writable bits from `v`, the others as they were (R18). -/
def written (r : RegRow) (old v : Word) : Word := (old &&& ~~~ (r.mask &&& ~~~ r.fixed)) ||| (v &&& (r.mask &&& ~~~ r.fixed))

/-- The opcode requires operator privilege (R419). -/
def needsOperator : HostCmd → Bool
  | .nop | .contextKill _ | .ofdRegister _ | .ofdRelease _ | .ofdRead _ | .scrubDigest _ | .ofdVerify .. | .obsCtxRead _ | .watchSet _
  | .watchRelease .. | .bad _ => false
  | _ => true

/-- The context that a command names: its operand, or the owner of the handle or watchpoint that it names (R401, R419). -/
def State.contextNamed (s : State) : HostCmd → Option CtxIx
  | .contextKill c => some c
  | .ofdRegister d => some d.ctx
  | .ofdRelease k => (s.handle? k.val).map fun x => x.d.ctx
  | .ofdRead k => (s.handle? k.val).map fun x => x.d.ctx
  | .scrubDigest d => some d.ctx
  | .ofdVerify d _ _ => some d.ctx
  | .obsCtxRead c => some c
  | .watchSet w => some w.ctx
  | .watchRelease p w => (s.watch (watchKey p w.val)).w.map WatchDecl.ctx
  | _ => none

/-- The command is refused with a status, whatever the detail word (R416). -/
def Refused (s t : State) (h : Hdr) (opcode : Nat) (st : Status) : Prop :=
  match h.via with
  | .cmp m => ∃ d, Out.cmpReply m st [d] ∈ t.out
  | .window _ => ∃ d, Out.response h.seq opcode st s.host.epoch d [] ∈ t.out

end Sys2Proof.Machine
end

