-- ==== Sys2Proof/Certificates/Slice0/Obligations.lean ====
section
/-! DEFINITION. The statements for the provers. Every statement about a command's completion concludes that `exec` answers a next
state; frames name the fields and registers that may move. -/
open Sys2Proof Sys2Proof.Machine

/-- A served TXN_BEGIN with operator privilege opens the requester's world's transaction when it is closed, with the next
identifier and an empty bank, and is answered OK with the identifier. A served TXN_ABORT of an open transaction without a
running commit discards the bank. The timeout of an open transaction without a running commit discards the bank, counts it in
TXN_ROLLBACKS and raises vector 10. The other world's transaction and everything outside the frame stand. -/
def Obligations.TxnLifecycle : Prop :=
  (∀ s h, s.Signals → s.Serves h → h.operator = true →
    (s.txn (Pend.world ⟨h, 0x10⟩)).isOpen = false →
    ∃ t n, exec (.txnBegin h) s = .next t ∧ n = ((s.txn (Pend.world ⟨h, 0x10⟩)).ident + 1) % 65536 ∧
      (t.txn (Pend.world ⟨h, 0x10⟩)).isOpen = true ∧ (t.txn (Pend.world ⟨h, 0x10⟩)).ident = n ∧
      (t.txn (Pend.world ⟨h, 0x10⟩)).items = [] ∧ (t.txn (Pend.world ⟨h, 0x10⟩)).openedAt = s.time.tb ∧
      (∀ w, w ≠ Pend.world ⟨h, 0x10⟩ → t.txn w = s.txn w) ∧
      Answered s t h 0x10 .ok [BitVec.ofNat 32 n] ∧ Frame [.regs, .msix, .cmp, .out, .txns] s t ∧ RegsBut commandReg s t) ∧
  (∀ s h, s.Signals → s.Serves h → h.operator = true →
    (s.txn (Pend.world ⟨h, 0x13⟩)).isOpen = true → (s.txn (Pend.world ⟨h, 0x13⟩)).commit = none →
    ∃ t, exec (.txnAbort h) s = .next t ∧
      (t.txn (Pend.world ⟨h, 0x13⟩)).isOpen = false ∧ (t.txn (Pend.world ⟨h, 0x13⟩)).items = [] ∧
      (∀ w, w ≠ Pend.world ⟨h, 0x13⟩ → t.txn w = s.txn w) ∧
      Answered s t h 0x13 .ok [] ∧ Frame [.regs, .msix, .cmp, .out, .txns] s t ∧ RegsBut commandReg s t) ∧
  (∀ s w, s.Signals → (s.txn w).isOpen = true → (s.txn w).commit = none →
    ∃ t, exec (.txnTimeoutExpiry w) s = .next t ∧ (t.txn w).isOpen = false ∧ (t.txn w).items = [] ∧
      t.reg TXN_ROLLBACKS = BitVec.ofNat 32 (satAdd 32 (s.reg TXN_ROLLBACKS).toNat 1) ∧ t.causes.getLsbD 10 = true ∧
      (∀ v, v ≠ w → t.txn v = s.txn v) ∧ Frame [.regs, .msix, .recd, .subs, .i3c, .obs, .out, .txns] s t ∧
      RegsBut (fun k => eventReg k || k == TXN_ROLLBACKS) s t)

/-- A TXN_ITEM that authenticated CMP carries, with operator privilege, while the secure transaction is open, has no running
commit and holds fewer than 256 items, is answered OK and put at the end of the bank; region tables, roles, routes and slice
filters stand until a commit. A region item must have a length of 1 to 2^24 - 1 MiB (72 at least for an Anvil region: the
model's check, assumption log 5), a role or slice item must name a port of the grade. -/
def Obligations.TxnItemsStage : Prop :=
  ∀ s h, s.Signals → s.Serves h → h.operator = true → Pend.world ⟨h, 0x11⟩ = .secure → (s.txn .secure).isOpen = true →
    (s.txn .secure).commit = none → (s.txn .secure).items.length < 256 →
    (∀ ix e, regionGood e = true → ∃ t, exec (.txnItemRegion h ix e) s = .next t ∧
      (t.txn .secure).items = (s.txn .secure).items ++ [.region ix e] ∧ Answered s t h 0x11 .ok [] ∧
      Frame [.regs, .msix, .cmp, .out, .txns] s t ∧ RegsBut commandReg s t) ∧
    (∀ p r, p.val < s.portCount → ∃ t, exec (.txnItemPortRole h p r) s = .next t ∧
      (t.txn .secure).items = (s.txn .secure).items ++ [.role p r] ∧ Answered s t h 0x11 .ok [] ∧
      Frame [.regs, .msix, .cmp, .out, .txns] s t ∧ RegsBut commandReg s t) ∧
    (∀ ix r, ∃ t, exec (.txnItemRoute h ix r) s = .next t ∧
      (t.txn .secure).items = (s.txn .secure).items ++ [.route ix r] ∧ Answered s t h 0x11 .ok [] ∧
      Frame [.regs, .msix, .cmp, .out, .txns] s t ∧ RegsBut commandReg s t) ∧
    (∀ p ix e, p.val < s.portCount → ∃ t, exec (.txnItemSliceFilter h p ix e) s = .next t ∧
      (t.txn .secure).items = (s.txn .secure).items ++ [.slice p ix e] ∧ Answered s t h 0x11 .ok [] ∧
      Frame [.regs, .msix, .cmp, .out, .txns] s t ∧ RegsBut commandReg s t) ∧
    (∀ r x, ∃ t, exec (.txnItemSparing h r x) s = .next t ∧
      (t.txn .secure).items = (s.txn .secure).items ++ [.sparing r x] ∧ Answered s t h 0x11 .ok [] ∧
      Frame [.regs, .msix, .cmp, .out, .txns] s t ∧ RegsBut commandReg s t)

/-- A served TXN_ITEM of any kind whose requester acts for the non-secure world is refused: nothing is staged, vector 13 is
raised, and the denial is counted in HRT_WORLD_DENIED. -/
def Obligations.TxnItemDenied : Prop :=
  ∀ s h, s.Serves h → h.operator = true → Pend.world ⟨h, 0x11⟩ = .nonSecure →
    ∀ i, (∃ ix e, i = .txnItemRegion h ix e) ∨ (∃ p r, i = .txnItemPortRole h p r) ∨ (∃ ix r, i = .txnItemRoute h ix r) ∨
        (∃ p ix e, i = .txnItemSliceFilter h p ix e) ∨ (∃ r x, i = .txnItemSparing h r x) →
      ∃ t, exec i s = .next t ∧ t.txns = s.txns ∧ t.regions = s.regions ∧ t.roles = s.roles ∧ t.routes = s.routes ∧
        t.slices = s.slices ∧ t.plan = s.plan ∧ t.causes.getLsbD 13 = true ∧
        t.reg HRT_WORLD_DENIED = BitVec.ofNat 32 (satAdd 32 (s.reg HRT_WORLD_DENIED).toNat 1)

/-- A served TXN_COMMIT IMMEDIATE of the non-secure world, whose bank holds register items only, none of them the
configuration epoch, the commit count, the world map or the function lock, and passes validation, is answered OK with the new
epoch: every register but those that a record moves reads as the bank leaves it, the configuration epoch has advanced by one,
and the transaction is closed with an empty bank. -/
def Obligations.TxnCommitApplies : Prop :=
  ∀ s h, s.Signals → s.Serves h → h.operator = true → Pend.world ⟨h, 0x12⟩ = .nonSecure →
    (s.txn .nonSecure).isOpen = true → (s.txn .nonSecure).commit = none →
    (∀ i ∈ (s.txn .nonSecure).items, ∃ off sel v, i = .reg off sel v ∧ off ≠ HRT_WORLD_MAP ∧
      itemKey off sel ≠ TXN_CFG_EPOCH ∧ itemKey off sel ≠ TXN_COMMITS ∧ itemKey off sel ≠ HRT_FN_LOCK ∧ eventReg (itemKey off sel) = false) →
    (((s.accepted h).modTxn .nonSecure fun x => { x with lastStep := false }).firstFail .nonSecure) = none →
    ∃ t, exec (.txnCommitImmediate h) s = .next t ∧
      t.reg TXN_CFG_EPOCH = s.reg TXN_CFG_EPOCH + 1 ∧ (t.txn .nonSecure).isOpen = false ∧ (t.txn .nonSecure).items = [] ∧
      (∀ k, commandReg k = false → k ≠ TXN_CFG_EPOCH → k ≠ TXN_COMMITS →
        t.reg k = ((s.txn .nonSecure).items.foldl State.putItem s).reg k) ∧
      Answered s t h 0x12 .ok [s.reg TXN_CFG_EPOCH + 1] ∧
      Frame [.regs, .msix, .recd, .subs, .i3c, .obs, .cmp, .out, .txns] s t

/-- A served TXN_COMMIT, IMMEDIATE or STEP, of an open transaction without a running commit, whose bank fails validation at
item k, applies nothing: every register but the failure register, the refusal count and those of records stands, the bank is
kept, and the failure register holds status 23, the item's index and kind. The record's data is the model's reading of R446. -/
def Obligations.TxnCommitRefused : Prop :=
  ∀ s h b k, s.Signals → s.Serves h → h.operator = true → (s.txn (Pend.world ⟨h, 0x12⟩)).isOpen = true →
    (s.txn (Pend.world ⟨h, 0x12⟩)).commit = none →
    (((s.accepted h).modTxn (Pend.world ⟨h, 0x12⟩) fun x => { x with lastStep := b }).firstFail (Pend.world ⟨h, 0x12⟩)) = some k →
    ∃ t, exec (if b then .txnCommitStep h else .txnCommitImmediate h) s = .next t ∧
      (t.txn (Pend.world ⟨h, 0x12⟩)).isOpen = true ∧ (t.txn (Pend.world ⟨h, 0x12⟩)).items = (s.txn (Pend.world ⟨h, 0x12⟩)).items ∧
      t.reg (failReg (Pend.world ⟨h, 0x12⟩)) =
        BitVec.ofNat 32 (23 * 2 ^ 24 + k % 256 * 2 ^ 16 + (((s.txn (Pend.world ⟨h, 0x12⟩)).items[k]?).map TxnItem.kind).getD 0) ∧
      Frame [.regs, .msix, .recd, .subs, .i3c, .obs, .cmp, .out, .txns] s t ∧
      RegsBut (fun r => commandReg r || r == TXN_REFUSED || r == failReg (Pend.world ⟨h, 0x12⟩)) s t

/-- A served TXN_COMMIT STEP of an open transaction without a running commit, whose bank passes validation, with a context
running and no boundary stop in force, is not answered yet: a boundary stop in STEP mode over its quiesce scope begins, the
commit waits, nothing is applied. -/
def Obligations.TxnStepWaits : Prop :=
  ∀ s h, s.Signals → s.Serves h → h.operator = true → (s.txn (Pend.world ⟨h, 0x12⟩)).isOpen = true →
    (s.txn (Pend.world ⟨h, 0x12⟩)).commit = none → s.anyRunning = true → s.esc.bstop = none →
    (((s.accepted h).modTxn (Pend.world ⟨h, 0x12⟩) fun x => { x with lastStep := true }).firstFail (Pend.world ⟨h, 0x12⟩)) = none →
    ∃ t, exec (.txnCommitStep h) s = .next t ∧
      (t.txn (Pend.world ⟨h, 0x12⟩)).commit = some ⟨true, some ⟨h, 0x12⟩⟩ ∧
      (t.txn (Pend.world ⟨h, 0x12⟩)).items = (s.txn (Pend.world ⟨h, 0x12⟩)).items ∧
      (∃ b, t.esc.bstop = some b ∧ b.step = true ∧ b.who = .txn (Pend.world ⟨h, 0x12⟩) ∧ b.held = false) ∧
      t.host.unanswered = s.host.unanswered ++ [⟨h, 0x12⟩] ∧
      Frame [.regs, .msix, .out, .txns, .esc, .host] s t ∧ RegsBut commandReg s t

/-- Outside SAFE, a served FN_ENABLE takes a function that is OFF to STARTING and one that is STOPPING to PENDING_ON;
FN_DISABLE that no lock holds back takes one that is STARTING, ON or PENDING_ON to STOPPING; in the other states they change
no function; the answer is OK with the state and generation. FN_START_COMPLETE takes a function from STARTING to ON with the
next generation when it succeeded (trace: when every traced partition's region is good as well), to OFF when not, and raises
vector 9; FN_STOP_COMPLETE takes one from STOPPING to OFF, and from PENDING_ON to STARTING, with vector 9. The other functions
stand. -/
def Obligations.FunctionStates : Prop :=
  (∀ s h (f : FnIx), s.Signals → s.Serves h → h.operator = true → s.bu.pkg ≠ .safe →
    ∃ t, exec (.fnEnable h f) s = .next t ∧
      (t.fn f).st = (if (s.fn f).st = .off then .starting else if (s.fn f).st = .stopping then .pendingOn else (s.fn f).st) ∧ (t.fn f).gen = (s.fn f).gen ∧
      (∀ g : FnIx, g ≠ f → t.fn g = s.fn g) ∧
      Answered s t h 0x20 .ok [t.fnWord f.val] ∧ Frame [.regs, .msix, .cmp, .out, .fns] s t ∧ RegsBut commandReg s t) ∧
  (∀ s h (f : FnIx), s.Signals → s.Serves h → h.operator = true →
    ((s.reg HRT_FN_LOCK).getLsbD f = false ∨ Pend.world ⟨h, 0x21⟩ = .secure) → ∃ t, exec (.fnDisable h f) s = .next t ∧
      (t.fn f).st = (if (s.fn f).st = .off then .off else .stopping) ∧ (t.fn f).gen = (s.fn f).gen ∧ (∀ g : FnIx, g ≠ f → t.fn g = s.fn g) ∧
      Answered s t h 0x21 .ok [t.fnWord f.val] ∧
      ((s.fn f).st ≠ .starting → (s.fn f).st ≠ .on → Frame [.regs, .msix, .cmp, .out, .fns] s t ∧ RegsBut commandReg s t)) ∧
  (∀ s (f : FnIx) ok good, s.Signals → (s.fn f).st = .starting →
    good = (ok && (f != 1 || (List.range 4).all fun p => !s.traced p || s.traceRegionOk p)) →
    ∃ t, exec (.fnStartComplete f ok) s = .next t ∧
      (t.fn f).st = (if good then .on else .off) ∧ (t.fn f).gen = (if good then ((s.fn f).gen + 1) % 65536 else (s.fn f).gen) ∧
      t.causes.getLsbD 9 = true ∧ (∀ g : FnIx, g ≠ f → t.fn g = s.fn g) ∧
      Frame [.regs, .msix, .recd, .subs, .i3c, .obs, .out, .fns, .tiles, .agents, .shadow, .ctxs, .test, .bus] s t ∧
      (f ≠ 0 ∨ good = false → Frame [.regs, .msix, .recd, .subs, .i3c, .obs, .out, .fns] s t ∧ RegsBut eventReg s t)) ∧
  (∀ s (f : FnIx), s.Signals → ((s.fn f).st = .stopping ∨ (s.fn f).st = .pendingOn) →
    ∃ t, exec (.fnStopComplete f) s = .next t ∧
      (t.fn f).st = (if (s.fn f).st = .stopping then .off else .starting) ∧ t.causes.getLsbD 9 = true ∧
      (∀ g : FnIx, g ≠ f → t.fn g = s.fn g) ∧
      Frame [.regs, .msix, .recd, .subs, .i3c, .obs, .out, .fns] s t ∧ RegsBut eventReg s t)

/-- With the core running, its image digest good and no expiry within 60 s before, a watchdog expiry takes the core to
restarting, counts the restart and ends the CMP sessions; hard lines, wardens' tiles, agents, contexts, functions, memory
digests and everything else outside the frame stand. HEARTH_RESTART_COMPLETE with nothing held, waiting, staged or dropped
takes the core back to running with its watchdog period afresh and the Bellows level read from the anchor router, and with
open transactions it discards them all. The end of CMP sessions at the restart's start is the model's reading (DEDUCED,
NOTES.md). -/
def Obligations.CoreRestart : Prop :=
  (∀ s, s.Signals → s.sq.run = .running → s.secondExpiry = false → ∃ t, exec (.coreWatchdogExpiry true) s = .next t ∧
    t.sq.run = .restarting ∧ t.sq.restarts = satAdd 16 s.sq.restarts 1 ∧ t.sq.prevExpiry = some s.time.tb ∧
    t.cmp.sessions = [none, none, none, none] ∧
    Frame [.regs, .msix, .recd, .subs, .i3c, .obs, .out, .sq, .cmp] s t ∧ RegsBut eventReg s t) ∧
  (∀ s, s.Signals → s.sq.run = .restarting → s.sq.held = [] → s.sq.waiting = [] → s.thm.quenchWait = none → s.esc.bstop = none →
    (∀ w, (s.txn w).isOpen = false) → (∀ a, (s.agent a).dropsInRestart = 0) → s.plan.waiting = [] →
    ∃ t, exec .hearthRestartComplete s = .next t ∧ t.sq.run = .running ∧ t.sq.lastBeat = s.time.tb ∧
      t.bus = { s.bus with level := max 1 (s.agent (routerAgent s.anchor)).level } ∧ Frame [.msix, .out, .sq, .bus] s t) ∧
  (∀ s, s.sq.run = .restarting → s.sq.held = [] → s.sq.waiting = [] → s.thm.quenchWait = none → s.esc.bstop = none →
    ∃ t, exec .hearthRestartComplete s = .next t ∧ t.sq.run = .running ∧ (∀ w, (t.txn w).isOpen = false))

/-- With the core running, a watchdog expiry within 60 s of the one that started the previous restart, or one with a bad image
digest, halts the core: KILL stands on every compute region, STOP on every domain that STOP reaches but those TRIP holds, and
the package is SAFE. With the core not running, the expiry changes nothing but what was pending on the pins. -/
def Obligations.CoreHalt : Prop :=
  (∀ s ok, s.sq.run = .running → (s.secondExpiry = true ∨ ok = false) → ∃ t, exec (.coreWatchdogExpiry ok) s = .next t ∧
    t.sq.run = .halted ∧ t.bu.pkg = .safe ∧ t.hl.kill &&& computeDomains = computeDomains ∧
    s.stopReach &&& ~~~ (t.hl.stop ||| t.hl.trip) = 0 ∧ t.plan = s.plan ∧ t.fns = s.fns ∧ t.txns = s.txns) ∧
  (∀ s ok, s.sq.run ≠ .running → exec (.coreWatchdogExpiry ok) s = .next (settle s))

/-- Loss of REFCLK stops the time base and counts the loss, its return starts it, and neither touches anything else but
in-band interrupts and the events that subscribers are sent. The core's heartbeat write, with standby power and the core
running, restarts the watchdog period from now and takes the period set; a heartbeat written by the host is refused with an
access error and beats nothing. -/
def Obligations.TimeBaseAndHeartbeat : Prop :=
  (∀ s, s.Signals → s.time.refclk = true → ∃ t, exec .refclkLoss s = .next t ∧ t.time.refclk = false ∧
    t.time.losses = satAdd 16 s.time.losses 1 ∧ t.time.tb = s.time.tb ∧ Frame [.msix, .out, .time, .i3c, .subs] s t) ∧
  (∀ s, s.Signals → ∃ t, exec .refclkReturn s = .next t ∧ t.time.refclk = true ∧ t.time.tb = s.time.tb ∧
    Frame [.msix, .out, .time] s t) ∧
  (∀ s v, s.Signals → s.pw.standby = true → s.sq.run = .running → ∃ t, exec (.heartbeat .core v) s = .next t ∧
    t.sq.lastBeat = s.time.tb ∧ t.sq.wdogMs = s.fld HRT_SQ_WDOG 7 0 ∧ t.sq.run = .running ∧
    Frame [.regs, .msix, .out, .sq] s t ∧ RegsBut (fun k => k == HRT_ACCESS_ERR || k == HRT_ACCESS_LAST) s t) ∧
  (∀ s v, s.Signals → s.pw.standby = true → ∃ t, exec (.heartbeat .host v) s = .next t ∧ t.sq = s.sq ∧ t.causes.getLsbD 13 = true)

/-- The model's choice (assumption log 2): with no command waiting, a step with standby power and REFCLK advances the time
base by 640 ns; without either the block idles. In both cases the queue stays empty and hard lines, functions, transactions
and the recorder stand. -/
def Obligations.IdlePeriod : Prop :=
  (∀ s, s.Signals → s.pending = [] → s.pw.standby = true → s.time.refclk = true → ∃ t, step s = .next t ∧
    t.time.tb = s.time.tb + 640 ∧ t.pending = [] ∧ Frame [.regs, .msix, .out, .time, .thm, .tiles, .free] s t) ∧
  (∀ s, s.pending = [] → (s.pw.standby = false ∨ s.time.refclk = false) → step s = .next (settle s))

/-- With the package in service, no reset and no Quench, ATTN_N starts a removal: vector 8 is raised and the host driver's
notice wait begins. The end of that wait, or REMOVE_ACK, takes the removal to its stop: one boundary stop of the whole
package, intake disabled, no transaction open. The end of power-down leaves the package SAFE with every domain off,
READY_FOR_MAIN released and OK_TO_REMOVE shown. During a core restart ATTN_N waits. -/
def Obligations.Removal : Prop :=
  (∀ s, s.pw.standby = true → s.pw.trayPc = false → s.sq.run = .running → s.bu.removal = .none → s.bu.complete = true →
    s.thm.quenching = false → s.esc.reset = none → ∃ t, exec .attnRequest s = .next t ∧ t.bu.removal = .notice ∧
      t.causes.getLsbD 8 = true ∧ t.pw.okToRemove = s.pw.okToRemove ∧ t.hl = s.hl) ∧
  (∀ s, s.sq.run = .restarting → ∃ t, exec .attnRequest s = .next t ∧ t.sq.waiting = s.sq.waiting ++ [.attnRequest] ∧ t.bu = s.bu) ∧
  (∀ s, s.bu.removal = .notice → ∃ t, exec .hostNoticeWaitExpiry s = .next t ∧ t.bu.removal = .stopping ∧
    t.esc.bstop = some ⟨0xF, false, .removal, false, false, []⟩) ∧
  (∀ s h, s.Serves h → h.operator = true → s.bu.removal = .notice → ∃ t, exec (.removeAck h) s = .next t ∧
    t.bu.removal = .stopping ∧ t.esc.bstop = some ⟨0xF, false, .removal, false, false, []⟩) ∧
  (∀ s, s.bu.removal = .powerDown → s.hl.tripLatch = false → ∃ t, exec .removalPowerDownDone s = .next t ∧
    t.bu.removal = .removable ∧ t.bu.pkg = .safe ∧ t.pw.okToRemove = true ∧ t.pw.readyForMain = false ∧ t.pw.domOn = 0)

/-- PERST_N before the link has trained is noted and resets nothing; the link's training is noted while the anchor's main
domain is powered; entry into D3hot is noted. On return to D0 no message stays held. Loss of the main path leaves every domain
off, no tile or port state, and the package SAFE. -/
def Obligations.HostLinkAndMainPath : Prop :=
  (∀ s, s.Signals → s.pw.pcieTrained = false → ∃ t, exec (.hostFullReset true) s = .next t ∧ t.pw = { s.pw with perstSeen := true } ∧
    Frame [.msix, .out, .pw] s t) ∧
  (∀ s, s.Signals → s.pw.domOn.getLsbD 40 = true → ∃ t, exec .pcieLinkTrained s = .next t ∧ t.pw = { s.pw with pcieTrained := true } ∧
    Frame [.msix, .out, .pw] s t) ∧
  (∀ s, s.Signals → ∃ t, exec (.pmStateChange true) s = .next t ∧ t.pw = { s.pw with d3 := true } ∧ Frame [.msix, .out, .pw] s t) ∧
  (∀ s, s.Signals → ∃ t, exec (.pmStateChange false) s = .next t ∧ t.pw = { s.pw with d3 := false } ∧ t.msix.d3Held = 0 ∧
    t.msix.pba &&& ~~~ s.vecMask = 0 ∧ Frame [.msix, .out, .pw] s t) ∧
  (∀ s, ∃ t, exec .mainPathRemoved s = .next t ∧ t.pw.mainGood = false ∧ t.pw.domOn = 0 ∧ t.tiles = [] ∧ t.ports = [] ∧ t.bu.pkg = .safe)

/-- With standby power, a die sensor at or above TRIP for 100 µs, and a stack's confirmed sample, assert TRIP on every domain
of the part, latch it with TRAY_PC_N, release READY_FOR_MAIN and leave the package SAFE. A first stack sample at TRIP only
awaits its confirmation; a confirmation below TRIP ends the episode. -/
def Obligations.TripLatches : Prop :=
  (∀ s u x, s.pw.standby = true → s.sensorExists u = true → s.tripAt (unitOfSensor u) ≤ x → s.hl.tripLatch = false → ∃ t, exec (.tripAssert u x) s = .next t ∧
    t.hl.tripLatch = true ∧ t.hl.trip = s.allDomains ∧ t.pw.trayPc = true ∧ t.pw.readyForMain = false ∧ t.bu.pkg = .safe) ∧
  (∀ s (n : StackIx) x, s.Signals → n.val < s.stackCount → s.tripAt (.stack n) ≤ x → s.thm.confirming.contains n = false →
    ∃ t, exec (.stackTripSample n x) s = .next t ∧ t.thm.confirming = n :: s.thm.confirming ∧ Frame [.msix, .out, .thm] s t) ∧
  (∀ s (n : StackIx) x, s.thm.confirming.contains n = true → s.tripAt (.stack n) ≤ x → s.hl.tripLatch = false →
    ∃ t, exec (.stackTripConfirm n x) s = .next t ∧ t.hl.tripLatch = true ∧ t.hl.trip = s.allDomains ∧ t.pw.trayPc = true ∧
      t.pw.readyForMain = false ∧ t.bu.pkg = .safe) ∧
  (∀ s (n : StackIx) x, s.Signals → s.thm.confirming.contains n = true → x < s.tripAt (.stack n) →
    ∃ t, exec (.stackTripConfirm n x) s = .next t ∧ t.thm.confirming = s.thm.confirming.erase n ∧ Frame [.msix, .out, .thm] s t)

/-- On an enforced region of a running core with a working driver at or above REQUEST - 3 degrees and no power enforcement,
whose thermal ratio does not end at 16 with a power ratio of 16, a tick lowers the thermal ratio by one, never below the
floor, restarts the raise count and leaves the power ratio; THRT stands on the region exactly while the ratio in force is
below 16. A grace that expires while it runs ends, and the unit counts as expired. -/
def Obligations.TemperLoop : Prop :=
  (∀ s (g : Fin 16), s.Signals → s.sq.run = .running → (s.region g).enforced = true → s.thm.powerOn = false →
    (∃ u ∈ (s.region g).drivers.map unitAt, s.blind u = true ∨ ∃ x, s.unitTemp u = some x ∧ s.request u - 12 ≤ x) →
    ¬ (max s.floorRatio ((s.region g).thermal - 1) = 16 ∧ (s.region g).power = 16) →
    ∃ t, exec (.temperTick g) s = .next t ∧ (t.region g).thermal = max s.floorRatio ((s.region g).thermal - 1) ∧
      (t.region g).sinceRaise = 0 ∧ (t.region g).power = (s.region g).power ∧ (t.region g).enforced = true ∧
      t.hl.thrt.getLsbD g = decide ((t.region g).ratio < 16) ∧
      (∀ k, k ≠ g.val → t.region k = s.region k) ∧ t.hl = { s.hl with thrt := t.hl.thrt } ∧ Frame [.msix, .out, .thm, .hl] s t) ∧
  (∀ s u, s.sq.run = .running → (s.levelOf u).grace = true → ∃ t, exec (.thermalGraceExpiry u) s = .next t ∧
    (t.levelOf u).grace = false ∧ (t.levelOf u).expired = true ∧ (∀ g ∈ s.enforces u, (t.region g).enforced = true))

/-- A cool reading of a good sensor whose unit has no level set is kept as the last reading and shown in the sensor's
register, and nothing else follows. A PMBus round of the running core keeps the reading of the input power for the next
average if the input channel answered in that round. The 10 ms average below the limit, without a grace or an enforcement, is
kept and shown; above it, with a positive grace time, the grace starts. The end of the grace more than 5 percent below the
limit only ends the grace; else every region is enforced. With every region at its floor and the power above the limit, the
floor's expiry starts Quench. -/
def Obligations.SensorAndPower : Prop :=
  (∀ s x temp m, s.Signals → s.sq.run = .running → s.sensorExists x = true → s.thm.failed.contains (sensorNum x) = false →
    (s.putReading x temp).sensorBad x temp = false → (s.putReading x temp).unitTemp (unitOfSensor x) = some m →
    s.blind (unitOfSensor x) = false → s.levelOf (unitOfSensor x) = {} →
    m < s.advise (unitOfSensor x) → m < s.request (unitOfSensor x) → m < s.quenchAt (unitOfSensor x) →
    ∃ t, exec (.sensorRound [(x, temp)] []) s = .next t ∧ tget? t.thm.temps (sensorNum x) = some temp ∧
      t.reg (s.sensorReg x) = BitVec.ofNat 32 (tempBits temp) ∧ Frame [.regs, .msix, .out, .thm] s t ∧
      RegsBut (fun k => k == s.sensorReg x) s t) ∧
  (∀ s rs, s.sq.run = .running → ∃ t, exec (.pmbusRound rs) s = .next t ∧ t.thm.power = s.thm.power ∧ t.hl = s.hl ∧
    (∀ c r, t.inputChannel = some c → (rs.find? fun x => x.channel.val == c && x.answers && x.pecGood) = some r → t.thm.pins = r.pin :: s.thm.pins) ∧
    (t.inputChannel = none ∨ (∃ c, t.inputChannel = some c ∧ (rs.find? fun x => x.channel.val == c && x.answers && x.pecGood) = none) → t.thm.pins = s.thm.pins)) ∧
  (∀ s w c, s.Signals → s.sq.run = .running → meanOf s.thm.pins = some w → s.inputChannel = some c → w ≤ s.fld HRT_PWR_LIMIT 11 0 → ∃ t, exec .powerAverage s = .next t ∧
    t.thm.power = w ∧ t.thm.powerGrace = s.thm.powerGrace ∧ (t.reg HRT_PWR_INPUT).toNat % 65536 = min 65535 w ∧
    Frame [.regs, .msix, .out, .thm] s t ∧ RegsBut (fun k => k == HRT_PWR_INPUT) s t) ∧
  (∀ s w c, s.Signals → s.sq.run = .running → meanOf s.thm.pins = some w → s.inputChannel = some c → s.fld HRT_PWR_LIMIT 11 0 < w → s.thm.powerGrace = false → s.thm.powerOn = false →
    s.fld HRT_PWR_GRACE 12 0 ≠ 0 → ∃ t, exec .powerAverage s = .next t ∧ t.thm.power = w ∧ t.thm.powerGrace = true ∧
      t.hl = s.hl ∧ Frame [.regs, .msix, .recd, .subs, .i3c, .obs, .out, .thm] s t) ∧
  (∀ s, s.Signals → s.sq.run = .running → s.thm.powerGrace = true → s.thm.power * 100 ≤ s.fld HRT_PWR_LIMIT 11 0 * 95 ∨ s.inputChannel = none →
    ∃ t, exec .powerGraceExpiry s = .next t ∧
    t.thm.powerGrace = false ∧ t.thm.powerOn = s.thm.powerOn ∧ Frame [.msix, .out, .thm] s t) ∧
  (∀ s, s.sq.run = .running → s.thm.powerGrace = true → s.inputChannel ≠ none → s.fld HRT_PWR_LIMIT 11 0 * 95 < s.thm.power * 100 → ∃ t, exec .powerGraceExpiry s = .next t ∧
    t.thm.powerGrace = false ∧ t.thm.powerOn = true ∧ (∀ g, g < 16 → (t.region g).enforced = true)) ∧
  (∀ s, s.sq.run = .running → s.thm.powerOn = true → s.inputChannel ≠ none → s.fld HRT_PWR_LIMIT 11 0 < s.thm.power → (∀ g, g < 16 → (s.region g).ratio ≤ s.floorRatio) →
    s.thm.quenching = false → s.thm.quenched = false → s.hl.tripLatch = false → ∃ t, exec .powerFloorExpiry s = .next t ∧
      t.thm.quenching = true ∧ t.esc.bstop = some ⟨0xF, false, .quench, false, false, []⟩)

/-- With main input good and no warning standing, POWER_FAIL_WARN is noted and counted, KILL stands on every compute region,
and the package is SAFE. With main input already lost or a warning standing it changes nothing. -/
def Obligations.PowerFailWarning : Prop :=
  (∀ s, s.pw.mainGood = true → s.pw.pfWarn = false → ∃ t, exec .powerFailWarn s = .next t ∧ t.pw.pfWarn = true ∧ t.bu.pkg = .safe ∧
    t.hl.kill &&& computeDomains = computeDomains ∧ t.fns = s.fns ∧ t.txns = s.txns) ∧
  (∀ s, (s.pw.mainGood = false ∨ s.pw.pfWarn = true) → exec .powerFailWarn s = .next (settle s))

/-- With no stop in force, a served BOUNDARY_STOP that names a partition is answered OK at its acceptance and its stop begins.
The cut of a host's stop is held by STOP on its scope; its timeout asserts STOP on its scope as well, and the stop stands as
timed out. A served BOUNDARY_RESUME releases the host's stop. -/
def Obligations.BoundaryStops : Prop :=
  (∀ s h parts b, s.Signals → s.Serves h → h.operator = true → s.esc.bstop = none → parts ≠ 0 →
    ∃ t, exec (.boundaryStop h parts b) s = .next t ∧ t.esc.bstop = some ⟨parts, b, .host ⟨h, 0x33⟩, false, false, []⟩ ∧
      Answered s t h 0x33 .ok [] ∧ Frame [.regs, .msix, .cmp, .out, .esc] s t ∧ RegsBut commandReg s t) ∧
  (∀ s p parts b l, s.Signals → s.esc.bstop = some ⟨parts, b, .host p, false, false, l⟩ → s.atBoundary ⟨parts, b, .host p, false, false, l⟩ = (s.stopTiles ⟨parts, b, .host p, false, false, l⟩).length → ∃ t, exec .boundaryCutReached s = .next t ∧
    t.esc.bstop = some ⟨parts, b, .host p, true, false, l⟩ ∧
    s.domsOfParts parts &&& s.stopReach &&& ~~~ (t.hl.stop ||| t.hl.trip) = 0 ∧
    Frame [.regs, .msix, .out, .esc, .hl, .free, .test] s t ∧ RegsBut (fun k => k == HRT_SMEAR) s t) ∧
  (∀ s p parts b l, s.esc.bstop = some ⟨parts, b, .host p, false, false, l⟩ → ∃ t, exec .bstopTimeout s = .next t ∧
    t.esc.bstop = some ⟨parts, b, .host p, false, true, l⟩ ∧
    s.domsOfParts parts &&& s.stopReach &&& ~~~ (t.hl.stop ||| t.hl.trip) = 0) ∧
  (∀ s h p parts b held out l, s.Serves h → h.operator = true → s.esc.bstop = some ⟨parts, b, .host p, held, out, l⟩ →
    ∃ t, exec (.boundaryResume h) s = .next t ∧ t.esc.bstop = none ∧ Answered s t h 0x34 .ok [])

/-- The tile watchdog of a running command, the gate open and the region running, shows in TWD_WDOG and is reported by the
warden. A context watchdog faults its context. A partition or chip watchdog that runs begins its own reset with its code, held
exactly when a hold is set. -/
def Obligations.Watchdogs : Prop :=
  (∀ s (tl : TileIx) e, s.Signals → s.running tl = some e → (s.tile tl).gateClosed = false → s.regionRuns tl = true →
    (s.agent (tileAgent tl)).queue.length < 16 → ∃ t, exec (.tileWatchdogExpiry tl) s = .next t ∧
      t.reg (tileReg tl TWD_WDOG) = BitVec.ofNat 32 (2 ^ 31 + s.fld HRT_WDOG_TILE 9 0 * 1000) ∧
      (t.agent (tileAgent tl)).queue = (s.agent (tileAgent tl)).queue ++ [⟨.tileWatchdog tl e.cmd.ctx e.cmd.seq, 0, .unsent, 0⟩] ∧
      t.tile tl = { s.tile tl with detectAt := some s.time.tb } ∧ (∀ u, u ≠ tl → t.tile u = s.tile u) ∧
      Frame [.regs, .msix, .out, .agents, .tiles] s t ∧ RegsBut (fun k => k == tileReg tl TWD_WDOG) s t) ∧
  (∀ s (c : CtxIx) ts, ts = (s.openTiles fun e => e.cmd.ctx == c) → s.watchdogRuns ts (domsOfTiles ts) (s.partsOfTiles ts) = true → (s.ctx c).used = true → (s.ctx c).faulted = false →
    ∃ t, exec (.contextWatchdogExpiry c) s = .next t ∧ (t.ctx c).faulted = true) ∧
  (∀ s (p : PartIx), s.watchdogRuns ((s.openTiles fun _ => true).filter fun tl => s.partOfTile tl == p) (s.domsOfPart p) (BitVec.ofNat 4 (2 ^ p.val)) = true →
    s.LadderFree .partition (BitVec.ofNat 4 (2 ^ p.val)) → ∃ t ph cs, exec (.partitionWatchdogExpiry p) s = .next t ∧
      t.esc.reset = some ⟨.partition, BitVec.ofNat 4 (2 ^ p.val), codeOf 4 0 p.val 0x0503, ph, s.time.tb, cs⟩ ∧
      (∀ c, cs.contains c = (s.victims .partition (BitVec.ofNat 4 (2 ^ p.val))).contains c) ∧ (ph = .holding ↔ s.fld HRT_ESC_HOLD 10 0 ≠ 0)) ∧
  (∀ s, s.watchdogRuns (s.openTiles fun _ => true) s.stopReach 0xF = true → s.LadderFree .chip 0xF → ∃ t ph cs, exec .chipWatchdogExpiry s = .next t ∧
    t.esc.reset = some ⟨.chip, 0xF, codeOf 5 0 0 0x0504, ph, s.time.tb, cs⟩ ∧ (ph = .holding ↔ s.fld HRT_ESC_HOLD 10 0 ≠ 0))

/-- A fault of a hard line of an existing domain is latched and begins a chip reset at once, with the package SAFE, every
domain off and bring-up again at stage 2. A fence that its warden does not confirm resets the tile's partition. A reset that
exceeds its bound climbs one level. The operator's request at partition, compute-part or chip level begins that reset, with
code 0 and without a hold; over the window the first two are answered OK. A full reset of the host link, by a hot reset or by
PERST_N once the link has trained, with no power-fail warning and main power good, begins a chip reset at once, with the code
of HOST_RESET; the link is no longer trained. -/
def Obligations.ResetTriggers : Prop :=
  (∀ s d line, s.domExists d = true → s.LadderFree .chip 0xF → ∃ t cs, exec (.hardlineFault d line) s = .next t ∧
    t.esc.reset = some ⟨.chip, 0xF, codeOf 5 0 d.val 0x0006, .aligning, s.time.tb, cs⟩ ∧ t.hl.fault.getLsbD d.val = true ∧
    t.bu.stage = 2 ∧ t.bu.pkg = .safe ∧ t.pw.domOn = 0 ∧ t.tiles = []) ∧
  (∀ s (tl : TileIx) x, tget? s.plan.fencing tl.val = some x → s.LadderFree .partition (BitVec.ofNat 4 (2 ^ (s.partOfTile tl).val)) →
    ∃ t ph cs, exec (.fenceUnconfirmed tl) s = .next t ∧
      t.esc.reset = some ⟨.partition, BitVec.ofNat 4 (2 ^ (s.partOfTile tl).val), codeOf 4 1 tl.val 0x0402, ph, s.time.tb, cs⟩ ∧
      (∀ c ∈ s.victims .partition (BitVec.ofNat 4 (2 ^ (s.partOfTile tl).val)), c ∈ cs) ∧ (ph = .holding ↔ s.fld HRT_ESC_HOLD 10 0 ≠ 0) ∧ tget? t.plan.fencing tl.val = none) ∧
  (∀ s r, s.esc.reset = some r → r.phase = .aligning → r.level = .partition → ∃ t ph cs, exec .resetBoundExpiry s = .next t ∧
    t.esc.reset = some ⟨.computePart, 0xF, codeOf 5 0 2 0x050B, ph, s.time.tb, cs⟩ ∧ (ph = .holding ↔ s.fld HRT_ESC_HOLD 10 0 ≠ 0)) ∧
  (∀ s h (p : PartIx), s.Serves h → h.operator = true → s.bu.pkg ≠ .safe → s.LadderFree .partition (BitVec.ofNat 4 (2 ^ p.val)) →
    ∃ t ph cs, exec (.resetRequestPartition h p) s = .next t ∧ t.esc.reset = some ⟨.partition, BitVec.ofNat 4 (2 ^ p.val), 0, ph, s.time.tb, cs⟩ ∧
      ph ≠ .holding ∧ Answered s t h 0x32 .ok []) ∧
  (∀ s h, s.Serves h → h.operator = true → s.bu.pkg ≠ .safe → s.LadderFree .computePart 0xF → ∃ t ph cs,
    exec (.resetRequestComputePart h) s = .next t ∧ t.esc.reset = some ⟨.computePart, 0xF, 0, ph, s.time.tb, cs⟩ ∧ ph ≠ .holding ∧
      Answered s t h 0x32 .ok []) ∧
  (∀ s h, s.Serves h → h.operator = true → s.LadderFree .chip 0xF → ∃ t cs, exec (.resetRequestChip h) s = .next t ∧
    t.esc.reset = some ⟨.chip, 0xF, 0, .aligning, s.time.tb, cs⟩ ∧ t.bu.stage = 2 ∧ t.bu.pkg = .safe ∧ t.pw.domOn = 0) ∧
  (∀ s perst, (perst = true → s.pw.pcieTrained = true) → s.pw.pfWarn = false → s.recd.pfLock = false → s.LadderFree .chip 0xF →
    ∃ t cs, exec (.hostFullReset perst) s = .next t ∧
      t.esc.reset = some ⟨.chip, 0xF, codeOf 5 6 (if perst then 1 else 0) 0x0B07, .aligning, s.time.tb, cs⟩ ∧ t.bu.stage = 2 ∧
      t.bu.pkg = .safe ∧ t.pw.domOn = 0 ∧ t.pw.pcieTrained = false)

/-- The end of a hold, by its expiry or by the operator, lets a held partition or compute-part reset proceed, with the
contexts that it already kills and any others found then: KILL stands on its regions and it waits for ALIGN or for the
generation holdoff. The holdoff's end schedules the ALIGN at the next grid point and arms the scope's regions under KILL. With
KILL gone, RESET_COMPLETE ends the reset, opens the ports of the tiles whose wardens answer and leaves the others FENCED for
control lost. -/
def Obligations.ResetProgress : Prop :=
  (∀ s r, s.esc.reset = some r → r.phase = .holding → r.level ≠ .chip → ∃ t ph cs, exec .escHoldExpiry s = .next t ∧
    t.esc.reset = some { r with phase := ph, cs := r.cs ++ cs } ∧ ph ≠ .holding ∧ s.domsOfParts r.parts &&& computeDomains &&& ~~~ t.hl.kill = 0) ∧
  (∀ s h r, s.Serves h → h.operator = true → s.esc.reset = some r → r.phase = .holding → r.level ≠ .chip →
    ∃ t ph cs, exec (.escRelease h) s = .next t ∧ t.esc.reset = some { r with phase := ph, cs := r.cs ++ cs } ∧ ph ≠ .holding ∧ Answered s t h 0x35 .ok []) ∧
  (∀ s r, s.Signals → s.esc.reset = some r → r.phase = .holdoff → s.time.alignAt ≠ some s.nextGrid → ∃ t, exec .genHoldoffExpiry s = .next t ∧
    t.esc.reset = some { r with phase := .aligning } ∧ t.esc.gen = s.esc.gen + 1 ∧ t.time.alignAt = some s.nextGrid ∧
    t.hl.armed = s.hl.armed ||| (s.domsOfParts r.parts &&& s.hl.kill) ∧ t.hl.kill = s.hl.kill ∧
    Frame [.msix, .out, .esc, .hl, .time] s t) ∧
  (∀ s r, s.Signals → s.esc.reset = some r → r.level ≠ .chip → r.phase = .aligning → (s.bu.cast.all fun c => c.reset.isNone) = true → s.hl.kill &&& s.domsOfParts r.parts = 0 →
    ∃ t, exec .resetComplete s = .next t ∧ t.esc.reset = none ∧
      (∀ tl ∈ s.tilesOfParts r.parts, (s.agent (tileAgent tl)).failed = false → (t.agent (tileAgent tl)).resync = false) ∧
      (∀ tl ∈ s.tilesOfParts r.parts, (s.agent (tileAgent tl)).failed = true → (s.fpOf tl).st = .good ∨ (s.fpOf tl).st = .spare →
        (t.fpOf tl).st = .fenced ∧ (t.fpOf tl).reason = 6) ∧
      ((∀ tl, (s.agent (tileAgent tl)).failed = false) → Frame [.regs, .msix, .out, .agents, .esc, .ofd] s t))

/-- A warden's edge shows its queue position and is reported; a withdrawn one clears the wait bits and the elapsed time and is
reported. A knot timeout on a cycle whose counters moved only restarts the cycle's timers. A knot with a full edge, without
credit fallback and with room in the region, is counted and its oldest entries move to a spill. A spilled entry that is read
leaves its spill and the entries its queue has spilled, and counts as a spill event of the step. -/
def Obligations.WaitForGraph : Prop :=
  (∀ s (tl : TileIx) e, s.Signals → (s.agent (tileAgent tl)).queue.length < 16 → ∃ t, exec (.edgeReport tl e) s = .next t ∧
    t.reg (itemKey (tileReg tl TWD_QPOS) (e.queue % 256)) = e.pos ∧
    (t.agent (tileAgent tl)).queue = (s.agent (tileAgent tl)).queue ++ [⟨.edge e, 0, .unsent, 0⟩] ∧
    Frame [.regs, .msix, .out, .agents, .tiles] s t ∧ (∀ u, t.tile u = { s.tile u with waits := (t.tile u).waits }) ∧
    RegsBut (fun k => k == itemKey (tileReg tl TWD_QSTATE) (e.queue % 256) || k == itemKey (tileReg tl TWD_QPOS) (e.queue % 256)) s t) ∧
  (∀ s (tl : TileIx) e, s.Signals → (s.agent (tileAgent tl)).queue.length < 16 → ∃ t, exec (.edgeWithdraw tl e) s = .next t ∧
    t.fld (itemKey (tileReg tl TWD_QSTATE) (e.queue % 256)) 31 29 = 0 ∧ t.fld (itemKey (tileReg tl TWD_QSTATE) (e.queue % 256)) 19 0 = 0 ∧
    (t.agent (tileAgent tl)).queue = (s.agent (tileAgent tl)).queue ++ [⟨.edgeGone e.ctx e.queue e.producer e.consumer, 0, .unsent, 0⟩] ∧
    tget? (t.tile tl).waits (e.queue % 256) = none ∧ (∀ u, t.tile u = { s.tile u with waits := (t.tile u).waits }) ∧
    Frame [.regs, .msix, .out, .agents, .tiles] s t ∧ RegsBut (fun k => k == itemKey (tileReg tl TWD_QSTATE) (e.queue % 256)) s t) ∧
  (∀ s cyc n, s.Signals → findKnot (s.esc.graph.filter fun g => decide (g.since + s.fld HRT_KNOT_TIMEOUT 13 0 * 1000 ≤ s.time.tb)) = some cyc →
    ∃ t, exec (.knotTimeoutExpiry false n) s = .next t ∧ t.esc.graph = s.esc.graph.map (fun g =>
      if cyc.any fun x => sameEdge x.e g.e then { g with since := s.time.tb } else g) ∧ Frame [.msix, .out, .esc] s t) ∧
  (∀ s cyc n e tl, findKnot (s.esc.graph.filter fun g => decide (g.since + s.fld HRT_KNOT_TIMEOUT 13 0 * 1000 ≤ s.time.tb)) = some cyc →
    spillEdge cyc = some e → (∀ g ∈ cyc, (s.ctx g.e.ctx).desc.creditFallback = false) → s.holder e.consumer = some tl → (cyc.any fun g => s.drainHolds g.e) = false →
    s.spillUsed (s.partOfTile tl) + min (s.quantum e) e.capacity ≤ s.fld HRT_SPILL_SIZE 12 0 * 1024 →
    ∃ t, exec (.knotTimeoutExpiry true n) s = .next t ∧ t.reg HRT_KNOT_COUNT = BitVec.ofNat 32 (satAdd 32 (s.reg HRT_KNOT_COUNT).toNat 1) ∧
      (∃ sp, t.esc.spills = s.esc.spills ++ [sp] ∧ sp.ctx = e.ctx ∧ sp.queue = e.queue ∧ sp.consumer = e.consumer ∧
        sp.left = ((tget (s.tile tl).queues (e.ctx.val * 256 + e.queue % 256) {}).tokens.take n).map fun x => x.1) ∧
      Frame [.regs, .msix, .recd, .subs, .i3c, .obs, .out, .esc, .tiles, .ctxs, .agents, .bus, .free] s t) ∧
  (∀ s c q pos x tl, s.Signals → (s.esc.spills.find? fun y => y.ctx == c && y.queue == q && y.left.contains pos.toNat) = some x →
    s.holder x.consumer = some tl → x.left.erase pos.toNat = [] → ∃ t, exec (.spillRead c q pos) s = .next t ∧
      t.esc.spills = s.esc.spills.erase x ∧ (tget (t.tile tl).queues (c.val * 256 + q % 256) {}).spilled =
        (tget (s.tile tl).queues (c.val * 256 + q % 256) {}).spilled.filter (fun k => k.1 != pos.toNat) ∧
      (t.ctx c).driftSpills = (s.ctx c).driftSpills + 1 ∧ Frame [.regs, .msix, .out, .esc, .tiles, .ctxs] s t ∧
      RegsBut (fun k => k == itemKey (tileReg tl TWD_QPOS) (q % 256)) s t)

/-- A reconfiguration command issued, with every earlier command finished, starts the drain of its tile; with no token of the
old epoch left, or at the end of the window, what is left of it is discarded and counted and the tile enters the next epoch,
modulo 16. A served CONTEXT_KILL of a context in use faults it and ends in a kill that waits for wardens or in quarantine; the
last confirmation, or a warden given up, which is ordered fenced, completes the kill and starts the quarantine of 10 ms; at
its end the number is free. -/
def Obligations.ReconfigurationAndKill : Prop :=
  (∀ s (tl : TileIx) seq k e, s.Signals → (s.tile tl).slotOf seq = some (k, e) → e.cmd.kind = .reconfig → e.state = .issued → e.isOpen = true →
    ((s.tile tl).jnl.any fun x => x.1 != k && x.2.isOpen && x.2.state != .complete && later seq x.2.cmd.seq) = false →
    (s.tile tl).gateClosed = false → (s.tile tl).draining = none → s.regionRuns tl = true → s.stopsIssue tl e.cmd.ctx = false → ∃ t, exec (.reconfiguration tl seq) s = .next t ∧
      (t.tile tl).draining = some (s.time.tb, seq) ∧ (t.tile tl).epoch = (s.tile tl).epoch ∧
      (∀ u, u ≠ tl → t.tile u = s.tile u) ∧ Frame [.regs, .msix, .out, .tiles] s t ∧ RegsBut (fun k => k == tileReg tl TWD_WDOG) s t) ∧
  (∀ s (tl : TileIx) b n m d seq, s.Signals → (s.tile tl).draining = some (d, seq) → (s.tile tl).gateClosed = false → s.regionRuns tl = true →
    (b = true ∨ (n = 0 ∧ (s.tile tl).oldTokens = [])) → ∃ t, exec (.reconfigCommit tl b n m) s = .next t ∧
      (t.tile tl).epoch = ((s.tile tl).epoch + 1) % 16 ∧ (t.tile tl).draining = none ∧ t.reg (tileReg tl TWD_EPOCH_DISCARD) =
        BitVec.ofNat 32 (satAdd 32 (s.reg (tileReg tl TWD_EPOCH_DISCARD)).toNat ((s.tile tl).oldTokens.length + n)) ∧
      (∀ q ∈ (t.tile tl).queues, ∀ x ∈ q.2.tokens ++ q.2.spilled, x.2.1 ≠ (s.tile tl).epoch) ∧
      (∀ u, u ≠ tl → t.tile u = s.tile u) ∧ Frame [.regs, .msix, .out, .tiles, .agents, .esc, .ofd] s t) ∧
  (∀ s h (c : CtxIx), s.Serves h → h.operator = true → (s.ctx c).used = true → (s.ctx c).faulted = false →
    ∃ t, exec (.contextKill h c) s = .next t ∧ (t.ctx c).faulted = true ∧ ((t.ctx c).killing.isSome = true ∨ (t.ctx c).quarantine.isSome = true)) ∧
  (∀ s (tl : TileIx) (c : CtxIx) p, (s.ctx c).killing = some ([tileAgent tl], p) → ∃ t, exec (.contextKillCommand tl c) s = .next t ∧
    (t.ctx c).killing = none ∧ (t.ctx c).quarantine = some (s.time.tb + 10 ^ 7)) ∧
  (∀ s (tl : TileIx) (c : CtxIx) p, (s.ctx c).killing = some ([tileAgent tl], p) → (s.fpOf tl).st = .good → tget? s.plan.fencing tl.val = none → s.inReset tl = false →
    ∃ t, exec (.killTimeout tl c) s = .next t ∧ (t.ctx c).killing = none ∧ (t.ctx c).quarantine = some (s.time.tb + 10 ^ 7) ∧
      tget? t.plan.fencing tl.val = some (some ⟨4, 1, tl.val, 0x050A, [i1 c.val]⟩, s.time.tb, none, 6)) ∧
  (∀ s (c : CtxIx), s.Signals → (s.ctx c).quarantine.isSome = true → (s.ctx c).killing = none → ∃ t, exec (.quarantineExpiry c) s = .next t ∧
    t.ctx c = {} ∧ (∀ d, d ≠ c → t.ctx d = s.ctx d) ∧ Frame [.msix, .out, .ctxs] s t)

/-- A command issued to a tile with room, an open gate and no stop takes the next ordinal and, with the pool off, a fresh
ISSUED journal entry of the tile that holds the logical number. Its start takes the entry to RUNNING with one more execution
and restarts the watchdog count; its end, once no earlier command of the tile awaits a check and no start copy holds its
writes, to COMPLETE with the digest and the bytes of its streams, streams above the third merged and counted; a commit that
nothing holds back counts in its context, keeps its sequence as the last committed one of the tile, and, with nothing at the
gate, leaves the entry COMMITTED. -/
def Obligations.CommandPath : Prop :=
  (∀ s l (k : Cmd) (tl : TileIx), s.Signals → (s.ctx k.ctx).used = true → (s.ctx k.ctx).faulted = false → (s.ctx k.ctx).watchHold = false →
    s.holder l = some tl → (s.tile tl).gateClosed = false → (s.tile tl).handing = false → (s.tile tl).hasRoom = true →
    (s.tile tl).reloading = false → (s.tile tl).gate = [] → s.stopsIssue tl k.ctx = false → ∃ t, exec (.commandIssue l k) s = .next t ∧
      tget? t.shadow.ordinals (k.ctx.val * 128 + l.val) = some ((tget s.shadow.ordinals (k.ctx.val * 128 + l.val) 0 + 1) % 65536) ∧
      t.reg (tileReg tl TWD_SHD_ORDINAL) = BitVec.ofNat 32 (k.ctx.val * 2 ^ 16 + tget s.shadow.ordinals (k.ctx.val * 128 + l.val) 0) ∧
      (s.shadowOn = false → (tget? (t.tile tl).jnl (s.tile tl).newSlot).map (fun e => (e.cmd, e.state)) = some (k, .issued)) ∧
      Frame [.regs, .msix, .out, .tiles, .shadow, .ctxs, .test, .bus, .agents, .ofd, .free] s t ∧
      (k.hold = false → Frame [.regs, .msix, .out, .tiles, .shadow, .ctxs] s t)) ∧
  (∀ s (tl : TileIx) seq k e, s.Signals → (s.tile tl).slotOf seq = some (k, e) → e.state = .issued → e.isOpen = true →
    (s.tile tl).gateClosed = false → (s.tile tl).handing = false → (s.tile tl).reloading = false → s.regionRuns tl = true → s.stopsIssue tl e.cmd.ctx = false → ∃ t, exec (.commandStart tl seq) s = .next t ∧
      (tget? (t.tile tl).jnl k).map (fun x => (x.cmd, x.state, x.execs, x.judged)) = some (e.cmd, .running, min 3 (e.execs + 1), []) ∧
      (t.tile tl).wdogCount = 0 ∧ (∀ u, u ≠ tl → t.tile u = s.tile u) ∧ Frame [.regs, .msix, .recd, .subs, .i3c, .obs, .out, .tiles] s t) ∧
  (∀ s (tl : TileIx) seq (outs : List StreamOut) k e, s.Signals → (s.tile tl).slotOf seq = some (k, e) → e.state = .running →
    (s.tile tl).gateClosed = false → s.regionRuns tl = true → (s.tile tl).mayWrite k = true → s.copyHolds tl e = false →
    ∃ t, exec (.commandComplete tl seq outs) s = .next t ∧
      (tget? (t.tile tl).jnl k).map (fun x => (x.cmd, x.state, x.wrote, x.ofd, x.bytes)) =
        some (e.cmd, .complete, true,
          ((fourBanks (outs.zipIdx.map fun o => s.streamDigest e.cmd o.2 o.1)).foldl Bank.combine {}).ofd, fourBytes outs) ∧
      (4 < e.cmd.streams → t.reg (tileReg tl TWD_OFD_MERGED) = BitVec.ofNat 32 (satAdd 32 (s.reg (tileReg tl TWD_OFD_MERGED)).toNat 1)) ∧
      (∀ u, u ≠ tl → t.tile u = s.tile u) ∧ Frame [.regs, .msix, .out, .obs, .tiles, .agents, .ofd] s t) ∧
  (∀ s (tl : TileIx) seq k e, s.Signals → (s.tile tl).slotOf seq = some (k, e) → e.mayCommit = true → (s.tile tl).gateClosed = false →
    ∃ t, exec (.commandCommit tl seq) s = .next t ∧ (t.ctx e.cmd.ctx).commits = (s.ctx e.cmd.ctx).commits + 1 ∧
      tget? (t.ctx e.cmd.ctx).lastCommit (s.logNum tl) = some seq ∧
      ((s.tile tl).gate = [] → (tget? (t.tile tl).jnl k).map (fun x => (x.cmd, x.state)) = some (e.cmd, .committed)) ∧
      Frame [.regs, .msix, .recd, .subs, .i3c, .obs, .out, .tiles, .ctxs, .agents, .shadow, .test, .bus, .ofd, .free] s t)

/-- A checked pass without an injection whose syndromes are all zero counts as checked and judged. The first failure of a
check (residue, index parity, operand parity, converter) of a command that may be replayed sets it running again under its
cause, the failing pass in the location registers; index parity and converter mismatches are counted. A re-execution that
passes is counted transient, one that fails is counted repeated and leaves the entry held with outcome 3; both end the
re-execution. A due injection is armed; 8 µs after a second failure the warden fences its own tile. -/
def Obligations.CheckFailures : Prop :=
  (∀ s (tl : TileIx) p k e, s.Signals → (s.tile tl).slotOf p.seq = some (k, e) → isBlockInt e.cmd.kind = true → e.state ≠ .issued → e.state ≠ .committed →
    (s.tile tl).gateClosed = false → s.regionRuns tl = true → (s.tile tl).mayWrite k = true → p.exec = e.execs →
    e.judged.contains p.pass.val = false → p.pass.val < e.cmd.passes → passChecked e.cmd.e0.toInt p = true → p.rails = .proper →
    s.injection tl = none → (locate e.cmd.e0.toInt p).rows = 0 → (locate e.cmd.e0.toInt p).cols = 0 →
    ∃ t, exec (.passCheckResult tl p) s = .next t ∧
      t.reg64 (tileReg tl TWD_RES_CHECKED_LO) (tileReg tl TWD_RES_CHECKED_HI) =
        (s.reg64 (tileReg tl TWD_RES_CHECKED_LO) (tileReg tl TWD_RES_CHECKED_HI) + 1) % 2 ^ 64 ∧
      (tget? (t.tile tl).jnl k).map (fun x => (x.judged, x.residue, x.held)) = some (p.pass.val :: e.judged, 1, e.held) ∧
      Frame [.regs, .msix, .out, .tiles, .agents, .ofd] s t) ∧
  (∀ s (tl : TileIx) p k e, s.Signals → (s.tile tl).slotOf p.seq = some (k, e) → isBlockInt e.cmd.kind = true → e.state ≠ .issued → e.state ≠ .committed →
    (s.tile tl).gateClosed = false → s.regionRuns tl = true → (s.tile tl).mayWrite k = true → p.exec = e.execs →
    e.judged.contains p.pass.val = false → p.pass.val < e.cmd.passes → passChecked e.cmd.e0.toInt p = true → p.rails = .proper →
    p.falseAgree = false → s.injection tl = none → (locate e.cmd.e0.toInt p).rows ≠ 0 →
    (s.tile tl).retry = none → e.held = false → e.cmd.idempotent = true → replayable (s.ctx e.cmd.ctx).desc e.cmd = true →
    ∃ t, exec (.passCheckResult tl p) s = .next t ∧ (t.tile tl).retry = some (p.seq, .residue) ∧ t.reg (tileReg tl TWD_RES_SEQ) = p.seq ∧ t.reg (tileReg tl TWD_RES_PASS) = BitVec.ofNat 32 p.pass.val ∧
      (tget? (t.tile tl).jnl k).map (fun x => (x.state, x.execs, x.held)) = some (.running, min 3 (e.execs + 1), true) ∧
      Frame [.regs, .msix, .out, .tiles, .shadow, .agents, .test, .bus, .ofd, .free] s t ∧ (e.role ≠ .shadow → Frame [.regs, .msix, .out, .tiles] s t)) ∧
  (∀ s (tl : TileIx) seq pass exe k e, s.Signals → (s.tile tl).slotOf seq = some (k, e) → e.state ≠ .issued → e.state ≠ .committed →
    e.execs = exe → (s.tile tl).gateClosed = false → (s.tile tl).retry = none → e.held = false → e.cmd.idempotent = true →
    replayable (s.ctx e.cmd.ctx).desc e.cmd = true →
    (∃ t, exec (.indexParityError tl seq pass exe) s = .next t ∧ (t.tile tl).retry = some (seq, .indexParity) ∧
      t.reg (tileReg tl TWD_IDX_PARITY) = BitVec.ofNat 32 (satAdd 32 (s.reg (tileReg tl TWD_IDX_PARITY)).toNat 1) ∧
      Frame [.regs, .msix, .out, .tiles, .shadow, .agents, .test, .bus, .ofd, .free] s t ∧ (e.role ≠ .shadow → Frame [.regs, .msix, .out, .tiles] s t)) ∧
    (∃ t, exec (.operandParityError tl seq pass exe) s = .next t ∧ (t.tile tl).retry = some (seq, .operandParity) ∧
      Frame [.regs, .msix, .out, .tiles, .shadow, .agents, .test, .bus, .ofd, .free] s t ∧ (e.role ≠ .shadow → Frame [.regs, .msix, .out, .tiles] s t)) ∧
    (∃ t, exec (.converterMismatch tl seq pass exe) s = .next t ∧ (t.tile tl).retry = some (seq, .converter) ∧
      t.reg (tileReg tl TWD_CONV_MISMATCH) = BitVec.ofNat 32 (satAdd 32 (s.reg (tileReg tl TWD_CONV_MISMATCH)).toNat 1) ∧
      Frame [.regs, .msix, .out, .tiles, .shadow, .agents, .test, .bus, .ofd, .free] s t ∧ (e.role ≠ .shadow → Frame [.regs, .msix, .out, .tiles] s t))) ∧
  (∀ s (tl : TileIx) row col d, s.Signals → 2 ^ s.fld (tileReg tl TWD_INJECT_INTERVAL) 4 0 ≤ (s.tile tl).sinceInj → d % 8191 ≠ 0 →
    ∃ t, exec (.checkerInjection tl row col d) s = .next t ∧ (t.tile tl).inj = some (row.val, col.val, d % 8191) ∧
      (t.tile tl).sinceInj = 0 ∧ (∀ u, u ≠ tl → t.tile u = s.tile u) ∧ Frame [.msix, .out, .tiles] s t) ∧
  (∀ s (tl : TileIx) seq ca pass (l : Location) k e c0, s.Signals → (s.tile tl).slotOf seq = some (k, e) → (s.tile tl).retry = some (seq, c0) →
    (s.tile tl).gateClosed = false → s.regionRuns tl = true → e.role ≠ .shadow → e.state = .complete →
    (∃ t, exec (.reexecResult tl seq false ca pass l) s = .next t ∧ (t.tile tl).retry = none ∧
      t.reg (tileReg tl TWD_RES_TRANSIENT) = BitVec.ofNat 32 (satAdd 32 (s.reg (tileReg tl TWD_RES_TRANSIENT)).toNat 1) ∧
      Frame [.regs, .msix, .recd, .subs, .i3c, .obs, .out, .tiles, .ctxs, .agents, .shadow, .test, .bus, .ofd, .free] s t) ∧
    (∃ t, exec (.reexecResult tl seq true ca pass l) s = .next t ∧ (t.tile tl).retry = none ∧
      t.reg (tileReg tl TWD_RES_REPEAT) = BitVec.ofNat 32 (satAdd 32 (s.reg (tileReg tl TWD_RES_REPEAT)).toNat 1) ∧
      (tget? (t.tile tl).jnl k).map (fun x => (x.held, x.outcome)) = some (true, 3) ∧ Frame [.regs, .msix, .out, .tiles, .agents, .ofd] s t)) ∧
  (∀ s (tl : TileIx), s.Signals → s.time.refclk = true → (s.tile tl).failedTwice.isSome = true → (s.tile tl).gateClosed = false →
    ∃ t, exec (.selfFenceTimer tl) s = .next t ∧ (t.tile tl).gateClosed = true ∧ (t.tile tl).role = .out ∧
      t.reg (tileReg tl TWD_FENCE) = 0xC0010000 ∧ Frame [.regs, .msix, .out, .tiles, .shadow, .agents, .test, .bus, .ofd, .free] s t ∧
      ((s.tile tl).slots.filterMap id = [] → (∀ u, u ≠ tl → t.tile u = s.tile u) ∧ Frame [.regs, .msix, .out, .tiles, .free] s t))

/-- A sampler update is kept for its context; the end of the oldest outstanding start copy of a tile takes it off and counts
the cycles its primary waited, also as check retry; an overrun of the multicast, which meets the capture that is filling,
counts as missed. A hold wait that expires without a shadow commits the command unverified, or, by policy, faults its context.
The oldest disagreement takes an arbitration slot with S2, or, where no spare can serve, the shadow goes to self-test. A
capture that arrives with the digest that S holds of it starts S2 on slot 0; one that differs is sent once more. At the end of
its watch period a tile is off watch, which is one change of the floor plan. -/
def Obligations.ShadowPool : Prop :=
  (∀ s (tl : TileIx) (c : CtxIx) seed r, s.Signals → ∃ t, exec (.samplerUpdate tl c seed r) s = .next t ∧
    tget? (t.tile tl).sampler c.val = some (seed, r.val) ∧ (∀ u, u ≠ tl → t.tile u = s.tile u) ∧ Frame [.msix, .out, .tiles] s t) ∧
  (∀ s (tl : TileIx) n q rest, s.Signals → (s.tile tl).copies = q :: rest → ∃ t, exec (.startCopyDone tl n) s = .next t ∧
    t.tile tl = { s.tile tl with copies := rest, retryOwed := (s.tile tl).retryOwed + n } ∧
    t.reg (tileReg tl TWD_SHD_START_WAIT) = BitVec.ofNat 32 (satAdd 32 (s.reg (tileReg tl TWD_SHD_START_WAIT)).toNat n) ∧
    (∀ u, u ≠ tl → t.tile u = s.tile u) ∧ Frame [.regs, .msix, .out, .tiles] s t) ∧
  (∀ s (tl : TileIx) c, s.Signals → s.filling tl = some c → ∃ t, exec (.multicastOverrun tl) s = .next t ∧
    t.reg HRT_SHD_MISSED_BUSY = BitVec.ofNat 32 (satAdd 32 (s.reg HRT_SHD_MISSED_BUSY).toNat 1) ∧
    (t.ctx c.ctx).missed = (s.ctx c.ctx).missed + 1 ∧ Frame [.regs, .msix, .out, .tiles, .ctxs, .shadow, .agents, .test, .bus, .ofd, .free] s t) ∧
  (∀ s (tl : TileIx) seq k e, s.Signals → (s.tile tl).slotOf seq = some (k, e) → e.cmpWait = true → e.sampled = false → e.isOpen = true →
    s.fld HRT_SHD_POLICY 12 12 = 0 → ({ e with cmpWait := false } : JEntry).mayCommit = true → (s.tile tl).gateClosed = false →
    ∃ t, exec (.holdWaitExpiry tl seq) s = .next t ∧ (t.ctx e.cmd.ctx).commits = (s.ctx e.cmd.ctx).commits + 1 ∧
      Frame [.regs, .msix, .recd, .subs, .i3c, .obs, .out, .tiles, .ctxs, .agents, .shadow, .test, .bus, .ofd, .free] s t) ∧
  (∀ s (tl : TileIx) seq k e, (s.tile tl).slotOf seq = some (k, e) → e.cmpWait = true → e.sampled = false → e.isOpen = true →
    s.fld HRT_SHD_POLICY 12 12 ≠ 0 → (s.ctx e.cmd.ctx).used = true → (s.ctx e.cmd.ctx).faulted = false →
    ∃ t, exec (.holdWaitExpiry tl seq) s = .next t ∧ (t.ctx e.cmd.ctx).faulted = true) ∧
  (∀ s a rest i u, s.Signals → s.shadow.waiting = a :: rest → s.freeArbSlot = some i → s.chooseArbiter a.p a.s = some u →
    ∃ t, exec .arbitrationStart s = .next t ∧ t.shadow.waiting = rest ∧ t.shadow.running = s.shadow.running.set i (some { a with s2 := some u }) ∧
      (t.tile u).role = .arbiter ∧ Frame [.regs, .msix, .out, .tiles, .shadow, .test, .bus, .agents, .ofd, .free] s t) ∧
  (∀ s a rest i, s.Signals → s.shadow.waiting = a :: rest → s.freeArbSlot = some i → s.chooseArbiter a.p a.s = none →
    ∃ t, exec .arbitrationStart s = .next t ∧ t.shadow.waiting = rest ∧ (t.tile a.s).role = .selfTest ∧
      Frame [.msix, .out, .tiles, .shadow, .test] s t) ∧
  (∀ s (i : Fin 2) a u k e c (o : Ofd), s.Signals → s.shadow.running.getD i.val none = some a → a.s2 = some u →
    (s.tile a.s).dutyOf a.p a.seq = some (k, e) → (s.tile a.s).captureOf a.p a.seq = some c → o ≠ c.ofd →
    (∃ t, exec (.captureCopyDone i c.ofd false) s = .next t ∧
      (t.tile u).slots = (s.tile u).slots.set 0 (some ⟨a.p, a.ctx, a.seq, a.held, false, c.ofd⟩) ∧
      (tget? (t.tile u).jnl (s.tile u).newSlot).map (fun x => (x.cmd, x.role)) = some (e.cmd, .arbiter) ∧ Frame [.msix, .out, .tiles] s t) ∧
    (a.resent = false → ∃ t, exec (.captureCopyDone i o false) s = .next t ∧
      t.shadow.running = s.shadow.running.set i.val (some { a with resent := true }) ∧ Frame [.msix, .out, .shadow] s t)) ∧
  (∀ s (tl : TileIx) w, s.Signals → (s.fpOf tl).watch = some w → w ≤ s.opTime → ∃ t, exec (.watchPeriodExpiry tl) s = .next t ∧
    t.fpOf tl = { s.fpOf tl with watch := none } ∧ t.plan.epoch = s.plan.epoch + 1 ∧ t.causes.getLsbD 2 = true ∧
    (∀ u, u ≠ tl → t.fpOf u = s.fpOf u) ∧ Frame [.regs, .msix, .recd, .subs, .i3c, .obs, .out, .plan] s t)

/-- A fence command closes the tile's gate. One that the Hearth awaits, of a GOOD or SPARE tile, leaves it FENCED with its
reason; its logical number waits for a spare, or, where the tile is the spare of a running re-placement, that re-placement
begins again. The start of a re-placement, with no power-fail lock, moves the number to the chosen spare in the sparing map,
asks for a write of the sparing record, opens the spare for data traffic with its command gate still held, and fills a slot;
without a spare the number is lost. The end of the reload opens that gate, reissues the open entry of the first tile, counts
the re-placement, shows its latency in microseconds and frees the slot. Records are written one at a time in the order asked
for; a failed write waits for one of eight retries, none of them under the power-fail lock. -/
def Obligations.FenceAndReplacement : Prop :=
  (∀ s (tl : TileIx) reason, s.Signals → tget? s.plan.fencing tl.val = none → ∃ t, exec (.tileFenceCommand tl reason) s = .next t ∧
    (t.tile tl).gateClosed = true ∧ t.plan = s.plan ∧ Frame [.regs, .msix, .recd, .subs, .i3c, .obs, .out, .tiles, .shadow, .ctxs, .test, .bus, .agents, .free] s t) ∧
  (∀ s (tl : TileIx) reason cause at0 prefer x, s.Signals → tget? s.plan.fencing tl.val = some (cause, at0, prefer, x) →
    ((s.fpOf tl).st = .good ∨ (s.fpOf tl).st = .spare) → ((s.plan.slots.take 2).all fun r => r.all fun x => x.spare != some tl) = true →
    ∃ t, exec (.tileFenceCommand tl reason) s = .next t ∧ (t.tile tl).gateClosed = true ∧ (t.fpOf tl).st = .fenced ∧
      (t.fpOf tl).reason = reason ∧ tget? t.plan.fencing tl.val = none ∧ t.reg HRT_FENCE_LATENCY = BitVec.ofNat 32 (s.time.tb - at0) ∧
      t.reg HRT_FENCE_LAST = BitVec.ofNat 32 (tl.val * 2 ^ 24 + reason * 2 ^ 16 + (cause.map Event.code).getD 0) ∧
      (∀ l ∈ s.logicalOf tl, (⟨tl, l, cause, prefer, at0, none, tl, []⟩ : Repl) ∈ t.plan.waiting) ∧ t.plan.map = s.plan.map ∧
      t.plan.slots = s.plan.slots) ∧
  (∀ s (tl : TileIx) reason cause at0 prefer x i r, s.Signals → tget? s.plan.fencing tl.val = some (cause, at0, prefer, x) →
    s.plan.slots.getD i none = some r → r.spare = some tl → i < 2 → (i = 1 → (s.plan.slots.getD 0 none).all (fun q => q.spare != some tl) = true) →
    ∃ t, exec (.tileFenceCommand tl reason) s = .next t ∧ (t.tile tl).gateClosed = true ∧ (t.fpOf tl).st = .fenced ∧
      tget? t.plan.fencing tl.val = none ∧ t.plan.slots = s.plan.slots.set i none ∧
      (∃ w ∈ t.plan.waiting, w.logical = r.logical ∧ w.first = r.first ∧ w.failed = tl ∧ w.cause = cause ∧ w.detect = at0)) ∧
  (∀ s r rest i u, s.Signals → s.plan.waiting = r :: rest → s.freeReplSlot = some i → s.chooseSpare r.prefer (dieOfTile r.failed) = some u →
    s.recd.pfLock = false →
    ∃ t, exec .replacementStart s = .next t ∧ tget? t.plan.map r.logical.val = some u ∧
      t.plan.waiting = rest ∧ (∃ q, t.plan.slots = s.plan.slots.set i (some { r with spare := some u, resend := q })) ∧
      t.plan.writing = true ∧ t.plan.writeQ.length = s.plan.writeQ.length + 1 ∧ (t.fpOf u).st = .good ∧ (t.tile u).role = .logical ∧
      (t.tile u).gateClosed = false ∧ (t.tile u).reloading = true ∧ (t.tile u).epoch = (s.tile r.failed).epoch) ∧
  (∀ s r rest i, s.Signals → s.plan.waiting = r :: rest → s.freeReplSlot = some i → s.chooseSpare r.prefer (dieOfTile r.failed) = none →
    ∃ t, exec .replacementStart s = .next t ∧ tget? t.plan.map r.logical.val = none ∧ t.plan.epoch = s.plan.epoch + 1 ∧
      t.plan.waiting = rest ∧ t.plan.slots = s.plan.slots ∧ (tget? t.plan.losses r.logical.val).isSome = true) ∧
  (∀ s (i : Fin 2) r u, s.Signals → s.plan.slots.getD i.val none = some r → r.spare = some u → s.regionRuns u = true →
    ∃ t, exec (.reloadComplete i none) s = .next t ∧ t.plan = { s.plan with slots := s.plan.slots.set i.val none } ∧ (t.tile u).reloading = false ∧
    t.reg HRT_REPLACE_COUNT = BitVec.ofNat 32 (satAdd 32 (s.reg HRT_REPLACE_COUNT).toNat 1) ∧
    t.reg HRT_REPLACE_LATENCY = BitVec.ofNat 32 ((s.time.tb - r.detect) / 1000) ∧
    Frame [.regs, .msix, .out, .tiles, .shadow, .ctxs, .plan, .test, .bus, .agents] s t) ∧
  (∀ s (i : Fin 2) r u e k, s.Signals → s.plan.slots.getD i.val none = some r → r.spare = some u → s.regionRuns u = true → u ≠ r.first →
    s.openPrimary r.first = [e] → (s.tile r.first).slotOf e.cmd.seq = some (k, e) → (s.ctx e.cmd.ctx).faulted = false → (s.tile r.first).gate = [] →
    (s.tile r.failed).gate = [] → (s.tile u).gate = [] → (tget? (s.tile u).jnl (s.tile u).newSlot).all (fun x => !x.isOpen) = true →
    ∃ t, exec (.reloadComplete i none) s = .next t ∧ (tget? (t.tile r.first).jnl k).map JEntry.outcome = some 4 ∧
      (tget? (t.tile u).jnl (s.tile u).newSlot).map (fun x => (x.cmd, x.state, x.origin, x.ordinal)) = some (e.cmd, .issued, r.first.val, e.ordinal)) ∧
  (∀ s w rest, s.Signals → s.plan.writeQ = w :: rest → s.plan.writing = true →
    (∃ t, exec (.spareRecordWriteDone true) s = .next t ∧ t.plan = { s.plan with
        recorded := s.plan.recorded.put w, writeQ := rest, writing := !rest.isEmpty, retries := 0, writes := satAdd 16 s.plan.writes 1 } ∧
      Frame [.msix, .out, .plan] s t) ∧
    (∃ t, exec (.spareRecordWriteDone false) s = .next t ∧ t.plan = { s.plan with writing := false } ∧ Frame [.regs, .msix, .recd, .subs, .i3c, .obs, .out, .plan] s t ∧
      RegsBut eventReg s t)) ∧
  (∀ s, s.Signals → s.plan.writeQ ≠ [] → s.plan.writing = false → s.plan.retries < 8 → s.recd.pfLock = false → ∃ t, exec .spareRecordRetry s = .next t ∧
    t.plan = { s.plan with writing := true, retries := s.plan.retries + 1 } ∧ Frame [.msix, .out, .plan] s t)

/-- A token of a live context, at an open gate, of the tile's epoch and not yet accepted, joins its queue; a marked one
already accepted is discarded and counted; one at the gate of a fenced tile whose number has not moved is held there; a token
dispatched or dropped is counted where it leaves and joins no queue. An uncorrectable error in HBM marks the line Slag and is
reported with its code where the region table has the address as user data, and is reported as one of control data where it
has it as control; so are one at a tile's SRAM and a parity error at a memory write or a tile SRAM write. At a link's egress
user data leaves as Slag and control data is reported. Slag that a running compute command of role primary consumes is
counted, shown and reported. A reply of the generation of its compute domain reaches its context unless that is killed or
quarantined; a stale one is dropped and counted. A read of a far end that is gone, or of this package while it leaves, is
answered with Slag of its length and counted. -/
def Obligations.TokensAndSlag : Prop :=
  (∀ s (tl : TileIx) k, s.Signals → (s.tile tl).gateClosed = false → (s.tile tl).role ≠ .shadow → (s.tile tl).role ≠ .arbiter →
    (s.ctx k.ctx).used = true → (s.ctx k.ctx).faulted = false → (s.ctx k.ctx).desc.creditFallback = false →
    (k.cons.all fun c => c.2.1 == .received || c.2.1 == .returned) = true → k.epoch.val = (s.tile tl).epoch →
    (k.marked = false ∨ (tget (s.tile tl).queues (k.ctx.val * 256 + k.queue % 256) {}).accepted.contains k.pos = false) →
    ∃ t, exec (.tokenArrival tl k) s = .next t ∧ (tget (t.tile tl).queues (k.ctx.val * 256 + k.queue % 256) {}).tokens =
        (tget (s.tile tl).queues (k.ctx.val * 256 + k.queue % 256) {}).tokens ++ [(k.pos, k.epoch.val, k.mustDrain)] ∧
      (∀ u, u ≠ tl → t.tile u = s.tile u) ∧ Frame [.regs, .msix, .out, .tiles] s t) ∧
  (∀ s (tl : TileIx) k, s.Signals → (s.tile tl).gateClosed = false → (s.tile tl).role ≠ .shadow → (s.tile tl).role ≠ .arbiter →
    (s.ctx k.ctx).used = true → (s.ctx k.ctx).faulted = false → (s.ctx k.ctx).desc.creditFallback = false → k.cons = none →
    k.epoch.val = (s.tile tl).epoch → k.marked = true →
    (tget (s.tile tl).queues (k.ctx.val * 256 + k.queue % 256) {}).accepted.contains k.pos = true →
    ∃ t, exec (.tokenArrival tl k) s = .next t ∧
      t.reg (tileReg tl TWD_DUP_DISCARD) = BitVec.ofNat 32 (satAdd 32 (s.reg (tileReg tl TWD_DUP_DISCARD)).toNat 1) ∧
      Frame [.regs, .msix, .out] s t ∧ RegsBut (fun k => k == tileReg tl TWD_DUP_DISCARD) s t) ∧
  (∀ s (tl : TileIx) k, s.Signals → (s.tile tl).gateClosed = true → (s.tile tl).role ≠ .shadow → (s.tile tl).role ≠ .arbiter → s.movedTo tl = none →
    (s.ctx k.ctx).used = true → (s.ctx k.ctx).faulted = false → (s.ctx k.ctx).desc.creditFallback = false → k.cons = none →
    ∃ t, exec (.tokenArrival tl k) s = .next t ∧ t.tile tl = { s.tile tl with heldTokens := (s.tile tl).heldTokens ++ [k] } ∧
      (∀ u, u ≠ tl → t.tile u = s.tile u) ∧ Frame [.msix, .out, .tiles] s t) ∧
  (∀ s (tl : TileIx) k key pl, s.Signals → (s.tile tl).gateClosed = false → (s.tile tl).role ≠ .shadow → (s.tile tl).role ≠ .arbiter →
    (s.ctx k.ctx).used = true → (s.ctx k.ctx).faulted = false → k.marked = false → (k.cons = some (key, .dispatched, pl) ∨ k.cons = some (key, .dropped, pl)) →
    ∃ t, exec (.tokenArrival tl k) s = .next t ∧ (tget (t.tile tl).queues (k.ctx.val * 256 + k.queue % 256) {}).tokens =
        (tget (s.tile tl).queues (k.ctx.val * 256 + k.queue % 256) {}).tokens ∧
      (∀ u, u ≠ tl → t.tile u = s.tile u) ∧ Frame [.regs, .msix, .out, .tiles] s t) ∧
  (∀ s (n : StackIx) addr, s.Signals → (s.agent (s.stackAgent n)).queue.length < 16 → s.controlAt addr = false →
    ∃ t, exec (.hbmUncorrectable n addr) s = .next t ∧
      t.reg (stackReg n SWD_ECC_UE) = BitVec.ofNat 32 (satAdd 32 (s.reg (stackReg n SWD_ECC_UE)).toNat 1) ∧
      t.reg (stackReg n SWD_SLAG_MARKED) = BitVec.ofNat 32 (satAdd 32 (s.reg (stackReg n SWD_SLAG_MARKED)).toNat 1) ∧
      t.reg (stackReg n SWD_SLAG_ADDR_LO) = BitVec.ofNat 32 addr ∧ tget? (t.stack n).slag (addr / 64) = some 1 ∧
      (t.agent (s.stackAgent n)).queue = (s.agent (s.stackAgent n)).queue ++ [⟨.slagStack n 1 addr, 0, .unsent, 0⟩] ∧
      Frame [.regs, .msix, .out, .agents, .hbm] s t) ∧
  (∀ s (n : StackIx) addr, s.Signals → (s.agent (s.stackAgent n)).queue.length < 16 → s.controlAt addr = true →
    ∃ t, exec (.hbmUncorrectable n addr) s = .next t ∧
      t.reg (stackReg n SWD_ECC_UE) = BitVec.ofNat 32 (satAdd 32 (s.reg (stackReg n SWD_ECC_UE)).toNat 1) ∧
      (t.agent (s.stackAgent n)).queue = (s.agent (s.stackAgent n)).queue ++ [⟨.controlUE 2 n.val, 0, .unsent, 0⟩] ∧
      Frame [.regs, .msix, .out, .agents] s t) ∧
  (∀ s (tl : TileIx) addr, s.Signals → (s.agent (tileAgent tl)).queue.length < 16 →
    (∃ t, exec (.tileSramUE tl addr false) s = .next t ∧ t.reg (tileReg tl TWD_SLAG_LAST) = BitVec.ofNat 32 (0x20000 + addr % 2 ^ 16) ∧
      (t.tile tl).slag.contains addr = true ∧ (∀ u, u ≠ tl → t.tile u = s.tile u) ∧
      (t.agent (tileAgent tl)).queue = (s.agent (tileAgent tl)).queue ++ [⟨.slagTile tl 2 addr, 0, .unsent, 0⟩] ∧
      Frame [.regs, .msix, .out, .agents, .tiles] s t ∧ RegsBut (fun k => k == tileReg tl TWD_SLAG_LAST) s t) ∧
    (∃ t, exec (.tileSramUE tl addr true) s = .next t ∧
      (t.agent (tileAgent tl)).queue = (s.agent (tileAgent tl)).queue ++ [⟨.controlUE 1 tl.val, 0, .unsent, 0⟩] ∧
      Frame [.msix, .out, .agents] s t)) ∧
  (∀ s (n : StackIx) addr, s.Signals → (s.agent (s.stackAgent n)).queue.length < 15 → s.controlAt addr = false →
    ∃ t, exec (.pathParityFail (.memoryWrite n) addr) s = .next t ∧ tget? (t.stack n).slag (addr / 64) = some 3 ∧ (t.agent (s.stackAgent n)).queue =
        (s.agent (s.stackAgent n)).queue ++ [⟨.slagStack n 3 addr, 0, .unsent, 0⟩, ⟨.pathParity n addr, 0, .unsent, 0⟩] ∧
      Frame [.regs, .msix, .out, .agents, .hbm] s t) ∧
  (∀ s (n : StackIx) addr, s.Signals → (s.agent (s.stackAgent n)).queue.length < 16 → s.controlAt addr = true →
    ∃ t, exec (.pathParityFail (.memoryWrite n) addr) s = .next t ∧
      (t.agent (s.stackAgent n)).queue = (s.agent (s.stackAgent n)).queue ++ [⟨.controlUE 2 n.val, 0, .unsent, 0⟩] ∧
      Frame [.msix, .out, .agents] s t) ∧
  (∀ s p addr, s.Signals → (s.agent (portAgent p)).queue.length < 16 →
    (∃ t, exec (.pathParityFail (.linkEgress p false) addr) s = .next t ∧ .slagFlit p 3 ∈ t.out ∧ Frame [.msix, .out] s t) ∧
    (∃ t, exec (.pathParityFail (.linkEgress p true) addr) s = .next t ∧
      (t.agent (portAgent p)).queue = (s.agent (portAgent p)).queue ++ [⟨.controlUE 3 p.val, 0, .unsent, 0⟩] ∧ Frame [.msix, .out, .agents] s t)) ∧
  (∀ s (tl : TileIx) addr, s.Signals → (s.agent (tileAgent tl)).queue.length < 16 →
    (∃ t, exec (.pathParityFail (.tileWrite tl false) addr) s = .next t ∧ t.reg (tileReg tl TWD_SLAG_LAST) = BitVec.ofNat 32 (0x30000 + addr % 2 ^ 16) ∧
      (t.tile tl).slag.contains addr = true ∧
      (t.agent (tileAgent tl)).queue = (s.agent (tileAgent tl)).queue ++ [⟨.slagTile tl 3 addr, 0, .unsent, 0⟩] ∧
      Frame [.regs, .msix, .out, .agents, .tiles] s t) ∧
    (∃ t, exec (.pathParityFail (.tileWrite tl true) addr) s = .next t ∧
      (t.agent (tileAgent tl)).queue = (s.agent (tileAgent tl)).queue ++ [⟨.controlUE 1 tl.val, 0, .unsent, 0⟩] ∧
      Frame [.msix, .out, .agents] s t)) ∧
  (∀ s (tl : TileIx) seq code addr k e, s.Signals → (s.tile tl).slotOf seq = some (k, e) → e.role = .primary → isCompute e.cmd.kind = true →
    e.state = .running → e.isOpen = true → (s.agent (tileAgent tl)).queue.length < 16 → ∃ t, exec (.slagConsumed tl seq code addr) s = .next t ∧
      t.reg (tileReg tl TWD_SLAG_CONSUMED) = BitVec.ofNat 32 (satAdd 32 (s.reg (tileReg tl TWD_SLAG_CONSUMED)).toNat 1) ∧
      t.reg (tileReg tl TWD_SLAG_LAST) = BitVec.ofNat 32 (code % 8 * 2 ^ 16 + addr % 2 ^ 16) ∧
      (t.agent (tileAgent tl)).queue = (s.agent (tileAgent tl)).queue ++ [⟨.slagConsumed tl e.cmd.ctx e.cmd.step seq code, 0, .unsent, 0⟩] ∧
      Frame [.regs, .msix, .out, .agents] s t) ∧
  (∀ s v (dom : Fin 16) gen (c : CtxIx), s.Signals → gen = tget s.esc.domGen dom.val 0 → (s.ctx c).faulted = false → (s.ctx c).quarantine = none →
    ∃ t, exec (.dataReplyArrival v dom gen c) s = .next t ∧ .reply dom.val c ∈ t.out ∧ Frame [.msix, .out] s t) ∧
  (∀ s v (dom : Fin 16) gen (c : CtxIx), s.Signals → gen ≠ tget s.esc.domGen dom.val 0 → ∃ t, exec (.dataReplyArrival v dom gen c) s = .next t ∧
    t.reg64 HRT_GEN_STALE_LO HRT_GEN_STALE_HI = (s.reg64 HRT_GEN_STALE_LO HRT_GEN_STALE_HI + 1) % 2 ^ 64 ∧ Frame [.regs, .msix, .out] s t) ∧
  (∀ s p self n, s.Signals → (self = true → s.leaving = true) → (self = false → (s.port p).gone = true ∨ (s.port p).up = false) →
    ∃ t, exec (.remoteGoneAnswer p self n) s = .next t ∧
    t.reg HRT_REMOTE_GONE = BitVec.ofNat 32 (satAdd 32 (s.reg HRT_REMOTE_GONE).toNat 1) ∧ .slagReply 4 n ∈ t.out ∧ Frame [.regs, .msix, .out] s t)

/-- A barrier of the step that a context is in, with no conservation count of that parity held by any tile, sets the context
to the next step, clears its ordinals and shows the step in the drift registers. One with a key that fits the table, is not
saturated and fails its equation faults the context, unless it asked for notices only. A context assigned to a free number
outside SAFE is in use with its descriptor, in its first step, with its own seed unless that is zero, and with no conservation
row left from before. -/
def Obligations.StepBarrier : Prop :=
  (∀ s b, s.Signals → (s.ctx b.ctx).used = true → (s.ctx b.ctx).faulted = false → (s.ctx b.ctx).step = b.step →
    (∀ tl, consOf b.ctx (stepParity b.step) (s.tile tl) = []) → ∃ t, exec (.stepBarrier b) s = .next t ∧
      (t.ctx b.ctx).step = b.step + 1 ∧ (t.ctx b.ctx).first = false ∧ (t.ctx b.ctx).used = true ∧
      (∀ e ∈ t.shadow.ordinals, e.1 / 128 ≠ b.ctx.val) ∧ t.reg (itemKey HRT_DRIFT_STEP b.ctx.val) = b.step ∧ t.plan = s.plan ∧ t.hl = s.hl) ∧
  (∀ s b r k, (s.ctx b.ctx).used = true → (s.ctx b.ctx).faulted = false → (s.ctx b.ctx).step = b.step →
    (s.ctx b.ctx).desc.noticeOnly = false → r ∈ s.consRows b.ctx b.step → r.key.isSome = true → r.saturated = false → r.judge = some k →
    (s.consRows b.ctx b.step).length + s.ofd.cons.length ≤ 4096 → ∃ t, exec (.stepBarrier b) s = .next t ∧ (t.ctx b.ctx).faulted = true) ∧
  (∀ s (c : CtxIx) d, s.Signals → (s.ctx c).used = false → s.bu.pkg ≠ .safe → ∃ t, exec (.contextAssigned c d) s = .next t ∧
    (t.ctx c).used = true ∧ (t.ctx c).faulted = false ∧ (t.ctx c).desc = d ∧ (t.ctx c).step = d.step ∧ (t.ctx c).first = true ∧
    (d.seed ≠ 0 → (t.ctx c).seed = d.seed) ∧ (∀ r ∈ t.ofd.cons, r.ctx ≠ c) ∧ (∀ e, e ≠ c → t.ctx e = s.ctx e) ∧
    Frame [.regs, .msix, .out, .ctxs, .shadow, .ofd, .bus, .agents, .free] s t)

/-- A tagged write under its own context's handle adds the digest of its whole units to the bank of its step's parity, with
LOST for bytes of a unit that it writes in part, and moves the Slag markers of its lines; under another handle it counts as a
miss. A latch command waits at its stack; at the latch every bank of the context and parity is copied and cleared.
OFD_REGISTER of an aligned region of the requester's world that overlaps none takes the lowest free handle and answers with
it; OFD_RELEASE marks the handle; OFD_READ answers with the latched digests, newest first. -/
def Obligations.DigestBanks : Prop :=
  (∀ s (n : StackIx) w x us, s.Signals → s.handle? w.handle.val = some x → x.d.ctx = w.ctx → w.handle.val ≠ 0 →
    (s.agent (s.stackAgent n)).resync = false →
    unitsAt (widthOf x.d.width) ((w.addr + 2 ^ 64 - x.d.region.base) % 2 ^ 64) w.bytes = us → ∃ t, exec (.taggedWrite n w) s = .next t ∧
      tget? (t.stack n).banks (bankKey w.handle.val w.step) = some (((((tget (s.stack n).banks (bankKey w.handle.val w.step) {}).add
        (s.digestOf x.d.keySet.val x.d.indexBase us.1) us.1.length).flag flagLost us.2).flag flagRewritten (s.attemptMark w)).flag flagSlag
          w.slag.isSome) ∧
      (t.stack n).slag = marksAfter w (s.stack n).slag ∧ (∀ m, m ≠ n → t.stack m = s.stack m) ∧
      Frame [.msix, .out, .hbm, .ofd] s t ∧ (s.ofd.running = none → t.ofd = s.ofd)) ∧
  (∀ s (n : StackIx) w, s.Signals → s.handle? w.handle.val = none → w.handle.val ≠ 0 →
    ∃ t, exec (.taggedWrite n w) s = .next t ∧ t.reg HRT_OFD_TAG_MISS = BitVec.ofNat 32 (satAdd 32 (s.reg HRT_OFD_TAG_MISS).toNat 1) ∧
      (t.stack n).banks = (s.stack n).banks ∧ (∀ m, m ≠ n → t.stack m = s.stack m) ∧
      Frame [.regs, .msix, .out, .hbm, .ofd] s t ∧ (s.ofd.running = none → t.ofd = s.ofd) ∧ RegsBut (fun k => k == HRT_OFD_TAG_MISS || k == stackReg n SWD_OFD_TAG_MISS) s t) ∧
  (∀ s (n : StackIx) (c : CtxIx) step, s.Signals → ∃ t, exec (.digestLatchCommand n c step) s = .next t ∧
    t.stack n = { s.stack n with latch := (s.stack n).latch ++ [(c, step)] } ∧ (∀ m, m ≠ n → t.stack m = s.stack m) ∧
    Frame [.msix, .out, .hbm] s t) ∧
  (∀ s (n : StackIx) (c : CtxIx) step kat, s.Signals → (s.stack n).latch.contains (c, step) = true → ∃ t, exec (.bankLatch n c step kat) s = .next t ∧
    (t.stack n).latch = (s.stack n).latch.erase (c, step) ∧
    (∀ k ∈ s.handlesOf c, tget? (t.stack n).banks (bankKey k step) = none ∧ (tget? (t.stack n).copies k).isSome = true) ∧
      ((s.handlesOf c).Nodup → ∀ k ∈ s.handlesOf c, tget? (t.stack n).copies k =
        some ((tget (s.stack n).banks (bankKey k step) {}).flag flagFaulty (s.katFault n || (s.katMissed kat).isSome))) ∧
    (∀ m, m ≠ n → t.stack m = s.stack m) ∧ Frame [.regs, .msix, .recd, .subs, .i3c, .obs, .out, .hbm, .agents, .ofd] s t) ∧
  (∀ s h d k, s.Signals → s.Serves h → h.operator = true → d.indexBase < 2 ^ 48 → s.ownsRegion ⟨h, 0x40⟩ d.region = true →
    d.region.length * 8 % widthOf d.width = 0 → (s.ofd.handles.any fun e => overlaps e.2.d.region d.region) = false → s.freeHandle = some k →
    ∃ t, exec (.ofdRegister h d) s = .next t ∧ t.handle? k = some { d := d } ∧ Answered s t h 0x40 .ok [BitVec.ofNat 32 k] ∧
      (∀ j, j ≠ k → t.handle? j = s.handle? j) ∧ Frame [.regs, .msix, .cmp, .out, .ofd] s t ∧ RegsBut commandReg s t) ∧
  (∀ s h (k : Fin 256) x, s.Signals → s.Serves h → h.operator = true → s.handle? k.val = some x →
    ∃ t, exec (.ofdRelease h k) s = .next t ∧ t.handle? k.val = some { x with releasing := true } ∧ Answered s t h 0x41 .ok [] ∧
      (∀ j, j ≠ k.val → t.handle? j = s.handle? j) ∧ Frame [.regs, .msix, .cmp, .out, .ofd] s t ∧ RegsBut commandReg s t) ∧
  (∀ s h (k : Fin 256) x, s.Signals → s.Serves h → h.operator = true → s.handle? k.val = some x →
    ∃ t, exec (.ofdRead h k) s = .next t ∧ Answered s t h 0x42 .ok (x.latched.flatMap fun l => l.1 :: l.2.words (l.2.status (unitsOf x.d))) ∧
      Frame [.regs, .msix, .cmp, .out] s t ∧ RegsBut commandReg s t)

/-- With the scrub function ON, a request on a region of the requester's world with no faulty stack joins a queue of at most
16 and is answered at its completion. The head of the queue starts when nothing runs. The completion of a scrub answers with
the combined digest of its parts and its status; a verification whose count and lanes agree answers MATCH, 0, and one whose
digest is not COMPLETE answers NOT_COMPARABLE, 2, with that status. A replica interval sends this member's digest of a static
region to every other member, with version, key set, status and count; for a stepped one it notes that the next latch of a
multiple of the stride is due; a digest of a member of a declared group is kept until every member's is there. -/
def Obligations.ScrubsAndReplicas : Prop :=
  (∀ s h d, s.Signals → s.Serves h → h.operator = true → d.indexBase < 2 ^ 48 → s.ownsRegion ⟨h, 0x43⟩ d.region = true → s.fnOn 4 = true →
    s.faultyRegion d.region = false → s.ofd.queue.length < 16 → ∃ t, exec (.scrubDigest h d) s = .next t ∧
      t.ofd = { s.ofd with queue := s.ofd.queue ++ [⟨some ⟨h, 0x43⟩, d, none, []⟩] } ∧ t.host.unanswered = s.host.unanswered ++ [⟨h, 0x43⟩] ∧
      Frame [.regs, .msix, .out, .ofd, .host] s t ∧ RegsBut commandReg s t) ∧
  (∀ s h d e n, s.Signals → s.Serves h → h.operator = true → d.indexBase < 2 ^ 48 → s.ownsRegion ⟨h, 0x44⟩ d.region = true → s.fnOn 4 = true →
    s.faultyRegion d.region = false → s.ofd.queue.length < 16 → ∃ t, exec (.ofdVerify h d e n) s = .next t ∧
      t.ofd = { s.ofd with queue := s.ofd.queue ++ [⟨some ⟨h, 0x44⟩, d, some (e, n), []⟩] } ∧ t.host.unanswered = s.host.unanswered ++ [⟨h, 0x44⟩] ∧
      Frame [.regs, .msix, .out, .ofd, .host] s t ∧ RegsBut commandReg s t) ∧
  (∀ s r rest, s.Signals → s.ofd.queue = r :: rest → s.ofd.running = none → s.fnOn 4 = true → s.faultyRegion r.d.region = false →
    ∃ t, exec .scrubStart s = .next t ∧ t.ofd = { s.ofd with queue := rest, running := some { r with disturbed := [] } } ∧
      Frame [.msix, .out, .ofd] s t) ∧
  (∀ s r p parts b, s.Signals → s.ofd.running = some r → r.who = some p → r.expected = none → s.host.unanswered.contains p = true →
    (∀ q ∈ parts, s.memoryStopped q.stack = false) → (parts.map (s.partBank r.d r.disturbed)).foldl Bank.combine {} = b →
    ∃ t, exec (.scrubComplete parts) s = .next t ∧ t.ofd.running = none ∧
      Answered s t p.h p.opcode .ok (b.words (b.status (unitsOf r.d))) ∧
      (∀ q, (parts.any fun x => x.stack == q) = false → t.stack q = s.stack q) ∧ Frame [.regs, .msix, .cmp, .out, .host, .hbm, .ofd] s t) ∧
  (∀ s r p parts b e n, s.Signals → s.ofd.running = some r → r.who = some p → r.expected = some (e, n) → s.host.unanswered.contains p = true →
    (∀ q ∈ parts, s.memoryStopped q.stack = false) → (parts.map (s.partBank r.d r.disturbed)).foldl Bank.combine {} = b →
    b.status n = 0 → b.ofd = e → ∃ t, exec (.scrubComplete parts) s = .next t ∧ t.ofd.running = none ∧
      Answered s t p.h p.opcode .ok (0 :: b.words 0) ∧ Frame [.regs, .msix, .cmp, .out, .host, .hbm, .ofd] s t) ∧
  (∀ s r p parts b e n, s.Signals → s.ofd.running = some r → r.who = some p → r.expected = some (e, n) → s.host.unanswered.contains p = true →
    (∀ q ∈ parts, s.memoryStopped q.stack = false) → (parts.map (s.partBank r.d r.disturbed)).foldl Bank.combine {} = b →
    b.status n ≠ 0 → ∃ t, exec (.scrubComplete parts) s = .next t ∧ t.ofd.running = none ∧
      Answered s t p.h p.opcode .ok (2 :: b.words (b.status n)) ∧ Frame [.regs, .msix, .cmp, .out, .host, .hbm, .ofd] s t) ∧
  (∀ s g r own, s.Signals → (s.ofd.groups.find? fun x => x.ident == g.ident) = some g → (∀ w ∈ g.waits, w.2 = 0) → s.ownReplica g r = some own →
    ∃ t, exec (.replicaInterval g.ident r) s = .next t ∧
      (∀ m ∈ g.others, .digest g.ident m own.version own.keySet own.status own.ofd own.count ∈ t.out) ∧
      Frame [.regs, .msix, .recd, .subs, .i3c, .obs, .out, .ofd, .pw] s t) ∧
  (∀ s g k n, s.Signals → (s.ofd.groups.find? fun x => x.ident == g.ident) = some g → (∀ w ∈ g.waits, w.2 = 0) →
    ∃ t, exec (.replicaInterval g.ident (.stepped k n)) s = .next t ∧
      (∃ g1, (t.ofd.groups.find? fun x => x.ident == g.ident) = some g1 ∧ g1.due = true ∧ g1.copy = some (.stepped k n)) ∧
      Frame [.msix, .out, .ofd] s t) ∧
  (∀ s m g k v ks o n st, s.Signals → s.pw.standby = true → m.good = true → s.sq.run = .running →
    (s.ofd.groups.find? fun x => x.ident == g.ident) = some g → k.val < g.members.length → k.val ≠ g.self →
    (g.seen.filter fun q => q.version == v && q.member != k.val).length + 1 < g.members.length →
    ∃ t, exec (.digestExchange m g.ident k v ks o n st) s = .next t ∧
      (∃ g1, (t.ofd.groups.find? fun x => x.ident == g.ident) = some g1 ∧ (⟨k.val, v, ks.val, o, n, st.val⟩ : Replica) ∈ g1.seen ∧ g1.members = g.members) ∧
      Frame [.regs, .msix, .out, .ofd] s t)

/-- With the trace function ON and the partition traced, a selected PC sample joins the buffer of its tile's writer, and a
TIME record that of the Hearth in the lowest traced partition. In WRAP mode a writer without a block is granted the next block
that nobody has open, with a BLOCK record; in STOP mode a region whose blocks are used up becomes full, with vector 12. A
block one second old is closed. Records dropped are counted for the writer and the partition. -/
def Obligations.TraceRecords : Prop :=
  (∀ s (tl : TileIx) pc stall, s.Signals → s.regionRuns tl = true → (s.tile tl).gateClosed = false →
    s.traceSrc 21 ((s.running tl).map fun e => e.cmd.ctx) = true → s.traced (s.partOfTile tl).val = true →
    (s.writer (s.partOfTile tl).val (tileWriter tl)).blk = none → (s.writer (s.partOfTile tl).val (tileWriter tl)).lost = 0 →
    (s.writer (s.partOfTile tl).val (tileWriter tl)).buf.length < 512 → ∃ t, exec (.pcSample tl pc stall) s = .next t ∧
      (∃ w0 w1 w3, (t.writer (s.partOfTile tl).val (tileWriter tl)).buf = (s.writer (s.partOfTile tl).val (tileWriter tl)).buf ++ [[w0, w1, pc, w3]]) ∧
      Frame [.msix, .out, .obs] s t) ∧
  (∀ s p, s.Signals → (List.range 4).find? s.traced = some p → s.traceOn = true → (s.writer p hearthWriter).blk = none →
    (s.writer p hearthWriter).lost = 0 → (s.writer p hearthWriter).buf.length < 512 → ∃ t, exec .traceTimeRecord s = .next t ∧
      (t.writer p hearthWriter).buf = (s.writer p hearthWriter).buf ++ [[word4 1 s.esc.gen.toNat 0 0, BitVec.ofNat 32 s.clock,
        BitVec.ofNat 32 (s.clock / 2 ^ 32), BitVec.ofNat 32 s.time.tb]] ∧ Frame [.msix, .out, .obs] s t) ∧
  (∀ s (p : PartIx) w, s.Signals → s.traceWriting = true → s.traced p.val = true → (s.writer p.val (w % 193)).blk = none →
    s.fld OBS_TRACE_CFG 27 27 = 0 → ∃ t, exec (.traceBlockClaim p w) s = .next t ∧
      t.reg (itemKey OBS_TRACE_BLOCKS p.val) = s.reg (itemKey OBS_TRACE_BLOCKS p.val) + 1 ∧
      (∃ body, .trace p (w % 193) (s.wrapBlock p.val (tget s.obs.regions p.val {}).next) body ∈ t.out) ∧ Frame [.regs, .msix, .out, .obs] s t) ∧
  (∀ s (p : PartIx) w, s.Signals → s.traceWriting = true → s.traced p.val = true → (s.writer p.val (w % 193)).blk = none →
    s.fld OBS_TRACE_CFG 27 27 ≠ 0 → s.traceBlocks p.val ≤ (tget s.obs.regions p.val {}).next → (tget s.obs.regions p.val {}).full = false →
    ∃ t, exec (.traceBlockClaim p w) s = .next t ∧ (tget t.obs.regions p.val {}).full = true ∧ t.causes.getLsbD 12 = true ∧
      Frame [.regs, .msix, .recd, .subs, .i3c, .obs, .out, .fns] s t) ∧
  (∀ s (p : PartIx) w b used c, s.Signals → (s.writer p.val (w % 193)).blk = some (b, used, c) → c + 10 ^ 9 ≤ s.clock →
    ∃ t, exec (.traceBlockCloseTimer p w) s = .next t ∧ (t.writer p.val (w % 193)).blk = none ∧
      (t.writer p.val (w % 193)).buf = (s.writer p.val (w % 193)).buf ∧ Frame [.msix, .out, .obs] s t) ∧
  (∀ s (p : PartIx) w n, s.Signals → s.traceOn = true → s.traced p.val = true → ∃ t, exec (.traceRecordDrop p w n) s = .next t ∧
    (t.writer p.val (w % 193)).lost = (s.writer p.val (w % 193)).lost + n ∧
    t.reg64 (itemKey OBS_TRACE_LOST_LO p.val) (itemKey OBS_TRACE_LOST_HI p.val) =
      (s.reg64 (itemKey OBS_TRACE_LOST_LO p.val) (itemKey OBS_TRACE_LOST_HI p.val) + n) % 2 ^ 64 ∧ Frame [.regs, .msix, .recd, .subs, .i3c, .obs, .out] s t ∧
    RegsBut (fun k => eventReg k || k == 0x100000 + 0x1000 * (w % 193) + TWD_TRACE_DROP || k == 0x280000 + 0x1000 * (w % 193 - 144) + LWD_TS_DROP) s t)

/-- OBS_CTX_READ answers with the ten sums of the context's counters, the last eight saturated at 32 bits (assumption log
105), and its commits. With the watch function ON, a WATCH_SET that passes every check arms the lowest free watchpoint of its
partition. WATCH_RELEASE frees a watchpoint. The end of an ADDRESS copy, which a STOP on a memory domain pauses, ends the
watch DONE, TRUNCATED when it does not fit the dump region, and the end of the hold ends it PARTIAL or TRUNCATED. -/
def Obligations.WatchesAndCounters : Prop :=
  (∀ s h (c : CtxIx), s.Signals → s.Serves h → h.operator = true → ∃ t, exec (.obsCtxRead h c) s = .next t ∧
    Answered s t h 0x60 .ok (((List.range 2).flatMap fun n => [BitVec.ofNat 32 (s.ctxSum n c), BitVec.ofNat 32 (s.ctxSum n c / 2 ^ 32)]) ++
      ((List.range 8).map fun r => BitVec.ofNat 32 (min (s.ctxSum (2 + r) c) (2 ^ 32 - 1))) ++ [BitVec.ofNat 32 (s.ctx c).commits]) ∧ Frame [.regs, .msix, .cmp, .out] s t ∧ RegsBut commandReg s t) ∧
  (∀ s h w k, s.Signals → s.Serves h → h.operator = true → s.fnOn 2 = true → s.freeWatch w.part = some k → later w.step (s.ctx w.ctx).step = true →
    (isAddress w.sel = true ∨ s.fld OBS_TAG_FORM w.part.val w.part.val ≠ 0) → s.ownsRegion ⟨h, 0x61⟩ w.dump = true → s.dumpOk ⟨h, 0x61⟩ w = true →
    ∃ t, exec (.watchSet h w) s = .next t ∧ t.watch k = { st := 1, w := some w } ∧ Answered s t h 0x61 .ok [BitVec.ofNat 32 (k % 8)] ∧
      (∀ j, j ≠ k → t.watch j = s.watch j) ∧ Frame [.regs, .msix, .cmp, .out, .obs] s t ∧ RegsBut commandReg s t) ∧
  (∀ s h p (k : Fin 8) w, s.Signals → s.Serves h → h.operator = true → (s.watch (watchKey p k.val)).w = some w → (s.ctx w.ctx).watchHold = false →
    ∃ t, exec (.watchRelease h p k) s = .next t ∧ t.watch (watchKey p k.val) = {} ∧ Answered s t h 0x62 .ok [] ∧
      (∀ j, j ≠ watchKey p k.val → t.watch j = s.watch j) ∧ Frame [.regs, .msix, .cmp, .out, .obs] s t ∧ RegsBut commandReg s t) ∧
  (∀ s p (k : Fin 8) bytes w, (s.watch (watchKey p k.val)).w = some w → (s.watch (watchKey p k.val)).st = 2 → isAddress w.sel = true →
    (s.ctx w.ctx).watchHold = true → s.copyPaused = false →
    ∃ t, exec (.watchCopyDone p k bytes) s = .next t ∧ (t.watch (watchKey p k.val)).st = (if dumpRoom w < bytes then 5 else 3)) ∧
  (∀ s p (k : Fin 8) bytes w, (s.watch (watchKey p k.val)).w = some w → (s.watch (watchKey p k.val)).st = 2 → isAddress w.sel = true →
    (s.ctx w.ctx).watchHold = true →
    (∃ t, exec (.watchHoldExpiry p k bytes) s = .next t ∧ (t.watch (watchKey p k.val)).st = (if dumpRoom w < bytes then 5 else 4)))

/-- With a snapshot region, a served SNAPSHOT claims the lowest free buffer, is answered with the buffer and the snapshot's
number, and its units are still to be read. A unit that does not answer is noted. The completion, once no unit is left to
read, keeps what was read and the smear of the stop and leaves the buffer full; a write timeout frees it. SNAP_COPY of a range
within the buffer is copied to the host; SNAP_RELEASE frees the buffer. -/
def Obligations.Snapshots : Prop :=
  (∀ s h sc b, s.Signals → s.Serves h → h.operator = true → s.snapRegion = true → s.esc.snaps.length = 2 →
    (List.range 2).find? (fun b => (s.snap b).st == 0) = some b → ∃ t, exec (.snapshot h sc) s = .next t ∧ (t.snap b).st = 1 ∧
      (t.snap b).num = s.esc.snapCount + 1 ∧ (t.snap b).scope = sc ∧ (t.snap b).t0 = s.time.tb ∧ (t.snap b).todo = s.snapUnits sc ∧
      Answered s t h 0x36 .ok [BitVec.ofNat 32 b, BitVec.ofNat 32 (s.esc.snapCount + 1)] ∧ Frame [.regs, .msix, .cmp, .out, .esc, .bus] s t ∧
      RegsBut commandReg s t) ∧
  (∀ s (b : Fin 2) a, s.Signals → (s.snap b.val).st = 1 → (s.snap b.val).todo.contains a = true → ∃ t, exec (.snapshotUnitTimeout b a) s = .next t ∧
    t.snap b.val = { s.snap b.val with todo := (s.snap b.val).todo.erase a, noresp := (s.snap b.val).noresp ++ [a] } ∧ Frame [.msix, .out, .esc, .bus] s t) ∧
  (∀ s (b : Fin 2), s.Signals → (s.snap b.val).st = 1 → (s.snap b.val).todo = [] → ∃ t, exec (.snapshotComplete b) s = .next t ∧ (t.snap b.val).st = 2 ∧
    (t.snap b.val).t1 = s.time.tb ∧ (t.snap b.val).todo = [] ∧ (t.snap b.val).smear = s.reg HRT_SMEAR ∧
    (t.snap b.val).read = (s.snap b.val).read ∧ (t.snap b.val).noresp = (s.snap b.val).noresp ∧
    Frame [.regs, .msix, .recd, .subs, .i3c, .obs, .out, .esc] s t ∧ RegsBut eventReg s t) ∧
  (∀ s (b : Fin 2), s.Signals → (s.snap b.val).st = 1 → ∃ t, exec (.snapshotWriteTimeout b) s = .next t ∧ t.snap b.val = {} ∧
    Frame [.regs, .msix, .recd, .subs, .i3c, .obs, .out, .esc] s t ∧ RegsBut eventReg s t) ∧
  (∀ s h (b : Fin 2) off len, s.Signals → s.Serves h → h.operator = true → (s.snap b.val).st = 2 → off + len ≤ 0x20000 →
    ∃ t, exec (.snapCopy h b off len) s = .next t ∧ .hostCopy b.val off len ∈ t.out ∧ Answered s t h 0x37 .ok [] ∧
      Frame [.regs, .msix, .cmp, .out] s t ∧ RegsBut commandReg s t) ∧
  (∀ s h (b : Fin 2), s.Signals → s.Serves h → h.operator = true → (s.snap b.val).st = 2 → ∃ t, exec (.snapRelease h b) s = .next t ∧
    t.snap b.val = {} ∧ Answered s t h 0x38 .ok [] ∧ Frame [.regs, .msix, .cmp, .out, .esc] s t ∧ RegsBut commandReg s t)

/-- With sliced BIST ON, a slot that opens on an idle SPARE tile starts its test. A hand-over gives the number to the cover,
leaves the tile SPARE and begins the test; a hand-back returns the number to the tested tile. A first failure is repeated; a
second one orders the fence, reason 4, with BIST_FAIL. A return test that fails retires its tile, one that passes returns it
to service on watch. A diagnosis shows the exact pattern of a failed tile. A row slice without failures, at 95 °C or less and
not the last of its rotation, counts, shows that it passed, and the next slice is due. -/
def Obligations.SlicedBist : Prop :=
  (∀ s (tl : TileIx), s.Signals → s.test.bist = none → s.fnOn 3 = true → s.rotation.head? = some tl → (s.fpOf tl).st = .spare → (s.tile tl).role = .idle →
    ∃ t, exec .bistSlotOpen s = .next t ∧ t.test.bist = some { tile := tl, phase := .testing } ∧ (t.tile tl).role = .selfTest ∧
      Frame [.regs, .msix, .out, .test, .tiles, .bus, .agents, .free] s t) ∧
  (∀ s b c l, s.test.bist = some b → b.cover = some c → b.logical = some l → b.phase = .handOver → (s.tile b.tile).handReady = true →
    ∃ t, exec (.handOverComplete none) s = .next t ∧ t.test.bist = some { b with phase := .testing } ∧ tget? t.plan.map l.val = some c ∧
      (t.fpOf b.tile).st = .spare ∧ t.plan.epoch = s.plan.epoch + 1) ∧
  (∀ s (k : Fin 8) j c l, s.test.slots.getD k.val none = some j → j.cover = some c → j.logical = some l → j.phase = .handOver →
    (s.tile j.tile).handReady = true → ∃ t, exec (.handOverComplete (some k)) s = .next t ∧
      t.test.slots.getD k.val none = some { j with phase := .testing } ∧ tget? t.plan.map l.val = some c ∧
      (t.fpOf j.tile).st = .spare ∧ t.plan.epoch = s.plan.epoch + 1) ∧
  (∀ s b r, s.Signals → s.test.bist = some b → b.phase = .testing → s.judgeBist b.tile r = .fail → b.first = none →
    ∃ t, exec (.bistResult r b.tile) s = .next t ∧ t.test.bist = some { b with first := some r, stopped := false } ∧ t.plan = s.plan ∧
      Frame [.regs, .msix, .out, .test, .tiles, .bus, .agents, .free] s t) ∧
  (∀ s b r r0, s.test.bist = some b → b.phase = .testing → s.judgeBist b.tile r = .fail → b.first = some r0 →
    ((s.fpOf b.tile).st = .good ∨ (s.fpOf b.tile).st = .spare) → tget? s.plan.fencing b.tile.val = none → s.inReset b.tile = false →
    ∃ t, exec (.bistResult r b.tile) s = .next t ∧ t.test.bist = none ∧
      tget? t.plan.fencing b.tile.val = some (some ⟨3, 1, b.tile.val, 0x0602, s.bistData r⟩, s.time.tb, none, 4)) ∧
  (∀ s b l u, s.test.bist = some b → b.logical = some l → b.phase = .handBack → s.holder l = some u → (s.tile u).handReady = true →
    ∃ t, exec (.handBackComplete none) s = .next t ∧ t.test.bist = none ∧ tget? t.plan.map l.val = some b.tile) ∧
  (∀ s (k : Fin 8) j l u, s.test.slots.getD k.val none = some j → j.logical = some l → j.phase = .handBack → s.holder l = some u →
    (s.tile u).handReady = true → ∃ t, exec (.handBackComplete (some k)) s = .next t ∧ tget? t.plan.map l.val = some j.tile) ∧
  (∀ s (tl : TileIx) x r, s.returnOf tl = some x → x.long = true → s.judgeBist tl r = .fail → s.recd.pfLock = false → ∃ t, exec (.returnTestRetry tl r) s = .next t ∧
    (t.fpOf tl).retired = true ∧ t.plan.writing = true ∧ t.plan.writeQ ≠ []) ∧
  (∀ s (tl : TileIx) x r, s.returnOf tl = some x → x.long = true → s.judgeBist tl r = .pass → ∃ t, exec (.returnTestRetry tl r) s = .next t ∧
    (t.fpOf tl).reason = 0 ∧ (t.fpOf tl).watch.isSome = true ∧ (t.fpOf tl).st ≠ .fenced ∧ (t.tile tl).gateClosed = false) ∧
  (∀ s (tl : TileIx) n, s.Signals → ((s.fpOf tl).st = .fenced ∨ (s.fpOf tl).st = .defect) → s.fld (tileReg tl TWD_BIST_STATUS) 23 16 ≠ 0 →
    ∃ t, exec (.bistDiag tl n) s = .next t ∧ t.reg (tileReg tl TWD_BIST_PATTERN) = BitVec.ofNat 32 (2 ^ 15 + s.fld (tileReg tl TWD_BIST_PATTERN) 14 9 * 512 + n % 512) ∧
      Frame [.regs, .msix, .out] s t ∧ RegsBut (fun k => k == tileReg tl TWD_BIST_STATUS || k == tileReg tl TWD_BIST_PATTERN) s t) ∧
  (∀ s (n : StackIx) temp w, s.Signals → s.fnOn 3 = true → s.unitStopped (s.stackAgent n) = false → s.isExcluded 2 n.val = false → n.val < s.stackCount →
    s.fld HRT_BIST_DIE_HOLD (s.stackAgent n).die.val (s.stackAgent n).die.val ≠ 1 → temp ≤ 380 → tget s.test.slicePos n.val 0 + 1 < sliceCount →
    ∃ t, exec (.hbmRowSlice n temp [] [] w) s = .next t ∧ tget t.test.slicePos n.val 0 = tget s.test.slicePos n.val 0 + 1 ∧
    t.reg64 (stackReg n SWD_HBM_SLICES_LO) (stackReg n SWD_HBM_SLICES_HI) = (s.reg64 (stackReg n SWD_HBM_SLICES_LO) (stackReg n SWD_HBM_SLICES_HI) + 1) % 2 ^ 64 ∧
    t.reg (stackReg n SWD_HBM_TEST) = 0xC8000000 ∧ Frame [.regs, .msix, .out, .test] s t ∧
    RegsBut (fun k => k == stackReg n SWD_HBM_SLICES_LO || k == stackReg n SWD_HBM_SLICES_HI || k == stackReg n SWD_HBM_TEST) s t)

/-- A served ANVIL_RUN of 1 to 8 tiles, none DEFECT or retired, with a kernel and 1 to 255 repeats, is taken among at most 16
requests that wait and queues one run for each tile. The oldest run that can start takes a free slot. A request that waits for
a cover is refused NO_SPARE at its timeout. A kernel whose four conditions hold goes on to the next one; one that fails is
counted. -/
def Obligations.AnvilRuns : Prop :=
  (∀ s h ts ks n, s.Signals → s.Serves h → h.operator = true → ts ≠ [] → ts.length ≤ 8 → ks ≠ 0 → n ≠ 0 → n ≤ 255 →
    (∀ x ∈ ts, ∃ u, s.named x = some u ∧ (s.fpOf u).st ≠ .defect ∧ (s.fpOf u).retired = false) → s.reqsQueued < 16 →
    ∃ t, exec (.anvilRun h ts ks n) s = .next t ∧ t.test.reqs = s.test.reqs ++ [⟨s.test.reqCount + 1, ⟨h, 0x50⟩, (ts.map s.named).filterMap id, []⟩] ∧
      t.test.queue.length = s.test.queue.length + ts.length ∧ t.host.unanswered = s.host.unanswered ++ [⟨h, 0x50⟩] ∧
      Frame [.regs, .msix, .out, .test, .host] s t ∧ RegsBut commandReg s t) ∧
  (∀ s i j c ph, s.Signals → (List.range 8).find? (fun i => s.test.slots.getD i none == none) = some i →
    (s.test.queue.findSome? fun j => (s.canStart j).map fun x => (j, x)) = some (j, c, ph) →
    (∀ o ∈ (s.tile j.tile).slots.filterMap id, ((s.tile o.primary).slotOf o.seq).any (fun e => e.2.cmd.hold) = false) →
    ∃ t, exec .anvilRunStart s = .next t ∧
      t.test.queue = s.test.queue.erase j ∧ (∃ j1, t.test.slots = s.test.slots.set i (some j1) ∧ j1.tile = j.tile ∧ j1.cover = c ∧ j1.phase = ph ∧
        j1.kernels = j.kernels ∧ j1.why = j.why) ∧ Frame [.regs, .msix, .out, .test, .tiles, .shadow, .agents] s t) ∧
  (∀ s j rest id r, s.Signals → s.test.queue = j :: rest → j.why = .request id → (s.fpOf j.tile).st = .good → s.chooseCover j.tile = none →
    (s.test.reqs.find? fun r => r.id == id) = some r → s.host.unanswered.contains r.who = true → ∃ t, exec .anvilCoverTimeout s = .next t ∧
      Answered s t r.who.h r.who.opcode .noSpare r.words ∧ (∀ q ∈ t.test.reqs, q.id ≠ id) ∧ Frame [.regs, .msix, .cmp, .out, .host, .test] s t) ∧
  (∀ s (i : Fin 8) j r k ks, s.Signals → s.test.slots.getD i.val none = some j → j.phase = .testing → j.kernels = r.kernel.val :: k :: ks →
    r.aborted = false → j.stopped = false → s.regionRuns j.tile = true → r.skipped = false → r.invalid = false → KernelRes.ok r = true →
    ∃ t, exec (.anvilKernelResult i r) s = .next t ∧
      t.test.slots = s.test.slots.set i.val (some (s.latchFull { j with kernels := k :: ks, passed := j.passed ||| 2 ^ r.kernel.val })) ∧
      Frame [.regs, .msix, .out, .test] s t ∧ RegsBut (fun k => k == tileReg j.tile TWD_ANVIL_RUNS || k == tileReg j.tile TWD_ANVIL_STATUS) s t) ∧
  (∀ s (i : Fin 8) j r, s.test.slots.getD i.val none = some j → j.phase = .testing → j.kernels.head? = some r.kernel.val → r.aborted = false → j.stopped = false →
    s.regionRuns j.tile = true → r.skipped = false → r.invalid = false → KernelRes.ok r = false → ∃ t, exec (.anvilKernelResult i r) s = .next t ∧
      t.reg HRT_ANVIL_FAILS = BitVec.ofNat 32 (satAdd 32 (s.reg HRT_ANVIL_FAILS).toNat 1))

/-- A frame of a job tag received on a tensor port that is up counts; with a receive entry in force on an open port and a
known generation it is delivered with that count, and without an entry it is dropped and counted and never delivered. A frame
sent with a transmit entry in force and a route leaves with the tile's domain generation and the count. Without them it is
dropped, counted, and faults its context; a write to a far end that is gone is dropped and counted, and a read is answered
with Slag of its length. While STOP or TRIP stands on the link domain nothing is sent. Ports of other roles pass frames. -/
def Obligations.LinkFrames : Prop :=
  (∀ s p f, s.Signals → (s.port p).up = true → s.isTensor p = true → (s.port p).gens.contains f.gen = true → f.tag ≠ 0xFFFF →
    s.filterOpen p (fun e => e.rx && e.tag == f.tag) = true → ∃ t, exec (.linkFrameReceive p f) s = .next t ∧
      t.reg (linkReg p LWD_MSG_RX) = BitVec.ofNat 32 (((s.reg (linkReg p LWD_MSG_RX)).toNat + 1) % 2 ^ 32) ∧ .delivered p f ∈ t.out ∧
      Frame [.regs, .msix, .recd, .subs, .i3c, .obs, .out] s t) ∧
  (∀ s p f, s.Signals → (s.port p).up = true → s.isTensor p = true → f.tag ≠ 0xFFFF →
    s.filterOpen p (fun e => e.rx && e.tag == f.tag) = false →
    ((s.port p).gens.contains f.gen = true ∨ (s.reg (linkReg p LWD_GEN_CTRL)).getLsbD 0 = false) → ∃ t, exec (.linkFrameReceive p f) s = .next t ∧
      t.reg (linkReg p LWD_SLICE_DROP) = BitVec.ofNat 32 (satAdd 32 (s.reg (linkReg p LWD_SLICE_DROP)).toNat 1) ∧
      (∀ g, .delivered p g ∈ t.out → .delivered p g ∈ s.out) ∧ Frame [.regs, .msix, .recd, .subs, .i3c, .obs, .out, .ports] s t) ∧
  (∀ s p f, s.Signals → (s.port p).up = true → s.isTensor p = false → ∃ t, exec (.linkFrameReceive p f) s = .next t ∧ .delivered p f ∈ t.out ∧
    Frame [.msix, .out] s t) ∧
  (∀ s p tl f, s.Signals → (s.hl.stop ||| s.hl.trip).getLsbD (24 + p.val / 3) = false → s.isTensor p = true → (s.port p).gone = false → (s.port p).up = true →
    s.filterOpen p (fun e => e.tx && e.tag == f.tag) = true → s.routed p f = true → ∃ t, exec (.linkFrameSend p tl f) s = .next t ∧
      t.reg (linkReg p LWD_MSG_TX) = BitVec.ofNat 32 (((s.reg (linkReg p LWD_MSG_TX)).toNat + 1) % 2 ^ 32) ∧
      .sent p { f with stamp := BitVec.ofNat 16 (((s.reg (linkReg p LWD_MSG_TX)).toNat + 1) % 2 ^ 32), gen := tget s.esc.domGen (regionOfTile tl) 0 } ∈ t.out ∧
      Frame [.regs, .msix, .recd, .subs, .i3c, .obs, .out] s t) ∧
  (∀ s p tl f, (s.hl.stop ||| s.hl.trip).getLsbD (24 + p.val / 3) = false → s.isTensor p = true → (s.port p).gone = false → (s.filterOpen p (fun e => e.tx && e.tag == f.tag) = false ∨ s.routed p f = false) →
    (s.ctx f.ctx).used = true → (s.ctx f.ctx).faulted = false → ∃ t, exec (.linkFrameSend p tl f) s = .next t ∧
      t.reg (linkReg p LWD_EGRESS_DROP) = BitVec.ofNat 32 (satAdd 32 (s.reg (linkReg p LWD_EGRESS_DROP)).toNat 1) ∧ (t.ctx f.ctx).faulted = true) ∧
  (∀ s p tl f, s.Signals → (s.hl.stop ||| s.hl.trip).getLsbD (24 + p.val / 3) = false → s.isTensor p = true → (s.port p).gone = true → f.isWrite = true → ∃ t, exec (.linkFrameSend p tl f) s = .next t ∧
    t.reg (linkReg p LWD_REMOTE_WRITE_DROP) = BitVec.ofNat 32 (satAdd 32 (s.reg (linkReg p LWD_REMOTE_WRITE_DROP)).toNat 1) ∧
    Frame [.regs, .msix, .out] s t ∧ RegsBut (fun k => k == linkReg p LWD_REMOTE_WRITE_DROP) s t) ∧
  (∀ s p tl f, s.Signals → (s.hl.stop ||| s.hl.trip).getLsbD (24 + p.val / 3) = false → s.isTensor p = true → (s.port p).gone = true → f.isWrite = false →
    ∃ t, exec (.linkFrameSend p tl f) s = .next t ∧ .slagReply 4 f.bytes ∈ t.out ∧
      t.reg HRT_REMOTE_GONE = BitVec.ofNat 32 (satAdd 32 (s.reg HRT_REMOTE_GONE).toNat 1) ∧ Frame [.regs, .msix, .out] s t ∧
      RegsBut (fun k => k == linkReg p LWD_REMOTE_GONE || k == HRT_REMOTE_GONE) s t) ∧
  (∀ s p tl f, (s.hl.stop ||| s.hl.trip).getLsbD (24 + p.val / 3) = true → exec (.linkFrameSend p tl f) s = .next (settle s))

/-- A port whose die lives and that is down comes up when it trains, in service with its message counts at zero and the far
end unknown; without a far end the retrain timer changes nothing. An identity block is kept and shown. A loss that no notice
announced leaves a tensor port down, its far end gone, and raises vector 7. A new notice raises vector 7; of scope 3 to 6 it
marks the far end gone and the loss expected, of scope 1 or 2 it renews the far generations; a repeated notice only counts. A
lane below its trained floor drops a tensor port. A check adds the retries; with every lane at its floor and every rate within
its limit nothing is alarmed. -/
def Obligations.LinkState : Prop :=
  (∀ s p floors, s.portLives p = true → (s.port p).up = false → s.bu.linkWaits.contains p = false →
    (∃ t, exec (.linkTrained p floors) s = .next t ∧ (t.port p).up = true ∧ (t.port p).far = none ∧ (t.port p).floors = floors ∧
      t.reg (linkReg p LWD_MSG_TX) = 0 ∧ t.reg (linkReg p LWD_MSG_RX) = 0) ∧
    (∃ t, exec (.linkRetrainTimer p true true floors) s = .next t ∧ (t.port p).up = true ∧ (t.port p).far = none ∧ (t.port p).floors = floors ∧
      t.reg (linkReg p LWD_MSG_TX) = 0 ∧ t.reg (linkReg p LWD_MSG_RX) = 0)) ∧
  (∀ s p ok floors, exec (.linkRetrainTimer p ok false floors) s = .next (settle s)) ∧
  (∀ s p i, (s.port p).up = true → s.isTensor p = true → ∃ t, exec (.identityBlockReceive p i) s = .next t ∧ (t.port p).far = some i ∧
    (t.port p).gens = i.gens ∧ t.reg (linkReg p LWD_FAR_ID) = word4 i.chipGen.toNat i.flags.toNat i.grade.toNat i.port.toNat ∧ t.hl = s.hl ∧ t.ctxs = s.ctxs) ∧
  (∀ s p, (s.port p).up = true → s.isTensor p = true → (s.port p).lossExpected = false → ∃ t, exec (.linkLossOfSignal p) s = .next t ∧
    (t.port p).up = false ∧ (t.port p).gone = true ∧ t.causes.getLsbD 7 = true) ∧
  (∀ s p n, (s.port p).up = true → s.isTensor p = true → (s.port p).lastNotice.any (sameNotice n) = false → 3 ≤ n.scope.val →
    ∃ t, exec (.fenceNoticeReceive p n) s = .next t ∧ (t.port p).gone = true ∧ (t.port p).lossExpected = true ∧ (t.port p).lastNotice = some n ∧
      t.causes.getLsbD 7 = true ∧ Frame [.regs, .msix, .recd, .subs, .i3c, .obs, .out, .ports, .ctxs, .pw] s t) ∧
  (∀ s p n, (s.port p).up = true → s.isTensor p = true → (s.port p).lastNotice.any (sameNotice n) = false → (n.scope.val = 1 ∨ n.scope.val = 2) →
    ∃ t, exec (.fenceNoticeReceive p n) s = .next t ∧ (t.port p).gone = (s.port p).gone ∧ (t.port p).gens = n.gens ∧ t.causes.getLsbD 7 = true ∧
      Frame [.regs, .msix, .recd, .subs, .i3c, .obs, .out, .ports, .ctxs, .pw] s t) ∧
  (∀ s p n, s.Signals → (s.port p).up = true → s.isTensor p = true → (s.port p).lastNotice.any (sameNotice n) = true →
    ∃ t, exec (.fenceNoticeReceive p n) s = .next t ∧
      t.reg (linkReg p LWD_NOTICE_DUP) = BitVec.ofNat 32 (satAdd 32 (s.reg (linkReg p LWD_NOTICE_DUP)).toNat 1) ∧
      Frame [.regs, .msix, .out] s t ∧ RegsBut (fun k => k == linkReg p LWD_NOTICE_DUP) s t) ∧
  (∀ s p lanes, (s.port p).up = true → s.isTensor p = true → (lanes.zipIdx.any fun l => decide (l.1.1 < (s.port p).floors.getD l.2 0)) = true →
    ∃ t, exec (.laneMarginCheck p lanes) s = .next t ∧ (t.port p).up = false) ∧
  (∀ s p lanes, s.Signals → (s.port p).up = true → (lanes.zipIdx.any fun l => decide (l.1.1 < (s.port p).floors.getD l.2 0)) = false →
    ∃ t, exec (.laneMarginCheck p lanes) s = .next t ∧ Frame [.regs, .msix, .out] s t) ∧
  (∀ s p fec retry, s.Signals → (s.port p).up = true → ∃ t, exec (.linkAlarmCheck p fec retry) s = .next t ∧
    t.reg (linkReg p LWD_RETRY) = BitVec.ofNat 32 (satAdd 32 (s.reg (linkReg p LWD_RETRY)).toNat retry) ∧ Frame [.regs, .msix, .recd, .subs, .i3c, .obs, .out, .ports, .free] s t ∧
    (fec ≤ 1000 → retry ≤ 10 → Frame [.regs, .msix, .out, .free] s t))

/-- Standby power starts stage 0: with good memories and both devices answering the recorder counts one more power cycle and
stage 1 is next; a device that does not answer fails the pass. Its loss keeps only what NOR, MRAM and fuses hold. Stage 1
takes the slot that authenticates, or fails with 0x0705 (whether a signature verifies is an uninterpreted function, so no
concrete state shows a good slot). Stage 2 boots the core and asserts READY_FOR_MAIN unless a setting is rejected. The good
main input powers the islands, asserts KILL on every compute domain and starts the census; if it is late that is recorded
once. -/
def Obligations.StandbyAndBoot : Prop :=
  (∀ s (i : Stage0In), s.pw.standby = false → i.coreMem = none → i.recorderMem = none → i.mramAnswers = true → i.headersGood = true → i.norAnswers = true →
    ∃ t, exec (.standbyPowerGood i) s = .next t ∧ t.pw.standby = true ∧ t.pw.sgmii = i.sgmii ∧ t.bu.stage = 1 ∧
      t.recd.cycles = min (s.recd.hdr.cycles + 1) 0xFFFFFF ∧ t.fused = s.fused ∧ t.nor = s.nor) ∧
  (∀ s (i : Stage0In), s.pw.standby = false → i.coreMem = none → i.recorderMem = none → i.norAnswers = false → ∃ t, exec (.standbyPowerGood i) s = .next t ∧ t.bu.failed = true ∧ t.bu.failCode = 0x0703) ∧
  (∀ s, ∃ t, exec .standbyPowerLoss s = .next t ∧ t.pw.standby = false ∧ t.fused = s.fused ∧ t.nor = s.nor ∧ t.recd.store = s.recd.store ∧
    t.recd.sealedReg = s.recd.sealedReg ∧ t.recd.hdr = s.recd.hdr ∧ t.plan.recorded = s.plan.recorded ∧
    Frame [.fused, .pw, .recd, .msix, .plan, .nor, .free, .out, .pending] State.reset t) ∧
  (∀ s, s.stageOpen 1 = true → s.bu.chipPass = false → ∃ t, exec .stage1Authentication s = .next t ∧
    (s.selectSlot.2 = none → t.bu.failed = true ∧ t.bu.failCode = 0x0705 ∧ t.bu.stage = 1) ∧
    (∀ n, s.selectSlot.2 = some n → t.bu.failed = false ∧ t.bu.stage = 2 ∧ t.bu.slot = some n ∧ t.bu.secver = s.norNat n 0xE 1 ∧
      t.bu.version = BitVec.ofNat 32 (s.norNat n 8 4))) ∧
  (∀ s u, u = s.modSq (fun q => if q.run = .off then { q with run := .running, lastBeat := s.time.tb } else q) → u.stageOpen 2 = true →
    s.bu.chipPass = false → s.pw.readyForMain = false → ∃ t, exec .stage2HearthBoot s = .next t ∧ t.sq.run = .running ∧ t.bu.stage = 2 ∧
      ((u.trialStep.settingDefaults.applySettings u.entries).2 = none → t.pw.readyForMain = true ∧ t.bu.failed = false) ∧
      (∀ n, (u.trialStep.settingDefaults.applySettings u.entries).2 = some n →
        t.pw.readyForMain = false ∧ t.bu.failed = true ∧ t.bu.failCode = 0x0706)) ∧
  (∀ s (l : List AgentIx), s.recd.pfLock = false → s.stageOpen 2 = true → s.pw.readyForMain = true → s.pw.mainGood = false → ∃ t,
    exec (.mainInputGood l) s = .next t ∧ t.pw.mainGood = true ∧ t.pw.islands = s.islandsUp.pw.islands ∧ t.hl.kill &&& computeDomains = computeDomains ∧
      (t.agent (routerAgent s.anchor)).probing = true ∧ (∀ a ∈ l, (t.agent a).failed = true) ∧ t.bu = s.bu) ∧
  (∀ s, s.Signals → s.stageOpen 2 = true → s.pw.readyForMain = true → s.pw.mainGood = false → s.bu.mainTimedOut = false → ∃ t,
    exec .mainPowerTimeout s = .next t ∧ t.bu = { s.bu with mainTimedOut := true } ∧ Frame [.regs, .msix, .recd, .subs, .i3c, .obs, .out, .bu] s t)

/-- An agent that does not answer its probe is excluded, and a tile's counts as DEFECT; a reply is kept with its stepping and
levels, and a router's mask is shown. Stage 3 powers the anchor main domain first under KILL, or fails without REFCLK. A good
domain is good, locked and on the grid, the first domain of the next die is started after it, and a memory domain is followed
by the two regions of its compute die; a bad domain loses its die, an I/O die only as far as degraded service allows. The
ALIGN with no late domain ends stage 3, sets the origin of the trace clock and lifts KILL from the armed domains. -/
def Obligations.CensusAndPower : Prop :=
  (∀ s a, s.censusOpen = true → s.agentExists a = true → (s.agent a).probing = true → ∃ t, exec (.censusAgentTimeout a) s = .next t ∧
    (t.agent a).probing = false ∧ (t.agent a).present = false ∧ (t.agent a).excluded = true ∧
    ((s.unitOf a).1 = 1 → (t.fpOf (tileIx (s.unitOf a).2)).st = .defect ∧ (t.fpOf (tileIx (s.unitOf a).2)).reason = 3)) ∧
  (∀ s a st mn mx bad, s.censusOpen = true → s.agentExists a = true → (s.agent a).probing = true →
    ∃ t, exec (.censusReply a (.agent st mn mx bad)) s = .next t ∧ (t.agent a).probing = false ∧ (t.agent a).stepping = st ∧
      (t.agent a).minLevel = mn ∧ (t.agent a).maxLevel = mx ∧ (t.agent a).failed = ((s.agent a).failed || bad) ∧
      (bad = true → (t.agent a).excluded = true)) ∧
  (∀ s a m ps, s.censusOpen = true → s.agentExists a = true → (s.agent a).probing = true → a.agent = 31 →
    ∃ t, exec (.censusReply a (.router m ps)) s = .next t ∧ (t.agent a).probing = false ∧ t.reg (dieReg a.die BLW_AGENTS) = m) ∧
  (∀ s, s.stageOpen 3 = true → s.pw.domOn = 0 → s.time.refclk = true → ∃ t, exec .stage3DomainPower s = .next t ∧ t.bu.stage = 3 ∧ t.hl.kill &&& computeDomains = computeDomains ∧
      t.pw.domOn = domMask [40] ∧ t.bu.linkWaits = [] ∧ t.bu.retries = [] ∧ t.bu.cast = none) ∧
  (∀ s, s.stageOpen 3 = true → s.pw.domOn = 0 → s.time.refclk = false → ∃ t, exec .stage3DomainPower s = .next t ∧ t.bu.failed = true ∧
    t.bu.failCode = 0x070C) ∧
  (∀ s d, s.stageOpen 3 = true → s.pw.domOn.getLsbD d.val = true → s.pw.gridOk.getLsbD d.val = false → s.esc.reset = none →
    ∃ t, exec (.domainPowerGood d .ok) s = .next t ∧ t.pw.gridOk.getLsbD d.val = true ∧ t.pw.domGood.getLsbD d.val = true ∧
      t.pw.locked.getLsbD d.val = true ∧ t.pw.domOn = s.pw.domOn ||| s.nextDomains d true ∧ (16 ≤ d.val → d.val < 24 → t.pw.domOn.getLsbD (2 * (d.val - 16)) = true ∧ t.pw.domOn.getLsbD (2 * (d.val - 16) + 1) = true) ∧
      t.bu = s.bu) ∧
  (∀ s d r, s.stageOpen 3 = true → s.pw.domOn.getLsbD d.val = true → s.pw.gridOk.getLsbD d.val = false → s.esc.reset = none → r ≠ .ok →
    s.isExcluded 4 (s.dieOfDomain d).val = false → ∃ t, exec (.domainPowerGood d r) s = .next t ∧ t.pw.domOn.getLsbD d.val = false ∧
      (8 ≤ (s.dieOfDomain d).val → s.dieOfDomain d ≠ s.anchor → s.canExclude 4 = true → t.isExcluded 4 (s.dieOfDomain d).val = true ∧ t.bu.failed = false) ∧
      ((s.dieOfDomain d).val < 8 ∨ s.dieOfDomain d = s.anchor ∨ s.canExclude 4 = false → t.bu.failed = true)) ∧
  (∀ s late a, s.time.refclk = true → s.time.alignAt = some a → s.stageOpen 3 = true → (late.filter fun d => s.hl.armed.getLsbD d.val) = [] →
    ∃ t, exec (.alignGridPoint late) s = .next t ∧ t.bu.stage = 4 ∧ t.time.origin = some a ∧ t.time.alignAt = none ∧ t.hl.kill &&& s.hl.armed = 0)

/-- Stage 4 ends only with no test to repeat and with enough good tiles; a pass that fails stays at stage 4. A repeated test
that passes is no longer due, and a fourth invalid result fails the pass. Stage 5 ends only with no port waiting for its far
end; the wait that expires leaves the port without a peer and is no failure. The training record is written with what was
trained in full, or the failed write is counted and recorded. -/
def Obligations.TestsAndTraining : Prop :=
  (∀ s i, s.stageOpen 4 = true → s.bu.retries = [] → s.fetchOk 5 = false → ∃ t, exec (.stage4Bist i) s = .next t ∧ t.bu.failed = true ∧
    t.bu.failCode = 0x0713) ∧
  (∀ s hs ps, s.stageOpen 5 = true → s.bu.linkWaits = [] → s.fetchOk 6 = false → ∃ t, exec (.stage5Training hs ps) s = .next t ∧ t.bu.failed = true ∧
    t.bu.failCode = 0x0713) ∧
  (∀ s i, s.stageOpen 4 = true → s.bu.retries = [] → s.fetchOk 5 = true → ∃ t, exec (.stage4Bist i) s = .next t ∧
    (t.bu.failed = true ∨ t.bu.retries ≠ [] → t.bu.stage = 4) ∧
    (t.bu.failed = false → t.bu.retries = [] → t.bu.stage = 5 ∧ s.logicals + 4 ≤ t.bu.good.length)) ∧
  (∀ s (tl : TileIx) r, s.stageOpen 4 = true → s.bu.good.contains tl = true → (s.retryOf .tile tl.val).isSome = true → s.judgeBist tl r = .pass →
    ∃ t, exec (.bistInvalidRetry (.tile tl r)) s = .next t ∧ (t.retryOf .tile tl.val).isSome = false ∧ t.bu.good = s.bu.good) ∧
  (∀ s (tl : TileIx) r x, s.stageOpen 4 = true → s.bu.good.contains tl = true → s.retryOf .tile tl.val = some x → x.tries = 3 → s.judgeBist tl r = .invalid →
    ∃ t, exec (.bistInvalidRetry (.tile tl r)) s = .next t ∧ t.bu.failed = true ∧ t.bu.failCode = 0x0604) ∧
  (∀ s hs ps, s.stageOpen 5 = true → s.bu.linkWaits = [] → s.fetchOk 6 = true → ∃ t, exec (.stage5Training hs ps) s = .next t ∧
    (t.bu.failed = true ∨ t.bu.linkWaits ≠ [] → t.bu.stage = 5) ∧ (t.bu.failed = false → t.bu.linkWaits = [] → t.bu.stage = 6)) ∧
  (∀ s p, s.stageOpen 5 = true → s.bu.linkWaits.contains p = true → ∃ t, exec (.linkWaitExpiry p) s = .next t ∧ (t.port p).noPeer = true ∧
    t.bu.linkWaits = s.bu.linkWaits.erase p ∧ t.bu.failed = false ∧ t.bu.stage = (if s.bu.linkWaits.erase p = [] then 6 else 5)) ∧
  (∀ s, s.Signals → s.bu.trainPending = true → s.recd.pfLock = false → s.bu.trainRetries ≤ 8 →
    (∃ t, exec (.trainingRecordDone true) s = .next t ∧ t.nor = { s.nor with train := s.nor.train.put s.trainRecord } ∧
      t.bu = { s.bu with trainPending := false, fullUnits := [] } ∧ Frame [.msix, .out, .nor, .bu] s t) ∧
    (∃ t, exec (.trainingRecordDone false) s = .next t ∧ t.bu = { s.bu with trainRetries := s.bu.trainRetries + 1 } ∧ Frame [.regs, .msix, .recd, .subs, .i3c, .obs, .out, .bu] s t))

/-- Stage 6 starts a broadcast of the next generation to every good tile, or fails on a digest mismatch; outside STOP a good
chunk of that generation is stored, sets its bit and adds its digest, a bad one is counted; the repair ends the broadcast once
every tile has the image or after its third round, else begins another round. Stage 7 ends unless a required table is missing,
and the expiry of that wait ends it as not verified. Stage 8 goes on to stage 9. Stage 9 with enough tiles makes the package
READY, or READY_LOCAL when something is excluded or the topology is not verified. -/
def Obligations.PayloadAndReady : Prop :=
  (∀ s k v, s.stageOpen 6 = true → s.bu.cast = none → s.fetchOk 3 = true → s.fetchOk 4 = true → ∃ t, exec (.stage6Payload (.fetch k v)) s = .next t ∧ t.bu.fwGen = s.bu.fwGen + 1 ∧ t.bu.kernels = k ∧ t.bu.fwCopy = s.payload 3 ∧ t.bu.stage = 6 ∧
      t.bu.cast = some { pending := s.bu.good, reset := none } ∧ t.bu.failed = false) ∧
  (∀ s k v, s.stageOpen 6 = true → s.bu.cast = none → s.fetchOk 3 = false ∨ s.fetchOk 4 = false → ∃ t, exec (.stage6Payload (.fetch k v)) s = .next t ∧ t.bu.failed = true ∧
    t.bu.failCode = 0x0713) ∧
  (∀ s c, s.stageOpen 6 = true → s.bu.cast = some c → c.reset = none → s.castPaused c = false → ∃ t, exec (.stage6Payload .repair) s = .next t ∧
    ((c.pending.filter fun tl => !s.imageOk tl) = [] ∨ c.round = 3 → t.bu.cast = none ∧ t.bu.stage = 7) ∧
    ((c.pending.filter fun tl => !s.imageOk tl) ≠ [] → c.round ≠ 3 → t.bu.stage = 6 ∧
      t.bu.cast.map (fun x => (x.pending, x.round)) = some (c.pending.filter fun tl => !s.imageOk tl, c.round + 1))) ∧
  (∀ s (tl : TileIx) (c : FwChunk), s.Signals → s.unitStopped (tileAgent tl) = false → c.gen = (s.tile tl).fwGen → c.index < 512 →
    s.fld (tileReg tl TWD_FW_STATUS) 31 30 ≠ 0 → crc32 c.data = c.crc → c.length = 4096 → c.data.length = 4096 → s.holdsChunk tl c.index = false → ∃ t,
      exec (.fwChunkReceive tl c) s = .next t ∧ t.holdsChunk tl c.index = true ∧ tget? (t.tile tl).fw c.index = some c.data ∧
      (t.tile tl).fwOfd = ofdAdd (s.tile tl).fwOfd
        (s.digestOf 0 (c.index * 1024) (units32 0 c.data)) ∧
      Frame [.regs, .msix, .out, .tiles] s t) ∧
  (∀ s (tl : TileIx) (c : FwChunk), s.Signals → s.unitStopped (tileAgent tl) = false → c.gen = (s.tile tl).fwGen →
    s.fld (tileReg tl TWD_FW_STATUS) 31 30 ≠ 0 → (512 ≤ c.index ∨ crc32 c.data ≠ c.crc ∨ c.length ≠ 4096 ∨ c.data.length ≠ 4096) → ∃ t, exec (.fwChunkReceive tl c) s = .next t ∧
      t.reg (tileReg tl TWD_FW_CRC_REJECT) = BitVec.ofNat 32 (satAdd 32 (s.reg (tileReg tl TWD_FW_CRC_REJECT)).toNat 1) ∧
      Frame [.regs, .msix, .out] s t ∧ RegsBut (fun k => k == tileReg tl TWD_FW_CRC_REJECT) s t) ∧
  (∀ s, s.stageOpen 7 = true → ∃ t, exec .stage7Topology s = .next t ∧ t.bu.failed = false ∧
    (s.compareWiring.1.wiringGoverns = false → t.bu.topo = 3 ∧ t.bu.topoOk = true ∧ t.bu.stage = 8) ∧
    (s.compareWiring.1.wiringGoverns = true → s.cmp.table = none → t.bu.stage = 7) ∧
    (s.compareWiring.1.wiringGoverns = true → s.cmp.table ≠ none → s.compareWiring.1.wiringAgrees = true → t.bu.topo = 1 ∧ t.bu.topoOk = true ∧ t.bu.stage = 8) ∧
    (s.compareWiring.1.wiringGoverns = true → s.cmp.table ≠ none → s.compareWiring.1.wiringAgrees = false → t.bu.topo = 2 ∧ t.bu.topoOk = false ∧ t.bu.stage = 8)) ∧
  (∀ s, s.Signals → s.stageOpen 7 = true → s.bu.wiringWait = true → ∃ t, exec .wiringWaitExpiry s = .next t ∧ t.bu.topo = 0 ∧
    t.bu.topoOk = false ∧ t.bu.stage = 8 ∧ Frame [.regs, .msix, .recd, .subs, .i3c, .obs, .out, .bu] s t) ∧
  (∀ s l, s.stageOpen 8 = true → ∃ t, exec (.stage8Anvil l) s = .next t ∧ t.bu.stage = 9 ∧ t.bu.failed = false) ∧
  (∀ s, s.stageOpen 9 = true → s.logicals + 4 ≤ s.bu.good.length → ∃ t, exec .stage9Ready s = .next t ∧ t.bu.complete = true ∧ t.bu.failed = false ∧ t.esc.reset = none ∧
      t.bu.pkg = (if s.bu.excluded = [] ∧ s.bu.topoOk = true then .ready else .readyLocal)) ∧
  (∀ s, s.stageOpen 9 = true → s.bu.good.length < s.logicals + 4 → ∃ t, exec .stage9Ready s = .next t ∧ t.bu.failed = true ∧
    t.bu.failCode = 0x0717 ∧ t.bu.pkg = .safe)

/-- A request that reaches an agent is acted on once and answered, and its answer is kept for a repeat: a register read
returns the register, a write sets its defined bits, a block read of one to six registers returns as many words, a probe
returns what the agent is, a LEVEL_SET sets the level and the timeout. A unit that takes the command waiting for it is
answered OK; one that does not is answered with status 6 and counted. -/
def Obligations.BellowsRequests : Prop :=
  (∀ s e off path r k n base p, s.Signals → s.Reaches e 3 (s.levelAt e.dst) 0x01 [off % 4096 + path.val * 2 ^ 12] → s.agentRow e.dst off = some (r, k, n, base) → pathOf path = some p →
    ∃ t, exec (.regRead e off path) s = .next t ∧ Responded s t e.dst 0 [(s.readRow p r k n base (base + off)).2] ∧
      (r.code ≠ .rc → t.regs = s.regs) ∧ tget? (t.agent e.dst).last 3 = some ⟨e.seq.val, 0, [(s.readRow p r k n base (base + off)).2]⟩ ∧
      Frame [.regs, .paths, .free, .agents, .msix, .out] s t) ∧
  (∀ s e off path v r n base p, s.Signals → s.Reaches e 3 (s.levelAt e.dst) 0x02 ((off % 4096 + path.val * 2 ^ 12) :: flits 2 v.toNat) →
    s.agentRow e.dst off = some (r, .tile, n, base) → pathOf path = some p →
    r.code = .rw → r.perPath = false → off ≠ TWD_JNL_SEL → s.outOfRange .tile off (s.itemOf p r base) (v &&& r.mask) = false →
    ∃ t, exec (.regWrite e off path v) s = .next t ∧ Responded s t e.dst 0 [] ∧
      t.reg (itemKey (base + off) (s.itemOf p r base)) = (s.reg (itemKey (base + off) (s.itemOf p r base)) &&& ~~~ (r.mask &&& ~~~ r.fixed)) |||
        (v &&& r.mask &&& (r.mask &&& ~~~ r.fixed)) ∧
      Frame [.regs, .agents, .msix, .out] s t ∧ RegsBut (fun k => k == itemKey (base + off) (s.itemOf p r base)) s t) ∧
  (∀ s e off count, s.Signals → s.Reaches e 3 2 0x03 [off % 4096, count] → (s.agent e.dst).level = 2 → 1 ≤ count → count ≤ 6 →
    (∀ i, i < count → (s.agentRow e.dst (off + 4 * i)).isSome = true) → ∃ t, exec (.blockRead e off count) s = .next t ∧
      (∃ ws, ws.length = count ∧ Responded s t e.dst 0 ws) ∧ Frame [.regs, .paths, .free, .agents, .msix, .out] s t) ∧
  (∀ s e st mn mx bad, s.Signals → s.Reaches e 1 1 0x40 [] → ∃ t, exec (.censusProbe e (.agent st mn mx bad)) s = .next t ∧ (t.agent e.dst).stepping = st ∧
    (t.agent e.dst).minLevel = mn ∧ (t.agent e.dst).maxLevel = mx ∧ (t.agent e.dst).failed = bad ∧
    Responded s t e.dst 0 (s.censusWords e.dst (.agent st mn mx bad)) ∧ Frame [.agents, .msix, .out] s t) ∧
  (∀ s e m ps, s.Signals → s.Reaches e 1 1 0x40 [] → e.dst.agent = 31 → ∃ t, exec (.censusProbe e (.router m ps)) s = .next t ∧
    t.reg (dieReg e.dst.die BLW_AGENTS) = m ∧ Responded s t e.dst 0 (s.censusWords e.dst (.router m ps)) ∧ Frame [.regs, .agents, .msix, .out] s t ∧
    RegsBut (fun k => k == dieReg e.dst.die BLW_AGENTS) s t) ∧
  (∀ s e level timeout, s.Signals → s.Reaches e 1 (s.levelAt e.dst) 0x42 [level.val + timeout % 128 * 2 ^ 4] → ∃ t, exec (.levelSet e level timeout) s = .next t ∧
    (t.agent e.dst).level = level.val ∧ (t.agent e.dst).timeout = timeout ∧ Responded s t e.dst 0 [] ∧ Frame [.agents, .msix, .out] s t) ∧
  (∀ s a q, s.Signals → (s.agent a).unitCmd = some q → ∃ t, exec (.unitTakesCommand a) s = .next t ∧ (t.agent a).unitCmd = none ∧ Responded s t a 0 [] ∧
    tget? (t.agent a).last 1 = some ⟨q, 0, []⟩ ∧ (t.agent a).unitQ = 0 ∧ Frame [.regs, .agents, .msix, .out] s t ∧
    RegsBut (fun k => k == s.pageBase a + TWD_PORT_WAIT) s t) ∧
  (∀ s a q, s.Signals → (s.agent a).unitCmd = some q → s.time.refclk = true → ∃ t, exec (.unitWaitExpiry a) s = .next t ∧ (t.agent a).unitCmd = none ∧
    Responded s t a 6 [] ∧ t.reg (s.pageBase a + TWD_NORESP) = BitVec.ofNat 32 (satAdd 32 (s.reg (s.pageBase a + TWD_NORESP)).toNat 1) ∧
    Frame [.regs, .agents, .msix, .out] s t ∧ RegsBut (fun k => k == s.pageBase a + TWD_NORESP) s t)

/-- The first report of an idle queue is sent with the next sequence number; a dropped one is counted. A whole new report
joins the report queue of the Hearth, a broken one is answered with status 1; the firmware takes the oldest, answers it once
and, when it is complete, acts on it (a path parity report is recorded and nothing else). A good answer ends the message;
without one it is sent again, at most four times, and the Hearth counts the repeat. A report that was given up is sent anew. -/
def Obligations.BellowsReports : Prop :=
  (∀ s a q r, s.Signals → s.agentExists a = true → s.islandOn a.die.val = true → (s.agent a).failed = false → (s.agent a).queue = q :: r →
    ((s.agent a).queue.all fun e => e.state == .unsent) = true → ∃ t, exec (.reportSend a) s = .next t ∧ .bellows a s.hearthAgent (s.reportBell a q) ∈ t.out ∧
      (t.agent a).queue = { q with state := .sent 0, seq := (s.agent a).nextSeq } :: r ∧ (t.agent a).nextSeq = ((s.agent a).nextSeq + 1) % 64 ∧
      Frame [.agents, .msix, .out] s t) ∧
  (∀ s a r, s.Signals → 16 ≤ (s.agent a).queue.length → ∃ t, exec (.reportDropped a r) s = .next t ∧ t.reg (s.pageBase a + TWD_REPORT_DROP) = BitVec.ofNat 32 (satAdd 32 (s.reg (s.pageBase a + TWD_REPORT_DROP)).toNat 1) ∧
    Frame [.regs, .agents, .msix, .out] s t ∧ RegsBut (fun k => k == s.pageBase a + TWD_REPORT_DROP) s t) ∧
  (∀ s a r w, s.Signals → s.agentExists a = true → a ≠ s.hearthAgent → tget? s.bus.taken (agentKey a) ≠ some (s.seqOf a r).2 →
    (s.bus.queue.any fun h => h.src == a && h.seq == (s.seqOf a r).2) = false →
    wireIntact w s.hearthAgent a 0 (s.seqOf a r).2 0x10 (repFlits s r 1 0) = true → w.level.val = s.bus.level → wireBadOp w = false →
    ∃ t, exec (.report a r w) s = .next t ∧ t.bus = { s.bus with queue := s.bus.queue ++ [⟨a, r, (s.seqOf a r).2, 0, 1, 0⟩] } ∧
      Frame [.regs, .agents, .bus, .msix, .out] s t) ∧
  (∀ s a r w, s.Signals → s.agentExists a = true → a ≠ s.hearthAgent → s.sq.run = .running →
    wireIntact w s.hearthAgent a 0 (s.seqOf a r).2 0x10 (repFlits s r 1 0) = false → ∃ t, exec (.report a r w) s = .next t ∧
    .bellows s.hearthAgent a (.answer 1 []) ∈ t.out ∧ Frame [.regs, .agents, .msix, .out] s t) ∧
  (∀ s a r part w, s.Signals → s.agentExists a = true → a ≠ s.hearthAgent → s.bus.level = 2 → tget? s.bus.taken (agentKey a) ≠ some (s.seqOf a r).2 →
    (s.bus.queue.any fun h => h.src == a && h.seq == (s.seqOf a r).2) = false →
    wireIntact w s.hearthAgent a 0 (s.seqOf a r).2 0x11 (repFlits s r 2 part) = true → w.level.val = 2 → wireBadOp w = false →
    ∃ t, exec (.reportData a r part w) s = .next t ∧
      t.bus = { s.bus with queue := s.bus.queue ++ [⟨a, r, (s.seqOf a r).2, part, repParts r, repTag r⟩] } ∧ Frame [.regs, .agents, .bus, .msix, .out] s t) ∧
  (∀ s h rest stack addr, s.Signals → s.sq.run = .running → s.bus.queue = h :: rest → h.count ≤ 1 → h.rep = .pathParity stack addr →
    ∃ t, exec .reportTaken s = .next t ∧ t.bus.queue = rest ∧ tget? t.bus.taken (agentKey h.src) = some h.seq ∧
      .bellows s.hearthAgent h.src (.answer 0 []) ∈ t.out ∧ Frame [.regs, .msix, .recd, .subs, .i3c, .obs, .out, .bus] s t) ∧
  (∀ s h rest, s.Signals → s.sq.run = .running → s.bus.queue = h :: rest → 1 < h.count → s.bus.parts = [] → ∃ t, exec .reportTaken s = .next t ∧
    t.bus.queue = rest ∧ t.bus.parts = [(h.src, h.rep, h.tag, [h.part])] ∧ .bellows s.hearthAgent h.src (.answer 0 []) ∈ t.out ∧
    Frame [.bus, .msix, .out] s t) ∧
  (∀ s a cls m rest seq (st : Fin 16), s.Signals → tget s.bus.out (agentKey a * 4 + classNum cls) [] = m :: rest → m.seq = seq.val →
    bellClass m.bell = classNum cls → m.bell.forUnit = false → st = 0 → ∃ t, exec (.response .hearth a cls seq st) s = .next t ∧
      tget t.bus.out (agentKey a * 4 + classNum cls) [] = rest ∧ Frame [.bus, .agents, .msix, .out] s t) ∧
  (∀ s a w q seq (st : Fin 16), s.Signals → ((s.agent w).queue.find? fun q => q.state.sentNow && q.seq == seq.val) = some q → st = 0 →
    q.part + 1 = partsAt (s.sendLevel w) q.rep → ∃ t, exec (.response (.warden w) a .report seq st) s = .next t ∧
      Frame [.regs, .agents, .hbm, .ofd, .msix, .out] s t ∧
      ((s.unitOf w).1 ≠ 2 → (t.agent w).queue = (s.agent w).queue.erase q ∧ Frame [.agents, .msix, .out] s t)) ∧
  (∀ s a cls m rest, s.Signals → tget s.bus.out (agentKey a * 4 + classNum cls) [] = m :: rest → bellClass m.bell = classNum cls → m.tries < 4 →
    ∃ t, exec (.responseTimeout .hearth a cls) s = .next t ∧ tget t.bus.out (agentKey a * 4 + classNum cls) [] = { m with tries := m.tries + 1 } :: rest ∧
      .again s.hearthAgent a m.bell (decide (2 ≤ m.tries)) ∈ t.out ∧ t.reg (dieReg s.anchor BLW_HEARTH_RETRY) = BitVec.ofNat 32 (satAdd 32 (s.reg (dieReg s.anchor BLW_HEARTH_RETRY)).toNat 1) ∧
      Frame [.regs, .bus, .msix, .out] s t) ∧
  (∀ s a w q n, s.Signals → s.time.refclk = true → ((s.agent w).queue.find? fun q => q.state.sentNow) = some q → q.state = .sent n → n < 4 →
    ∃ t, exec (.responseTimeout (.warden w) a .report) s = .next t ∧ .again w s.hearthAgent (s.reportBell w q) (decide (2 ≤ n)) ∈ t.out ∧
      (t.agent w).queue = (s.agent w).queue.map (fun r => if r.state.sentNow then { r with state := .sent (n + 1) } else r) ∧
      Frame [.agents, .msix, .out] s t) ∧
  (∀ s a q, s.Signals → s.time.refclk = true → ((s.agent a).queue.find? fun q => q.state == .again) = some q → ∃ t,
    exec (.reportResendTimer a) s = .next t ∧ .bellows a s.hearthAgent (s.reportBell a q) ∈ t.out ∧
      (t.agent a).queue = (s.agent a).queue.map (fun r => if r = q then { r with state := .sent 0 } else r) ∧ Frame [.agents, .msix, .out] s t)

/-- A router delivers a whole message for an agent of its die, and forwards one for another die on the port of the primary
entry, counting it; of two requests for one output the grant of the first decides a tie, which is counted. A wired port whose
ALIVE falls or whose handshake times out becomes dead and is reported. Each second the Hearth takes the flit-error counts of
every port. A warden port that sees a reset resynchronises and counts what it discards; once open again the warden reports it. -/
def Obligations.BellowsRouters : Prop :=
  (∀ s d h, s.Signals → s.routerUp d = true → (h.port.map fun p => s.portDead d p.val).getD false = false → h.error = none → 2 ≤ h.bodyCount.val →
    h.destDie.val = d.val → s.agentExists ⟨d, h.destAgent⟩ = true → ∃ t, exec (.routerForward d h []) s = .next t ∧ .deliver ⟨d, h.destAgent⟩ false ∈ t.out ∧
      Frame [.msix, .out] s t) ∧
  (∀ s d h n p, s.Signals → s.routerUp d = true → (h.port.map fun p => s.portDead d p.val).getD false = false → h.error = none → 2 ≤ h.bodyCount.val →
    h.destDie.val < 25 → h.destDie.val ≠ d.val → h.alternate = none → s.primaryHop d.val h.destDie.val = some n → s.portTo d.val n = some p →
    s.portDead d p = false → ∃ t, exec (.routerForward d h []) s = .next t ∧ .forward d (Fin.ofNat 4 p) false false ∈ t.out ∧
      t.reg64 (portReg d BLW_PORT_MSGS_LO p) (portReg d BLW_PORT_MSGS_HI p) =
        (s.reg64 (portReg d BLW_PORT_MSGS_LO p) (portReg d BLW_PORT_MSGS_HI p) + 1) % 2 ^ 64 ∧ Frame [.regs, .msix, .out] s t) ∧
  (∀ s d h g p, s.Signals → s.routerUp d = true → s.outputOf d h = some p → s.outputOf d g = some p → p < 5 → ∃ t,
    exec (.routerForward d h [g]) s = .next t ∧ t.reg (portReg d BLW_PORT_TIES p) = BitVec.ofNat 32 (satAdd 32 (s.reg (portReg d BLW_PORT_TIES p)).toNat 1) ∧
      Frame [.regs, .msix, .out, .free] s t) ∧
  (∀ s d (p : RPort), s.Signals → s.routerUp d = true → (s.neighbours d.val)[p.val]? ≠ none → s.portDead d p.val = false →
    (s.agent (routerAgent d)).queue.length < 16 →
    (∃ t, exec (.aliveLow d p) s = .next t ∧ t.portDead d p.val = true ∧ (t.agent (routerAgent d)).queue =
      (s.agent (routerAgent d)).queue ++ [⟨.portDead d p false, 0, .unsent, 0⟩] ∧ Frame [.regs, .agents, .msix, .out] s t) ∧
    (s.time.refclk = true → ∃ t, exec (.handshakeTimeout d p) s = .next t ∧ t.portDead d p.val = true ∧ (t.agent (routerAgent d)).queue =
      (s.agent (routerAgent d)).queue ++ [⟨.portDead d p true, 0, .unsent, 0⟩] ∧ Frame [.regs, .agents, .msix, .out] s t)) ∧
  (∀ s, s.Signals → s.sq.run = .running → ∃ t, exec .portErrorSample s = .next t ∧ Frame [.regs, .msix, .recd, .subs, .i3c, .obs, .out, .bus] s t ∧
    (∀ d : DieIx, ∀ p, p < (s.neighbours d.val).length → s.dieExists d = true →
      tget t.bus.fliterr (d.val * 4 + p) 0 = (s.reg (portReg d BLW_PORT_FLITERR p)).toNat)) ∧
  (∀ s a unread, s.Signals → s.agentExists a = true → a ≠ s.hearthAgent → ∃ t, exec (.portResetSeen a unread) s = .next t ∧
    (t.agent a).resync = true ∧ (t.agent a).discard = (s.agent a).discard + unread ∧
    t.reg (s.pageBase a + TWD_PORT_DISCARD) = BitVec.ofNat 32 (satAdd 32 (s.reg (s.pageBase a + TWD_PORT_DISCARD)).toNat unread) ∧ Frame [.regs, .agents, .msix, .out] s t ∧
    RegsBut (fun k => k == s.pageBase a + TWD_PORT_DISCARD) s t) ∧
  (∀ s a, s.Signals → s.agentExists a = true → a ≠ s.hearthAgent → (s.agent a).resync = true → (s.agent a).queue.length < 16 → ∃ t,
    exec (.portOpen a) s = .next t ∧ (t.agent a).resync = false ∧ (t.agent a).discard = 0 ∧
      (t.agent a).queue = (s.agent a).queue ++ [⟨.portResync (s.unitOf a).1 (s.unitOf a).2 (s.agent a).discard, 0, .unsent, 0⟩] ∧
      Frame [.regs, .agents, .msix, .out] s t)

/-- A read that the block serves returns the register's value for its path. The low word of a counter latches the high word of
the same instant for the path, and the read of the high word returns that latch; an RC register is returned and then holds
zero. Nothing else moves. -/
def Obligations.RegisterReads : Prop :=
  (∀ s a r k n page hi, s.Signals → s.Opens a r k n page → r.code = .ro → r.half = .low → rowAt (a.off + 4) = some hi →
    ∃ t, exec (.counterLowRead a) s = .next t ∧ .read a.path a.off (s.valueOf a.path r k n page a.off) ∈ t.out ∧
      t.own a.path (a.off + 5) = s.valueOf a.path hi.1 k n page (a.off + 4) ∧ Frame [.paths, .free, .msix, .out] s t) ∧
  (∀ s a r k n page, s.Signals → s.Opens a r k n page → r.code = .ro → r.half = .high → ∃ t, exec (.counterHighRead a) s = .next t ∧
    .read a.path a.off (s.own a.path (a.off + 1)) ∈ t.out ∧ Frame [.msix, .out] s t) ∧
  (∀ s a r k n page, s.Signals → s.Opens a r k n page → r.code = .rc → r.half = .none → ∃ t, exec (.rcRead a) s = .next t ∧
    .read a.path a.off (s.valueOf a.path r k n page a.off) ∈ t.out ∧ t.reg (itemKey a.off (s.itemOf a.path r page)) = 0 ∧
    Frame [.regs, .free, .msix, .out] s t ∧ RegsBut (fun k => k == itemKey a.off (s.itemOf a.path r page)) s t)

/-- A write that the block takes to a plain register of the Hearth page or of a tile page sets its writable bits and moves
nothing else. A write to a transactional register while the transaction of the writer's world is open and has room is staged
at the end of its bank, or in place of an earlier write to the same register, and the register stands. A served NOP is
answered OK, an opcode that is no command BAD_OPCODE, and a command with operator privilege and an operand outside its range
BAD_OPERAND; nothing else changes. -/
def Obligations.RegisterWrites : Prop :=
  (∀ s a v r k n page, s.Signals → s.Takes a v r k n page → r.code = .rw → r.txn = false → r.perPath = false →
    (k = .hearth ∧ [HRT_CMD_CTRL, HRT_NTC_CONS, REC_FREEZE, OBS_FULL_EN, HRT_SQ_HEARTBEAT].contains (a.off - page) = false ∨ k = .tile) →
    ∃ t, exec (.registerWrite a v) s = .next t ∧
      t.reg (itemKey a.off (s.itemOf a.path r page)) = written r (s.reg (itemKey a.off (s.itemOf a.path r page))) v ∧
      Frame [.regs, .free, .msix, .out] s t ∧ RegsBut (fun k => k == itemKey a.off (s.itemOf a.path r page)) s t) ∧
  (∀ s a v r k n page, s.Signals → s.Takes a v r k n page → r.txn = true → (s.txn (worldOf a.path)).isOpen = true →
    (s.txn (worldOf a.path)).commit = none → (s.txn (worldOf a.path)).items.length < 256 → ∃ t, exec (.transactionalRegisterWrite a v) s = .next t ∧
      (t.txn (worldOf a.path)).items = (if (s.txn (worldOf a.path)).items.any (sameReg (.reg a.off (s.itemOf a.path r page) v)) = true
        then (s.txn (worldOf a.path)).items.map (fun y => if sameReg (.reg a.off (s.itemOf a.path r page) v) y then .reg a.off (s.itemOf a.path r page) v else y)
        else (s.txn (worldOf a.path)).items ++ [.reg a.off (s.itemOf a.path r page) v]) ∧ Frame [.txns, .free, .msix, .out] s t) ∧
  (∀ s h, s.Signals → s.Serves h → h.operator = true → ∃ t, exec (.nop h) s = .next t ∧ Answered s t h 0x01 .ok [] ∧
    Frame [.regs, .msix, .cmp, .out] s t ∧ RegsBut commandReg s t) ∧
  (∀ s h o, s.Signals → s.Serves h → ∃ t, exec (.badOpcode h o) s = .next t ∧ Answered s t h o.toNat .badOpcode [] ∧
    Frame [.regs, .msix, .cmp, .out] s t ∧ RegsBut commandReg s t) ∧
  (∀ s i h c, s.Signals → hostOf i = some (h, c) → h.badOperand = true → s.Serves { h with badOperand := false } → h.operator = true →
    (∀ o, c ≠ .bad o) → ∃ t, exec i s = .next t ∧ Answered s t h (hostOpcode c) .badOperand [] ∧ Frame [.regs, .msix, .cmp, .out] s t ∧
      RegsBut commandReg s t)

/-- Setting enable of HRT_CMD_CTRL advances the epoch. HRT_NTC_CONS moves forward within what was written. HRT_IRQ_CAUSE
clears the causes written as one. HRT_TB_CAPTURE takes the seven words of one instant for the path; HRT_CONS_SEL and
TWD_JNL_SEL take a whole row or journal entry for it, a RUNNING one with what it has written so far. TWD_CHECK_INJECT arms an
injection. BLW_DEAD_CLEAR takes ports out of sink mode. BLW_RSP_TIMEOUT is set and sent to every agent that no message waits
for. Turning OBS_FULL_EN on clears the reason counters of the partition's tiles. A sensor read request takes a reading now. -/
def Obligations.ActingWrites : Prop :=
  (∀ s a v r, s.Signals → s.Takes (Acc.to a HRT_CMD_CTRL) v r .hearth 0 0 → ∃ t, exec (.hrtCmdCtrlWrite a v) s = .next t ∧
    (t.reg HRT_CMD_CTRL).getLsbD 0 = v.getLsbD 0 ∧ t.host.epoch = (if v.getLsbD 0 = true ∧ (s.reg HRT_CMD_CTRL).getLsbD 0 = false
      then (if s.host.epoch = 255 then 1 else s.host.epoch + 1) else s.host.epoch) ∧
    Frame [.regs, .host, .msix, .out] s t ∧ RegsBut (fun k => k == HRT_CMD_CTRL) s t) ∧
  (∀ s a v r, s.Signals → s.Takes (Acc.to a HRT_NTC_CONS) v r .hearth 0 0 → (v - s.reg HRT_NTC_CONS).toNat ≤ (s.reg HRT_NTC_PROD - s.reg HRT_NTC_CONS).toNat →
    s.host.heldNotices = [] → s.host.lostEpisode = 0 → ∃ t, exec (.hrtNtcConsWrite a v) s = .next t ∧ t.reg HRT_NTC_CONS = v ∧
      Frame [.regs, .host, .msix, .out] s t ∧ t.host = s.host ∧ RegsBut (fun k => k == HRT_NTC_CONS) s t) ∧
  (∀ s a v, s.Signals → s.pw.standby = true → a.aligned = true → v.toNat < 2 ^ 16 → ∃ t, exec (.hrtIrqCauseClear a v) s = .next t ∧
    t.reg HRT_IRQ_CAUSE = s.reg HRT_IRQ_CAUSE &&& ~~~ v ∧ Frame [.regs, .msix, .out] s t ∧ RegsBut (fun k => k == HRT_IRQ_CAUSE) s t) ∧
  (∀ s a v r, s.Signals → s.Takes (Acc.to a HRT_TB_CAPTURE) v r .hearth 0 0 → v = 1 → ∃ t, exec (.hrtTbCapture a v) s = .next t ∧
    t.own a.path HRT_TB_CAP_TB_LO = BitVec.ofNat 32 s.time.tb ∧ t.own a.path HRT_TB_CAP_TB_HI = BitVec.ofNat 32 (s.time.tb / 2 ^ 32) ∧
    t.own a.path HRT_TB_CAP_OPTIME_LO = BitVec.ofNat 32 s.opTime ∧ t.own a.path HRT_TB_CAP_GEN = BitVec.ofNat 32 s.esc.gen.toNat ∧
    Frame [.paths, .msix, .out] s t) ∧
  (∀ s a v r x, s.Signals → s.Takes (Acc.to a HRT_CONS_SEL) v r .hearth 0 0 → s.ofd.cons[v.toNat]? = some x → ∃ t, exec (.hrtConsSelWrite a v) s = .next t ∧
    t.own a.path HRT_CONS_STEP = x.step ∧ t.own a.path HRT_CONS_D = BitVec.ofNat 32 x.d ∧ t.own a.path HRT_CONS_X = BitVec.ofNat 32 x.x ∧
    t.own a.path HRT_CONS_V = BitVec.ofNat 32 x.v ∧ t.own a.path HRT_CONS_T = BitVec.ofNat 32 x.t ∧ Frame [.paths, .msix, .out] s t) ∧
  (∀ s a v r (tl : TileIx) e, s.Signals → tileIx (pageNo 0x100000 a.off) = tl → s.Takes (Acc.to a (tileReg tl TWD_JNL_SEL)) v r .tile tl.val (tileReg tl 0) →
    v.getLsbD 6 = true → tget? (s.tile tl).jnl (v.toNat % 64) = some e → ∃ t, exec (.twdJnlSelWrite a v) s = .next t ∧
      (∀ w, w < 32 → t.own a.path (tileReg tl TWD_JNL_WORD + 4 * w) = ((s.tile tl).partWritten s.free (v.toNat % 64) e).words.getD w 0) ∧
      (e.state ≠ .running → (s.tile tl).partWritten s.free (v.toNat % 64) e = e) ∧ Frame [.paths, .free, .msix, .out] s t) ∧
  (∀ s a v r (tl : TileIx), s.Signals → tileIx (pageNo 0x100000 a.off) = tl → s.Takes (Acc.to a (tileReg tl TWD_CHECK_INJECT)) v r .tile tl.val (tileReg tl 0) →
    ∃ t, exec (.twdCheckInjectWrite a v) s = .next t ∧ t.reg (tileReg tl TWD_CHECK_INJECT) = written r (s.reg (tileReg tl TWD_CHECK_INJECT)) v ∧
      Frame [.regs, .msix, .out] s t ∧ RegsBut (fun k => k == tileReg tl TWD_CHECK_INJECT) s t) ∧
  (∀ s a v r (d : DieIx), s.Signals → dieIx (pageNo 0x300000 a.off) = d → s.Takes (Acc.to a (dieReg d BLW_DEAD_CLEAR)) v r .die d.val (dieReg d 0) →
    ∃ t, exec (.blwDeadClear a v) s = .next t ∧ (∀ q, q < 4 → t.portDead d q = (s.portDead d q && !v.getLsbD q)) ∧ Frame [.regs, .msix, .out] s t ∧
      RegsBut (fun k => (List.range 4).any fun q => k == portReg d BLW_PORT q) s t) ∧
  (∀ s a v r, s.Signals → s.Takes (Acc.to a (dieReg s.anchor BLW_RSP_TIMEOUT)) v r .die s.anchor.val (dieReg s.anchor 0) →
    ∃ t, exec (.blwRspTimeoutWrite a v) s = .next t ∧ t.reg (dieReg s.anchor BLW_RSP_TIMEOUT) = written r (s.reg (dieReg s.anchor BLW_RSP_TIMEOUT)) v ∧
      (∀ x ∈ s.allAgents, (s.agent x).present = true → tget s.bus.out (agentKey x * 4 + 1) [] = [] →
        .bellows s.hearthAgent x (.levelSet s.bus.level (v.toNat % 128)) ∈ t.out)) ∧
  (∀ s a v r, s.Signals → s.Takes (Acc.to a OBS_FULL_EN) v r .hearth 0 0 → ∃ t, exec (.obsFullEnWrite a v) s = .next t ∧
    t.reg OBS_FULL_EN = written r (s.reg OBS_FULL_EN) v ∧ Frame [.regs, .msix, .out] s t ∧
    (∀ tl : TileIx, ∀ q, q < 8 → v.getLsbD (s.partOfTile tl).val = true → (s.reg OBS_FULL_EN).getLsbD (s.partOfTile tl).val = false →
      t.reg64 (tileReg tl TWD_FC_LO + 8 * q) (tileReg tl TWD_FC_HI + 8 * q) = 0)) ∧
  (∀ s a v r x temp m, s.Signals → s.sq.run = .running → s.Takes (Acc.to a HRT_SNS_REQ) v r .hearth 0 0 → v = 1 →
    sensorAt ((s.own a.path HRT_SNS_SEL).toNat / 4096) ((s.own a.path HRT_SNS_SEL).toNat % 4096) = some x → s.sensorExists x = true →
    s.thm.failed.contains (sensorNum x) = false → (s.putReading x temp).sensorBad x temp = false →
    (s.putReading x temp).unitTemp (unitOfSensor x) = some m → s.blind (unitOfSensor x) = false → s.levelOf (unitOfSensor x) = {} →
    m < s.advise (unitOfSensor x) → m < s.request (unitOfSensor x) → m < s.quenchAt (unitOfSensor x) →
    ∃ t, exec (.sensorReadRequest a v (some temp)) s = .next t ∧ tget? t.thm.temps (sensorNum x) = some temp ∧
      t.reg (s.sensorReg x) = BitVec.ofNat 32 (tempBits temp) ∧ Frame [.regs, .msix, .out, .thm] s t ∧ RegsBut (fun k => k == s.sensorReg x) s t)

/-- A background flush that is due, and a forced one, takes the dirty records. When it succeeds they are dirty no more, a
single one stands in the store ring at the write index, the header is written over its older copy and no loss is pending;
after the flush of a power-fail warning or of TRIP no further write to the MRAM begins. A flush that fails is counted and
repeated once; when the repeat fails the store is failed, until a retry succeeds. The header timer writes the header. -/
def Obligations.RecorderFlushes : Prop :=
  (∀ s, s.Signals → s.flushDue = true → s.recd.failed = false → s.recd.pfLock = false → s.recd.flush = none → ∃ t, exec .backgroundFlush s = .next t ∧
    t.recd = { s.recd with flush := some ⟨.background, s.recd.dirty, false⟩ } ∧ Frame [.recd, .msix, .out] s t) ∧
  (∀ s a v r, s.Signals → s.Takes (Acc.to a REC_FLUSH_REQ) v r .hearth 0 0 → v = 1 → s.recd.pfLock = false → s.recd.flush = none → ∃ t,
    exec (.recFlushReq a v) s = .next t ∧ t.recd = { s.recd with flush := some ⟨.forced, s.recd.dirty, false⟩ } ∧ Frame [.recd, .msix, .out] s t) ∧
  (∀ s f dur, s.Signals → s.recd.flush = some f → f.kind ≠ .powerFail → s.recd.failed = false → s.recd.throttled = false → s.recd.asked = none →
    s.recd.erasePending = none → s.recd.passOpen = true → s.esc.trayDue = false → s.bu.removal ≠ .flushing →
    ∃ t, exec (.flushComplete true dur) s = .next t ∧ t.recd.flush = none ∧
      t.recd.dirty = s.recd.dirty.filter (fun d => !f.recs.any fun r => r.1.seq == d.1.seq) ∧ t.recd.overrun = 0 ∧
      t.recd.hdrs = s.recd.hdrs.put t.recd.hdr ∧ t.recd.lastFlush = s.time.tb ∧ (f.kind = .forced → t.reg REC_FLUSH_TIME = BitVec.ofNat 32 dur) ∧
      (∀ r, f.recs = [(r, false)] → (s.recd.dirty.any fun d => d.1.seq == r.seq) = true → tget? t.recd.store s.recd.hdr.writeIx = some r ∧
        t.recd.hdr.lastSeq = r.seq ∧ t.recd.hdr.writeIx = (s.recd.hdr.writeIx + 1) % storeSlots) ∧ Frame [.regs, .recd, .msix, .out] s t) ∧
  (∀ s f dur, s.Signals → s.recd.flush = some f → f.kind = .powerFail → s.recd.failed = false → s.recd.throttled = false → s.recd.asked = none →
    s.recd.passOpen = true → s.esc.trayDue = false → s.bu.removal ≠ .flushing → s.pw.pfWarn = true ∨ s.hl.tripLatch = true → ∃ t, exec (.flushComplete true dur) s = .next t ∧ t.recd.flush = none ∧ t.recd.pfLock = true ∧
      (s.pw.pfWarn = true → t.reg HRT_PF_FLUSH_TIME = BitVec.ofNat 32 ((s.time.tb - s.thm.pfSince) / 1000)) ∧ Frame [.regs, .recd, .plan, .msix, .out] s t) ∧
  (∀ s f dur, s.Signals → s.recd.flush = some f → f.again = false → s.recd.failed = false → ∃ t, exec (.flushComplete false dur) s = .next t ∧
    t.recd = { s.recd with flush := some { f with again := true } } ∧ t.reg REC_STORE_ERR = BitVec.ofNat 32 (satAdd 32 (s.reg (REC_STORE_ERR)).toNat 1) ∧
    Frame [.regs, .recd, .msix, .out] s t ∧ RegsBut (fun k => k == REC_STORE_ERR) s t) ∧
  (∀ s f dur, s.Signals → s.recd.flush = some f → f.again = true → s.recd.failed = false → s.recd.throttled = false → s.recd.asked = none →
    s.recd.erasePending = none → f.kind ≠ .powerFail → s.esc.trayDue = false → s.bu.removal ≠ .flushing → ∃ t, exec (.flushComplete false dur) s = .next t ∧ t.recd.failed = true ∧ Frame [.regs, .msix, .recd, .subs, .i3c, .obs, .out] s t) ∧
  (∀ s, s.Signals → s.recd.pfLock = false → s.recd.failed = false → s.pw.standby = true → ∃ t, exec .headerWriteTimer s = .next t ∧
    t.recd.hdrs = s.recd.hdrs.put t.recd.hdr ∧ t.recd.hdr.opTime = s.opTime ∧ t.recd.hdr.cycles = s.recd.cycles ∧
    Frame [.recd, .msix, .out] s t) ∧
  (∀ s, s.Signals → s.recd.failed = true → s.recd.pfLock = false → s.recd.flush = none → s.recd.asked = none → s.recd.erasePending = none →
    s.recd.throttled = false → s.recd.passOpen = true → s.esc.trayDue = false → s.bu.removal ≠ .flushing →
    (∃ t, exec (.storeRetry true) s = .next t ∧ t.recd.failed = false ∧ Frame [.regs, .msix, .recd, .subs, .i3c, .obs, .out] s t) ∧
    (∃ t, exec (.storeRetry false) s = .next t ∧ t.recd.failed = true ∧ t.recd.flush = none ∧ t.reg REC_STORE_ERR = BitVec.ofNat 32 (satAdd 32 (s.reg (REC_STORE_ERR)).toNat 1) ∧
      Frame [.regs, .recd, .msix, .out] s t))

/-- A freeze starts with the limit in force; writing zero, or the limit's expiry, ends it, silently when nothing was held or
dropped and no throttle is in force. A confirmed erase by the secure world sets the erase points of the areas it names to the
last sequence number and starts the overwrite; when that is done no erased record is left in an area and the overwrite is
over. -/
def Obligations.RecorderFreezeErase : Prop :=
  (∀ s a v r, s.Signals → s.Takes (Acc.to a REC_FREEZE) v r .hearth 0 0 → v = 1 → s.recd.freeze = none → ∃ t, exec (.recFreeze a v) s = .next t ∧
    t.recd = { s.recd with freeze := some ⟨s.time.tb, s.fld REC_FREEZE_LIMIT 13 0, 0, 0⟩ } ∧ t.reg REC_FREEZE = 1 ∧
    Frame [.regs, .recd, .msix, .out] s t ∧ RegsBut (fun k => k == REC_FREEZE) s t) ∧
  (∀ s a v r f, s.Signals → s.Takes (Acc.to a REC_FREEZE) v r .hearth 0 0 → v = 0 → s.recd.freeze = some f → s.recd.hold = [] → s.recd.throttled = false → f.dropped + f.fatal = 0 →
    ∃ t, exec (.recFreeze a v) s = .next t ∧ t.recd = { s.recd with freeze := none } ∧ t.reg REC_FREEZE = 0 ∧ Frame [.regs, .recd, .msix, .out] s t) ∧
  (∀ s f, s.Signals → s.recd.freeze = some f → s.recd.hold = [] → s.recd.throttled = false → f.dropped + f.fatal = 0 → ∃ t, exec .freezeLimitExpiry s = .next t ∧
    t.recd = { s.recd with freeze := none } ∧ t.reg REC_FREEZE = 0 ∧ Frame [.regs, .recd, .msix, .out] s t ∧ RegsBut (fun k => k == REC_FREEZE) s t) ∧
  (∀ s a v r, s.Signals → s.Takes (Acc.to a REC_ERASE) v r .hearth 0 0 → v.toNat / 2 ^ 16 = 0x5EA1 → v.toNat % 4 ≠ 0 → s.recd.pfLock = false →
    s.recd.flush = none → s.recd.erase = none → ∃ t, exec (.recErase a v) s = .next t ∧
      t.recd.hdr.eraseStore = (if v.getLsbD 0 = true then some s.recd.seq else s.recd.hdr.eraseStore) ∧
      t.recd.hdr.eraseSealed = (if v.getLsbD 1 = true then some s.recd.seq else s.recd.hdr.eraseSealed) ∧
      t.recd.erase = some (v.getLsbD 0, v.getLsbD 1) ∧ t.recd.store = s.recd.store ∧ Frame [.regs, .msix, .recd, .subs, .i3c, .obs, .out] s t) ∧
  (∀ s a b, s.Signals → s.recd.erase = some (a, b) → s.recd.pfLock = false → ∃ t, exec .eraseOverwriteDone s = .next t ∧ t.recd.erase = none ∧
    (a = true → (t.recd.store.all fun e => !erased s.recd.hdr.eraseStore e.2) = true) ∧
    (b = true → (t.recd.sealedReg.all fun e => !erased s.recd.hdr.eraseSealed e.2) = true) ∧
    (∀ e, e ∈ s.recd.store → erased s.recd.hdr.eraseStore e.2 = false → e ∈ t.recd.store) ∧
    (∀ e, e ∈ s.recd.sealedReg → erased s.recd.hdr.eraseSealed e.2 = false → e ∈ t.recd.sealedReg) ∧ Frame [.recd, .msix, .out] s t)

/-- A new HELLO that shares major version 2 sets the features in force and returns the nonce; one that does not is REFUSED.
SESSION_OPEN with the source's nonce, a trusted key and a good signature takes the first free slot, and is REFUSED otherwise
(what a signature verifies against is uninterpreted). Closing or idle expiry frees the slot. STATUS returns the state words,
the coordinates and the admitted tags. A first or second subscriber is added; an acknowledgement removes the event from its
queue; the resend timer sends every event below eight attempts again. -/
def Obligations.CmpSessions : Prop :=
  (∀ s m lo hi f, s.fresh m = true → s.cmp.sources.length = 8 → lo.toNat / 256 ≤ 2 → 2 ≤ hi.toNat / 256 → ∃ t, exec (.hello m lo hi f) s = .next t ∧
    t.features m = f &&& s.reg HRT_CMP_FEATURES &&& (if hi.toNat = 0x200 then ~~~ 0x6#32 else 0xFFFFFFFF) ∧
    .cmpReply m .ok ([s.reg HRT_CMP_VERSION, s.reg HRT_CMP_FEATURES] ++ two s.fused.serial.toNat ++
      [s.reg HRT_TOPO_COORD, BitVec.ofNat 32 (pkgCode s.bu.pkg)] ++ wordsOf (Config.nonce s.free)) ∈ t.out ∧ t.free = s.free + 1 ∧ t.regs = s.regs) ∧
  (∀ s m lo hi f, s.fresh m = true → (2 < lo.toNat / 256 ∨ hi.toNat / 256 < 2) → ∃ t, exec (.hello m lo hi f) s = .next t ∧
    (∃ body, .cmpReply m .refused body ∈ t.out)) ∧
  (∀ s m e n i key sig k y, s.Hears m (some 0) → m.session = 0 → (s.cmp.sessions.findIdx? Option.isNone) = some k →
    (s.taken m).cmp.sources.getD ((s.taken m).sourceOf m.addr) none = some y → ∃ t, exec (.sessionOpen m e n i key sig) s = .next t ∧
      (y.nonce = some n ∧ s.bu.trust[i]? = some (Config.sha384 key) ∧
          Config.ecdsaVerify key sig (Config.sha384 (e ++ n ++ [BitVec.ofNat 8 i] ++ key)) = true →
        (t.cmp.sessions.getD k none).map (fun x => (x.num, x.addr, x.trust, x.features)) =
          some (Config.sessionNumber s.free, m.addr, i, y.features.getD 0) ∧
        .cmpReply m .ok (Config.sessionNumber s.free :: wordsOf (Config.ephemeralKey s.free)) ∈ t.out) ∧
      (¬ (y.nonce = some n ∧ s.bu.trust[i]? = some (Config.sha384 key) ∧
          Config.ecdsaVerify key sig (Config.sha384 (e ++ n ++ [BitVec.ofNat 8 i] ++ key)) = true) →
        t.cmp.sessions = s.cmp.sessions ∧ .cmpReply m .refused [] ∈ t.out)) ∧
  (∀ s m k, s.Signals → s.Hears m none → m.auth = true → s.sessionOf m.session = some k → ∃ t, exec (.sessionClose m) s = .next t ∧
    t.cmp.sessions.getD k none = none ∧ .cmpReply m .ok [] ∈ t.out ∧ Frame [.cmp, .paths, .msix, .out] s t) ∧
  (∀ s (k : Fin 4), s.Signals → (s.cmp.sessions.getD k.val none).isSome = true → ∃ t, exec (.sessionIdleExpiry k) s = .next t ∧
    t.cmp.sessions.getD k.val none = none ∧ Frame [.cmp, .paths, .msix, .out] s t) ∧
  (∀ s m, s.Signals → s.fresh m = true → ∃ t, exec (.cmpStatus m) s = .next t ∧
    .cmpReply m .ok (([HRT_BU_STATE, HRT_THM_STATE, HRT_SPARE_STATUS, HRT_ESC_STATUS].map ((s.taken m).peek m)) ++ s.reg HRT_TOPO_COORD ::
      s.admittedTags.map fun g => g.setWidth 32) ∈ t.out ∧ Frame [.cmp, .paths, .msix, .out] s t) ∧
  (∀ s m a p k, s.Signals → s.Hears m (some 3) → (s.subs.any fun u => u.addr == a && u.port == p) = false → s.subs.length < 2 →
    ∃ t, exec (.eventSubscribe m a p k) s = .next t ∧ t.subs = s.subs ++ [⟨a, p, k, 0, [], false⟩] ∧ .cmpReply m .ok [] ∈ t.out ∧
      Frame [.cmp, .paths, .subs, .msix, .out] s t) ∧
  (∀ s m q, s.Signals → s.pw.standby = true → m.good = true → ∃ t, exec (.eventAck m q) s = .next t ∧
    t.subs = s.subs.map (fun u => if u.addr = m.addr then { u with queue := u.queue.filter fun e => e.1 != q } else u) ∧ Frame [.subs, .msix, .out] s t) ∧
  (∀ s, s.Signals → s.pw.standby = true → (s.subs.all fun u => u.queue.all fun e => decide (e.2.2 < 8)) = true → ∃ t,
    exec .eventResendTimer s = .next t ∧ t.subs = s.subs.map (fun u => { u with queue := u.queue.map fun e => (e.1, e.2.1, e.2.2 + 1) }) ∧
      Frame [.regs, .subs, .msix, .out] s t)

/-- A new message that the core serves: RECORD_READ returns the records found of up to 32 sequence numbers; REG_READ one word
per offset; REG_WRITE writes in order, answered BAD_OPERAND where a value is refused; SNAPSHOT_READ a chunk of a full buffer;
COMMAND is served with operator privilege as over the window. In the secure world SET_COORDINATES sets the coordinates while
no tag is admitted; WIRING_SET keeps a part, or takes the whole table; REPLICA_DECLARE declares a group; REMOVE_REQUEST starts
a removal; MAIN_ON ends one. Outside a session a secure request is refused DENIED_WORLD and counted. -/
def Obligations.CmpRequests : Prop :=
  (∀ s m q n, s.Signals → s.fresh m = true → 1 ≤ n → n ≤ 32 → ∃ t, exec (.recordRead m q n) s = .next t ∧
    .cmpRecords m ((List.range n).filterMap fun i => s.recordOf (q + BitVec.ofNat 32 i)) ∈ t.out ∧ Frame [.cmp, .paths, .msix, .out] s t) ∧
  (∀ s m l, s.Hears m (some 5) → l.length ≤ 64 → ∃ t ws, exec (.cmpRegRead m l) s = .next t ∧ .cmpReply m .ok ws ∈ t.out ∧ ws.length = l.length ∧
    (∀ o, l = [o] → o % 4 = 0 → ws = [((s.taken m).readWord ((s.taken m).cmpPath m) o).2])) ∧
  (∀ s m l, s.Hears m (some 5) → l.length ≤ 32 → ∃ t st, exec (.cmpRegWrite m l) s = .next t ∧ .cmpReply m st [] ∈ t.out ∧
    (l = [] → st = .ok) ∧ (∀ o v, l = [(o, v)] → st = (if (s.taken m).refusesValue ((s.taken m).cmpPath m) o v = true then .badOperand else .ok)) ∧
    (∀ o v, l = [(o, v)] → t.regs = (doRegisterWrite ⟨(s.taken m).cmpPath m, o, true⟩ v (s.taken m)).regs)) ∧
  (∀ s m b c, s.Signals → s.Hears m (some 2) → (s.snap b.val).st = 2 → c < 128 → ∃ t, exec (.snapshotRead m b c) s = .next t ∧
    .cmpReply m .ok ((List.range 256).map fun i => s.snapWord (s.snap b.val) (c * 256 + i)) ∈ t.out ∧ Frame [.cmp, .paths, .msix, .out] s t) ∧
  (∀ s m c, s.Hears m none → exec (.cmpCommand m c) s =
    .next (settle (serveHost c ⟨⟨.cmp m, m.seq, true, 0, false, false⟩, hostOpcode c⟩ (s.taken m)))) ∧
  (∀ s m c, s.Hears m none → m.auth = true → c.toNat % 256 ≤ (if s.fused.grade = .d then 7 else 15) → s.admittedTags = [] → ∃ t,
    exec (.setCoordinates m c) s = .next t ∧ t.reg HRT_TOPO_COORD = c ∧ .cmpReply m .ok [] ∈ t.out) ∧
  (∀ s m l, s.Hears m none → m.auth = true → l.length ≤ 48 → s.cmp.parts = none → ∃ t, exec (.wiringSet m 0 1 l) s = .next t ∧
    t.cmp.table = some l ∧ t.cmp.parts = none ∧ .cmpReply m .ok [] ∈ t.out) ∧
  (∀ s m p n l, s.Signals → s.Hears m none → m.auth = true → p < n → 1 < n → l.length ≤ 48 → s.cmp.parts = none → ∃ t,
    exec (.wiringSet m p n l) s = .next t ∧ t.cmp.table = s.cmp.table ∧ t.cmp.parts = some (s.time.tb, n, [(p, l)]) ∧ .cmpReply m .ok [] ∈ t.out ∧
      Frame [.cmp, .paths, .msix, .out] s t) ∧
  (∀ s m g l k n, s.Signals → s.Hears m (some 1) → m.auth = true → 2 ≤ l.length → l.length ≤ 16 → k.val < l.length → 60 ≤ n → n ≤ 86400 →
    ∃ t, exec (.replicaDeclare m g l k n) s = .next t ∧
      t.ofd.groups = (s.ofd.groups.filter fun x => x.ident != g) ++ [{ ident := g, members := l, self := k.val }] ∧
      t.reg HRT_REPLICA_INTERVAL = BitVec.ofNat 32 n ∧ .cmpReply m .ok [] ∈ t.out ∧ Frame [.regs, .ofd, .cmp, .paths, .msix, .out] s t ∧
      RegsBut (fun r => r == HRT_REPLICA_INTERVAL || r == HRT_REPLICA_STATUS) s t) ∧
  (∀ s m, s.Hears m none → m.auth = true → s.pw.trayPc = false → s.bu.removal = .none → s.bu.complete = true → s.thm.quenching = false →
    s.esc.reset = none → ∃ t, exec (.removeRequest m) s = .next t ∧ t.bu.removal = .notice ∧ t.causes.getLsbD 8 = true ∧ .cmpReply m .ok [] ∈ t.out) ∧
  (∀ s m, s.Signals → s.Hears m none → m.auth = true → s.bu.removal = .removable → ∃ t, exec (.mainOn m) s = .next t ∧ t.bu.removal = .none ∧
    t.bu.stage = 2 ∧ t.bu.failed = false ∧ t.pw.okToRemove = false ∧ t.pw.readyForMain = false ∧ .cmpReply m .ok [] ∈ t.out ∧
    Frame [.pw, .bu, .cmp, .paths, .msix, .out] s t) ∧
  (∀ s m c, s.Hears m none → m.auth = false → ∃ t, exec (.setCoordinates m c) s = .next t ∧ .cmpReply m .deniedWorld [] ∈ t.out ∧
    t.reg HRT_TOPO_COORD = s.reg HRT_TOPO_COORD ∧ t.reg HRT_WORLD_DENIED = BitVec.ofNat 32 (satAdd 32 (s.reg HRT_WORLD_DENIED).toNat 1) ∧ t.causes.getLsbD 13 = true)

/-- Without a power-fail lock an authenticated IMAGE_WRITE of 256 to 1,024 bytes lands in the slot that did not boot, byte for
byte, and every other byte of the image slots reads as before; the list of bytes keeps its canonical form. IMAGE_ARM arms a
trial of that slot if it authenticates, and is REFUSED otherwise. IMAGE_CONFIRM makes the trial that booted active.
ROLLBACK_COMMIT of a confirmed image burns its security version. KEY_REVOKE revokes a key slot that does not hold the key of
the running image. -/
def Obligations.CmpImage : Prop :=
  (∀ s m off data n, s.Signals → s.Hears m (some 4) → m.auth = true → s.bu.slot = some n → s.recd.pfLock = false → off % 256 = 0 → data.length % 256 = 0 → 256 ≤ data.length →
    data.length ≤ 1024 → off + data.length ≤ slotLength → ∃ t, exec (.imageWrite m off data) s = .next t ∧
      (∀ i, i < data.length → memRead t.nor.slots (slotBase (otherSlot n) + off + i) = data.getD i 0) ∧
      (∀ a, a < slotBase (otherSlot n) + off ∨ slotBase (otherSlot n) + off + data.length ≤ a → memRead t.nor.slots a = memRead s.nor.slots a) ∧
      (Memory.wf s.nor.slots = true → Memory.wf t.nor.slots = true) ∧
      .cmpReply m .ok [] ∈ t.out ∧ Frame [.nor, .cmp, .paths, .msix, .out] s t) ∧
  (∀ s m b n, s.Signals → s.Hears m (some 4) → m.auth = true → s.bu.slot = some n → s.recd.pfLock = false → ∃ t, exec (.imageArm m b) s = .next t ∧
    Frame [.nor, .cmp, .paths, .msix, .out] s t ∧
    (s.authenticate (otherSlot n) = none → t.nor.dir = s.nor.dir.put t.dir ∧ t.dir = { s.dir with trial := 1, autoConfirm := b, armed := BitVec.ofNat 32 (s.norNat (otherSlot n) 8 4) } ∧
      .cmpReply m .ok [] ∈ t.out) ∧
    (s.authenticate (otherSlot n) ≠ none → t.nor = s.nor ∧ .cmpReply m .refused [] ∈ t.out)) ∧
  (∀ s m n, s.Signals → s.Hears m (some 4) → m.auth = true → s.onTrial = true → s.dir.trial = 2 → s.bu.slot = some n → s.recd.pfLock = false → ∃ t,
    exec (.imageConfirm m) s = .next t ∧ t.nor.dir = s.nor.dir.put t.dir ∧ t.dir = { s.dir with active := n, trial := 0 } ∧ .cmpReply m .ok [] ∈ t.out ∧
      Frame [.nor, .cmp, .paths, .msix, .out] s t) ∧
  (∀ s m, s.Signals → s.Hears m (some 4) → m.auth = true → s.confirmed = true → s.fused.secver < s.bu.secver → ∃ t, exec (.rollbackCommit m) s = .next t ∧
    t.fused = { s.fused with secver := s.bu.secver } ∧ .cmpReply m .ok [] ∈ t.out ∧ Frame [.regs, .msix, .recd, .subs, .i3c, .obs, .out, .fused, .cmp, .paths] s t) ∧
  (∀ s m k, s.Signals → s.Hears m (some 4) → m.auth = true → s.fused.keyHash.getD k.val 0 ≠ s.fused.keyHash.getD s.bu.keySlot 0 → ∃ t,
    exec (.keyRevoke m k) s = .next t ∧ t.fused = { s.fused with keyRevoked := s.fused.keyRevoked ||| BitVec.ofNat 4 (2 ^ k.val) } ∧
      .cmpReply m .ok [] ∈ t.out ∧ Frame [.fused, .cmp, .paths, .msix, .out] s t)

/-- Three bytes set the pointer, most significant first. A private read returns 4 to 256 bytes and advances the pointer by as
many. ENTDAA gives a target without an address its provisional ID and an address; SETDASA to 0x4A gives it one; RSTDAA takes
it away. GETPID, GETBCR, GETDCR, GETSTATUS and GETMXDS answer with their bytes; ENEC and DISEC switch in-band interrupts. The
oldest interrupt leaves once it is accepted or after its eighth attempt, and is raised again otherwise. -/
def Obligations.I3cTarget : Prop :=
  (∀ s (x y z : Byte), s.Signals → ∃ t, exec (.i3cPointerWrite [x, y, z]) s = .next t ∧
    t.i3c = { s.i3c with pointer := x.toNat * 2 ^ 16 + y.toNat * 2 ^ 8 + z.toNat } ∧ Frame [.i3c, .msix, .out] s t) ∧
  (∀ s n, s.Signals → s.pw.standby = true → ∃ t, exec (.i3cPrivateRead n) s = .next t ∧
    (∃ data, .i3c data ∈ t.out ∧ data.length = min 256 (max 4 n)) ∧ t.i3c.pointer = (s.i3c.pointer + min 256 (max 4 n)) % 2 ^ 24 ∧
    t.i3c.addr = s.i3c.addr ∧ Frame [.i3c, .free, .msix, .out] s t) ∧
  (∀ s a, s.Signals → s.pw.standby = true → s.i3c.addr = none →
    (∃ t, exec (.entdaa a) s = .next t ∧ t.i3c = { s.i3c with addr := some a } ∧ .i3c (s.provisionalId ++ [Config.bcr, Config.dcr]) ∈ t.out ∧
      Frame [.i3c, .msix, .out] s t) ∧
    (∃ t, exec (.setdasa 0x4A a) s = .next t ∧ t.i3c = { s.i3c with addr := some a } ∧ Frame [.i3c, .msix, .out] s t)) ∧
  (∀ s, s.Signals → ∃ t, exec .rstdaa s = .next t ∧ t.i3c = { s.i3c with addr := none } ∧ Frame [.i3c, .msix, .out] s t) ∧
  (∀ s, s.Signals → s.pw.standby = true →
    (∃ t, exec .getpid s = .next t ∧ .i3c s.provisionalId ∈ t.out ∧ Frame [.msix, .out] s t) ∧
    (∃ t, exec .getbcr s = .next t ∧ .i3c [Config.bcr] ∈ t.out ∧ Frame [.msix, .out] s t) ∧
    (∃ t, exec .getdcr s = .next t ∧ .i3c [Config.dcr] ∈ t.out ∧ Frame [.msix, .out] s t) ∧
    (∃ t, exec .getstatus s = .next t ∧ .i3c (beBytes 2 (Config.targetStatus s.i3c.pend.length).toNat) ∈ t.out ∧ Frame [.msix, .out] s t) ∧
    (∃ t, exec .getmxds s = .next t ∧ (∃ w r, .i3c [w, r, 2, 0, 0] ∈ t.out) ∧ Frame [.free, .msix, .out] s t) ∧
    (∃ t, exec .enec s = .next t ∧ t.i3c = { s.i3c with ibiOn := true } ∧ Frame [.i3c, .msix, .out] s t) ∧
    (∃ t, exec .disec s = .next t ∧ t.i3c = { s.i3c with ibiOn := false } ∧ Frame [.i3c, .msix, .out] s t)) ∧
  (∀ s m p n r, s.Signals → s.i3c.pend = (m, p, n) :: r →
    (∃ t, exec (.ibiRetryTimer true) s = .next t ∧ t.i3c = { s.i3c with pend := r } ∧ Frame [.i3c, .msix, .out] s t) ∧
    (∃ t, exec (.ibiRetryTimer false) s = .next t ∧ t.i3c.pend = (if 8 ≤ n then r else if s.i3c.ibiOn = true then (m, p, n + 1) :: r else s.i3c.pend) ∧
      (n < 8 → s.i3c.ibiOn = true → .ibi m p ∈ t.out) ∧ Frame [.i3c, .msix, .out] s t))

/-- When a command stands at the front of the queue, a step is the execution of that command on the state with the rest of the
queue; and every command, on every state, has a next state. (The queue is the model's own, assumption log 2.) -/
def Obligations.StepServesTheFront : Prop :=
  (∀ c rest s, s.pending = c :: rest → step s = exec c { s with pending := rest }) ∧ (∀ c s, ∃ t, exec c s = .next t)

/-- At reset no message is pending or held without its cause, the TRIP latch is open, the list of image bytes is in canonical
form, nothing is commanded, the package is SAFE at stage 0 and registers read their reset values. -/
def Obligations.SignalsAtReset : Prop :=
  State.reset.Signals ∧ Memory.wf State.reset.nor.slots = true ∧ State.reset.pending = [] ∧ State.reset.bu.pkg = .safe ∧ State.reset.bu.stage = 0 ∧
    State.reset.reg HRT_WDOG_TILE = 0xA ∧ State.reset.reg HRT_SHD_POLICY = 0x546 ∧ State.reset.reg HRT_THM_GRACE = 0xFA ∧
    State.reset.reg (itemKey HRT_THM_LIMITS 0) = 0x6E68615C ∧ State.reset.reg HRT_CMD_CTRL = 0

/-- From every state in which a pending bit and a held message have their cause set, a pending vector outside D3hot is masked
and the TRIP latch holds TRAY_PC_N asserted, a step leads to such a state: whatever command stands at the front, or with none. -/
def Obligations.SignalsKept : Prop :=
  ∀ s t, s.Signals → step s = .next t → t.Signals

/-- A served TXN_BEGIN with operator privilege opens the transaction of its requester's world when none is open there: it is
answered OK with the world's next 16-bit identifier, one above that world's last modulo 65,536, and the other world's
identifier and transaction stand. While one is open it is answered BUSY, and both worlds' transactions stand. The identifier
is kept below 65,536. -/
def Obligations.TransactionBegin : Prop :=
  (∀ s h, s.Serves h → h.operator = true → (s.txn (Pend.world ⟨h, 0x10⟩)).isOpen = false → ∃ t, exec (.txnBegin h) s = .next t ∧
    (t.txn (Pend.world ⟨h, 0x10⟩)).isOpen = true ∧ (t.txn (Pend.world ⟨h, 0x10⟩)).ident = ((s.txn (Pend.world ⟨h, 0x10⟩)).ident + 1) % 2 ^ 16 ∧
    (t.txn (Pend.world ⟨h, 0x10⟩)).items = [] ∧ (∀ w, w ≠ Pend.world ⟨h, 0x10⟩ → t.txn w = s.txn w) ∧
    Answered s t h 0x10 .ok [BitVec.ofNat 32 (((s.txn (Pend.world ⟨h, 0x10⟩)).ident + 1) % 2 ^ 16)]) ∧
  (∀ s h, s.Serves h → h.operator = true → (s.txn (Pend.world ⟨h, 0x10⟩)).isOpen = true → ∃ t, exec (.txnBegin h) s = .next t ∧
    (∀ w, t.txn w = s.txn w) ∧ Answered s t h 0x10 .busy [])

/-- With standby power, a read that is not one aligned 32-bit access returns zero, and a write that is not changes no
register, path copy, transaction or unit; each is counted in HRT_ACCESS_ERR, stands with kind 0 in HRT_ACCESS_LAST, and from
the host raises vector 13. Every other register reads as before. (Registers are 32-bit words in the state's type.) -/
def Obligations.MisalignedAccess : Prop :=
  (∀ s a, s.Signals → s.pw.standby = true → (a.aligned = false ∨ a.off % 4 ≠ 0) → ∃ t, exec (.counterLowRead a) s = .next t ∧
    .read a.path a.off 0 ∈ t.out ∧ t.reg HRT_ACCESS_ERR = BitVec.ofNat 32 (satAdd 32 (s.reg HRT_ACCESS_ERR).toNat 1) ∧
    (t.reg HRT_ACCESS_LAST).toNat / 2 ^ 27 % 8 = 0 ∧ (t.reg HRT_ACCESS_LAST).toNat % 2 ^ 24 = a.off % 2 ^ 24 ∧
    (a.path = .host → t.causes.getLsbD 13 = true) ∧ Frame [.regs, .msix, .out] s t ∧
    RegsBut (fun k => k == HRT_ACCESS_ERR || k == HRT_ACCESS_LAST || k == HRT_IRQ_CAUSE) s t) ∧
  (∀ s a v, s.Signals → s.pw.standby = true → (a.aligned = false ∨ a.off % 4 ≠ 0) → ∃ t, exec (.registerWrite a v) s = .next t ∧
    t.reg HRT_ACCESS_ERR = BitVec.ofNat 32 (satAdd 32 (s.reg HRT_ACCESS_ERR).toNat 1) ∧
    (t.reg HRT_ACCESS_LAST).toNat / 2 ^ 27 % 8 = 0 ∧ (t.reg HRT_ACCESS_LAST).toNat % 2 ^ 24 = a.off % 2 ^ 24 ∧
    (a.path = .host → t.causes.getLsbD 13 = true) ∧ Frame [.regs, .free, .msix, .out] s t ∧
    RegsBut (fun k => k == HRT_ACCESS_ERR || k == HRT_ACCESS_LAST || k == HRT_IRQ_CAUSE) s t)

/-- For every host command and the privilege byte that its sender set: a served command with context privilege whose opcode
requires operator privilege, or which names another context than the sender's, is answered DENIED; the recorder, the cause
register and the refusal counts apart, nothing else changes. -/
def Obligations.CommandPrivilege : Prop :=
  ∀ s i h c, s.Signals → hostOf i = some (h, c) → s.Serves h → h.operator = false →
    (needsOperator c = true ∨ (s.contextNamed c).any (fun x => x != h.ctx) = true) → ∃ t, exec i s = .next t ∧ Refused s t h (hostOpcode c) .denied ∧
      Frame [.regs, .msix, .recd, .subs, .i3c, .obs, .out, .host, .cmp] s t
end

