-- ==== Sys2Proof/Laws/State.lean ====
section
/-! SUPPORT. One lemma per field and update of the state, each true by unfolding, and what `settle` leaves. -/
namespace Sys2Proof.Machine

/-! ### setReg -/
@[simp] theorem State.setReg_regs (s : State) (k : Nat) (v : Word) : (s.setReg k v).regs = if v = regDefault k then tdel s.regs k else tput s.regs k v := rfl
@[simp] theorem State.setReg_paths (s : State) (k : Nat) (v : Word) : (s.setReg k v).paths = s.paths := rfl
@[simp] theorem State.setReg_fused (s : State) (k : Nat) (v : Word) : (s.setReg k v).fused = s.fused := rfl
@[simp] theorem State.setReg_sq (s : State) (k : Nat) (v : Word) : (s.setReg k v).sq = s.sq := rfl
@[simp] theorem State.setReg_time (s : State) (k : Nat) (v : Word) : (s.setReg k v).time = s.time := rfl
@[simp] theorem State.setReg_hl (s : State) (k : Nat) (v : Word) : (s.setReg k v).hl = s.hl := rfl
@[simp] theorem State.setReg_pw (s : State) (k : Nat) (v : Word) : (s.setReg k v).pw = s.pw := rfl
@[simp] theorem State.setReg_recd (s : State) (k : Nat) (v : Word) : (s.setReg k v).recd = s.recd := rfl
@[simp] theorem State.setReg_msix (s : State) (k : Nat) (v : Word) : (s.setReg k v).msix = s.msix := rfl
@[simp] theorem State.setReg_host (s : State) (k : Nat) (v : Word) : (s.setReg k v).host = s.host := rfl
@[simp] theorem State.setReg_fns (s : State) (k : Nat) (v : Word) : (s.setReg k v).fns = s.fns := rfl
@[simp] theorem State.setReg_txns (s : State) (k : Nat) (v : Word) : (s.setReg k v).txns = s.txns := rfl
@[simp] theorem State.setReg_regions (s : State) (k : Nat) (v : Word) : (s.setReg k v).regions = s.regions := rfl
@[simp] theorem State.setReg_roles (s : State) (k : Nat) (v : Word) : (s.setReg k v).roles = s.roles := rfl
@[simp] theorem State.setReg_routes (s : State) (k : Nat) (v : Word) : (s.setReg k v).routes = s.routes := rfl
@[simp] theorem State.setReg_slices (s : State) (k : Nat) (v : Word) : (s.setReg k v).slices = s.slices := rfl
@[simp] theorem State.setReg_subs (s : State) (k : Nat) (v : Word) : (s.setReg k v).subs = s.subs := rfl
@[simp] theorem State.setReg_i3c (s : State) (k : Nat) (v : Word) : (s.setReg k v).i3c = s.i3c := rfl
@[simp] theorem State.setReg_tiles (s : State) (k : Nat) (v : Word) : (s.setReg k v).tiles = s.tiles := rfl
@[simp] theorem State.setReg_plan (s : State) (k : Nat) (v : Word) : (s.setReg k v).plan = s.plan := rfl
@[simp] theorem State.setReg_shadow (s : State) (k : Nat) (v : Word) : (s.setReg k v).shadow = s.shadow := rfl
@[simp] theorem State.setReg_ctxs (s : State) (k : Nat) (v : Word) : (s.setReg k v).ctxs = s.ctxs := rfl
@[simp] theorem State.setReg_agents (s : State) (k : Nat) (v : Word) : (s.setReg k v).agents = s.agents := rfl
@[simp] theorem State.setReg_bus (s : State) (k : Nat) (v : Word) : (s.setReg k v).bus = s.bus := rfl
@[simp] theorem State.setReg_bu (s : State) (k : Nat) (v : Word) : (s.setReg k v).bu = s.bu := rfl
@[simp] theorem State.setReg_ofd (s : State) (k : Nat) (v : Word) : (s.setReg k v).ofd = s.ofd := rfl
@[simp] theorem State.setReg_hbm (s : State) (k : Nat) (v : Word) : (s.setReg k v).hbm = s.hbm := rfl
@[simp] theorem State.setReg_esc (s : State) (k : Nat) (v : Word) : (s.setReg k v).esc = s.esc := rfl
@[simp] theorem State.setReg_test (s : State) (k : Nat) (v : Word) : (s.setReg k v).test = s.test := rfl
@[simp] theorem State.setReg_thm (s : State) (k : Nat) (v : Word) : (s.setReg k v).thm = s.thm := rfl
@[simp] theorem State.setReg_obs (s : State) (k : Nat) (v : Word) : (s.setReg k v).obs = s.obs := rfl
@[simp] theorem State.setReg_ports (s : State) (k : Nat) (v : Word) : (s.setReg k v).ports = s.ports := rfl
@[simp] theorem State.setReg_cmp (s : State) (k : Nat) (v : Word) : (s.setReg k v).cmp = s.cmp := rfl
@[simp] theorem State.setReg_nor (s : State) (k : Nat) (v : Word) : (s.setReg k v).nor = s.nor := rfl
@[simp] theorem State.setReg_free (s : State) (k : Nat) (v : Word) : (s.setReg k v).free = s.free := rfl
@[simp] theorem State.setReg_out (s : State) (k : Nat) (v : Word) : (s.setReg k v).out = s.out := rfl
@[simp] theorem State.setReg_pending (s : State) (k : Nat) (v : Word) : (s.setReg k v).pending = s.pending := rfl
/-! ### setOwn -/
@[simp] theorem State.setOwn_regs (s : State) (p : Path) (off : Nat) (v : Word) : (s.setOwn p off v).regs = s.regs := rfl
@[simp] theorem State.setOwn_paths (s : State) (p : Path) (off : Nat) (v : Word) : (s.setOwn p off v).paths = tput s.paths (pathKey p off) v := rfl
@[simp] theorem State.setOwn_fused (s : State) (p : Path) (off : Nat) (v : Word) : (s.setOwn p off v).fused = s.fused := rfl
@[simp] theorem State.setOwn_sq (s : State) (p : Path) (off : Nat) (v : Word) : (s.setOwn p off v).sq = s.sq := rfl
@[simp] theorem State.setOwn_time (s : State) (p : Path) (off : Nat) (v : Word) : (s.setOwn p off v).time = s.time := rfl
@[simp] theorem State.setOwn_hl (s : State) (p : Path) (off : Nat) (v : Word) : (s.setOwn p off v).hl = s.hl := rfl
@[simp] theorem State.setOwn_pw (s : State) (p : Path) (off : Nat) (v : Word) : (s.setOwn p off v).pw = s.pw := rfl
@[simp] theorem State.setOwn_recd (s : State) (p : Path) (off : Nat) (v : Word) : (s.setOwn p off v).recd = s.recd := rfl
@[simp] theorem State.setOwn_msix (s : State) (p : Path) (off : Nat) (v : Word) : (s.setOwn p off v).msix = s.msix := rfl
@[simp] theorem State.setOwn_host (s : State) (p : Path) (off : Nat) (v : Word) : (s.setOwn p off v).host = s.host := rfl
@[simp] theorem State.setOwn_fns (s : State) (p : Path) (off : Nat) (v : Word) : (s.setOwn p off v).fns = s.fns := rfl
@[simp] theorem State.setOwn_txns (s : State) (p : Path) (off : Nat) (v : Word) : (s.setOwn p off v).txns = s.txns := rfl
@[simp] theorem State.setOwn_regions (s : State) (p : Path) (off : Nat) (v : Word) : (s.setOwn p off v).regions = s.regions := rfl
@[simp] theorem State.setOwn_roles (s : State) (p : Path) (off : Nat) (v : Word) : (s.setOwn p off v).roles = s.roles := rfl
@[simp] theorem State.setOwn_routes (s : State) (p : Path) (off : Nat) (v : Word) : (s.setOwn p off v).routes = s.routes := rfl
@[simp] theorem State.setOwn_slices (s : State) (p : Path) (off : Nat) (v : Word) : (s.setOwn p off v).slices = s.slices := rfl
@[simp] theorem State.setOwn_subs (s : State) (p : Path) (off : Nat) (v : Word) : (s.setOwn p off v).subs = s.subs := rfl
@[simp] theorem State.setOwn_i3c (s : State) (p : Path) (off : Nat) (v : Word) : (s.setOwn p off v).i3c = s.i3c := rfl
@[simp] theorem State.setOwn_tiles (s : State) (p : Path) (off : Nat) (v : Word) : (s.setOwn p off v).tiles = s.tiles := rfl
@[simp] theorem State.setOwn_plan (s : State) (p : Path) (off : Nat) (v : Word) : (s.setOwn p off v).plan = s.plan := rfl
@[simp] theorem State.setOwn_shadow (s : State) (p : Path) (off : Nat) (v : Word) : (s.setOwn p off v).shadow = s.shadow := rfl
@[simp] theorem State.setOwn_ctxs (s : State) (p : Path) (off : Nat) (v : Word) : (s.setOwn p off v).ctxs = s.ctxs := rfl
@[simp] theorem State.setOwn_agents (s : State) (p : Path) (off : Nat) (v : Word) : (s.setOwn p off v).agents = s.agents := rfl
@[simp] theorem State.setOwn_bus (s : State) (p : Path) (off : Nat) (v : Word) : (s.setOwn p off v).bus = s.bus := rfl
@[simp] theorem State.setOwn_bu (s : State) (p : Path) (off : Nat) (v : Word) : (s.setOwn p off v).bu = s.bu := rfl
@[simp] theorem State.setOwn_ofd (s : State) (p : Path) (off : Nat) (v : Word) : (s.setOwn p off v).ofd = s.ofd := rfl
@[simp] theorem State.setOwn_hbm (s : State) (p : Path) (off : Nat) (v : Word) : (s.setOwn p off v).hbm = s.hbm := rfl
@[simp] theorem State.setOwn_esc (s : State) (p : Path) (off : Nat) (v : Word) : (s.setOwn p off v).esc = s.esc := rfl
@[simp] theorem State.setOwn_test (s : State) (p : Path) (off : Nat) (v : Word) : (s.setOwn p off v).test = s.test := rfl
@[simp] theorem State.setOwn_thm (s : State) (p : Path) (off : Nat) (v : Word) : (s.setOwn p off v).thm = s.thm := rfl
@[simp] theorem State.setOwn_obs (s : State) (p : Path) (off : Nat) (v : Word) : (s.setOwn p off v).obs = s.obs := rfl
@[simp] theorem State.setOwn_ports (s : State) (p : Path) (off : Nat) (v : Word) : (s.setOwn p off v).ports = s.ports := rfl
@[simp] theorem State.setOwn_cmp (s : State) (p : Path) (off : Nat) (v : Word) : (s.setOwn p off v).cmp = s.cmp := rfl
@[simp] theorem State.setOwn_nor (s : State) (p : Path) (off : Nat) (v : Word) : (s.setOwn p off v).nor = s.nor := rfl
@[simp] theorem State.setOwn_free (s : State) (p : Path) (off : Nat) (v : Word) : (s.setOwn p off v).free = s.free := rfl
@[simp] theorem State.setOwn_out (s : State) (p : Path) (off : Nat) (v : Word) : (s.setOwn p off v).out = s.out := rfl
@[simp] theorem State.setOwn_pending (s : State) (p : Path) (off : Nat) (v : Word) : (s.setOwn p off v).pending = s.pending := rfl
/-! ### setTile -/
@[simp] theorem State.setTile_regs (s : State) (t : TileIx) (x : Tile) : (s.setTile t x).regs = s.regs := rfl
@[simp] theorem State.setTile_paths (s : State) (t : TileIx) (x : Tile) : (s.setTile t x).paths = s.paths := rfl
@[simp] theorem State.setTile_fused (s : State) (t : TileIx) (x : Tile) : (s.setTile t x).fused = s.fused := rfl
@[simp] theorem State.setTile_sq (s : State) (t : TileIx) (x : Tile) : (s.setTile t x).sq = s.sq := rfl
@[simp] theorem State.setTile_time (s : State) (t : TileIx) (x : Tile) : (s.setTile t x).time = s.time := rfl
@[simp] theorem State.setTile_hl (s : State) (t : TileIx) (x : Tile) : (s.setTile t x).hl = s.hl := rfl
@[simp] theorem State.setTile_pw (s : State) (t : TileIx) (x : Tile) : (s.setTile t x).pw = s.pw := rfl
@[simp] theorem State.setTile_recd (s : State) (t : TileIx) (x : Tile) : (s.setTile t x).recd = s.recd := rfl
@[simp] theorem State.setTile_msix (s : State) (t : TileIx) (x : Tile) : (s.setTile t x).msix = s.msix := rfl
@[simp] theorem State.setTile_host (s : State) (t : TileIx) (x : Tile) : (s.setTile t x).host = s.host := rfl
@[simp] theorem State.setTile_fns (s : State) (t : TileIx) (x : Tile) : (s.setTile t x).fns = s.fns := rfl
@[simp] theorem State.setTile_txns (s : State) (t : TileIx) (x : Tile) : (s.setTile t x).txns = s.txns := rfl
@[simp] theorem State.setTile_regions (s : State) (t : TileIx) (x : Tile) : (s.setTile t x).regions = s.regions := rfl
@[simp] theorem State.setTile_roles (s : State) (t : TileIx) (x : Tile) : (s.setTile t x).roles = s.roles := rfl
@[simp] theorem State.setTile_routes (s : State) (t : TileIx) (x : Tile) : (s.setTile t x).routes = s.routes := rfl
@[simp] theorem State.setTile_slices (s : State) (t : TileIx) (x : Tile) : (s.setTile t x).slices = s.slices := rfl
@[simp] theorem State.setTile_subs (s : State) (t : TileIx) (x : Tile) : (s.setTile t x).subs = s.subs := rfl
@[simp] theorem State.setTile_i3c (s : State) (t : TileIx) (x : Tile) : (s.setTile t x).i3c = s.i3c := rfl
@[simp] theorem State.setTile_tiles (s : State) (t : TileIx) (x : Tile) : (s.setTile t x).tiles = tput s.tiles t.val x := rfl
@[simp] theorem State.setTile_plan (s : State) (t : TileIx) (x : Tile) : (s.setTile t x).plan = s.plan := rfl
@[simp] theorem State.setTile_shadow (s : State) (t : TileIx) (x : Tile) : (s.setTile t x).shadow = s.shadow := rfl
@[simp] theorem State.setTile_ctxs (s : State) (t : TileIx) (x : Tile) : (s.setTile t x).ctxs = s.ctxs := rfl
@[simp] theorem State.setTile_agents (s : State) (t : TileIx) (x : Tile) : (s.setTile t x).agents = s.agents := rfl
@[simp] theorem State.setTile_bus (s : State) (t : TileIx) (x : Tile) : (s.setTile t x).bus = s.bus := rfl
@[simp] theorem State.setTile_bu (s : State) (t : TileIx) (x : Tile) : (s.setTile t x).bu = s.bu := rfl
@[simp] theorem State.setTile_ofd (s : State) (t : TileIx) (x : Tile) : (s.setTile t x).ofd = s.ofd := rfl
@[simp] theorem State.setTile_hbm (s : State) (t : TileIx) (x : Tile) : (s.setTile t x).hbm = s.hbm := rfl
@[simp] theorem State.setTile_esc (s : State) (t : TileIx) (x : Tile) : (s.setTile t x).esc = s.esc := rfl
@[simp] theorem State.setTile_test (s : State) (t : TileIx) (x : Tile) : (s.setTile t x).test = s.test := rfl
@[simp] theorem State.setTile_thm (s : State) (t : TileIx) (x : Tile) : (s.setTile t x).thm = s.thm := rfl
@[simp] theorem State.setTile_obs (s : State) (t : TileIx) (x : Tile) : (s.setTile t x).obs = s.obs := rfl
@[simp] theorem State.setTile_ports (s : State) (t : TileIx) (x : Tile) : (s.setTile t x).ports = s.ports := rfl
@[simp] theorem State.setTile_cmp (s : State) (t : TileIx) (x : Tile) : (s.setTile t x).cmp = s.cmp := rfl
@[simp] theorem State.setTile_nor (s : State) (t : TileIx) (x : Tile) : (s.setTile t x).nor = s.nor := rfl
@[simp] theorem State.setTile_free (s : State) (t : TileIx) (x : Tile) : (s.setTile t x).free = s.free := rfl
@[simp] theorem State.setTile_out (s : State) (t : TileIx) (x : Tile) : (s.setTile t x).out = s.out := rfl
@[simp] theorem State.setTile_pending (s : State) (t : TileIx) (x : Tile) : (s.setTile t x).pending = s.pending := rfl
/-! ### modTile -/
@[simp] theorem State.modTile_regs (s : State) (t : TileIx) (f : Tile → Tile) : (s.modTile t f).regs = s.regs := rfl
@[simp] theorem State.modTile_paths (s : State) (t : TileIx) (f : Tile → Tile) : (s.modTile t f).paths = s.paths := rfl
@[simp] theorem State.modTile_fused (s : State) (t : TileIx) (f : Tile → Tile) : (s.modTile t f).fused = s.fused := rfl
@[simp] theorem State.modTile_sq (s : State) (t : TileIx) (f : Tile → Tile) : (s.modTile t f).sq = s.sq := rfl
@[simp] theorem State.modTile_time (s : State) (t : TileIx) (f : Tile → Tile) : (s.modTile t f).time = s.time := rfl
@[simp] theorem State.modTile_hl (s : State) (t : TileIx) (f : Tile → Tile) : (s.modTile t f).hl = s.hl := rfl
@[simp] theorem State.modTile_pw (s : State) (t : TileIx) (f : Tile → Tile) : (s.modTile t f).pw = s.pw := rfl
@[simp] theorem State.modTile_recd (s : State) (t : TileIx) (f : Tile → Tile) : (s.modTile t f).recd = s.recd := rfl
@[simp] theorem State.modTile_msix (s : State) (t : TileIx) (f : Tile → Tile) : (s.modTile t f).msix = s.msix := rfl
@[simp] theorem State.modTile_host (s : State) (t : TileIx) (f : Tile → Tile) : (s.modTile t f).host = s.host := rfl
@[simp] theorem State.modTile_fns (s : State) (t : TileIx) (f : Tile → Tile) : (s.modTile t f).fns = s.fns := rfl
@[simp] theorem State.modTile_txns (s : State) (t : TileIx) (f : Tile → Tile) : (s.modTile t f).txns = s.txns := rfl
@[simp] theorem State.modTile_regions (s : State) (t : TileIx) (f : Tile → Tile) : (s.modTile t f).regions = s.regions := rfl
@[simp] theorem State.modTile_roles (s : State) (t : TileIx) (f : Tile → Tile) : (s.modTile t f).roles = s.roles := rfl
@[simp] theorem State.modTile_routes (s : State) (t : TileIx) (f : Tile → Tile) : (s.modTile t f).routes = s.routes := rfl
@[simp] theorem State.modTile_slices (s : State) (t : TileIx) (f : Tile → Tile) : (s.modTile t f).slices = s.slices := rfl
@[simp] theorem State.modTile_subs (s : State) (t : TileIx) (f : Tile → Tile) : (s.modTile t f).subs = s.subs := rfl
@[simp] theorem State.modTile_i3c (s : State) (t : TileIx) (f : Tile → Tile) : (s.modTile t f).i3c = s.i3c := rfl
@[simp] theorem State.modTile_tiles (s : State) (t : TileIx) (f : Tile → Tile) : (s.modTile t f).tiles = tput s.tiles t.val (f (s.tile t)) := rfl
@[simp] theorem State.modTile_plan (s : State) (t : TileIx) (f : Tile → Tile) : (s.modTile t f).plan = s.plan := rfl
@[simp] theorem State.modTile_shadow (s : State) (t : TileIx) (f : Tile → Tile) : (s.modTile t f).shadow = s.shadow := rfl
@[simp] theorem State.modTile_ctxs (s : State) (t : TileIx) (f : Tile → Tile) : (s.modTile t f).ctxs = s.ctxs := rfl
@[simp] theorem State.modTile_agents (s : State) (t : TileIx) (f : Tile → Tile) : (s.modTile t f).agents = s.agents := rfl
@[simp] theorem State.modTile_bus (s : State) (t : TileIx) (f : Tile → Tile) : (s.modTile t f).bus = s.bus := rfl
@[simp] theorem State.modTile_bu (s : State) (t : TileIx) (f : Tile → Tile) : (s.modTile t f).bu = s.bu := rfl
@[simp] theorem State.modTile_ofd (s : State) (t : TileIx) (f : Tile → Tile) : (s.modTile t f).ofd = s.ofd := rfl
@[simp] theorem State.modTile_hbm (s : State) (t : TileIx) (f : Tile → Tile) : (s.modTile t f).hbm = s.hbm := rfl
@[simp] theorem State.modTile_esc (s : State) (t : TileIx) (f : Tile → Tile) : (s.modTile t f).esc = s.esc := rfl
@[simp] theorem State.modTile_test (s : State) (t : TileIx) (f : Tile → Tile) : (s.modTile t f).test = s.test := rfl
@[simp] theorem State.modTile_thm (s : State) (t : TileIx) (f : Tile → Tile) : (s.modTile t f).thm = s.thm := rfl
@[simp] theorem State.modTile_obs (s : State) (t : TileIx) (f : Tile → Tile) : (s.modTile t f).obs = s.obs := rfl
@[simp] theorem State.modTile_ports (s : State) (t : TileIx) (f : Tile → Tile) : (s.modTile t f).ports = s.ports := rfl
@[simp] theorem State.modTile_cmp (s : State) (t : TileIx) (f : Tile → Tile) : (s.modTile t f).cmp = s.cmp := rfl
@[simp] theorem State.modTile_nor (s : State) (t : TileIx) (f : Tile → Tile) : (s.modTile t f).nor = s.nor := rfl
@[simp] theorem State.modTile_free (s : State) (t : TileIx) (f : Tile → Tile) : (s.modTile t f).free = s.free := rfl
@[simp] theorem State.modTile_out (s : State) (t : TileIx) (f : Tile → Tile) : (s.modTile t f).out = s.out := rfl
@[simp] theorem State.modTile_pending (s : State) (t : TileIx) (f : Tile → Tile) : (s.modTile t f).pending = s.pending := rfl
/-! ### setCtx -/
@[simp] theorem State.setCtx_regs (s : State) (c : CtxIx) (x : Ctx) : (s.setCtx c x).regs = s.regs := rfl
@[simp] theorem State.setCtx_paths (s : State) (c : CtxIx) (x : Ctx) : (s.setCtx c x).paths = s.paths := rfl
@[simp] theorem State.setCtx_fused (s : State) (c : CtxIx) (x : Ctx) : (s.setCtx c x).fused = s.fused := rfl
@[simp] theorem State.setCtx_sq (s : State) (c : CtxIx) (x : Ctx) : (s.setCtx c x).sq = s.sq := rfl
@[simp] theorem State.setCtx_time (s : State) (c : CtxIx) (x : Ctx) : (s.setCtx c x).time = s.time := rfl
@[simp] theorem State.setCtx_hl (s : State) (c : CtxIx) (x : Ctx) : (s.setCtx c x).hl = s.hl := rfl
@[simp] theorem State.setCtx_pw (s : State) (c : CtxIx) (x : Ctx) : (s.setCtx c x).pw = s.pw := rfl
@[simp] theorem State.setCtx_recd (s : State) (c : CtxIx) (x : Ctx) : (s.setCtx c x).recd = s.recd := rfl
@[simp] theorem State.setCtx_msix (s : State) (c : CtxIx) (x : Ctx) : (s.setCtx c x).msix = s.msix := rfl
@[simp] theorem State.setCtx_host (s : State) (c : CtxIx) (x : Ctx) : (s.setCtx c x).host = s.host := rfl
@[simp] theorem State.setCtx_fns (s : State) (c : CtxIx) (x : Ctx) : (s.setCtx c x).fns = s.fns := rfl
@[simp] theorem State.setCtx_txns (s : State) (c : CtxIx) (x : Ctx) : (s.setCtx c x).txns = s.txns := rfl
@[simp] theorem State.setCtx_regions (s : State) (c : CtxIx) (x : Ctx) : (s.setCtx c x).regions = s.regions := rfl
@[simp] theorem State.setCtx_roles (s : State) (c : CtxIx) (x : Ctx) : (s.setCtx c x).roles = s.roles := rfl
@[simp] theorem State.setCtx_routes (s : State) (c : CtxIx) (x : Ctx) : (s.setCtx c x).routes = s.routes := rfl
@[simp] theorem State.setCtx_slices (s : State) (c : CtxIx) (x : Ctx) : (s.setCtx c x).slices = s.slices := rfl
@[simp] theorem State.setCtx_subs (s : State) (c : CtxIx) (x : Ctx) : (s.setCtx c x).subs = s.subs := rfl
@[simp] theorem State.setCtx_i3c (s : State) (c : CtxIx) (x : Ctx) : (s.setCtx c x).i3c = s.i3c := rfl
@[simp] theorem State.setCtx_tiles (s : State) (c : CtxIx) (x : Ctx) : (s.setCtx c x).tiles = s.tiles := rfl
@[simp] theorem State.setCtx_plan (s : State) (c : CtxIx) (x : Ctx) : (s.setCtx c x).plan = s.plan := rfl
@[simp] theorem State.setCtx_shadow (s : State) (c : CtxIx) (x : Ctx) : (s.setCtx c x).shadow = s.shadow := rfl
@[simp] theorem State.setCtx_ctxs (s : State) (c : CtxIx) (x : Ctx) : (s.setCtx c x).ctxs = tput s.ctxs c.val x := rfl
@[simp] theorem State.setCtx_agents (s : State) (c : CtxIx) (x : Ctx) : (s.setCtx c x).agents = s.agents := rfl
@[simp] theorem State.setCtx_bus (s : State) (c : CtxIx) (x : Ctx) : (s.setCtx c x).bus = s.bus := rfl
@[simp] theorem State.setCtx_bu (s : State) (c : CtxIx) (x : Ctx) : (s.setCtx c x).bu = s.bu := rfl
@[simp] theorem State.setCtx_ofd (s : State) (c : CtxIx) (x : Ctx) : (s.setCtx c x).ofd = s.ofd := rfl
@[simp] theorem State.setCtx_hbm (s : State) (c : CtxIx) (x : Ctx) : (s.setCtx c x).hbm = s.hbm := rfl
@[simp] theorem State.setCtx_esc (s : State) (c : CtxIx) (x : Ctx) : (s.setCtx c x).esc = s.esc := rfl
@[simp] theorem State.setCtx_test (s : State) (c : CtxIx) (x : Ctx) : (s.setCtx c x).test = s.test := rfl
@[simp] theorem State.setCtx_thm (s : State) (c : CtxIx) (x : Ctx) : (s.setCtx c x).thm = s.thm := rfl
@[simp] theorem State.setCtx_obs (s : State) (c : CtxIx) (x : Ctx) : (s.setCtx c x).obs = s.obs := rfl
@[simp] theorem State.setCtx_ports (s : State) (c : CtxIx) (x : Ctx) : (s.setCtx c x).ports = s.ports := rfl
@[simp] theorem State.setCtx_cmp (s : State) (c : CtxIx) (x : Ctx) : (s.setCtx c x).cmp = s.cmp := rfl
@[simp] theorem State.setCtx_nor (s : State) (c : CtxIx) (x : Ctx) : (s.setCtx c x).nor = s.nor := rfl
@[simp] theorem State.setCtx_free (s : State) (c : CtxIx) (x : Ctx) : (s.setCtx c x).free = s.free := rfl
@[simp] theorem State.setCtx_out (s : State) (c : CtxIx) (x : Ctx) : (s.setCtx c x).out = s.out := rfl
@[simp] theorem State.setCtx_pending (s : State) (c : CtxIx) (x : Ctx) : (s.setCtx c x).pending = s.pending := rfl
/-! ### modCtx -/
@[simp] theorem State.modCtx_regs (s : State) (c : CtxIx) (f : Ctx → Ctx) : (s.modCtx c f).regs = s.regs := rfl
@[simp] theorem State.modCtx_paths (s : State) (c : CtxIx) (f : Ctx → Ctx) : (s.modCtx c f).paths = s.paths := rfl
@[simp] theorem State.modCtx_fused (s : State) (c : CtxIx) (f : Ctx → Ctx) : (s.modCtx c f).fused = s.fused := rfl
@[simp] theorem State.modCtx_sq (s : State) (c : CtxIx) (f : Ctx → Ctx) : (s.modCtx c f).sq = s.sq := rfl
@[simp] theorem State.modCtx_time (s : State) (c : CtxIx) (f : Ctx → Ctx) : (s.modCtx c f).time = s.time := rfl
@[simp] theorem State.modCtx_hl (s : State) (c : CtxIx) (f : Ctx → Ctx) : (s.modCtx c f).hl = s.hl := rfl
@[simp] theorem State.modCtx_pw (s : State) (c : CtxIx) (f : Ctx → Ctx) : (s.modCtx c f).pw = s.pw := rfl
@[simp] theorem State.modCtx_recd (s : State) (c : CtxIx) (f : Ctx → Ctx) : (s.modCtx c f).recd = s.recd := rfl
@[simp] theorem State.modCtx_msix (s : State) (c : CtxIx) (f : Ctx → Ctx) : (s.modCtx c f).msix = s.msix := rfl
@[simp] theorem State.modCtx_host (s : State) (c : CtxIx) (f : Ctx → Ctx) : (s.modCtx c f).host = s.host := rfl
@[simp] theorem State.modCtx_fns (s : State) (c : CtxIx) (f : Ctx → Ctx) : (s.modCtx c f).fns = s.fns := rfl
@[simp] theorem State.modCtx_txns (s : State) (c : CtxIx) (f : Ctx → Ctx) : (s.modCtx c f).txns = s.txns := rfl
@[simp] theorem State.modCtx_regions (s : State) (c : CtxIx) (f : Ctx → Ctx) : (s.modCtx c f).regions = s.regions := rfl
@[simp] theorem State.modCtx_roles (s : State) (c : CtxIx) (f : Ctx → Ctx) : (s.modCtx c f).roles = s.roles := rfl
@[simp] theorem State.modCtx_routes (s : State) (c : CtxIx) (f : Ctx → Ctx) : (s.modCtx c f).routes = s.routes := rfl
@[simp] theorem State.modCtx_slices (s : State) (c : CtxIx) (f : Ctx → Ctx) : (s.modCtx c f).slices = s.slices := rfl
@[simp] theorem State.modCtx_subs (s : State) (c : CtxIx) (f : Ctx → Ctx) : (s.modCtx c f).subs = s.subs := rfl
@[simp] theorem State.modCtx_i3c (s : State) (c : CtxIx) (f : Ctx → Ctx) : (s.modCtx c f).i3c = s.i3c := rfl
@[simp] theorem State.modCtx_tiles (s : State) (c : CtxIx) (f : Ctx → Ctx) : (s.modCtx c f).tiles = s.tiles := rfl
@[simp] theorem State.modCtx_plan (s : State) (c : CtxIx) (f : Ctx → Ctx) : (s.modCtx c f).plan = s.plan := rfl
@[simp] theorem State.modCtx_shadow (s : State) (c : CtxIx) (f : Ctx → Ctx) : (s.modCtx c f).shadow = s.shadow := rfl
@[simp] theorem State.modCtx_ctxs (s : State) (c : CtxIx) (f : Ctx → Ctx) : (s.modCtx c f).ctxs = tput s.ctxs c.val (f (s.ctx c)) := rfl
@[simp] theorem State.modCtx_agents (s : State) (c : CtxIx) (f : Ctx → Ctx) : (s.modCtx c f).agents = s.agents := rfl
@[simp] theorem State.modCtx_bus (s : State) (c : CtxIx) (f : Ctx → Ctx) : (s.modCtx c f).bus = s.bus := rfl
@[simp] theorem State.modCtx_bu (s : State) (c : CtxIx) (f : Ctx → Ctx) : (s.modCtx c f).bu = s.bu := rfl
@[simp] theorem State.modCtx_ofd (s : State) (c : CtxIx) (f : Ctx → Ctx) : (s.modCtx c f).ofd = s.ofd := rfl
@[simp] theorem State.modCtx_hbm (s : State) (c : CtxIx) (f : Ctx → Ctx) : (s.modCtx c f).hbm = s.hbm := rfl
@[simp] theorem State.modCtx_esc (s : State) (c : CtxIx) (f : Ctx → Ctx) : (s.modCtx c f).esc = s.esc := rfl
@[simp] theorem State.modCtx_test (s : State) (c : CtxIx) (f : Ctx → Ctx) : (s.modCtx c f).test = s.test := rfl
@[simp] theorem State.modCtx_thm (s : State) (c : CtxIx) (f : Ctx → Ctx) : (s.modCtx c f).thm = s.thm := rfl
@[simp] theorem State.modCtx_obs (s : State) (c : CtxIx) (f : Ctx → Ctx) : (s.modCtx c f).obs = s.obs := rfl
@[simp] theorem State.modCtx_ports (s : State) (c : CtxIx) (f : Ctx → Ctx) : (s.modCtx c f).ports = s.ports := rfl
@[simp] theorem State.modCtx_cmp (s : State) (c : CtxIx) (f : Ctx → Ctx) : (s.modCtx c f).cmp = s.cmp := rfl
@[simp] theorem State.modCtx_nor (s : State) (c : CtxIx) (f : Ctx → Ctx) : (s.modCtx c f).nor = s.nor := rfl
@[simp] theorem State.modCtx_free (s : State) (c : CtxIx) (f : Ctx → Ctx) : (s.modCtx c f).free = s.free := rfl
@[simp] theorem State.modCtx_out (s : State) (c : CtxIx) (f : Ctx → Ctx) : (s.modCtx c f).out = s.out := rfl
@[simp] theorem State.modCtx_pending (s : State) (c : CtxIx) (f : Ctx → Ctx) : (s.modCtx c f).pending = s.pending := rfl
/-! ### setFp -/
@[simp] theorem State.setFp_regs (s : State) (t : TileIx) (x : Fp) : (s.setFp t x).regs = s.regs := rfl
@[simp] theorem State.setFp_paths (s : State) (t : TileIx) (x : Fp) : (s.setFp t x).paths = s.paths := rfl
@[simp] theorem State.setFp_fused (s : State) (t : TileIx) (x : Fp) : (s.setFp t x).fused = s.fused := rfl
@[simp] theorem State.setFp_sq (s : State) (t : TileIx) (x : Fp) : (s.setFp t x).sq = s.sq := rfl
@[simp] theorem State.setFp_time (s : State) (t : TileIx) (x : Fp) : (s.setFp t x).time = s.time := rfl
@[simp] theorem State.setFp_hl (s : State) (t : TileIx) (x : Fp) : (s.setFp t x).hl = s.hl := rfl
@[simp] theorem State.setFp_pw (s : State) (t : TileIx) (x : Fp) : (s.setFp t x).pw = s.pw := rfl
@[simp] theorem State.setFp_recd (s : State) (t : TileIx) (x : Fp) : (s.setFp t x).recd = s.recd := rfl
@[simp] theorem State.setFp_msix (s : State) (t : TileIx) (x : Fp) : (s.setFp t x).msix = s.msix := rfl
@[simp] theorem State.setFp_host (s : State) (t : TileIx) (x : Fp) : (s.setFp t x).host = s.host := rfl
@[simp] theorem State.setFp_fns (s : State) (t : TileIx) (x : Fp) : (s.setFp t x).fns = s.fns := rfl
@[simp] theorem State.setFp_txns (s : State) (t : TileIx) (x : Fp) : (s.setFp t x).txns = s.txns := rfl
@[simp] theorem State.setFp_regions (s : State) (t : TileIx) (x : Fp) : (s.setFp t x).regions = s.regions := rfl
@[simp] theorem State.setFp_roles (s : State) (t : TileIx) (x : Fp) : (s.setFp t x).roles = s.roles := rfl
@[simp] theorem State.setFp_routes (s : State) (t : TileIx) (x : Fp) : (s.setFp t x).routes = s.routes := rfl
@[simp] theorem State.setFp_slices (s : State) (t : TileIx) (x : Fp) : (s.setFp t x).slices = s.slices := rfl
@[simp] theorem State.setFp_subs (s : State) (t : TileIx) (x : Fp) : (s.setFp t x).subs = s.subs := rfl
@[simp] theorem State.setFp_i3c (s : State) (t : TileIx) (x : Fp) : (s.setFp t x).i3c = s.i3c := rfl
@[simp] theorem State.setFp_tiles (s : State) (t : TileIx) (x : Fp) : (s.setFp t x).tiles = s.tiles := rfl
@[simp] theorem State.setFp_plan (s : State) (t : TileIx) (x : Fp) : (s.setFp t x).plan = { s.plan with fp := tput s.plan.fp t.val x } := rfl
@[simp] theorem State.setFp_shadow (s : State) (t : TileIx) (x : Fp) : (s.setFp t x).shadow = s.shadow := rfl
@[simp] theorem State.setFp_ctxs (s : State) (t : TileIx) (x : Fp) : (s.setFp t x).ctxs = s.ctxs := rfl
@[simp] theorem State.setFp_agents (s : State) (t : TileIx) (x : Fp) : (s.setFp t x).agents = s.agents := rfl
@[simp] theorem State.setFp_bus (s : State) (t : TileIx) (x : Fp) : (s.setFp t x).bus = s.bus := rfl
@[simp] theorem State.setFp_bu (s : State) (t : TileIx) (x : Fp) : (s.setFp t x).bu = s.bu := rfl
@[simp] theorem State.setFp_ofd (s : State) (t : TileIx) (x : Fp) : (s.setFp t x).ofd = s.ofd := rfl
@[simp] theorem State.setFp_hbm (s : State) (t : TileIx) (x : Fp) : (s.setFp t x).hbm = s.hbm := rfl
@[simp] theorem State.setFp_esc (s : State) (t : TileIx) (x : Fp) : (s.setFp t x).esc = s.esc := rfl
@[simp] theorem State.setFp_test (s : State) (t : TileIx) (x : Fp) : (s.setFp t x).test = s.test := rfl
@[simp] theorem State.setFp_thm (s : State) (t : TileIx) (x : Fp) : (s.setFp t x).thm = s.thm := rfl
@[simp] theorem State.setFp_obs (s : State) (t : TileIx) (x : Fp) : (s.setFp t x).obs = s.obs := rfl
@[simp] theorem State.setFp_ports (s : State) (t : TileIx) (x : Fp) : (s.setFp t x).ports = s.ports := rfl
@[simp] theorem State.setFp_cmp (s : State) (t : TileIx) (x : Fp) : (s.setFp t x).cmp = s.cmp := rfl
@[simp] theorem State.setFp_nor (s : State) (t : TileIx) (x : Fp) : (s.setFp t x).nor = s.nor := rfl
@[simp] theorem State.setFp_free (s : State) (t : TileIx) (x : Fp) : (s.setFp t x).free = s.free := rfl
@[simp] theorem State.setFp_out (s : State) (t : TileIx) (x : Fp) : (s.setFp t x).out = s.out := rfl
@[simp] theorem State.setFp_pending (s : State) (t : TileIx) (x : Fp) : (s.setFp t x).pending = s.pending := rfl
/-! ### modFp -/
@[simp] theorem State.modFp_regs (s : State) (t : TileIx) (f : Fp → Fp) : (s.modFp t f).regs = s.regs := rfl
@[simp] theorem State.modFp_paths (s : State) (t : TileIx) (f : Fp → Fp) : (s.modFp t f).paths = s.paths := rfl
@[simp] theorem State.modFp_fused (s : State) (t : TileIx) (f : Fp → Fp) : (s.modFp t f).fused = s.fused := rfl
@[simp] theorem State.modFp_sq (s : State) (t : TileIx) (f : Fp → Fp) : (s.modFp t f).sq = s.sq := rfl
@[simp] theorem State.modFp_time (s : State) (t : TileIx) (f : Fp → Fp) : (s.modFp t f).time = s.time := rfl
@[simp] theorem State.modFp_hl (s : State) (t : TileIx) (f : Fp → Fp) : (s.modFp t f).hl = s.hl := rfl
@[simp] theorem State.modFp_pw (s : State) (t : TileIx) (f : Fp → Fp) : (s.modFp t f).pw = s.pw := rfl
@[simp] theorem State.modFp_recd (s : State) (t : TileIx) (f : Fp → Fp) : (s.modFp t f).recd = s.recd := rfl
@[simp] theorem State.modFp_msix (s : State) (t : TileIx) (f : Fp → Fp) : (s.modFp t f).msix = s.msix := rfl
@[simp] theorem State.modFp_host (s : State) (t : TileIx) (f : Fp → Fp) : (s.modFp t f).host = s.host := rfl
@[simp] theorem State.modFp_fns (s : State) (t : TileIx) (f : Fp → Fp) : (s.modFp t f).fns = s.fns := rfl
@[simp] theorem State.modFp_txns (s : State) (t : TileIx) (f : Fp → Fp) : (s.modFp t f).txns = s.txns := rfl
@[simp] theorem State.modFp_regions (s : State) (t : TileIx) (f : Fp → Fp) : (s.modFp t f).regions = s.regions := rfl
@[simp] theorem State.modFp_roles (s : State) (t : TileIx) (f : Fp → Fp) : (s.modFp t f).roles = s.roles := rfl
@[simp] theorem State.modFp_routes (s : State) (t : TileIx) (f : Fp → Fp) : (s.modFp t f).routes = s.routes := rfl
@[simp] theorem State.modFp_slices (s : State) (t : TileIx) (f : Fp → Fp) : (s.modFp t f).slices = s.slices := rfl
@[simp] theorem State.modFp_subs (s : State) (t : TileIx) (f : Fp → Fp) : (s.modFp t f).subs = s.subs := rfl
@[simp] theorem State.modFp_i3c (s : State) (t : TileIx) (f : Fp → Fp) : (s.modFp t f).i3c = s.i3c := rfl
@[simp] theorem State.modFp_tiles (s : State) (t : TileIx) (f : Fp → Fp) : (s.modFp t f).tiles = s.tiles := rfl
@[simp] theorem State.modFp_plan (s : State) (t : TileIx) (f : Fp → Fp) : (s.modFp t f).plan = { s.plan with fp := tput s.plan.fp t.val (f (s.fpOf t)) } := rfl
@[simp] theorem State.modFp_shadow (s : State) (t : TileIx) (f : Fp → Fp) : (s.modFp t f).shadow = s.shadow := rfl
@[simp] theorem State.modFp_ctxs (s : State) (t : TileIx) (f : Fp → Fp) : (s.modFp t f).ctxs = s.ctxs := rfl
@[simp] theorem State.modFp_agents (s : State) (t : TileIx) (f : Fp → Fp) : (s.modFp t f).agents = s.agents := rfl
@[simp] theorem State.modFp_bus (s : State) (t : TileIx) (f : Fp → Fp) : (s.modFp t f).bus = s.bus := rfl
@[simp] theorem State.modFp_bu (s : State) (t : TileIx) (f : Fp → Fp) : (s.modFp t f).bu = s.bu := rfl
@[simp] theorem State.modFp_ofd (s : State) (t : TileIx) (f : Fp → Fp) : (s.modFp t f).ofd = s.ofd := rfl
@[simp] theorem State.modFp_hbm (s : State) (t : TileIx) (f : Fp → Fp) : (s.modFp t f).hbm = s.hbm := rfl
@[simp] theorem State.modFp_esc (s : State) (t : TileIx) (f : Fp → Fp) : (s.modFp t f).esc = s.esc := rfl
@[simp] theorem State.modFp_test (s : State) (t : TileIx) (f : Fp → Fp) : (s.modFp t f).test = s.test := rfl
@[simp] theorem State.modFp_thm (s : State) (t : TileIx) (f : Fp → Fp) : (s.modFp t f).thm = s.thm := rfl
@[simp] theorem State.modFp_obs (s : State) (t : TileIx) (f : Fp → Fp) : (s.modFp t f).obs = s.obs := rfl
@[simp] theorem State.modFp_ports (s : State) (t : TileIx) (f : Fp → Fp) : (s.modFp t f).ports = s.ports := rfl
@[simp] theorem State.modFp_cmp (s : State) (t : TileIx) (f : Fp → Fp) : (s.modFp t f).cmp = s.cmp := rfl
@[simp] theorem State.modFp_nor (s : State) (t : TileIx) (f : Fp → Fp) : (s.modFp t f).nor = s.nor := rfl
@[simp] theorem State.modFp_free (s : State) (t : TileIx) (f : Fp → Fp) : (s.modFp t f).free = s.free := rfl
@[simp] theorem State.modFp_out (s : State) (t : TileIx) (f : Fp → Fp) : (s.modFp t f).out = s.out := rfl
@[simp] theorem State.modFp_pending (s : State) (t : TileIx) (f : Fp → Fp) : (s.modFp t f).pending = s.pending := rfl
/-! ### setAgent -/
@[simp] theorem State.setAgent_regs (s : State) (a : AgentIx) (x : Agent) : (s.setAgent a x).regs = s.regs := rfl
@[simp] theorem State.setAgent_paths (s : State) (a : AgentIx) (x : Agent) : (s.setAgent a x).paths = s.paths := rfl
@[simp] theorem State.setAgent_fused (s : State) (a : AgentIx) (x : Agent) : (s.setAgent a x).fused = s.fused := rfl
@[simp] theorem State.setAgent_sq (s : State) (a : AgentIx) (x : Agent) : (s.setAgent a x).sq = s.sq := rfl
@[simp] theorem State.setAgent_time (s : State) (a : AgentIx) (x : Agent) : (s.setAgent a x).time = s.time := rfl
@[simp] theorem State.setAgent_hl (s : State) (a : AgentIx) (x : Agent) : (s.setAgent a x).hl = s.hl := rfl
@[simp] theorem State.setAgent_pw (s : State) (a : AgentIx) (x : Agent) : (s.setAgent a x).pw = s.pw := rfl
@[simp] theorem State.setAgent_recd (s : State) (a : AgentIx) (x : Agent) : (s.setAgent a x).recd = s.recd := rfl
@[simp] theorem State.setAgent_msix (s : State) (a : AgentIx) (x : Agent) : (s.setAgent a x).msix = s.msix := rfl
@[simp] theorem State.setAgent_host (s : State) (a : AgentIx) (x : Agent) : (s.setAgent a x).host = s.host := rfl
@[simp] theorem State.setAgent_fns (s : State) (a : AgentIx) (x : Agent) : (s.setAgent a x).fns = s.fns := rfl
@[simp] theorem State.setAgent_txns (s : State) (a : AgentIx) (x : Agent) : (s.setAgent a x).txns = s.txns := rfl
@[simp] theorem State.setAgent_regions (s : State) (a : AgentIx) (x : Agent) : (s.setAgent a x).regions = s.regions := rfl
@[simp] theorem State.setAgent_roles (s : State) (a : AgentIx) (x : Agent) : (s.setAgent a x).roles = s.roles := rfl
@[simp] theorem State.setAgent_routes (s : State) (a : AgentIx) (x : Agent) : (s.setAgent a x).routes = s.routes := rfl
@[simp] theorem State.setAgent_slices (s : State) (a : AgentIx) (x : Agent) : (s.setAgent a x).slices = s.slices := rfl
@[simp] theorem State.setAgent_subs (s : State) (a : AgentIx) (x : Agent) : (s.setAgent a x).subs = s.subs := rfl
@[simp] theorem State.setAgent_i3c (s : State) (a : AgentIx) (x : Agent) : (s.setAgent a x).i3c = s.i3c := rfl
@[simp] theorem State.setAgent_tiles (s : State) (a : AgentIx) (x : Agent) : (s.setAgent a x).tiles = s.tiles := rfl
@[simp] theorem State.setAgent_plan (s : State) (a : AgentIx) (x : Agent) : (s.setAgent a x).plan = s.plan := rfl
@[simp] theorem State.setAgent_shadow (s : State) (a : AgentIx) (x : Agent) : (s.setAgent a x).shadow = s.shadow := rfl
@[simp] theorem State.setAgent_ctxs (s : State) (a : AgentIx) (x : Agent) : (s.setAgent a x).ctxs = s.ctxs := rfl
@[simp] theorem State.setAgent_agents (s : State) (a : AgentIx) (x : Agent) : (s.setAgent a x).agents = tput s.agents (agentKey a) x := rfl
@[simp] theorem State.setAgent_bus (s : State) (a : AgentIx) (x : Agent) : (s.setAgent a x).bus = s.bus := rfl
@[simp] theorem State.setAgent_bu (s : State) (a : AgentIx) (x : Agent) : (s.setAgent a x).bu = s.bu := rfl
@[simp] theorem State.setAgent_ofd (s : State) (a : AgentIx) (x : Agent) : (s.setAgent a x).ofd = s.ofd := rfl
@[simp] theorem State.setAgent_hbm (s : State) (a : AgentIx) (x : Agent) : (s.setAgent a x).hbm = s.hbm := rfl
@[simp] theorem State.setAgent_esc (s : State) (a : AgentIx) (x : Agent) : (s.setAgent a x).esc = s.esc := rfl
@[simp] theorem State.setAgent_test (s : State) (a : AgentIx) (x : Agent) : (s.setAgent a x).test = s.test := rfl
@[simp] theorem State.setAgent_thm (s : State) (a : AgentIx) (x : Agent) : (s.setAgent a x).thm = s.thm := rfl
@[simp] theorem State.setAgent_obs (s : State) (a : AgentIx) (x : Agent) : (s.setAgent a x).obs = s.obs := rfl
@[simp] theorem State.setAgent_ports (s : State) (a : AgentIx) (x : Agent) : (s.setAgent a x).ports = s.ports := rfl
@[simp] theorem State.setAgent_cmp (s : State) (a : AgentIx) (x : Agent) : (s.setAgent a x).cmp = s.cmp := rfl
@[simp] theorem State.setAgent_nor (s : State) (a : AgentIx) (x : Agent) : (s.setAgent a x).nor = s.nor := rfl
@[simp] theorem State.setAgent_free (s : State) (a : AgentIx) (x : Agent) : (s.setAgent a x).free = s.free := rfl
@[simp] theorem State.setAgent_out (s : State) (a : AgentIx) (x : Agent) : (s.setAgent a x).out = s.out := rfl
@[simp] theorem State.setAgent_pending (s : State) (a : AgentIx) (x : Agent) : (s.setAgent a x).pending = s.pending := rfl
/-! ### modAgent -/
@[simp] theorem State.modAgent_regs (s : State) (a : AgentIx) (f : Agent → Agent) : (s.modAgent a f).regs = s.regs := rfl
@[simp] theorem State.modAgent_paths (s : State) (a : AgentIx) (f : Agent → Agent) : (s.modAgent a f).paths = s.paths := rfl
@[simp] theorem State.modAgent_fused (s : State) (a : AgentIx) (f : Agent → Agent) : (s.modAgent a f).fused = s.fused := rfl
@[simp] theorem State.modAgent_sq (s : State) (a : AgentIx) (f : Agent → Agent) : (s.modAgent a f).sq = s.sq := rfl
@[simp] theorem State.modAgent_time (s : State) (a : AgentIx) (f : Agent → Agent) : (s.modAgent a f).time = s.time := rfl
@[simp] theorem State.modAgent_hl (s : State) (a : AgentIx) (f : Agent → Agent) : (s.modAgent a f).hl = s.hl := rfl
@[simp] theorem State.modAgent_pw (s : State) (a : AgentIx) (f : Agent → Agent) : (s.modAgent a f).pw = s.pw := rfl
@[simp] theorem State.modAgent_recd (s : State) (a : AgentIx) (f : Agent → Agent) : (s.modAgent a f).recd = s.recd := rfl
@[simp] theorem State.modAgent_msix (s : State) (a : AgentIx) (f : Agent → Agent) : (s.modAgent a f).msix = s.msix := rfl
@[simp] theorem State.modAgent_host (s : State) (a : AgentIx) (f : Agent → Agent) : (s.modAgent a f).host = s.host := rfl
@[simp] theorem State.modAgent_fns (s : State) (a : AgentIx) (f : Agent → Agent) : (s.modAgent a f).fns = s.fns := rfl
@[simp] theorem State.modAgent_txns (s : State) (a : AgentIx) (f : Agent → Agent) : (s.modAgent a f).txns = s.txns := rfl
@[simp] theorem State.modAgent_regions (s : State) (a : AgentIx) (f : Agent → Agent) : (s.modAgent a f).regions = s.regions := rfl
@[simp] theorem State.modAgent_roles (s : State) (a : AgentIx) (f : Agent → Agent) : (s.modAgent a f).roles = s.roles := rfl
@[simp] theorem State.modAgent_routes (s : State) (a : AgentIx) (f : Agent → Agent) : (s.modAgent a f).routes = s.routes := rfl
@[simp] theorem State.modAgent_slices (s : State) (a : AgentIx) (f : Agent → Agent) : (s.modAgent a f).slices = s.slices := rfl
@[simp] theorem State.modAgent_subs (s : State) (a : AgentIx) (f : Agent → Agent) : (s.modAgent a f).subs = s.subs := rfl
@[simp] theorem State.modAgent_i3c (s : State) (a : AgentIx) (f : Agent → Agent) : (s.modAgent a f).i3c = s.i3c := rfl
@[simp] theorem State.modAgent_tiles (s : State) (a : AgentIx) (f : Agent → Agent) : (s.modAgent a f).tiles = s.tiles := rfl
@[simp] theorem State.modAgent_plan (s : State) (a : AgentIx) (f : Agent → Agent) : (s.modAgent a f).plan = s.plan := rfl
@[simp] theorem State.modAgent_shadow (s : State) (a : AgentIx) (f : Agent → Agent) : (s.modAgent a f).shadow = s.shadow := rfl
@[simp] theorem State.modAgent_ctxs (s : State) (a : AgentIx) (f : Agent → Agent) : (s.modAgent a f).ctxs = s.ctxs := rfl
@[simp] theorem State.modAgent_agents (s : State) (a : AgentIx) (f : Agent → Agent) : (s.modAgent a f).agents = tput s.agents (agentKey a) (f (s.agent a)) := rfl
@[simp] theorem State.modAgent_bus (s : State) (a : AgentIx) (f : Agent → Agent) : (s.modAgent a f).bus = s.bus := rfl
@[simp] theorem State.modAgent_bu (s : State) (a : AgentIx) (f : Agent → Agent) : (s.modAgent a f).bu = s.bu := rfl
@[simp] theorem State.modAgent_ofd (s : State) (a : AgentIx) (f : Agent → Agent) : (s.modAgent a f).ofd = s.ofd := rfl
@[simp] theorem State.modAgent_hbm (s : State) (a : AgentIx) (f : Agent → Agent) : (s.modAgent a f).hbm = s.hbm := rfl
@[simp] theorem State.modAgent_esc (s : State) (a : AgentIx) (f : Agent → Agent) : (s.modAgent a f).esc = s.esc := rfl
@[simp] theorem State.modAgent_test (s : State) (a : AgentIx) (f : Agent → Agent) : (s.modAgent a f).test = s.test := rfl
@[simp] theorem State.modAgent_thm (s : State) (a : AgentIx) (f : Agent → Agent) : (s.modAgent a f).thm = s.thm := rfl
@[simp] theorem State.modAgent_obs (s : State) (a : AgentIx) (f : Agent → Agent) : (s.modAgent a f).obs = s.obs := rfl
@[simp] theorem State.modAgent_ports (s : State) (a : AgentIx) (f : Agent → Agent) : (s.modAgent a f).ports = s.ports := rfl
@[simp] theorem State.modAgent_cmp (s : State) (a : AgentIx) (f : Agent → Agent) : (s.modAgent a f).cmp = s.cmp := rfl
@[simp] theorem State.modAgent_nor (s : State) (a : AgentIx) (f : Agent → Agent) : (s.modAgent a f).nor = s.nor := rfl
@[simp] theorem State.modAgent_free (s : State) (a : AgentIx) (f : Agent → Agent) : (s.modAgent a f).free = s.free := rfl
@[simp] theorem State.modAgent_out (s : State) (a : AgentIx) (f : Agent → Agent) : (s.modAgent a f).out = s.out := rfl
@[simp] theorem State.modAgent_pending (s : State) (a : AgentIx) (f : Agent → Agent) : (s.modAgent a f).pending = s.pending := rfl
/-! ### setPort -/
@[simp] theorem State.setPort_regs (s : State) (p : PortIx) (x : Port) : (s.setPort p x).regs = s.regs := rfl
@[simp] theorem State.setPort_paths (s : State) (p : PortIx) (x : Port) : (s.setPort p x).paths = s.paths := rfl
@[simp] theorem State.setPort_fused (s : State) (p : PortIx) (x : Port) : (s.setPort p x).fused = s.fused := rfl
@[simp] theorem State.setPort_sq (s : State) (p : PortIx) (x : Port) : (s.setPort p x).sq = s.sq := rfl
@[simp] theorem State.setPort_time (s : State) (p : PortIx) (x : Port) : (s.setPort p x).time = s.time := rfl
@[simp] theorem State.setPort_hl (s : State) (p : PortIx) (x : Port) : (s.setPort p x).hl = s.hl := rfl
@[simp] theorem State.setPort_pw (s : State) (p : PortIx) (x : Port) : (s.setPort p x).pw = s.pw := rfl
@[simp] theorem State.setPort_recd (s : State) (p : PortIx) (x : Port) : (s.setPort p x).recd = s.recd := rfl
@[simp] theorem State.setPort_msix (s : State) (p : PortIx) (x : Port) : (s.setPort p x).msix = s.msix := rfl
@[simp] theorem State.setPort_host (s : State) (p : PortIx) (x : Port) : (s.setPort p x).host = s.host := rfl
@[simp] theorem State.setPort_fns (s : State) (p : PortIx) (x : Port) : (s.setPort p x).fns = s.fns := rfl
@[simp] theorem State.setPort_txns (s : State) (p : PortIx) (x : Port) : (s.setPort p x).txns = s.txns := rfl
@[simp] theorem State.setPort_regions (s : State) (p : PortIx) (x : Port) : (s.setPort p x).regions = s.regions := rfl
@[simp] theorem State.setPort_roles (s : State) (p : PortIx) (x : Port) : (s.setPort p x).roles = s.roles := rfl
@[simp] theorem State.setPort_routes (s : State) (p : PortIx) (x : Port) : (s.setPort p x).routes = s.routes := rfl
@[simp] theorem State.setPort_slices (s : State) (p : PortIx) (x : Port) : (s.setPort p x).slices = s.slices := rfl
@[simp] theorem State.setPort_subs (s : State) (p : PortIx) (x : Port) : (s.setPort p x).subs = s.subs := rfl
@[simp] theorem State.setPort_i3c (s : State) (p : PortIx) (x : Port) : (s.setPort p x).i3c = s.i3c := rfl
@[simp] theorem State.setPort_tiles (s : State) (p : PortIx) (x : Port) : (s.setPort p x).tiles = s.tiles := rfl
@[simp] theorem State.setPort_plan (s : State) (p : PortIx) (x : Port) : (s.setPort p x).plan = s.plan := rfl
@[simp] theorem State.setPort_shadow (s : State) (p : PortIx) (x : Port) : (s.setPort p x).shadow = s.shadow := rfl
@[simp] theorem State.setPort_ctxs (s : State) (p : PortIx) (x : Port) : (s.setPort p x).ctxs = s.ctxs := rfl
@[simp] theorem State.setPort_agents (s : State) (p : PortIx) (x : Port) : (s.setPort p x).agents = s.agents := rfl
@[simp] theorem State.setPort_bus (s : State) (p : PortIx) (x : Port) : (s.setPort p x).bus = s.bus := rfl
@[simp] theorem State.setPort_bu (s : State) (p : PortIx) (x : Port) : (s.setPort p x).bu = s.bu := rfl
@[simp] theorem State.setPort_ofd (s : State) (p : PortIx) (x : Port) : (s.setPort p x).ofd = s.ofd := rfl
@[simp] theorem State.setPort_hbm (s : State) (p : PortIx) (x : Port) : (s.setPort p x).hbm = s.hbm := rfl
@[simp] theorem State.setPort_esc (s : State) (p : PortIx) (x : Port) : (s.setPort p x).esc = s.esc := rfl
@[simp] theorem State.setPort_test (s : State) (p : PortIx) (x : Port) : (s.setPort p x).test = s.test := rfl
@[simp] theorem State.setPort_thm (s : State) (p : PortIx) (x : Port) : (s.setPort p x).thm = s.thm := rfl
@[simp] theorem State.setPort_obs (s : State) (p : PortIx) (x : Port) : (s.setPort p x).obs = s.obs := rfl
@[simp] theorem State.setPort_ports (s : State) (p : PortIx) (x : Port) : (s.setPort p x).ports = tput s.ports p.val x := rfl
@[simp] theorem State.setPort_cmp (s : State) (p : PortIx) (x : Port) : (s.setPort p x).cmp = s.cmp := rfl
@[simp] theorem State.setPort_nor (s : State) (p : PortIx) (x : Port) : (s.setPort p x).nor = s.nor := rfl
@[simp] theorem State.setPort_free (s : State) (p : PortIx) (x : Port) : (s.setPort p x).free = s.free := rfl
@[simp] theorem State.setPort_out (s : State) (p : PortIx) (x : Port) : (s.setPort p x).out = s.out := rfl
@[simp] theorem State.setPort_pending (s : State) (p : PortIx) (x : Port) : (s.setPort p x).pending = s.pending := rfl
/-! ### modPort -/
@[simp] theorem State.modPort_regs (s : State) (p : PortIx) (f : Port → Port) : (s.modPort p f).regs = s.regs := rfl
@[simp] theorem State.modPort_paths (s : State) (p : PortIx) (f : Port → Port) : (s.modPort p f).paths = s.paths := rfl
@[simp] theorem State.modPort_fused (s : State) (p : PortIx) (f : Port → Port) : (s.modPort p f).fused = s.fused := rfl
@[simp] theorem State.modPort_sq (s : State) (p : PortIx) (f : Port → Port) : (s.modPort p f).sq = s.sq := rfl
@[simp] theorem State.modPort_time (s : State) (p : PortIx) (f : Port → Port) : (s.modPort p f).time = s.time := rfl
@[simp] theorem State.modPort_hl (s : State) (p : PortIx) (f : Port → Port) : (s.modPort p f).hl = s.hl := rfl
@[simp] theorem State.modPort_pw (s : State) (p : PortIx) (f : Port → Port) : (s.modPort p f).pw = s.pw := rfl
@[simp] theorem State.modPort_recd (s : State) (p : PortIx) (f : Port → Port) : (s.modPort p f).recd = s.recd := rfl
@[simp] theorem State.modPort_msix (s : State) (p : PortIx) (f : Port → Port) : (s.modPort p f).msix = s.msix := rfl
@[simp] theorem State.modPort_host (s : State) (p : PortIx) (f : Port → Port) : (s.modPort p f).host = s.host := rfl
@[simp] theorem State.modPort_fns (s : State) (p : PortIx) (f : Port → Port) : (s.modPort p f).fns = s.fns := rfl
@[simp] theorem State.modPort_txns (s : State) (p : PortIx) (f : Port → Port) : (s.modPort p f).txns = s.txns := rfl
@[simp] theorem State.modPort_regions (s : State) (p : PortIx) (f : Port → Port) : (s.modPort p f).regions = s.regions := rfl
@[simp] theorem State.modPort_roles (s : State) (p : PortIx) (f : Port → Port) : (s.modPort p f).roles = s.roles := rfl
@[simp] theorem State.modPort_routes (s : State) (p : PortIx) (f : Port → Port) : (s.modPort p f).routes = s.routes := rfl
@[simp] theorem State.modPort_slices (s : State) (p : PortIx) (f : Port → Port) : (s.modPort p f).slices = s.slices := rfl
@[simp] theorem State.modPort_subs (s : State) (p : PortIx) (f : Port → Port) : (s.modPort p f).subs = s.subs := rfl
@[simp] theorem State.modPort_i3c (s : State) (p : PortIx) (f : Port → Port) : (s.modPort p f).i3c = s.i3c := rfl
@[simp] theorem State.modPort_tiles (s : State) (p : PortIx) (f : Port → Port) : (s.modPort p f).tiles = s.tiles := rfl
@[simp] theorem State.modPort_plan (s : State) (p : PortIx) (f : Port → Port) : (s.modPort p f).plan = s.plan := rfl
@[simp] theorem State.modPort_shadow (s : State) (p : PortIx) (f : Port → Port) : (s.modPort p f).shadow = s.shadow := rfl
@[simp] theorem State.modPort_ctxs (s : State) (p : PortIx) (f : Port → Port) : (s.modPort p f).ctxs = s.ctxs := rfl
@[simp] theorem State.modPort_agents (s : State) (p : PortIx) (f : Port → Port) : (s.modPort p f).agents = s.agents := rfl
@[simp] theorem State.modPort_bus (s : State) (p : PortIx) (f : Port → Port) : (s.modPort p f).bus = s.bus := rfl
@[simp] theorem State.modPort_bu (s : State) (p : PortIx) (f : Port → Port) : (s.modPort p f).bu = s.bu := rfl
@[simp] theorem State.modPort_ofd (s : State) (p : PortIx) (f : Port → Port) : (s.modPort p f).ofd = s.ofd := rfl
@[simp] theorem State.modPort_hbm (s : State) (p : PortIx) (f : Port → Port) : (s.modPort p f).hbm = s.hbm := rfl
@[simp] theorem State.modPort_esc (s : State) (p : PortIx) (f : Port → Port) : (s.modPort p f).esc = s.esc := rfl
@[simp] theorem State.modPort_test (s : State) (p : PortIx) (f : Port → Port) : (s.modPort p f).test = s.test := rfl
@[simp] theorem State.modPort_thm (s : State) (p : PortIx) (f : Port → Port) : (s.modPort p f).thm = s.thm := rfl
@[simp] theorem State.modPort_obs (s : State) (p : PortIx) (f : Port → Port) : (s.modPort p f).obs = s.obs := rfl
@[simp] theorem State.modPort_ports (s : State) (p : PortIx) (f : Port → Port) : (s.modPort p f).ports = tput s.ports p.val (f (s.port p)) := rfl
@[simp] theorem State.modPort_cmp (s : State) (p : PortIx) (f : Port → Port) : (s.modPort p f).cmp = s.cmp := rfl
@[simp] theorem State.modPort_nor (s : State) (p : PortIx) (f : Port → Port) : (s.modPort p f).nor = s.nor := rfl
@[simp] theorem State.modPort_free (s : State) (p : PortIx) (f : Port → Port) : (s.modPort p f).free = s.free := rfl
@[simp] theorem State.modPort_out (s : State) (p : PortIx) (f : Port → Port) : (s.modPort p f).out = s.out := rfl
@[simp] theorem State.modPort_pending (s : State) (p : PortIx) (f : Port → Port) : (s.modPort p f).pending = s.pending := rfl
/-! ### setStack -/
@[simp] theorem State.setStack_regs (s : State) (n : StackIx) (x : Stack) : (s.setStack n x).regs = s.regs := rfl
@[simp] theorem State.setStack_paths (s : State) (n : StackIx) (x : Stack) : (s.setStack n x).paths = s.paths := rfl
@[simp] theorem State.setStack_fused (s : State) (n : StackIx) (x : Stack) : (s.setStack n x).fused = s.fused := rfl
@[simp] theorem State.setStack_sq (s : State) (n : StackIx) (x : Stack) : (s.setStack n x).sq = s.sq := rfl
@[simp] theorem State.setStack_time (s : State) (n : StackIx) (x : Stack) : (s.setStack n x).time = s.time := rfl
@[simp] theorem State.setStack_hl (s : State) (n : StackIx) (x : Stack) : (s.setStack n x).hl = s.hl := rfl
@[simp] theorem State.setStack_pw (s : State) (n : StackIx) (x : Stack) : (s.setStack n x).pw = s.pw := rfl
@[simp] theorem State.setStack_recd (s : State) (n : StackIx) (x : Stack) : (s.setStack n x).recd = s.recd := rfl
@[simp] theorem State.setStack_msix (s : State) (n : StackIx) (x : Stack) : (s.setStack n x).msix = s.msix := rfl
@[simp] theorem State.setStack_host (s : State) (n : StackIx) (x : Stack) : (s.setStack n x).host = s.host := rfl
@[simp] theorem State.setStack_fns (s : State) (n : StackIx) (x : Stack) : (s.setStack n x).fns = s.fns := rfl
@[simp] theorem State.setStack_txns (s : State) (n : StackIx) (x : Stack) : (s.setStack n x).txns = s.txns := rfl
@[simp] theorem State.setStack_regions (s : State) (n : StackIx) (x : Stack) : (s.setStack n x).regions = s.regions := rfl
@[simp] theorem State.setStack_roles (s : State) (n : StackIx) (x : Stack) : (s.setStack n x).roles = s.roles := rfl
@[simp] theorem State.setStack_routes (s : State) (n : StackIx) (x : Stack) : (s.setStack n x).routes = s.routes := rfl
@[simp] theorem State.setStack_slices (s : State) (n : StackIx) (x : Stack) : (s.setStack n x).slices = s.slices := rfl
@[simp] theorem State.setStack_subs (s : State) (n : StackIx) (x : Stack) : (s.setStack n x).subs = s.subs := rfl
@[simp] theorem State.setStack_i3c (s : State) (n : StackIx) (x : Stack) : (s.setStack n x).i3c = s.i3c := rfl
@[simp] theorem State.setStack_tiles (s : State) (n : StackIx) (x : Stack) : (s.setStack n x).tiles = s.tiles := rfl
@[simp] theorem State.setStack_plan (s : State) (n : StackIx) (x : Stack) : (s.setStack n x).plan = s.plan := rfl
@[simp] theorem State.setStack_shadow (s : State) (n : StackIx) (x : Stack) : (s.setStack n x).shadow = s.shadow := rfl
@[simp] theorem State.setStack_ctxs (s : State) (n : StackIx) (x : Stack) : (s.setStack n x).ctxs = s.ctxs := rfl
@[simp] theorem State.setStack_agents (s : State) (n : StackIx) (x : Stack) : (s.setStack n x).agents = s.agents := rfl
@[simp] theorem State.setStack_bus (s : State) (n : StackIx) (x : Stack) : (s.setStack n x).bus = s.bus := rfl
@[simp] theorem State.setStack_bu (s : State) (n : StackIx) (x : Stack) : (s.setStack n x).bu = s.bu := rfl
@[simp] theorem State.setStack_ofd (s : State) (n : StackIx) (x : Stack) : (s.setStack n x).ofd = s.ofd := rfl
@[simp] theorem State.setStack_hbm (s : State) (n : StackIx) (x : Stack) : (s.setStack n x).hbm = tput s.hbm n.val x := rfl
@[simp] theorem State.setStack_esc (s : State) (n : StackIx) (x : Stack) : (s.setStack n x).esc = s.esc := rfl
@[simp] theorem State.setStack_test (s : State) (n : StackIx) (x : Stack) : (s.setStack n x).test = s.test := rfl
@[simp] theorem State.setStack_thm (s : State) (n : StackIx) (x : Stack) : (s.setStack n x).thm = s.thm := rfl
@[simp] theorem State.setStack_obs (s : State) (n : StackIx) (x : Stack) : (s.setStack n x).obs = s.obs := rfl
@[simp] theorem State.setStack_ports (s : State) (n : StackIx) (x : Stack) : (s.setStack n x).ports = s.ports := rfl
@[simp] theorem State.setStack_cmp (s : State) (n : StackIx) (x : Stack) : (s.setStack n x).cmp = s.cmp := rfl
@[simp] theorem State.setStack_nor (s : State) (n : StackIx) (x : Stack) : (s.setStack n x).nor = s.nor := rfl
@[simp] theorem State.setStack_free (s : State) (n : StackIx) (x : Stack) : (s.setStack n x).free = s.free := rfl
@[simp] theorem State.setStack_out (s : State) (n : StackIx) (x : Stack) : (s.setStack n x).out = s.out := rfl
@[simp] theorem State.setStack_pending (s : State) (n : StackIx) (x : Stack) : (s.setStack n x).pending = s.pending := rfl
/-! ### modStack -/
@[simp] theorem State.modStack_regs (s : State) (n : StackIx) (f : Stack → Stack) : (s.modStack n f).regs = s.regs := rfl
@[simp] theorem State.modStack_paths (s : State) (n : StackIx) (f : Stack → Stack) : (s.modStack n f).paths = s.paths := rfl
@[simp] theorem State.modStack_fused (s : State) (n : StackIx) (f : Stack → Stack) : (s.modStack n f).fused = s.fused := rfl
@[simp] theorem State.modStack_sq (s : State) (n : StackIx) (f : Stack → Stack) : (s.modStack n f).sq = s.sq := rfl
@[simp] theorem State.modStack_time (s : State) (n : StackIx) (f : Stack → Stack) : (s.modStack n f).time = s.time := rfl
@[simp] theorem State.modStack_hl (s : State) (n : StackIx) (f : Stack → Stack) : (s.modStack n f).hl = s.hl := rfl
@[simp] theorem State.modStack_pw (s : State) (n : StackIx) (f : Stack → Stack) : (s.modStack n f).pw = s.pw := rfl
@[simp] theorem State.modStack_recd (s : State) (n : StackIx) (f : Stack → Stack) : (s.modStack n f).recd = s.recd := rfl
@[simp] theorem State.modStack_msix (s : State) (n : StackIx) (f : Stack → Stack) : (s.modStack n f).msix = s.msix := rfl
@[simp] theorem State.modStack_host (s : State) (n : StackIx) (f : Stack → Stack) : (s.modStack n f).host = s.host := rfl
@[simp] theorem State.modStack_fns (s : State) (n : StackIx) (f : Stack → Stack) : (s.modStack n f).fns = s.fns := rfl
@[simp] theorem State.modStack_txns (s : State) (n : StackIx) (f : Stack → Stack) : (s.modStack n f).txns = s.txns := rfl
@[simp] theorem State.modStack_regions (s : State) (n : StackIx) (f : Stack → Stack) : (s.modStack n f).regions = s.regions := rfl
@[simp] theorem State.modStack_roles (s : State) (n : StackIx) (f : Stack → Stack) : (s.modStack n f).roles = s.roles := rfl
@[simp] theorem State.modStack_routes (s : State) (n : StackIx) (f : Stack → Stack) : (s.modStack n f).routes = s.routes := rfl
@[simp] theorem State.modStack_slices (s : State) (n : StackIx) (f : Stack → Stack) : (s.modStack n f).slices = s.slices := rfl
@[simp] theorem State.modStack_subs (s : State) (n : StackIx) (f : Stack → Stack) : (s.modStack n f).subs = s.subs := rfl
@[simp] theorem State.modStack_i3c (s : State) (n : StackIx) (f : Stack → Stack) : (s.modStack n f).i3c = s.i3c := rfl
@[simp] theorem State.modStack_tiles (s : State) (n : StackIx) (f : Stack → Stack) : (s.modStack n f).tiles = s.tiles := rfl
@[simp] theorem State.modStack_plan (s : State) (n : StackIx) (f : Stack → Stack) : (s.modStack n f).plan = s.plan := rfl
@[simp] theorem State.modStack_shadow (s : State) (n : StackIx) (f : Stack → Stack) : (s.modStack n f).shadow = s.shadow := rfl
@[simp] theorem State.modStack_ctxs (s : State) (n : StackIx) (f : Stack → Stack) : (s.modStack n f).ctxs = s.ctxs := rfl
@[simp] theorem State.modStack_agents (s : State) (n : StackIx) (f : Stack → Stack) : (s.modStack n f).agents = s.agents := rfl
@[simp] theorem State.modStack_bus (s : State) (n : StackIx) (f : Stack → Stack) : (s.modStack n f).bus = s.bus := rfl
@[simp] theorem State.modStack_bu (s : State) (n : StackIx) (f : Stack → Stack) : (s.modStack n f).bu = s.bu := rfl
@[simp] theorem State.modStack_ofd (s : State) (n : StackIx) (f : Stack → Stack) : (s.modStack n f).ofd = s.ofd := rfl
@[simp] theorem State.modStack_hbm (s : State) (n : StackIx) (f : Stack → Stack) : (s.modStack n f).hbm = tput s.hbm n.val (f (s.stack n)) := rfl
@[simp] theorem State.modStack_esc (s : State) (n : StackIx) (f : Stack → Stack) : (s.modStack n f).esc = s.esc := rfl
@[simp] theorem State.modStack_test (s : State) (n : StackIx) (f : Stack → Stack) : (s.modStack n f).test = s.test := rfl
@[simp] theorem State.modStack_thm (s : State) (n : StackIx) (f : Stack → Stack) : (s.modStack n f).thm = s.thm := rfl
@[simp] theorem State.modStack_obs (s : State) (n : StackIx) (f : Stack → Stack) : (s.modStack n f).obs = s.obs := rfl
@[simp] theorem State.modStack_ports (s : State) (n : StackIx) (f : Stack → Stack) : (s.modStack n f).ports = s.ports := rfl
@[simp] theorem State.modStack_cmp (s : State) (n : StackIx) (f : Stack → Stack) : (s.modStack n f).cmp = s.cmp := rfl
@[simp] theorem State.modStack_nor (s : State) (n : StackIx) (f : Stack → Stack) : (s.modStack n f).nor = s.nor := rfl
@[simp] theorem State.modStack_free (s : State) (n : StackIx) (f : Stack → Stack) : (s.modStack n f).free = s.free := rfl
@[simp] theorem State.modStack_out (s : State) (n : StackIx) (f : Stack → Stack) : (s.modStack n f).out = s.out := rfl
@[simp] theorem State.modStack_pending (s : State) (n : StackIx) (f : Stack → Stack) : (s.modStack n f).pending = s.pending := rfl
/-! ### modPlan -/
@[simp] theorem State.modPlan_regs (s : State) (f : Plan → Plan) : (s.modPlan f).regs = s.regs := rfl
@[simp] theorem State.modPlan_paths (s : State) (f : Plan → Plan) : (s.modPlan f).paths = s.paths := rfl
@[simp] theorem State.modPlan_fused (s : State) (f : Plan → Plan) : (s.modPlan f).fused = s.fused := rfl
@[simp] theorem State.modPlan_sq (s : State) (f : Plan → Plan) : (s.modPlan f).sq = s.sq := rfl
@[simp] theorem State.modPlan_time (s : State) (f : Plan → Plan) : (s.modPlan f).time = s.time := rfl
@[simp] theorem State.modPlan_hl (s : State) (f : Plan → Plan) : (s.modPlan f).hl = s.hl := rfl
@[simp] theorem State.modPlan_pw (s : State) (f : Plan → Plan) : (s.modPlan f).pw = s.pw := rfl
@[simp] theorem State.modPlan_recd (s : State) (f : Plan → Plan) : (s.modPlan f).recd = s.recd := rfl
@[simp] theorem State.modPlan_msix (s : State) (f : Plan → Plan) : (s.modPlan f).msix = s.msix := rfl
@[simp] theorem State.modPlan_host (s : State) (f : Plan → Plan) : (s.modPlan f).host = s.host := rfl
@[simp] theorem State.modPlan_fns (s : State) (f : Plan → Plan) : (s.modPlan f).fns = s.fns := rfl
@[simp] theorem State.modPlan_txns (s : State) (f : Plan → Plan) : (s.modPlan f).txns = s.txns := rfl
@[simp] theorem State.modPlan_regions (s : State) (f : Plan → Plan) : (s.modPlan f).regions = s.regions := rfl
@[simp] theorem State.modPlan_roles (s : State) (f : Plan → Plan) : (s.modPlan f).roles = s.roles := rfl
@[simp] theorem State.modPlan_routes (s : State) (f : Plan → Plan) : (s.modPlan f).routes = s.routes := rfl
@[simp] theorem State.modPlan_slices (s : State) (f : Plan → Plan) : (s.modPlan f).slices = s.slices := rfl
@[simp] theorem State.modPlan_subs (s : State) (f : Plan → Plan) : (s.modPlan f).subs = s.subs := rfl
@[simp] theorem State.modPlan_i3c (s : State) (f : Plan → Plan) : (s.modPlan f).i3c = s.i3c := rfl
@[simp] theorem State.modPlan_tiles (s : State) (f : Plan → Plan) : (s.modPlan f).tiles = s.tiles := rfl
@[simp] theorem State.modPlan_plan (s : State) (f : Plan → Plan) : (s.modPlan f).plan = f s.plan := rfl
@[simp] theorem State.modPlan_shadow (s : State) (f : Plan → Plan) : (s.modPlan f).shadow = s.shadow := rfl
@[simp] theorem State.modPlan_ctxs (s : State) (f : Plan → Plan) : (s.modPlan f).ctxs = s.ctxs := rfl
@[simp] theorem State.modPlan_agents (s : State) (f : Plan → Plan) : (s.modPlan f).agents = s.agents := rfl
@[simp] theorem State.modPlan_bus (s : State) (f : Plan → Plan) : (s.modPlan f).bus = s.bus := rfl
@[simp] theorem State.modPlan_bu (s : State) (f : Plan → Plan) : (s.modPlan f).bu = s.bu := rfl
@[simp] theorem State.modPlan_ofd (s : State) (f : Plan → Plan) : (s.modPlan f).ofd = s.ofd := rfl
@[simp] theorem State.modPlan_hbm (s : State) (f : Plan → Plan) : (s.modPlan f).hbm = s.hbm := rfl
@[simp] theorem State.modPlan_esc (s : State) (f : Plan → Plan) : (s.modPlan f).esc = s.esc := rfl
@[simp] theorem State.modPlan_test (s : State) (f : Plan → Plan) : (s.modPlan f).test = s.test := rfl
@[simp] theorem State.modPlan_thm (s : State) (f : Plan → Plan) : (s.modPlan f).thm = s.thm := rfl
@[simp] theorem State.modPlan_obs (s : State) (f : Plan → Plan) : (s.modPlan f).obs = s.obs := rfl
@[simp] theorem State.modPlan_ports (s : State) (f : Plan → Plan) : (s.modPlan f).ports = s.ports := rfl
@[simp] theorem State.modPlan_cmp (s : State) (f : Plan → Plan) : (s.modPlan f).cmp = s.cmp := rfl
@[simp] theorem State.modPlan_nor (s : State) (f : Plan → Plan) : (s.modPlan f).nor = s.nor := rfl
@[simp] theorem State.modPlan_free (s : State) (f : Plan → Plan) : (s.modPlan f).free = s.free := rfl
@[simp] theorem State.modPlan_out (s : State) (f : Plan → Plan) : (s.modPlan f).out = s.out := rfl
@[simp] theorem State.modPlan_pending (s : State) (f : Plan → Plan) : (s.modPlan f).pending = s.pending := rfl
/-! ### modRec -/
@[simp] theorem State.modRec_regs (s : State) (f : Recorder → Recorder) : (s.modRec f).regs = s.regs := rfl
@[simp] theorem State.modRec_paths (s : State) (f : Recorder → Recorder) : (s.modRec f).paths = s.paths := rfl
@[simp] theorem State.modRec_fused (s : State) (f : Recorder → Recorder) : (s.modRec f).fused = s.fused := rfl
@[simp] theorem State.modRec_sq (s : State) (f : Recorder → Recorder) : (s.modRec f).sq = s.sq := rfl
@[simp] theorem State.modRec_time (s : State) (f : Recorder → Recorder) : (s.modRec f).time = s.time := rfl
@[simp] theorem State.modRec_hl (s : State) (f : Recorder → Recorder) : (s.modRec f).hl = s.hl := rfl
@[simp] theorem State.modRec_pw (s : State) (f : Recorder → Recorder) : (s.modRec f).pw = s.pw := rfl
@[simp] theorem State.modRec_recd (s : State) (f : Recorder → Recorder) : (s.modRec f).recd = f s.recd := rfl
@[simp] theorem State.modRec_msix (s : State) (f : Recorder → Recorder) : (s.modRec f).msix = s.msix := rfl
@[simp] theorem State.modRec_host (s : State) (f : Recorder → Recorder) : (s.modRec f).host = s.host := rfl
@[simp] theorem State.modRec_fns (s : State) (f : Recorder → Recorder) : (s.modRec f).fns = s.fns := rfl
@[simp] theorem State.modRec_txns (s : State) (f : Recorder → Recorder) : (s.modRec f).txns = s.txns := rfl
@[simp] theorem State.modRec_regions (s : State) (f : Recorder → Recorder) : (s.modRec f).regions = s.regions := rfl
@[simp] theorem State.modRec_roles (s : State) (f : Recorder → Recorder) : (s.modRec f).roles = s.roles := rfl
@[simp] theorem State.modRec_routes (s : State) (f : Recorder → Recorder) : (s.modRec f).routes = s.routes := rfl
@[simp] theorem State.modRec_slices (s : State) (f : Recorder → Recorder) : (s.modRec f).slices = s.slices := rfl
@[simp] theorem State.modRec_subs (s : State) (f : Recorder → Recorder) : (s.modRec f).subs = s.subs := rfl
@[simp] theorem State.modRec_i3c (s : State) (f : Recorder → Recorder) : (s.modRec f).i3c = s.i3c := rfl
@[simp] theorem State.modRec_tiles (s : State) (f : Recorder → Recorder) : (s.modRec f).tiles = s.tiles := rfl
@[simp] theorem State.modRec_plan (s : State) (f : Recorder → Recorder) : (s.modRec f).plan = s.plan := rfl
@[simp] theorem State.modRec_shadow (s : State) (f : Recorder → Recorder) : (s.modRec f).shadow = s.shadow := rfl
@[simp] theorem State.modRec_ctxs (s : State) (f : Recorder → Recorder) : (s.modRec f).ctxs = s.ctxs := rfl
@[simp] theorem State.modRec_agents (s : State) (f : Recorder → Recorder) : (s.modRec f).agents = s.agents := rfl
@[simp] theorem State.modRec_bus (s : State) (f : Recorder → Recorder) : (s.modRec f).bus = s.bus := rfl
@[simp] theorem State.modRec_bu (s : State) (f : Recorder → Recorder) : (s.modRec f).bu = s.bu := rfl
@[simp] theorem State.modRec_ofd (s : State) (f : Recorder → Recorder) : (s.modRec f).ofd = s.ofd := rfl
@[simp] theorem State.modRec_hbm (s : State) (f : Recorder → Recorder) : (s.modRec f).hbm = s.hbm := rfl
@[simp] theorem State.modRec_esc (s : State) (f : Recorder → Recorder) : (s.modRec f).esc = s.esc := rfl
@[simp] theorem State.modRec_test (s : State) (f : Recorder → Recorder) : (s.modRec f).test = s.test := rfl
@[simp] theorem State.modRec_thm (s : State) (f : Recorder → Recorder) : (s.modRec f).thm = s.thm := rfl
@[simp] theorem State.modRec_obs (s : State) (f : Recorder → Recorder) : (s.modRec f).obs = s.obs := rfl
@[simp] theorem State.modRec_ports (s : State) (f : Recorder → Recorder) : (s.modRec f).ports = s.ports := rfl
@[simp] theorem State.modRec_cmp (s : State) (f : Recorder → Recorder) : (s.modRec f).cmp = s.cmp := rfl
@[simp] theorem State.modRec_nor (s : State) (f : Recorder → Recorder) : (s.modRec f).nor = s.nor := rfl
@[simp] theorem State.modRec_free (s : State) (f : Recorder → Recorder) : (s.modRec f).free = s.free := rfl
@[simp] theorem State.modRec_out (s : State) (f : Recorder → Recorder) : (s.modRec f).out = s.out := rfl
@[simp] theorem State.modRec_pending (s : State) (f : Recorder → Recorder) : (s.modRec f).pending = s.pending := rfl
/-! ### modShadow -/
@[simp] theorem State.modShadow_regs (s : State) (f : Shadow → Shadow) : (s.modShadow f).regs = s.regs := rfl
@[simp] theorem State.modShadow_paths (s : State) (f : Shadow → Shadow) : (s.modShadow f).paths = s.paths := rfl
@[simp] theorem State.modShadow_fused (s : State) (f : Shadow → Shadow) : (s.modShadow f).fused = s.fused := rfl
@[simp] theorem State.modShadow_sq (s : State) (f : Shadow → Shadow) : (s.modShadow f).sq = s.sq := rfl
@[simp] theorem State.modShadow_time (s : State) (f : Shadow → Shadow) : (s.modShadow f).time = s.time := rfl
@[simp] theorem State.modShadow_hl (s : State) (f : Shadow → Shadow) : (s.modShadow f).hl = s.hl := rfl
@[simp] theorem State.modShadow_pw (s : State) (f : Shadow → Shadow) : (s.modShadow f).pw = s.pw := rfl
@[simp] theorem State.modShadow_recd (s : State) (f : Shadow → Shadow) : (s.modShadow f).recd = s.recd := rfl
@[simp] theorem State.modShadow_msix (s : State) (f : Shadow → Shadow) : (s.modShadow f).msix = s.msix := rfl
@[simp] theorem State.modShadow_host (s : State) (f : Shadow → Shadow) : (s.modShadow f).host = s.host := rfl
@[simp] theorem State.modShadow_fns (s : State) (f : Shadow → Shadow) : (s.modShadow f).fns = s.fns := rfl
@[simp] theorem State.modShadow_txns (s : State) (f : Shadow → Shadow) : (s.modShadow f).txns = s.txns := rfl
@[simp] theorem State.modShadow_regions (s : State) (f : Shadow → Shadow) : (s.modShadow f).regions = s.regions := rfl
@[simp] theorem State.modShadow_roles (s : State) (f : Shadow → Shadow) : (s.modShadow f).roles = s.roles := rfl
@[simp] theorem State.modShadow_routes (s : State) (f : Shadow → Shadow) : (s.modShadow f).routes = s.routes := rfl
@[simp] theorem State.modShadow_slices (s : State) (f : Shadow → Shadow) : (s.modShadow f).slices = s.slices := rfl
@[simp] theorem State.modShadow_subs (s : State) (f : Shadow → Shadow) : (s.modShadow f).subs = s.subs := rfl
@[simp] theorem State.modShadow_i3c (s : State) (f : Shadow → Shadow) : (s.modShadow f).i3c = s.i3c := rfl
@[simp] theorem State.modShadow_tiles (s : State) (f : Shadow → Shadow) : (s.modShadow f).tiles = s.tiles := rfl
@[simp] theorem State.modShadow_plan (s : State) (f : Shadow → Shadow) : (s.modShadow f).plan = s.plan := rfl
@[simp] theorem State.modShadow_shadow (s : State) (f : Shadow → Shadow) : (s.modShadow f).shadow = f s.shadow := rfl
@[simp] theorem State.modShadow_ctxs (s : State) (f : Shadow → Shadow) : (s.modShadow f).ctxs = s.ctxs := rfl
@[simp] theorem State.modShadow_agents (s : State) (f : Shadow → Shadow) : (s.modShadow f).agents = s.agents := rfl
@[simp] theorem State.modShadow_bus (s : State) (f : Shadow → Shadow) : (s.modShadow f).bus = s.bus := rfl
@[simp] theorem State.modShadow_bu (s : State) (f : Shadow → Shadow) : (s.modShadow f).bu = s.bu := rfl
@[simp] theorem State.modShadow_ofd (s : State) (f : Shadow → Shadow) : (s.modShadow f).ofd = s.ofd := rfl
@[simp] theorem State.modShadow_hbm (s : State) (f : Shadow → Shadow) : (s.modShadow f).hbm = s.hbm := rfl
@[simp] theorem State.modShadow_esc (s : State) (f : Shadow → Shadow) : (s.modShadow f).esc = s.esc := rfl
@[simp] theorem State.modShadow_test (s : State) (f : Shadow → Shadow) : (s.modShadow f).test = s.test := rfl
@[simp] theorem State.modShadow_thm (s : State) (f : Shadow → Shadow) : (s.modShadow f).thm = s.thm := rfl
@[simp] theorem State.modShadow_obs (s : State) (f : Shadow → Shadow) : (s.modShadow f).obs = s.obs := rfl
@[simp] theorem State.modShadow_ports (s : State) (f : Shadow → Shadow) : (s.modShadow f).ports = s.ports := rfl
@[simp] theorem State.modShadow_cmp (s : State) (f : Shadow → Shadow) : (s.modShadow f).cmp = s.cmp := rfl
@[simp] theorem State.modShadow_nor (s : State) (f : Shadow → Shadow) : (s.modShadow f).nor = s.nor := rfl
@[simp] theorem State.modShadow_free (s : State) (f : Shadow → Shadow) : (s.modShadow f).free = s.free := rfl
@[simp] theorem State.modShadow_out (s : State) (f : Shadow → Shadow) : (s.modShadow f).out = s.out := rfl
@[simp] theorem State.modShadow_pending (s : State) (f : Shadow → Shadow) : (s.modShadow f).pending = s.pending := rfl
/-! ### modBu -/
@[simp] theorem State.modBu_regs (s : State) (f : BringUp → BringUp) : (s.modBu f).regs = s.regs := rfl
@[simp] theorem State.modBu_paths (s : State) (f : BringUp → BringUp) : (s.modBu f).paths = s.paths := rfl
@[simp] theorem State.modBu_fused (s : State) (f : BringUp → BringUp) : (s.modBu f).fused = s.fused := rfl
@[simp] theorem State.modBu_sq (s : State) (f : BringUp → BringUp) : (s.modBu f).sq = s.sq := rfl
@[simp] theorem State.modBu_time (s : State) (f : BringUp → BringUp) : (s.modBu f).time = s.time := rfl
@[simp] theorem State.modBu_hl (s : State) (f : BringUp → BringUp) : (s.modBu f).hl = s.hl := rfl
@[simp] theorem State.modBu_pw (s : State) (f : BringUp → BringUp) : (s.modBu f).pw = s.pw := rfl
@[simp] theorem State.modBu_recd (s : State) (f : BringUp → BringUp) : (s.modBu f).recd = s.recd := rfl
@[simp] theorem State.modBu_msix (s : State) (f : BringUp → BringUp) : (s.modBu f).msix = s.msix := rfl
@[simp] theorem State.modBu_host (s : State) (f : BringUp → BringUp) : (s.modBu f).host = s.host := rfl
@[simp] theorem State.modBu_fns (s : State) (f : BringUp → BringUp) : (s.modBu f).fns = s.fns := rfl
@[simp] theorem State.modBu_txns (s : State) (f : BringUp → BringUp) : (s.modBu f).txns = s.txns := rfl
@[simp] theorem State.modBu_regions (s : State) (f : BringUp → BringUp) : (s.modBu f).regions = s.regions := rfl
@[simp] theorem State.modBu_roles (s : State) (f : BringUp → BringUp) : (s.modBu f).roles = s.roles := rfl
@[simp] theorem State.modBu_routes (s : State) (f : BringUp → BringUp) : (s.modBu f).routes = s.routes := rfl
@[simp] theorem State.modBu_slices (s : State) (f : BringUp → BringUp) : (s.modBu f).slices = s.slices := rfl
@[simp] theorem State.modBu_subs (s : State) (f : BringUp → BringUp) : (s.modBu f).subs = s.subs := rfl
@[simp] theorem State.modBu_i3c (s : State) (f : BringUp → BringUp) : (s.modBu f).i3c = s.i3c := rfl
@[simp] theorem State.modBu_tiles (s : State) (f : BringUp → BringUp) : (s.modBu f).tiles = s.tiles := rfl
@[simp] theorem State.modBu_plan (s : State) (f : BringUp → BringUp) : (s.modBu f).plan = s.plan := rfl
@[simp] theorem State.modBu_shadow (s : State) (f : BringUp → BringUp) : (s.modBu f).shadow = s.shadow := rfl
@[simp] theorem State.modBu_ctxs (s : State) (f : BringUp → BringUp) : (s.modBu f).ctxs = s.ctxs := rfl
@[simp] theorem State.modBu_agents (s : State) (f : BringUp → BringUp) : (s.modBu f).agents = s.agents := rfl
@[simp] theorem State.modBu_bus (s : State) (f : BringUp → BringUp) : (s.modBu f).bus = s.bus := rfl
@[simp] theorem State.modBu_bu (s : State) (f : BringUp → BringUp) : (s.modBu f).bu = f s.bu := rfl
@[simp] theorem State.modBu_ofd (s : State) (f : BringUp → BringUp) : (s.modBu f).ofd = s.ofd := rfl
@[simp] theorem State.modBu_hbm (s : State) (f : BringUp → BringUp) : (s.modBu f).hbm = s.hbm := rfl
@[simp] theorem State.modBu_esc (s : State) (f : BringUp → BringUp) : (s.modBu f).esc = s.esc := rfl
@[simp] theorem State.modBu_test (s : State) (f : BringUp → BringUp) : (s.modBu f).test = s.test := rfl
@[simp] theorem State.modBu_thm (s : State) (f : BringUp → BringUp) : (s.modBu f).thm = s.thm := rfl
@[simp] theorem State.modBu_obs (s : State) (f : BringUp → BringUp) : (s.modBu f).obs = s.obs := rfl
@[simp] theorem State.modBu_ports (s : State) (f : BringUp → BringUp) : (s.modBu f).ports = s.ports := rfl
@[simp] theorem State.modBu_cmp (s : State) (f : BringUp → BringUp) : (s.modBu f).cmp = s.cmp := rfl
@[simp] theorem State.modBu_nor (s : State) (f : BringUp → BringUp) : (s.modBu f).nor = s.nor := rfl
@[simp] theorem State.modBu_free (s : State) (f : BringUp → BringUp) : (s.modBu f).free = s.free := rfl
@[simp] theorem State.modBu_out (s : State) (f : BringUp → BringUp) : (s.modBu f).out = s.out := rfl
@[simp] theorem State.modBu_pending (s : State) (f : BringUp → BringUp) : (s.modBu f).pending = s.pending := rfl
/-! ### modPw -/
@[simp] theorem State.modPw_regs (s : State) (f : Power → Power) : (s.modPw f).regs = s.regs := rfl
@[simp] theorem State.modPw_paths (s : State) (f : Power → Power) : (s.modPw f).paths = s.paths := rfl
@[simp] theorem State.modPw_fused (s : State) (f : Power → Power) : (s.modPw f).fused = s.fused := rfl
@[simp] theorem State.modPw_sq (s : State) (f : Power → Power) : (s.modPw f).sq = s.sq := rfl
@[simp] theorem State.modPw_time (s : State) (f : Power → Power) : (s.modPw f).time = s.time := rfl
@[simp] theorem State.modPw_hl (s : State) (f : Power → Power) : (s.modPw f).hl = s.hl := rfl
@[simp] theorem State.modPw_pw (s : State) (f : Power → Power) : (s.modPw f).pw = f s.pw := rfl
@[simp] theorem State.modPw_recd (s : State) (f : Power → Power) : (s.modPw f).recd = s.recd := rfl
@[simp] theorem State.modPw_msix (s : State) (f : Power → Power) : (s.modPw f).msix = s.msix := rfl
@[simp] theorem State.modPw_host (s : State) (f : Power → Power) : (s.modPw f).host = s.host := rfl
@[simp] theorem State.modPw_fns (s : State) (f : Power → Power) : (s.modPw f).fns = s.fns := rfl
@[simp] theorem State.modPw_txns (s : State) (f : Power → Power) : (s.modPw f).txns = s.txns := rfl
@[simp] theorem State.modPw_regions (s : State) (f : Power → Power) : (s.modPw f).regions = s.regions := rfl
@[simp] theorem State.modPw_roles (s : State) (f : Power → Power) : (s.modPw f).roles = s.roles := rfl
@[simp] theorem State.modPw_routes (s : State) (f : Power → Power) : (s.modPw f).routes = s.routes := rfl
@[simp] theorem State.modPw_slices (s : State) (f : Power → Power) : (s.modPw f).slices = s.slices := rfl
@[simp] theorem State.modPw_subs (s : State) (f : Power → Power) : (s.modPw f).subs = s.subs := rfl
@[simp] theorem State.modPw_i3c (s : State) (f : Power → Power) : (s.modPw f).i3c = s.i3c := rfl
@[simp] theorem State.modPw_tiles (s : State) (f : Power → Power) : (s.modPw f).tiles = s.tiles := rfl
@[simp] theorem State.modPw_plan (s : State) (f : Power → Power) : (s.modPw f).plan = s.plan := rfl
@[simp] theorem State.modPw_shadow (s : State) (f : Power → Power) : (s.modPw f).shadow = s.shadow := rfl
@[simp] theorem State.modPw_ctxs (s : State) (f : Power → Power) : (s.modPw f).ctxs = s.ctxs := rfl
@[simp] theorem State.modPw_agents (s : State) (f : Power → Power) : (s.modPw f).agents = s.agents := rfl
@[simp] theorem State.modPw_bus (s : State) (f : Power → Power) : (s.modPw f).bus = s.bus := rfl
@[simp] theorem State.modPw_bu (s : State) (f : Power → Power) : (s.modPw f).bu = s.bu := rfl
@[simp] theorem State.modPw_ofd (s : State) (f : Power → Power) : (s.modPw f).ofd = s.ofd := rfl
@[simp] theorem State.modPw_hbm (s : State) (f : Power → Power) : (s.modPw f).hbm = s.hbm := rfl
@[simp] theorem State.modPw_esc (s : State) (f : Power → Power) : (s.modPw f).esc = s.esc := rfl
@[simp] theorem State.modPw_test (s : State) (f : Power → Power) : (s.modPw f).test = s.test := rfl
@[simp] theorem State.modPw_thm (s : State) (f : Power → Power) : (s.modPw f).thm = s.thm := rfl
@[simp] theorem State.modPw_obs (s : State) (f : Power → Power) : (s.modPw f).obs = s.obs := rfl
@[simp] theorem State.modPw_ports (s : State) (f : Power → Power) : (s.modPw f).ports = s.ports := rfl
@[simp] theorem State.modPw_cmp (s : State) (f : Power → Power) : (s.modPw f).cmp = s.cmp := rfl
@[simp] theorem State.modPw_nor (s : State) (f : Power → Power) : (s.modPw f).nor = s.nor := rfl
@[simp] theorem State.modPw_free (s : State) (f : Power → Power) : (s.modPw f).free = s.free := rfl
@[simp] theorem State.modPw_out (s : State) (f : Power → Power) : (s.modPw f).out = s.out := rfl
@[simp] theorem State.modPw_pending (s : State) (f : Power → Power) : (s.modPw f).pending = s.pending := rfl
/-! ### modHl -/
@[simp] theorem State.modHl_regs (s : State) (f : HardLines → HardLines) : (s.modHl f).regs = s.regs := rfl
@[simp] theorem State.modHl_paths (s : State) (f : HardLines → HardLines) : (s.modHl f).paths = s.paths := rfl
@[simp] theorem State.modHl_fused (s : State) (f : HardLines → HardLines) : (s.modHl f).fused = s.fused := rfl
@[simp] theorem State.modHl_sq (s : State) (f : HardLines → HardLines) : (s.modHl f).sq = s.sq := rfl
@[simp] theorem State.modHl_time (s : State) (f : HardLines → HardLines) : (s.modHl f).time = s.time := rfl
@[simp] theorem State.modHl_hl (s : State) (f : HardLines → HardLines) : (s.modHl f).hl = f s.hl := rfl
@[simp] theorem State.modHl_pw (s : State) (f : HardLines → HardLines) : (s.modHl f).pw = s.pw := rfl
@[simp] theorem State.modHl_recd (s : State) (f : HardLines → HardLines) : (s.modHl f).recd = s.recd := rfl
@[simp] theorem State.modHl_msix (s : State) (f : HardLines → HardLines) : (s.modHl f).msix = s.msix := rfl
@[simp] theorem State.modHl_host (s : State) (f : HardLines → HardLines) : (s.modHl f).host = s.host := rfl
@[simp] theorem State.modHl_fns (s : State) (f : HardLines → HardLines) : (s.modHl f).fns = s.fns := rfl
@[simp] theorem State.modHl_txns (s : State) (f : HardLines → HardLines) : (s.modHl f).txns = s.txns := rfl
@[simp] theorem State.modHl_regions (s : State) (f : HardLines → HardLines) : (s.modHl f).regions = s.regions := rfl
@[simp] theorem State.modHl_roles (s : State) (f : HardLines → HardLines) : (s.modHl f).roles = s.roles := rfl
@[simp] theorem State.modHl_routes (s : State) (f : HardLines → HardLines) : (s.modHl f).routes = s.routes := rfl
@[simp] theorem State.modHl_slices (s : State) (f : HardLines → HardLines) : (s.modHl f).slices = s.slices := rfl
@[simp] theorem State.modHl_subs (s : State) (f : HardLines → HardLines) : (s.modHl f).subs = s.subs := rfl
@[simp] theorem State.modHl_i3c (s : State) (f : HardLines → HardLines) : (s.modHl f).i3c = s.i3c := rfl
@[simp] theorem State.modHl_tiles (s : State) (f : HardLines → HardLines) : (s.modHl f).tiles = s.tiles := rfl
@[simp] theorem State.modHl_plan (s : State) (f : HardLines → HardLines) : (s.modHl f).plan = s.plan := rfl
@[simp] theorem State.modHl_shadow (s : State) (f : HardLines → HardLines) : (s.modHl f).shadow = s.shadow := rfl
@[simp] theorem State.modHl_ctxs (s : State) (f : HardLines → HardLines) : (s.modHl f).ctxs = s.ctxs := rfl
@[simp] theorem State.modHl_agents (s : State) (f : HardLines → HardLines) : (s.modHl f).agents = s.agents := rfl
@[simp] theorem State.modHl_bus (s : State) (f : HardLines → HardLines) : (s.modHl f).bus = s.bus := rfl
@[simp] theorem State.modHl_bu (s : State) (f : HardLines → HardLines) : (s.modHl f).bu = s.bu := rfl
@[simp] theorem State.modHl_ofd (s : State) (f : HardLines → HardLines) : (s.modHl f).ofd = s.ofd := rfl
@[simp] theorem State.modHl_hbm (s : State) (f : HardLines → HardLines) : (s.modHl f).hbm = s.hbm := rfl
@[simp] theorem State.modHl_esc (s : State) (f : HardLines → HardLines) : (s.modHl f).esc = s.esc := rfl
@[simp] theorem State.modHl_test (s : State) (f : HardLines → HardLines) : (s.modHl f).test = s.test := rfl
@[simp] theorem State.modHl_thm (s : State) (f : HardLines → HardLines) : (s.modHl f).thm = s.thm := rfl
@[simp] theorem State.modHl_obs (s : State) (f : HardLines → HardLines) : (s.modHl f).obs = s.obs := rfl
@[simp] theorem State.modHl_ports (s : State) (f : HardLines → HardLines) : (s.modHl f).ports = s.ports := rfl
@[simp] theorem State.modHl_cmp (s : State) (f : HardLines → HardLines) : (s.modHl f).cmp = s.cmp := rfl
@[simp] theorem State.modHl_nor (s : State) (f : HardLines → HardLines) : (s.modHl f).nor = s.nor := rfl
@[simp] theorem State.modHl_free (s : State) (f : HardLines → HardLines) : (s.modHl f).free = s.free := rfl
@[simp] theorem State.modHl_out (s : State) (f : HardLines → HardLines) : (s.modHl f).out = s.out := rfl
@[simp] theorem State.modHl_pending (s : State) (f : HardLines → HardLines) : (s.modHl f).pending = s.pending := rfl
/-! ### modSq -/
@[simp] theorem State.modSq_regs (s : State) (f : Sequencer → Sequencer) : (s.modSq f).regs = s.regs := rfl
@[simp] theorem State.modSq_paths (s : State) (f : Sequencer → Sequencer) : (s.modSq f).paths = s.paths := rfl
@[simp] theorem State.modSq_fused (s : State) (f : Sequencer → Sequencer) : (s.modSq f).fused = s.fused := rfl
@[simp] theorem State.modSq_sq (s : State) (f : Sequencer → Sequencer) : (s.modSq f).sq = f s.sq := rfl
@[simp] theorem State.modSq_time (s : State) (f : Sequencer → Sequencer) : (s.modSq f).time = s.time := rfl
@[simp] theorem State.modSq_hl (s : State) (f : Sequencer → Sequencer) : (s.modSq f).hl = s.hl := rfl
@[simp] theorem State.modSq_pw (s : State) (f : Sequencer → Sequencer) : (s.modSq f).pw = s.pw := rfl
@[simp] theorem State.modSq_recd (s : State) (f : Sequencer → Sequencer) : (s.modSq f).recd = s.recd := rfl
@[simp] theorem State.modSq_msix (s : State) (f : Sequencer → Sequencer) : (s.modSq f).msix = s.msix := rfl
@[simp] theorem State.modSq_host (s : State) (f : Sequencer → Sequencer) : (s.modSq f).host = s.host := rfl
@[simp] theorem State.modSq_fns (s : State) (f : Sequencer → Sequencer) : (s.modSq f).fns = s.fns := rfl
@[simp] theorem State.modSq_txns (s : State) (f : Sequencer → Sequencer) : (s.modSq f).txns = s.txns := rfl
@[simp] theorem State.modSq_regions (s : State) (f : Sequencer → Sequencer) : (s.modSq f).regions = s.regions := rfl
@[simp] theorem State.modSq_roles (s : State) (f : Sequencer → Sequencer) : (s.modSq f).roles = s.roles := rfl
@[simp] theorem State.modSq_routes (s : State) (f : Sequencer → Sequencer) : (s.modSq f).routes = s.routes := rfl
@[simp] theorem State.modSq_slices (s : State) (f : Sequencer → Sequencer) : (s.modSq f).slices = s.slices := rfl
@[simp] theorem State.modSq_subs (s : State) (f : Sequencer → Sequencer) : (s.modSq f).subs = s.subs := rfl
@[simp] theorem State.modSq_i3c (s : State) (f : Sequencer → Sequencer) : (s.modSq f).i3c = s.i3c := rfl
@[simp] theorem State.modSq_tiles (s : State) (f : Sequencer → Sequencer) : (s.modSq f).tiles = s.tiles := rfl
@[simp] theorem State.modSq_plan (s : State) (f : Sequencer → Sequencer) : (s.modSq f).plan = s.plan := rfl
@[simp] theorem State.modSq_shadow (s : State) (f : Sequencer → Sequencer) : (s.modSq f).shadow = s.shadow := rfl
@[simp] theorem State.modSq_ctxs (s : State) (f : Sequencer → Sequencer) : (s.modSq f).ctxs = s.ctxs := rfl
@[simp] theorem State.modSq_agents (s : State) (f : Sequencer → Sequencer) : (s.modSq f).agents = s.agents := rfl
@[simp] theorem State.modSq_bus (s : State) (f : Sequencer → Sequencer) : (s.modSq f).bus = s.bus := rfl
@[simp] theorem State.modSq_bu (s : State) (f : Sequencer → Sequencer) : (s.modSq f).bu = s.bu := rfl
@[simp] theorem State.modSq_ofd (s : State) (f : Sequencer → Sequencer) : (s.modSq f).ofd = s.ofd := rfl
@[simp] theorem State.modSq_hbm (s : State) (f : Sequencer → Sequencer) : (s.modSq f).hbm = s.hbm := rfl
@[simp] theorem State.modSq_esc (s : State) (f : Sequencer → Sequencer) : (s.modSq f).esc = s.esc := rfl
@[simp] theorem State.modSq_test (s : State) (f : Sequencer → Sequencer) : (s.modSq f).test = s.test := rfl
@[simp] theorem State.modSq_thm (s : State) (f : Sequencer → Sequencer) : (s.modSq f).thm = s.thm := rfl
@[simp] theorem State.modSq_obs (s : State) (f : Sequencer → Sequencer) : (s.modSq f).obs = s.obs := rfl
@[simp] theorem State.modSq_ports (s : State) (f : Sequencer → Sequencer) : (s.modSq f).ports = s.ports := rfl
@[simp] theorem State.modSq_cmp (s : State) (f : Sequencer → Sequencer) : (s.modSq f).cmp = s.cmp := rfl
@[simp] theorem State.modSq_nor (s : State) (f : Sequencer → Sequencer) : (s.modSq f).nor = s.nor := rfl
@[simp] theorem State.modSq_free (s : State) (f : Sequencer → Sequencer) : (s.modSq f).free = s.free := rfl
@[simp] theorem State.modSq_out (s : State) (f : Sequencer → Sequencer) : (s.modSq f).out = s.out := rfl
@[simp] theorem State.modSq_pending (s : State) (f : Sequencer → Sequencer) : (s.modSq f).pending = s.pending := rfl
/-! ### modHost -/
@[simp] theorem State.modHost_regs (s : State) (f : HostIf → HostIf) : (s.modHost f).regs = s.regs := rfl
@[simp] theorem State.modHost_paths (s : State) (f : HostIf → HostIf) : (s.modHost f).paths = s.paths := rfl
@[simp] theorem State.modHost_fused (s : State) (f : HostIf → HostIf) : (s.modHost f).fused = s.fused := rfl
@[simp] theorem State.modHost_sq (s : State) (f : HostIf → HostIf) : (s.modHost f).sq = s.sq := rfl
@[simp] theorem State.modHost_time (s : State) (f : HostIf → HostIf) : (s.modHost f).time = s.time := rfl
@[simp] theorem State.modHost_hl (s : State) (f : HostIf → HostIf) : (s.modHost f).hl = s.hl := rfl
@[simp] theorem State.modHost_pw (s : State) (f : HostIf → HostIf) : (s.modHost f).pw = s.pw := rfl
@[simp] theorem State.modHost_recd (s : State) (f : HostIf → HostIf) : (s.modHost f).recd = s.recd := rfl
@[simp] theorem State.modHost_msix (s : State) (f : HostIf → HostIf) : (s.modHost f).msix = s.msix := rfl
@[simp] theorem State.modHost_host (s : State) (f : HostIf → HostIf) : (s.modHost f).host = f s.host := rfl
@[simp] theorem State.modHost_fns (s : State) (f : HostIf → HostIf) : (s.modHost f).fns = s.fns := rfl
@[simp] theorem State.modHost_txns (s : State) (f : HostIf → HostIf) : (s.modHost f).txns = s.txns := rfl
@[simp] theorem State.modHost_regions (s : State) (f : HostIf → HostIf) : (s.modHost f).regions = s.regions := rfl
@[simp] theorem State.modHost_roles (s : State) (f : HostIf → HostIf) : (s.modHost f).roles = s.roles := rfl
@[simp] theorem State.modHost_routes (s : State) (f : HostIf → HostIf) : (s.modHost f).routes = s.routes := rfl
@[simp] theorem State.modHost_slices (s : State) (f : HostIf → HostIf) : (s.modHost f).slices = s.slices := rfl
@[simp] theorem State.modHost_subs (s : State) (f : HostIf → HostIf) : (s.modHost f).subs = s.subs := rfl
@[simp] theorem State.modHost_i3c (s : State) (f : HostIf → HostIf) : (s.modHost f).i3c = s.i3c := rfl
@[simp] theorem State.modHost_tiles (s : State) (f : HostIf → HostIf) : (s.modHost f).tiles = s.tiles := rfl
@[simp] theorem State.modHost_plan (s : State) (f : HostIf → HostIf) : (s.modHost f).plan = s.plan := rfl
@[simp] theorem State.modHost_shadow (s : State) (f : HostIf → HostIf) : (s.modHost f).shadow = s.shadow := rfl
@[simp] theorem State.modHost_ctxs (s : State) (f : HostIf → HostIf) : (s.modHost f).ctxs = s.ctxs := rfl
@[simp] theorem State.modHost_agents (s : State) (f : HostIf → HostIf) : (s.modHost f).agents = s.agents := rfl
@[simp] theorem State.modHost_bus (s : State) (f : HostIf → HostIf) : (s.modHost f).bus = s.bus := rfl
@[simp] theorem State.modHost_bu (s : State) (f : HostIf → HostIf) : (s.modHost f).bu = s.bu := rfl
@[simp] theorem State.modHost_ofd (s : State) (f : HostIf → HostIf) : (s.modHost f).ofd = s.ofd := rfl
@[simp] theorem State.modHost_hbm (s : State) (f : HostIf → HostIf) : (s.modHost f).hbm = s.hbm := rfl
@[simp] theorem State.modHost_esc (s : State) (f : HostIf → HostIf) : (s.modHost f).esc = s.esc := rfl
@[simp] theorem State.modHost_test (s : State) (f : HostIf → HostIf) : (s.modHost f).test = s.test := rfl
@[simp] theorem State.modHost_thm (s : State) (f : HostIf → HostIf) : (s.modHost f).thm = s.thm := rfl
@[simp] theorem State.modHost_obs (s : State) (f : HostIf → HostIf) : (s.modHost f).obs = s.obs := rfl
@[simp] theorem State.modHost_ports (s : State) (f : HostIf → HostIf) : (s.modHost f).ports = s.ports := rfl
@[simp] theorem State.modHost_cmp (s : State) (f : HostIf → HostIf) : (s.modHost f).cmp = s.cmp := rfl
@[simp] theorem State.modHost_nor (s : State) (f : HostIf → HostIf) : (s.modHost f).nor = s.nor := rfl
@[simp] theorem State.modHost_free (s : State) (f : HostIf → HostIf) : (s.modHost f).free = s.free := rfl
@[simp] theorem State.modHost_out (s : State) (f : HostIf → HostIf) : (s.modHost f).out = s.out := rfl
@[simp] theorem State.modHost_pending (s : State) (f : HostIf → HostIf) : (s.modHost f).pending = s.pending := rfl
/-! ### modEsc -/
@[simp] theorem State.modEsc_regs (s : State) (f : Escalation → Escalation) : (s.modEsc f).regs = s.regs := rfl
@[simp] theorem State.modEsc_paths (s : State) (f : Escalation → Escalation) : (s.modEsc f).paths = s.paths := rfl
@[simp] theorem State.modEsc_fused (s : State) (f : Escalation → Escalation) : (s.modEsc f).fused = s.fused := rfl
@[simp] theorem State.modEsc_sq (s : State) (f : Escalation → Escalation) : (s.modEsc f).sq = s.sq := rfl
@[simp] theorem State.modEsc_time (s : State) (f : Escalation → Escalation) : (s.modEsc f).time = s.time := rfl
@[simp] theorem State.modEsc_hl (s : State) (f : Escalation → Escalation) : (s.modEsc f).hl = s.hl := rfl
@[simp] theorem State.modEsc_pw (s : State) (f : Escalation → Escalation) : (s.modEsc f).pw = s.pw := rfl
@[simp] theorem State.modEsc_recd (s : State) (f : Escalation → Escalation) : (s.modEsc f).recd = s.recd := rfl
@[simp] theorem State.modEsc_msix (s : State) (f : Escalation → Escalation) : (s.modEsc f).msix = s.msix := rfl
@[simp] theorem State.modEsc_host (s : State) (f : Escalation → Escalation) : (s.modEsc f).host = s.host := rfl
@[simp] theorem State.modEsc_fns (s : State) (f : Escalation → Escalation) : (s.modEsc f).fns = s.fns := rfl
@[simp] theorem State.modEsc_txns (s : State) (f : Escalation → Escalation) : (s.modEsc f).txns = s.txns := rfl
@[simp] theorem State.modEsc_regions (s : State) (f : Escalation → Escalation) : (s.modEsc f).regions = s.regions := rfl
@[simp] theorem State.modEsc_roles (s : State) (f : Escalation → Escalation) : (s.modEsc f).roles = s.roles := rfl
@[simp] theorem State.modEsc_routes (s : State) (f : Escalation → Escalation) : (s.modEsc f).routes = s.routes := rfl
@[simp] theorem State.modEsc_slices (s : State) (f : Escalation → Escalation) : (s.modEsc f).slices = s.slices := rfl
@[simp] theorem State.modEsc_subs (s : State) (f : Escalation → Escalation) : (s.modEsc f).subs = s.subs := rfl
@[simp] theorem State.modEsc_i3c (s : State) (f : Escalation → Escalation) : (s.modEsc f).i3c = s.i3c := rfl
@[simp] theorem State.modEsc_tiles (s : State) (f : Escalation → Escalation) : (s.modEsc f).tiles = s.tiles := rfl
@[simp] theorem State.modEsc_plan (s : State) (f : Escalation → Escalation) : (s.modEsc f).plan = s.plan := rfl
@[simp] theorem State.modEsc_shadow (s : State) (f : Escalation → Escalation) : (s.modEsc f).shadow = s.shadow := rfl
@[simp] theorem State.modEsc_ctxs (s : State) (f : Escalation → Escalation) : (s.modEsc f).ctxs = s.ctxs := rfl
@[simp] theorem State.modEsc_agents (s : State) (f : Escalation → Escalation) : (s.modEsc f).agents = s.agents := rfl
@[simp] theorem State.modEsc_bus (s : State) (f : Escalation → Escalation) : (s.modEsc f).bus = s.bus := rfl
@[simp] theorem State.modEsc_bu (s : State) (f : Escalation → Escalation) : (s.modEsc f).bu = s.bu := rfl
@[simp] theorem State.modEsc_ofd (s : State) (f : Escalation → Escalation) : (s.modEsc f).ofd = s.ofd := rfl
@[simp] theorem State.modEsc_hbm (s : State) (f : Escalation → Escalation) : (s.modEsc f).hbm = s.hbm := rfl
@[simp] theorem State.modEsc_esc (s : State) (f : Escalation → Escalation) : (s.modEsc f).esc = f s.esc := rfl
@[simp] theorem State.modEsc_test (s : State) (f : Escalation → Escalation) : (s.modEsc f).test = s.test := rfl
@[simp] theorem State.modEsc_thm (s : State) (f : Escalation → Escalation) : (s.modEsc f).thm = s.thm := rfl
@[simp] theorem State.modEsc_obs (s : State) (f : Escalation → Escalation) : (s.modEsc f).obs = s.obs := rfl
@[simp] theorem State.modEsc_ports (s : State) (f : Escalation → Escalation) : (s.modEsc f).ports = s.ports := rfl
@[simp] theorem State.modEsc_cmp (s : State) (f : Escalation → Escalation) : (s.modEsc f).cmp = s.cmp := rfl
@[simp] theorem State.modEsc_nor (s : State) (f : Escalation → Escalation) : (s.modEsc f).nor = s.nor := rfl
@[simp] theorem State.modEsc_free (s : State) (f : Escalation → Escalation) : (s.modEsc f).free = s.free := rfl
@[simp] theorem State.modEsc_out (s : State) (f : Escalation → Escalation) : (s.modEsc f).out = s.out := rfl
@[simp] theorem State.modEsc_pending (s : State) (f : Escalation → Escalation) : (s.modEsc f).pending = s.pending := rfl
/-! ### modThm -/
@[simp] theorem State.modThm_regs (s : State) (f : Thermal → Thermal) : (s.modThm f).regs = s.regs := rfl
@[simp] theorem State.modThm_paths (s : State) (f : Thermal → Thermal) : (s.modThm f).paths = s.paths := rfl
@[simp] theorem State.modThm_fused (s : State) (f : Thermal → Thermal) : (s.modThm f).fused = s.fused := rfl
@[simp] theorem State.modThm_sq (s : State) (f : Thermal → Thermal) : (s.modThm f).sq = s.sq := rfl
@[simp] theorem State.modThm_time (s : State) (f : Thermal → Thermal) : (s.modThm f).time = s.time := rfl
@[simp] theorem State.modThm_hl (s : State) (f : Thermal → Thermal) : (s.modThm f).hl = s.hl := rfl
@[simp] theorem State.modThm_pw (s : State) (f : Thermal → Thermal) : (s.modThm f).pw = s.pw := rfl
@[simp] theorem State.modThm_recd (s : State) (f : Thermal → Thermal) : (s.modThm f).recd = s.recd := rfl
@[simp] theorem State.modThm_msix (s : State) (f : Thermal → Thermal) : (s.modThm f).msix = s.msix := rfl
@[simp] theorem State.modThm_host (s : State) (f : Thermal → Thermal) : (s.modThm f).host = s.host := rfl
@[simp] theorem State.modThm_fns (s : State) (f : Thermal → Thermal) : (s.modThm f).fns = s.fns := rfl
@[simp] theorem State.modThm_txns (s : State) (f : Thermal → Thermal) : (s.modThm f).txns = s.txns := rfl
@[simp] theorem State.modThm_regions (s : State) (f : Thermal → Thermal) : (s.modThm f).regions = s.regions := rfl
@[simp] theorem State.modThm_roles (s : State) (f : Thermal → Thermal) : (s.modThm f).roles = s.roles := rfl
@[simp] theorem State.modThm_routes (s : State) (f : Thermal → Thermal) : (s.modThm f).routes = s.routes := rfl
@[simp] theorem State.modThm_slices (s : State) (f : Thermal → Thermal) : (s.modThm f).slices = s.slices := rfl
@[simp] theorem State.modThm_subs (s : State) (f : Thermal → Thermal) : (s.modThm f).subs = s.subs := rfl
@[simp] theorem State.modThm_i3c (s : State) (f : Thermal → Thermal) : (s.modThm f).i3c = s.i3c := rfl
@[simp] theorem State.modThm_tiles (s : State) (f : Thermal → Thermal) : (s.modThm f).tiles = s.tiles := rfl
@[simp] theorem State.modThm_plan (s : State) (f : Thermal → Thermal) : (s.modThm f).plan = s.plan := rfl
@[simp] theorem State.modThm_shadow (s : State) (f : Thermal → Thermal) : (s.modThm f).shadow = s.shadow := rfl
@[simp] theorem State.modThm_ctxs (s : State) (f : Thermal → Thermal) : (s.modThm f).ctxs = s.ctxs := rfl
@[simp] theorem State.modThm_agents (s : State) (f : Thermal → Thermal) : (s.modThm f).agents = s.agents := rfl
@[simp] theorem State.modThm_bus (s : State) (f : Thermal → Thermal) : (s.modThm f).bus = s.bus := rfl
@[simp] theorem State.modThm_bu (s : State) (f : Thermal → Thermal) : (s.modThm f).bu = s.bu := rfl
@[simp] theorem State.modThm_ofd (s : State) (f : Thermal → Thermal) : (s.modThm f).ofd = s.ofd := rfl
@[simp] theorem State.modThm_hbm (s : State) (f : Thermal → Thermal) : (s.modThm f).hbm = s.hbm := rfl
@[simp] theorem State.modThm_esc (s : State) (f : Thermal → Thermal) : (s.modThm f).esc = s.esc := rfl
@[simp] theorem State.modThm_test (s : State) (f : Thermal → Thermal) : (s.modThm f).test = s.test := rfl
@[simp] theorem State.modThm_thm (s : State) (f : Thermal → Thermal) : (s.modThm f).thm = f s.thm := rfl
@[simp] theorem State.modThm_obs (s : State) (f : Thermal → Thermal) : (s.modThm f).obs = s.obs := rfl
@[simp] theorem State.modThm_ports (s : State) (f : Thermal → Thermal) : (s.modThm f).ports = s.ports := rfl
@[simp] theorem State.modThm_cmp (s : State) (f : Thermal → Thermal) : (s.modThm f).cmp = s.cmp := rfl
@[simp] theorem State.modThm_nor (s : State) (f : Thermal → Thermal) : (s.modThm f).nor = s.nor := rfl
@[simp] theorem State.modThm_free (s : State) (f : Thermal → Thermal) : (s.modThm f).free = s.free := rfl
@[simp] theorem State.modThm_out (s : State) (f : Thermal → Thermal) : (s.modThm f).out = s.out := rfl
@[simp] theorem State.modThm_pending (s : State) (f : Thermal → Thermal) : (s.modThm f).pending = s.pending := rfl
/-! ### modTest -/
@[simp] theorem State.modTest_regs (s : State) (f : SelfTest → SelfTest) : (s.modTest f).regs = s.regs := rfl
@[simp] theorem State.modTest_paths (s : State) (f : SelfTest → SelfTest) : (s.modTest f).paths = s.paths := rfl
@[simp] theorem State.modTest_fused (s : State) (f : SelfTest → SelfTest) : (s.modTest f).fused = s.fused := rfl
@[simp] theorem State.modTest_sq (s : State) (f : SelfTest → SelfTest) : (s.modTest f).sq = s.sq := rfl
@[simp] theorem State.modTest_time (s : State) (f : SelfTest → SelfTest) : (s.modTest f).time = s.time := rfl
@[simp] theorem State.modTest_hl (s : State) (f : SelfTest → SelfTest) : (s.modTest f).hl = s.hl := rfl
@[simp] theorem State.modTest_pw (s : State) (f : SelfTest → SelfTest) : (s.modTest f).pw = s.pw := rfl
@[simp] theorem State.modTest_recd (s : State) (f : SelfTest → SelfTest) : (s.modTest f).recd = s.recd := rfl
@[simp] theorem State.modTest_msix (s : State) (f : SelfTest → SelfTest) : (s.modTest f).msix = s.msix := rfl
@[simp] theorem State.modTest_host (s : State) (f : SelfTest → SelfTest) : (s.modTest f).host = s.host := rfl
@[simp] theorem State.modTest_fns (s : State) (f : SelfTest → SelfTest) : (s.modTest f).fns = s.fns := rfl
@[simp] theorem State.modTest_txns (s : State) (f : SelfTest → SelfTest) : (s.modTest f).txns = s.txns := rfl
@[simp] theorem State.modTest_regions (s : State) (f : SelfTest → SelfTest) : (s.modTest f).regions = s.regions := rfl
@[simp] theorem State.modTest_roles (s : State) (f : SelfTest → SelfTest) : (s.modTest f).roles = s.roles := rfl
@[simp] theorem State.modTest_routes (s : State) (f : SelfTest → SelfTest) : (s.modTest f).routes = s.routes := rfl
@[simp] theorem State.modTest_slices (s : State) (f : SelfTest → SelfTest) : (s.modTest f).slices = s.slices := rfl
@[simp] theorem State.modTest_subs (s : State) (f : SelfTest → SelfTest) : (s.modTest f).subs = s.subs := rfl
@[simp] theorem State.modTest_i3c (s : State) (f : SelfTest → SelfTest) : (s.modTest f).i3c = s.i3c := rfl
@[simp] theorem State.modTest_tiles (s : State) (f : SelfTest → SelfTest) : (s.modTest f).tiles = s.tiles := rfl
@[simp] theorem State.modTest_plan (s : State) (f : SelfTest → SelfTest) : (s.modTest f).plan = s.plan := rfl
@[simp] theorem State.modTest_shadow (s : State) (f : SelfTest → SelfTest) : (s.modTest f).shadow = s.shadow := rfl
@[simp] theorem State.modTest_ctxs (s : State) (f : SelfTest → SelfTest) : (s.modTest f).ctxs = s.ctxs := rfl
@[simp] theorem State.modTest_agents (s : State) (f : SelfTest → SelfTest) : (s.modTest f).agents = s.agents := rfl
@[simp] theorem State.modTest_bus (s : State) (f : SelfTest → SelfTest) : (s.modTest f).bus = s.bus := rfl
@[simp] theorem State.modTest_bu (s : State) (f : SelfTest → SelfTest) : (s.modTest f).bu = s.bu := rfl
@[simp] theorem State.modTest_ofd (s : State) (f : SelfTest → SelfTest) : (s.modTest f).ofd = s.ofd := rfl
@[simp] theorem State.modTest_hbm (s : State) (f : SelfTest → SelfTest) : (s.modTest f).hbm = s.hbm := rfl
@[simp] theorem State.modTest_esc (s : State) (f : SelfTest → SelfTest) : (s.modTest f).esc = s.esc := rfl
@[simp] theorem State.modTest_test (s : State) (f : SelfTest → SelfTest) : (s.modTest f).test = f s.test := rfl
@[simp] theorem State.modTest_thm (s : State) (f : SelfTest → SelfTest) : (s.modTest f).thm = s.thm := rfl
@[simp] theorem State.modTest_obs (s : State) (f : SelfTest → SelfTest) : (s.modTest f).obs = s.obs := rfl
@[simp] theorem State.modTest_ports (s : State) (f : SelfTest → SelfTest) : (s.modTest f).ports = s.ports := rfl
@[simp] theorem State.modTest_cmp (s : State) (f : SelfTest → SelfTest) : (s.modTest f).cmp = s.cmp := rfl
@[simp] theorem State.modTest_nor (s : State) (f : SelfTest → SelfTest) : (s.modTest f).nor = s.nor := rfl
@[simp] theorem State.modTest_free (s : State) (f : SelfTest → SelfTest) : (s.modTest f).free = s.free := rfl
@[simp] theorem State.modTest_out (s : State) (f : SelfTest → SelfTest) : (s.modTest f).out = s.out := rfl
@[simp] theorem State.modTest_pending (s : State) (f : SelfTest → SelfTest) : (s.modTest f).pending = s.pending := rfl
/-! ### modOfd -/
@[simp] theorem State.modOfd_regs (s : State) (f : Digests → Digests) : (s.modOfd f).regs = s.regs := rfl
@[simp] theorem State.modOfd_paths (s : State) (f : Digests → Digests) : (s.modOfd f).paths = s.paths := rfl
@[simp] theorem State.modOfd_fused (s : State) (f : Digests → Digests) : (s.modOfd f).fused = s.fused := rfl
@[simp] theorem State.modOfd_sq (s : State) (f : Digests → Digests) : (s.modOfd f).sq = s.sq := rfl
@[simp] theorem State.modOfd_time (s : State) (f : Digests → Digests) : (s.modOfd f).time = s.time := rfl
@[simp] theorem State.modOfd_hl (s : State) (f : Digests → Digests) : (s.modOfd f).hl = s.hl := rfl
@[simp] theorem State.modOfd_pw (s : State) (f : Digests → Digests) : (s.modOfd f).pw = s.pw := rfl
@[simp] theorem State.modOfd_recd (s : State) (f : Digests → Digests) : (s.modOfd f).recd = s.recd := rfl
@[simp] theorem State.modOfd_msix (s : State) (f : Digests → Digests) : (s.modOfd f).msix = s.msix := rfl
@[simp] theorem State.modOfd_host (s : State) (f : Digests → Digests) : (s.modOfd f).host = s.host := rfl
@[simp] theorem State.modOfd_fns (s : State) (f : Digests → Digests) : (s.modOfd f).fns = s.fns := rfl
@[simp] theorem State.modOfd_txns (s : State) (f : Digests → Digests) : (s.modOfd f).txns = s.txns := rfl
@[simp] theorem State.modOfd_regions (s : State) (f : Digests → Digests) : (s.modOfd f).regions = s.regions := rfl
@[simp] theorem State.modOfd_roles (s : State) (f : Digests → Digests) : (s.modOfd f).roles = s.roles := rfl
@[simp] theorem State.modOfd_routes (s : State) (f : Digests → Digests) : (s.modOfd f).routes = s.routes := rfl
@[simp] theorem State.modOfd_slices (s : State) (f : Digests → Digests) : (s.modOfd f).slices = s.slices := rfl
@[simp] theorem State.modOfd_subs (s : State) (f : Digests → Digests) : (s.modOfd f).subs = s.subs := rfl
@[simp] theorem State.modOfd_i3c (s : State) (f : Digests → Digests) : (s.modOfd f).i3c = s.i3c := rfl
@[simp] theorem State.modOfd_tiles (s : State) (f : Digests → Digests) : (s.modOfd f).tiles = s.tiles := rfl
@[simp] theorem State.modOfd_plan (s : State) (f : Digests → Digests) : (s.modOfd f).plan = s.plan := rfl
@[simp] theorem State.modOfd_shadow (s : State) (f : Digests → Digests) : (s.modOfd f).shadow = s.shadow := rfl
@[simp] theorem State.modOfd_ctxs (s : State) (f : Digests → Digests) : (s.modOfd f).ctxs = s.ctxs := rfl
@[simp] theorem State.modOfd_agents (s : State) (f : Digests → Digests) : (s.modOfd f).agents = s.agents := rfl
@[simp] theorem State.modOfd_bus (s : State) (f : Digests → Digests) : (s.modOfd f).bus = s.bus := rfl
@[simp] theorem State.modOfd_bu (s : State) (f : Digests → Digests) : (s.modOfd f).bu = s.bu := rfl
@[simp] theorem State.modOfd_ofd (s : State) (f : Digests → Digests) : (s.modOfd f).ofd = f s.ofd := rfl
@[simp] theorem State.modOfd_hbm (s : State) (f : Digests → Digests) : (s.modOfd f).hbm = s.hbm := rfl
@[simp] theorem State.modOfd_esc (s : State) (f : Digests → Digests) : (s.modOfd f).esc = s.esc := rfl
@[simp] theorem State.modOfd_test (s : State) (f : Digests → Digests) : (s.modOfd f).test = s.test := rfl
@[simp] theorem State.modOfd_thm (s : State) (f : Digests → Digests) : (s.modOfd f).thm = s.thm := rfl
@[simp] theorem State.modOfd_obs (s : State) (f : Digests → Digests) : (s.modOfd f).obs = s.obs := rfl
@[simp] theorem State.modOfd_ports (s : State) (f : Digests → Digests) : (s.modOfd f).ports = s.ports := rfl
@[simp] theorem State.modOfd_cmp (s : State) (f : Digests → Digests) : (s.modOfd f).cmp = s.cmp := rfl
@[simp] theorem State.modOfd_nor (s : State) (f : Digests → Digests) : (s.modOfd f).nor = s.nor := rfl
@[simp] theorem State.modOfd_free (s : State) (f : Digests → Digests) : (s.modOfd f).free = s.free := rfl
@[simp] theorem State.modOfd_out (s : State) (f : Digests → Digests) : (s.modOfd f).out = s.out := rfl
@[simp] theorem State.modOfd_pending (s : State) (f : Digests → Digests) : (s.modOfd f).pending = s.pending := rfl
/-! ### modTxn -/
@[simp] theorem State.modTxn_regs (s : State) (w : World) (f : Txn → Txn) : (s.modTxn w f).regs = s.regs := rfl
@[simp] theorem State.modTxn_paths (s : State) (w : World) (f : Txn → Txn) : (s.modTxn w f).paths = s.paths := rfl
@[simp] theorem State.modTxn_fused (s : State) (w : World) (f : Txn → Txn) : (s.modTxn w f).fused = s.fused := rfl
@[simp] theorem State.modTxn_sq (s : State) (w : World) (f : Txn → Txn) : (s.modTxn w f).sq = s.sq := rfl
@[simp] theorem State.modTxn_time (s : State) (w : World) (f : Txn → Txn) : (s.modTxn w f).time = s.time := rfl
@[simp] theorem State.modTxn_hl (s : State) (w : World) (f : Txn → Txn) : (s.modTxn w f).hl = s.hl := rfl
@[simp] theorem State.modTxn_pw (s : State) (w : World) (f : Txn → Txn) : (s.modTxn w f).pw = s.pw := rfl
@[simp] theorem State.modTxn_recd (s : State) (w : World) (f : Txn → Txn) : (s.modTxn w f).recd = s.recd := rfl
@[simp] theorem State.modTxn_msix (s : State) (w : World) (f : Txn → Txn) : (s.modTxn w f).msix = s.msix := rfl
@[simp] theorem State.modTxn_host (s : State) (w : World) (f : Txn → Txn) : (s.modTxn w f).host = s.host := rfl
@[simp] theorem State.modTxn_fns (s : State) (w : World) (f : Txn → Txn) : (s.modTxn w f).fns = s.fns := rfl
@[simp] theorem State.modTxn_txns (s : State) (w : World) (f : Txn → Txn) : (s.modTxn w f).txns = tput s.txns (World.num w) (f (s.txn w)) := rfl
@[simp] theorem State.modTxn_regions (s : State) (w : World) (f : Txn → Txn) : (s.modTxn w f).regions = s.regions := rfl
@[simp] theorem State.modTxn_roles (s : State) (w : World) (f : Txn → Txn) : (s.modTxn w f).roles = s.roles := rfl
@[simp] theorem State.modTxn_routes (s : State) (w : World) (f : Txn → Txn) : (s.modTxn w f).routes = s.routes := rfl
@[simp] theorem State.modTxn_slices (s : State) (w : World) (f : Txn → Txn) : (s.modTxn w f).slices = s.slices := rfl
@[simp] theorem State.modTxn_subs (s : State) (w : World) (f : Txn → Txn) : (s.modTxn w f).subs = s.subs := rfl
@[simp] theorem State.modTxn_i3c (s : State) (w : World) (f : Txn → Txn) : (s.modTxn w f).i3c = s.i3c := rfl
@[simp] theorem State.modTxn_tiles (s : State) (w : World) (f : Txn → Txn) : (s.modTxn w f).tiles = s.tiles := rfl
@[simp] theorem State.modTxn_plan (s : State) (w : World) (f : Txn → Txn) : (s.modTxn w f).plan = s.plan := rfl
@[simp] theorem State.modTxn_shadow (s : State) (w : World) (f : Txn → Txn) : (s.modTxn w f).shadow = s.shadow := rfl
@[simp] theorem State.modTxn_ctxs (s : State) (w : World) (f : Txn → Txn) : (s.modTxn w f).ctxs = s.ctxs := rfl
@[simp] theorem State.modTxn_agents (s : State) (w : World) (f : Txn → Txn) : (s.modTxn w f).agents = s.agents := rfl
@[simp] theorem State.modTxn_bus (s : State) (w : World) (f : Txn → Txn) : (s.modTxn w f).bus = s.bus := rfl
@[simp] theorem State.modTxn_bu (s : State) (w : World) (f : Txn → Txn) : (s.modTxn w f).bu = s.bu := rfl
@[simp] theorem State.modTxn_ofd (s : State) (w : World) (f : Txn → Txn) : (s.modTxn w f).ofd = s.ofd := rfl
@[simp] theorem State.modTxn_hbm (s : State) (w : World) (f : Txn → Txn) : (s.modTxn w f).hbm = s.hbm := rfl
@[simp] theorem State.modTxn_esc (s : State) (w : World) (f : Txn → Txn) : (s.modTxn w f).esc = s.esc := rfl
@[simp] theorem State.modTxn_test (s : State) (w : World) (f : Txn → Txn) : (s.modTxn w f).test = s.test := rfl
@[simp] theorem State.modTxn_thm (s : State) (w : World) (f : Txn → Txn) : (s.modTxn w f).thm = s.thm := rfl
@[simp] theorem State.modTxn_obs (s : State) (w : World) (f : Txn → Txn) : (s.modTxn w f).obs = s.obs := rfl
@[simp] theorem State.modTxn_ports (s : State) (w : World) (f : Txn → Txn) : (s.modTxn w f).ports = s.ports := rfl
@[simp] theorem State.modTxn_cmp (s : State) (w : World) (f : Txn → Txn) : (s.modTxn w f).cmp = s.cmp := rfl
@[simp] theorem State.modTxn_nor (s : State) (w : World) (f : Txn → Txn) : (s.modTxn w f).nor = s.nor := rfl
@[simp] theorem State.modTxn_free (s : State) (w : World) (f : Txn → Txn) : (s.modTxn w f).free = s.free := rfl
@[simp] theorem State.modTxn_out (s : State) (w : World) (f : Txn → Txn) : (s.modTxn w f).out = s.out := rfl
@[simp] theorem State.modTxn_pending (s : State) (w : World) (f : Txn → Txn) : (s.modTxn w f).pending = s.pending := rfl
/-! ### modFn -/
@[simp] theorem State.modFn_regs (s : State) (k : Nat) (f : Fn → Fn) : (s.modFn k f).regs = s.regs := rfl
@[simp] theorem State.modFn_paths (s : State) (k : Nat) (f : Fn → Fn) : (s.modFn k f).paths = s.paths := rfl
@[simp] theorem State.modFn_fused (s : State) (k : Nat) (f : Fn → Fn) : (s.modFn k f).fused = s.fused := rfl
@[simp] theorem State.modFn_sq (s : State) (k : Nat) (f : Fn → Fn) : (s.modFn k f).sq = s.sq := rfl
@[simp] theorem State.modFn_time (s : State) (k : Nat) (f : Fn → Fn) : (s.modFn k f).time = s.time := rfl
@[simp] theorem State.modFn_hl (s : State) (k : Nat) (f : Fn → Fn) : (s.modFn k f).hl = s.hl := rfl
@[simp] theorem State.modFn_pw (s : State) (k : Nat) (f : Fn → Fn) : (s.modFn k f).pw = s.pw := rfl
@[simp] theorem State.modFn_recd (s : State) (k : Nat) (f : Fn → Fn) : (s.modFn k f).recd = s.recd := rfl
@[simp] theorem State.modFn_msix (s : State) (k : Nat) (f : Fn → Fn) : (s.modFn k f).msix = s.msix := rfl
@[simp] theorem State.modFn_host (s : State) (k : Nat) (f : Fn → Fn) : (s.modFn k f).host = s.host := rfl
@[simp] theorem State.modFn_fns (s : State) (k : Nat) (f : Fn → Fn) : (s.modFn k f).fns = tput s.fns k (f (s.fn k)) := rfl
@[simp] theorem State.modFn_txns (s : State) (k : Nat) (f : Fn → Fn) : (s.modFn k f).txns = s.txns := rfl
@[simp] theorem State.modFn_regions (s : State) (k : Nat) (f : Fn → Fn) : (s.modFn k f).regions = s.regions := rfl
@[simp] theorem State.modFn_roles (s : State) (k : Nat) (f : Fn → Fn) : (s.modFn k f).roles = s.roles := rfl
@[simp] theorem State.modFn_routes (s : State) (k : Nat) (f : Fn → Fn) : (s.modFn k f).routes = s.routes := rfl
@[simp] theorem State.modFn_slices (s : State) (k : Nat) (f : Fn → Fn) : (s.modFn k f).slices = s.slices := rfl
@[simp] theorem State.modFn_subs (s : State) (k : Nat) (f : Fn → Fn) : (s.modFn k f).subs = s.subs := rfl
@[simp] theorem State.modFn_i3c (s : State) (k : Nat) (f : Fn → Fn) : (s.modFn k f).i3c = s.i3c := rfl
@[simp] theorem State.modFn_tiles (s : State) (k : Nat) (f : Fn → Fn) : (s.modFn k f).tiles = s.tiles := rfl
@[simp] theorem State.modFn_plan (s : State) (k : Nat) (f : Fn → Fn) : (s.modFn k f).plan = s.plan := rfl
@[simp] theorem State.modFn_shadow (s : State) (k : Nat) (f : Fn → Fn) : (s.modFn k f).shadow = s.shadow := rfl
@[simp] theorem State.modFn_ctxs (s : State) (k : Nat) (f : Fn → Fn) : (s.modFn k f).ctxs = s.ctxs := rfl
@[simp] theorem State.modFn_agents (s : State) (k : Nat) (f : Fn → Fn) : (s.modFn k f).agents = s.agents := rfl
@[simp] theorem State.modFn_bus (s : State) (k : Nat) (f : Fn → Fn) : (s.modFn k f).bus = s.bus := rfl
@[simp] theorem State.modFn_bu (s : State) (k : Nat) (f : Fn → Fn) : (s.modFn k f).bu = s.bu := rfl
@[simp] theorem State.modFn_ofd (s : State) (k : Nat) (f : Fn → Fn) : (s.modFn k f).ofd = s.ofd := rfl
@[simp] theorem State.modFn_hbm (s : State) (k : Nat) (f : Fn → Fn) : (s.modFn k f).hbm = s.hbm := rfl
@[simp] theorem State.modFn_esc (s : State) (k : Nat) (f : Fn → Fn) : (s.modFn k f).esc = s.esc := rfl
@[simp] theorem State.modFn_test (s : State) (k : Nat) (f : Fn → Fn) : (s.modFn k f).test = s.test := rfl
@[simp] theorem State.modFn_thm (s : State) (k : Nat) (f : Fn → Fn) : (s.modFn k f).thm = s.thm := rfl
@[simp] theorem State.modFn_obs (s : State) (k : Nat) (f : Fn → Fn) : (s.modFn k f).obs = s.obs := rfl
@[simp] theorem State.modFn_ports (s : State) (k : Nat) (f : Fn → Fn) : (s.modFn k f).ports = s.ports := rfl
@[simp] theorem State.modFn_cmp (s : State) (k : Nat) (f : Fn → Fn) : (s.modFn k f).cmp = s.cmp := rfl
@[simp] theorem State.modFn_nor (s : State) (k : Nat) (f : Fn → Fn) : (s.modFn k f).nor = s.nor := rfl
@[simp] theorem State.modFn_free (s : State) (k : Nat) (f : Fn → Fn) : (s.modFn k f).free = s.free := rfl
@[simp] theorem State.modFn_out (s : State) (k : Nat) (f : Fn → Fn) : (s.modFn k f).out = s.out := rfl
@[simp] theorem State.modFn_pending (s : State) (k : Nat) (f : Fn → Fn) : (s.modFn k f).pending = s.pending := rfl
/-! ### setWriter -/
@[simp] theorem State.setWriter_regs (s : State) (p w : Nat) (x : TraceWriter) : (s.setWriter p w x).regs = s.regs := rfl
@[simp] theorem State.setWriter_paths (s : State) (p w : Nat) (x : TraceWriter) : (s.setWriter p w x).paths = s.paths := rfl
@[simp] theorem State.setWriter_fused (s : State) (p w : Nat) (x : TraceWriter) : (s.setWriter p w x).fused = s.fused := rfl
@[simp] theorem State.setWriter_sq (s : State) (p w : Nat) (x : TraceWriter) : (s.setWriter p w x).sq = s.sq := rfl
@[simp] theorem State.setWriter_time (s : State) (p w : Nat) (x : TraceWriter) : (s.setWriter p w x).time = s.time := rfl
@[simp] theorem State.setWriter_hl (s : State) (p w : Nat) (x : TraceWriter) : (s.setWriter p w x).hl = s.hl := rfl
@[simp] theorem State.setWriter_pw (s : State) (p w : Nat) (x : TraceWriter) : (s.setWriter p w x).pw = s.pw := rfl
@[simp] theorem State.setWriter_recd (s : State) (p w : Nat) (x : TraceWriter) : (s.setWriter p w x).recd = s.recd := rfl
@[simp] theorem State.setWriter_msix (s : State) (p w : Nat) (x : TraceWriter) : (s.setWriter p w x).msix = s.msix := rfl
@[simp] theorem State.setWriter_host (s : State) (p w : Nat) (x : TraceWriter) : (s.setWriter p w x).host = s.host := rfl
@[simp] theorem State.setWriter_fns (s : State) (p w : Nat) (x : TraceWriter) : (s.setWriter p w x).fns = s.fns := rfl
@[simp] theorem State.setWriter_txns (s : State) (p w : Nat) (x : TraceWriter) : (s.setWriter p w x).txns = s.txns := rfl
@[simp] theorem State.setWriter_regions (s : State) (p w : Nat) (x : TraceWriter) : (s.setWriter p w x).regions = s.regions := rfl
@[simp] theorem State.setWriter_roles (s : State) (p w : Nat) (x : TraceWriter) : (s.setWriter p w x).roles = s.roles := rfl
@[simp] theorem State.setWriter_routes (s : State) (p w : Nat) (x : TraceWriter) : (s.setWriter p w x).routes = s.routes := rfl
@[simp] theorem State.setWriter_slices (s : State) (p w : Nat) (x : TraceWriter) : (s.setWriter p w x).slices = s.slices := rfl
@[simp] theorem State.setWriter_subs (s : State) (p w : Nat) (x : TraceWriter) : (s.setWriter p w x).subs = s.subs := rfl
@[simp] theorem State.setWriter_i3c (s : State) (p w : Nat) (x : TraceWriter) : (s.setWriter p w x).i3c = s.i3c := rfl
@[simp] theorem State.setWriter_tiles (s : State) (p w : Nat) (x : TraceWriter) : (s.setWriter p w x).tiles = s.tiles := rfl
@[simp] theorem State.setWriter_plan (s : State) (p w : Nat) (x : TraceWriter) : (s.setWriter p w x).plan = s.plan := rfl
@[simp] theorem State.setWriter_shadow (s : State) (p w : Nat) (x : TraceWriter) : (s.setWriter p w x).shadow = s.shadow := rfl
@[simp] theorem State.setWriter_ctxs (s : State) (p w : Nat) (x : TraceWriter) : (s.setWriter p w x).ctxs = s.ctxs := rfl
@[simp] theorem State.setWriter_agents (s : State) (p w : Nat) (x : TraceWriter) : (s.setWriter p w x).agents = s.agents := rfl
@[simp] theorem State.setWriter_bus (s : State) (p w : Nat) (x : TraceWriter) : (s.setWriter p w x).bus = s.bus := rfl
@[simp] theorem State.setWriter_bu (s : State) (p w : Nat) (x : TraceWriter) : (s.setWriter p w x).bu = s.bu := rfl
@[simp] theorem State.setWriter_ofd (s : State) (p w : Nat) (x : TraceWriter) : (s.setWriter p w x).ofd = s.ofd := rfl
@[simp] theorem State.setWriter_hbm (s : State) (p w : Nat) (x : TraceWriter) : (s.setWriter p w x).hbm = s.hbm := rfl
@[simp] theorem State.setWriter_esc (s : State) (p w : Nat) (x : TraceWriter) : (s.setWriter p w x).esc = s.esc := rfl
@[simp] theorem State.setWriter_test (s : State) (p w : Nat) (x : TraceWriter) : (s.setWriter p w x).test = s.test := rfl
@[simp] theorem State.setWriter_thm (s : State) (p w : Nat) (x : TraceWriter) : (s.setWriter p w x).thm = s.thm := rfl
@[simp] theorem State.setWriter_obs (s : State) (p w : Nat) (x : TraceWriter) : (s.setWriter p w x).obs = { s.obs with writers := tput s.obs.writers (p * 256 + w) x } := rfl
@[simp] theorem State.setWriter_ports (s : State) (p w : Nat) (x : TraceWriter) : (s.setWriter p w x).ports = s.ports := rfl
@[simp] theorem State.setWriter_cmp (s : State) (p w : Nat) (x : TraceWriter) : (s.setWriter p w x).cmp = s.cmp := rfl
@[simp] theorem State.setWriter_nor (s : State) (p w : Nat) (x : TraceWriter) : (s.setWriter p w x).nor = s.nor := rfl
@[simp] theorem State.setWriter_free (s : State) (p w : Nat) (x : TraceWriter) : (s.setWriter p w x).free = s.free := rfl
@[simp] theorem State.setWriter_out (s : State) (p w : Nat) (x : TraceWriter) : (s.setWriter p w x).out = s.out := rfl
@[simp] theorem State.setWriter_pending (s : State) (p w : Nat) (x : TraceWriter) : (s.setWriter p w x).pending = s.pending := rfl
/-! ### emitOut -/
@[simp] theorem State.emitOut_regs (s : State) (o : Out) : (s.emitOut o).regs = s.regs := rfl
@[simp] theorem State.emitOut_paths (s : State) (o : Out) : (s.emitOut o).paths = s.paths := rfl
@[simp] theorem State.emitOut_fused (s : State) (o : Out) : (s.emitOut o).fused = s.fused := rfl
@[simp] theorem State.emitOut_sq (s : State) (o : Out) : (s.emitOut o).sq = s.sq := rfl
@[simp] theorem State.emitOut_time (s : State) (o : Out) : (s.emitOut o).time = s.time := rfl
@[simp] theorem State.emitOut_hl (s : State) (o : Out) : (s.emitOut o).hl = s.hl := rfl
@[simp] theorem State.emitOut_pw (s : State) (o : Out) : (s.emitOut o).pw = s.pw := rfl
@[simp] theorem State.emitOut_recd (s : State) (o : Out) : (s.emitOut o).recd = s.recd := rfl
@[simp] theorem State.emitOut_msix (s : State) (o : Out) : (s.emitOut o).msix = s.msix := rfl
@[simp] theorem State.emitOut_host (s : State) (o : Out) : (s.emitOut o).host = s.host := rfl
@[simp] theorem State.emitOut_fns (s : State) (o : Out) : (s.emitOut o).fns = s.fns := rfl
@[simp] theorem State.emitOut_txns (s : State) (o : Out) : (s.emitOut o).txns = s.txns := rfl
@[simp] theorem State.emitOut_regions (s : State) (o : Out) : (s.emitOut o).regions = s.regions := rfl
@[simp] theorem State.emitOut_roles (s : State) (o : Out) : (s.emitOut o).roles = s.roles := rfl
@[simp] theorem State.emitOut_routes (s : State) (o : Out) : (s.emitOut o).routes = s.routes := rfl
@[simp] theorem State.emitOut_slices (s : State) (o : Out) : (s.emitOut o).slices = s.slices := rfl
@[simp] theorem State.emitOut_subs (s : State) (o : Out) : (s.emitOut o).subs = s.subs := rfl
@[simp] theorem State.emitOut_i3c (s : State) (o : Out) : (s.emitOut o).i3c = s.i3c := rfl
@[simp] theorem State.emitOut_tiles (s : State) (o : Out) : (s.emitOut o).tiles = s.tiles := rfl
@[simp] theorem State.emitOut_plan (s : State) (o : Out) : (s.emitOut o).plan = s.plan := rfl
@[simp] theorem State.emitOut_shadow (s : State) (o : Out) : (s.emitOut o).shadow = s.shadow := rfl
@[simp] theorem State.emitOut_ctxs (s : State) (o : Out) : (s.emitOut o).ctxs = s.ctxs := rfl
@[simp] theorem State.emitOut_agents (s : State) (o : Out) : (s.emitOut o).agents = s.agents := rfl
@[simp] theorem State.emitOut_bus (s : State) (o : Out) : (s.emitOut o).bus = s.bus := rfl
@[simp] theorem State.emitOut_bu (s : State) (o : Out) : (s.emitOut o).bu = s.bu := rfl
@[simp] theorem State.emitOut_ofd (s : State) (o : Out) : (s.emitOut o).ofd = s.ofd := rfl
@[simp] theorem State.emitOut_hbm (s : State) (o : Out) : (s.emitOut o).hbm = s.hbm := rfl
@[simp] theorem State.emitOut_esc (s : State) (o : Out) : (s.emitOut o).esc = s.esc := rfl
@[simp] theorem State.emitOut_test (s : State) (o : Out) : (s.emitOut o).test = s.test := rfl
@[simp] theorem State.emitOut_thm (s : State) (o : Out) : (s.emitOut o).thm = s.thm := rfl
@[simp] theorem State.emitOut_obs (s : State) (o : Out) : (s.emitOut o).obs = s.obs := rfl
@[simp] theorem State.emitOut_ports (s : State) (o : Out) : (s.emitOut o).ports = s.ports := rfl
@[simp] theorem State.emitOut_cmp (s : State) (o : Out) : (s.emitOut o).cmp = s.cmp := rfl
@[simp] theorem State.emitOut_nor (s : State) (o : Out) : (s.emitOut o).nor = s.nor := rfl
@[simp] theorem State.emitOut_free (s : State) (o : Out) : (s.emitOut o).free = s.free := rfl
@[simp] theorem State.emitOut_out (s : State) (o : Out) : (s.emitOut o).out = o :: s.out := rfl
@[simp] theorem State.emitOut_pending (s : State) (o : Out) : (s.emitOut o).pending = s.pending := rfl
/-! ### drawn -/
@[simp] theorem State.drawn_regs (s : State) : (s.drawn).regs = s.regs := rfl
@[simp] theorem State.drawn_paths (s : State) : (s.drawn).paths = s.paths := rfl
@[simp] theorem State.drawn_fused (s : State) : (s.drawn).fused = s.fused := rfl
@[simp] theorem State.drawn_sq (s : State) : (s.drawn).sq = s.sq := rfl
@[simp] theorem State.drawn_time (s : State) : (s.drawn).time = s.time := rfl
@[simp] theorem State.drawn_hl (s : State) : (s.drawn).hl = s.hl := rfl
@[simp] theorem State.drawn_pw (s : State) : (s.drawn).pw = s.pw := rfl
@[simp] theorem State.drawn_recd (s : State) : (s.drawn).recd = s.recd := rfl
@[simp] theorem State.drawn_msix (s : State) : (s.drawn).msix = s.msix := rfl
@[simp] theorem State.drawn_host (s : State) : (s.drawn).host = s.host := rfl
@[simp] theorem State.drawn_fns (s : State) : (s.drawn).fns = s.fns := rfl
@[simp] theorem State.drawn_txns (s : State) : (s.drawn).txns = s.txns := rfl
@[simp] theorem State.drawn_regions (s : State) : (s.drawn).regions = s.regions := rfl
@[simp] theorem State.drawn_roles (s : State) : (s.drawn).roles = s.roles := rfl
@[simp] theorem State.drawn_routes (s : State) : (s.drawn).routes = s.routes := rfl
@[simp] theorem State.drawn_slices (s : State) : (s.drawn).slices = s.slices := rfl
@[simp] theorem State.drawn_subs (s : State) : (s.drawn).subs = s.subs := rfl
@[simp] theorem State.drawn_i3c (s : State) : (s.drawn).i3c = s.i3c := rfl
@[simp] theorem State.drawn_tiles (s : State) : (s.drawn).tiles = s.tiles := rfl
@[simp] theorem State.drawn_plan (s : State) : (s.drawn).plan = s.plan := rfl
@[simp] theorem State.drawn_shadow (s : State) : (s.drawn).shadow = s.shadow := rfl
@[simp] theorem State.drawn_ctxs (s : State) : (s.drawn).ctxs = s.ctxs := rfl
@[simp] theorem State.drawn_agents (s : State) : (s.drawn).agents = s.agents := rfl
@[simp] theorem State.drawn_bus (s : State) : (s.drawn).bus = s.bus := rfl
@[simp] theorem State.drawn_bu (s : State) : (s.drawn).bu = s.bu := rfl
@[simp] theorem State.drawn_ofd (s : State) : (s.drawn).ofd = s.ofd := rfl
@[simp] theorem State.drawn_hbm (s : State) : (s.drawn).hbm = s.hbm := rfl
@[simp] theorem State.drawn_esc (s : State) : (s.drawn).esc = s.esc := rfl
@[simp] theorem State.drawn_test (s : State) : (s.drawn).test = s.test := rfl
@[simp] theorem State.drawn_thm (s : State) : (s.drawn).thm = s.thm := rfl
@[simp] theorem State.drawn_obs (s : State) : (s.drawn).obs = s.obs := rfl
@[simp] theorem State.drawn_ports (s : State) : (s.drawn).ports = s.ports := rfl
@[simp] theorem State.drawn_cmp (s : State) : (s.drawn).cmp = s.cmp := rfl
@[simp] theorem State.drawn_nor (s : State) : (s.drawn).nor = s.nor := rfl
@[simp] theorem State.drawn_free (s : State) : (s.drawn).free = s.free + 1 := rfl
@[simp] theorem State.drawn_out (s : State) : (s.drawn).out = s.out := rfl
@[simp] theorem State.drawn_pending (s : State) : (s.drawn).pending = s.pending := rfl
/-! ### setNat -/
@[simp] theorem State.setNat_paths (s : State) (k v : Nat) : (s.setNat k v).paths = s.paths := rfl
@[simp] theorem State.setNat_fused (s : State) (k v : Nat) : (s.setNat k v).fused = s.fused := rfl
@[simp] theorem State.setNat_sq (s : State) (k v : Nat) : (s.setNat k v).sq = s.sq := rfl
@[simp] theorem State.setNat_time (s : State) (k v : Nat) : (s.setNat k v).time = s.time := rfl
@[simp] theorem State.setNat_hl (s : State) (k v : Nat) : (s.setNat k v).hl = s.hl := rfl
@[simp] theorem State.setNat_pw (s : State) (k v : Nat) : (s.setNat k v).pw = s.pw := rfl
@[simp] theorem State.setNat_recd (s : State) (k v : Nat) : (s.setNat k v).recd = s.recd := rfl
@[simp] theorem State.setNat_msix (s : State) (k v : Nat) : (s.setNat k v).msix = s.msix := rfl
@[simp] theorem State.setNat_host (s : State) (k v : Nat) : (s.setNat k v).host = s.host := rfl
@[simp] theorem State.setNat_fns (s : State) (k v : Nat) : (s.setNat k v).fns = s.fns := rfl
@[simp] theorem State.setNat_txns (s : State) (k v : Nat) : (s.setNat k v).txns = s.txns := rfl
@[simp] theorem State.setNat_regions (s : State) (k v : Nat) : (s.setNat k v).regions = s.regions := rfl
@[simp] theorem State.setNat_roles (s : State) (k v : Nat) : (s.setNat k v).roles = s.roles := rfl
@[simp] theorem State.setNat_routes (s : State) (k v : Nat) : (s.setNat k v).routes = s.routes := rfl
@[simp] theorem State.setNat_slices (s : State) (k v : Nat) : (s.setNat k v).slices = s.slices := rfl
@[simp] theorem State.setNat_subs (s : State) (k v : Nat) : (s.setNat k v).subs = s.subs := rfl
@[simp] theorem State.setNat_i3c (s : State) (k v : Nat) : (s.setNat k v).i3c = s.i3c := rfl
@[simp] theorem State.setNat_tiles (s : State) (k v : Nat) : (s.setNat k v).tiles = s.tiles := rfl
@[simp] theorem State.setNat_plan (s : State) (k v : Nat) : (s.setNat k v).plan = s.plan := rfl
@[simp] theorem State.setNat_shadow (s : State) (k v : Nat) : (s.setNat k v).shadow = s.shadow := rfl
@[simp] theorem State.setNat_ctxs (s : State) (k v : Nat) : (s.setNat k v).ctxs = s.ctxs := rfl
@[simp] theorem State.setNat_agents (s : State) (k v : Nat) : (s.setNat k v).agents = s.agents := rfl
@[simp] theorem State.setNat_bus (s : State) (k v : Nat) : (s.setNat k v).bus = s.bus := rfl
@[simp] theorem State.setNat_bu (s : State) (k v : Nat) : (s.setNat k v).bu = s.bu := rfl
@[simp] theorem State.setNat_ofd (s : State) (k v : Nat) : (s.setNat k v).ofd = s.ofd := rfl
@[simp] theorem State.setNat_hbm (s : State) (k v : Nat) : (s.setNat k v).hbm = s.hbm := rfl
@[simp] theorem State.setNat_esc (s : State) (k v : Nat) : (s.setNat k v).esc = s.esc := rfl
@[simp] theorem State.setNat_test (s : State) (k v : Nat) : (s.setNat k v).test = s.test := rfl
@[simp] theorem State.setNat_thm (s : State) (k v : Nat) : (s.setNat k v).thm = s.thm := rfl
@[simp] theorem State.setNat_obs (s : State) (k v : Nat) : (s.setNat k v).obs = s.obs := rfl
@[simp] theorem State.setNat_ports (s : State) (k v : Nat) : (s.setNat k v).ports = s.ports := rfl
@[simp] theorem State.setNat_cmp (s : State) (k v : Nat) : (s.setNat k v).cmp = s.cmp := rfl
@[simp] theorem State.setNat_nor (s : State) (k v : Nat) : (s.setNat k v).nor = s.nor := rfl
@[simp] theorem State.setNat_free (s : State) (k v : Nat) : (s.setNat k v).free = s.free := rfl
@[simp] theorem State.setNat_out (s : State) (k v : Nat) : (s.setNat k v).out = s.out := rfl
@[simp] theorem State.setNat_pending (s : State) (k v : Nat) : (s.setNat k v).pending = s.pending := rfl
/-! ### setFld -/
@[simp] theorem State.setFld_paths (s : State) (k hi lo x : Nat) : (s.setFld k hi lo x).paths = s.paths := rfl
@[simp] theorem State.setFld_fused (s : State) (k hi lo x : Nat) : (s.setFld k hi lo x).fused = s.fused := rfl
@[simp] theorem State.setFld_sq (s : State) (k hi lo x : Nat) : (s.setFld k hi lo x).sq = s.sq := rfl
@[simp] theorem State.setFld_time (s : State) (k hi lo x : Nat) : (s.setFld k hi lo x).time = s.time := rfl
@[simp] theorem State.setFld_hl (s : State) (k hi lo x : Nat) : (s.setFld k hi lo x).hl = s.hl := rfl
@[simp] theorem State.setFld_pw (s : State) (k hi lo x : Nat) : (s.setFld k hi lo x).pw = s.pw := rfl
@[simp] theorem State.setFld_recd (s : State) (k hi lo x : Nat) : (s.setFld k hi lo x).recd = s.recd := rfl
@[simp] theorem State.setFld_msix (s : State) (k hi lo x : Nat) : (s.setFld k hi lo x).msix = s.msix := rfl
@[simp] theorem State.setFld_host (s : State) (k hi lo x : Nat) : (s.setFld k hi lo x).host = s.host := rfl
@[simp] theorem State.setFld_fns (s : State) (k hi lo x : Nat) : (s.setFld k hi lo x).fns = s.fns := rfl
@[simp] theorem State.setFld_txns (s : State) (k hi lo x : Nat) : (s.setFld k hi lo x).txns = s.txns := rfl
@[simp] theorem State.setFld_regions (s : State) (k hi lo x : Nat) : (s.setFld k hi lo x).regions = s.regions := rfl
@[simp] theorem State.setFld_roles (s : State) (k hi lo x : Nat) : (s.setFld k hi lo x).roles = s.roles := rfl
@[simp] theorem State.setFld_routes (s : State) (k hi lo x : Nat) : (s.setFld k hi lo x).routes = s.routes := rfl
@[simp] theorem State.setFld_slices (s : State) (k hi lo x : Nat) : (s.setFld k hi lo x).slices = s.slices := rfl
@[simp] theorem State.setFld_subs (s : State) (k hi lo x : Nat) : (s.setFld k hi lo x).subs = s.subs := rfl
@[simp] theorem State.setFld_i3c (s : State) (k hi lo x : Nat) : (s.setFld k hi lo x).i3c = s.i3c := rfl
@[simp] theorem State.setFld_tiles (s : State) (k hi lo x : Nat) : (s.setFld k hi lo x).tiles = s.tiles := rfl
@[simp] theorem State.setFld_plan (s : State) (k hi lo x : Nat) : (s.setFld k hi lo x).plan = s.plan := rfl
@[simp] theorem State.setFld_shadow (s : State) (k hi lo x : Nat) : (s.setFld k hi lo x).shadow = s.shadow := rfl
@[simp] theorem State.setFld_ctxs (s : State) (k hi lo x : Nat) : (s.setFld k hi lo x).ctxs = s.ctxs := rfl
@[simp] theorem State.setFld_agents (s : State) (k hi lo x : Nat) : (s.setFld k hi lo x).agents = s.agents := rfl
@[simp] theorem State.setFld_bus (s : State) (k hi lo x : Nat) : (s.setFld k hi lo x).bus = s.bus := rfl
@[simp] theorem State.setFld_bu (s : State) (k hi lo x : Nat) : (s.setFld k hi lo x).bu = s.bu := rfl
@[simp] theorem State.setFld_ofd (s : State) (k hi lo x : Nat) : (s.setFld k hi lo x).ofd = s.ofd := rfl
@[simp] theorem State.setFld_hbm (s : State) (k hi lo x : Nat) : (s.setFld k hi lo x).hbm = s.hbm := rfl
@[simp] theorem State.setFld_esc (s : State) (k hi lo x : Nat) : (s.setFld k hi lo x).esc = s.esc := rfl
@[simp] theorem State.setFld_test (s : State) (k hi lo x : Nat) : (s.setFld k hi lo x).test = s.test := rfl
@[simp] theorem State.setFld_thm (s : State) (k hi lo x : Nat) : (s.setFld k hi lo x).thm = s.thm := rfl
@[simp] theorem State.setFld_obs (s : State) (k hi lo x : Nat) : (s.setFld k hi lo x).obs = s.obs := rfl
@[simp] theorem State.setFld_ports (s : State) (k hi lo x : Nat) : (s.setFld k hi lo x).ports = s.ports := rfl
@[simp] theorem State.setFld_cmp (s : State) (k hi lo x : Nat) : (s.setFld k hi lo x).cmp = s.cmp := rfl
@[simp] theorem State.setFld_nor (s : State) (k hi lo x : Nat) : (s.setFld k hi lo x).nor = s.nor := rfl
@[simp] theorem State.setFld_free (s : State) (k hi lo x : Nat) : (s.setFld k hi lo x).free = s.free := rfl
@[simp] theorem State.setFld_out (s : State) (k hi lo x : Nat) : (s.setFld k hi lo x).out = s.out := rfl
@[simp] theorem State.setFld_pending (s : State) (k hi lo x : Nat) : (s.setFld k hi lo x).pending = s.pending := rfl
/-! ### bump -/
@[simp] theorem State.bump_paths (s : State) (k n : Nat) : (s.bump k n).paths = s.paths := rfl
@[simp] theorem State.bump_fused (s : State) (k n : Nat) : (s.bump k n).fused = s.fused := rfl
@[simp] theorem State.bump_sq (s : State) (k n : Nat) : (s.bump k n).sq = s.sq := rfl
@[simp] theorem State.bump_time (s : State) (k n : Nat) : (s.bump k n).time = s.time := rfl
@[simp] theorem State.bump_hl (s : State) (k n : Nat) : (s.bump k n).hl = s.hl := rfl
@[simp] theorem State.bump_pw (s : State) (k n : Nat) : (s.bump k n).pw = s.pw := rfl
@[simp] theorem State.bump_recd (s : State) (k n : Nat) : (s.bump k n).recd = s.recd := rfl
@[simp] theorem State.bump_msix (s : State) (k n : Nat) : (s.bump k n).msix = s.msix := rfl
@[simp] theorem State.bump_host (s : State) (k n : Nat) : (s.bump k n).host = s.host := rfl
@[simp] theorem State.bump_fns (s : State) (k n : Nat) : (s.bump k n).fns = s.fns := rfl
@[simp] theorem State.bump_txns (s : State) (k n : Nat) : (s.bump k n).txns = s.txns := rfl
@[simp] theorem State.bump_regions (s : State) (k n : Nat) : (s.bump k n).regions = s.regions := rfl
@[simp] theorem State.bump_roles (s : State) (k n : Nat) : (s.bump k n).roles = s.roles := rfl
@[simp] theorem State.bump_routes (s : State) (k n : Nat) : (s.bump k n).routes = s.routes := rfl
@[simp] theorem State.bump_slices (s : State) (k n : Nat) : (s.bump k n).slices = s.slices := rfl
@[simp] theorem State.bump_subs (s : State) (k n : Nat) : (s.bump k n).subs = s.subs := rfl
@[simp] theorem State.bump_i3c (s : State) (k n : Nat) : (s.bump k n).i3c = s.i3c := rfl
@[simp] theorem State.bump_tiles (s : State) (k n : Nat) : (s.bump k n).tiles = s.tiles := rfl
@[simp] theorem State.bump_plan (s : State) (k n : Nat) : (s.bump k n).plan = s.plan := rfl
@[simp] theorem State.bump_shadow (s : State) (k n : Nat) : (s.bump k n).shadow = s.shadow := rfl
@[simp] theorem State.bump_ctxs (s : State) (k n : Nat) : (s.bump k n).ctxs = s.ctxs := rfl
@[simp] theorem State.bump_agents (s : State) (k n : Nat) : (s.bump k n).agents = s.agents := rfl
@[simp] theorem State.bump_bus (s : State) (k n : Nat) : (s.bump k n).bus = s.bus := rfl
@[simp] theorem State.bump_bu (s : State) (k n : Nat) : (s.bump k n).bu = s.bu := rfl
@[simp] theorem State.bump_ofd (s : State) (k n : Nat) : (s.bump k n).ofd = s.ofd := rfl
@[simp] theorem State.bump_hbm (s : State) (k n : Nat) : (s.bump k n).hbm = s.hbm := rfl
@[simp] theorem State.bump_esc (s : State) (k n : Nat) : (s.bump k n).esc = s.esc := rfl
@[simp] theorem State.bump_test (s : State) (k n : Nat) : (s.bump k n).test = s.test := rfl
@[simp] theorem State.bump_thm (s : State) (k n : Nat) : (s.bump k n).thm = s.thm := rfl
@[simp] theorem State.bump_obs (s : State) (k n : Nat) : (s.bump k n).obs = s.obs := rfl
@[simp] theorem State.bump_ports (s : State) (k n : Nat) : (s.bump k n).ports = s.ports := rfl
@[simp] theorem State.bump_cmp (s : State) (k n : Nat) : (s.bump k n).cmp = s.cmp := rfl
@[simp] theorem State.bump_nor (s : State) (k n : Nat) : (s.bump k n).nor = s.nor := rfl
@[simp] theorem State.bump_free (s : State) (k n : Nat) : (s.bump k n).free = s.free := rfl
@[simp] theorem State.bump_out (s : State) (k n : Nat) : (s.bump k n).out = s.out := rfl
@[simp] theorem State.bump_pending (s : State) (k n : Nat) : (s.bump k n).pending = s.pending := rfl
/-! ### bumpFld -/
@[simp] theorem State.bumpFld_paths (s : State) (k hi lo n : Nat) : (s.bumpFld k hi lo n).paths = s.paths := rfl
@[simp] theorem State.bumpFld_fused (s : State) (k hi lo n : Nat) : (s.bumpFld k hi lo n).fused = s.fused := rfl
@[simp] theorem State.bumpFld_sq (s : State) (k hi lo n : Nat) : (s.bumpFld k hi lo n).sq = s.sq := rfl
@[simp] theorem State.bumpFld_time (s : State) (k hi lo n : Nat) : (s.bumpFld k hi lo n).time = s.time := rfl
@[simp] theorem State.bumpFld_hl (s : State) (k hi lo n : Nat) : (s.bumpFld k hi lo n).hl = s.hl := rfl
@[simp] theorem State.bumpFld_pw (s : State) (k hi lo n : Nat) : (s.bumpFld k hi lo n).pw = s.pw := rfl
@[simp] theorem State.bumpFld_recd (s : State) (k hi lo n : Nat) : (s.bumpFld k hi lo n).recd = s.recd := rfl
@[simp] theorem State.bumpFld_msix (s : State) (k hi lo n : Nat) : (s.bumpFld k hi lo n).msix = s.msix := rfl
@[simp] theorem State.bumpFld_host (s : State) (k hi lo n : Nat) : (s.bumpFld k hi lo n).host = s.host := rfl
@[simp] theorem State.bumpFld_fns (s : State) (k hi lo n : Nat) : (s.bumpFld k hi lo n).fns = s.fns := rfl
@[simp] theorem State.bumpFld_txns (s : State) (k hi lo n : Nat) : (s.bumpFld k hi lo n).txns = s.txns := rfl
@[simp] theorem State.bumpFld_regions (s : State) (k hi lo n : Nat) : (s.bumpFld k hi lo n).regions = s.regions := rfl
@[simp] theorem State.bumpFld_roles (s : State) (k hi lo n : Nat) : (s.bumpFld k hi lo n).roles = s.roles := rfl
@[simp] theorem State.bumpFld_routes (s : State) (k hi lo n : Nat) : (s.bumpFld k hi lo n).routes = s.routes := rfl
@[simp] theorem State.bumpFld_slices (s : State) (k hi lo n : Nat) : (s.bumpFld k hi lo n).slices = s.slices := rfl
@[simp] theorem State.bumpFld_subs (s : State) (k hi lo n : Nat) : (s.bumpFld k hi lo n).subs = s.subs := rfl
@[simp] theorem State.bumpFld_i3c (s : State) (k hi lo n : Nat) : (s.bumpFld k hi lo n).i3c = s.i3c := rfl
@[simp] theorem State.bumpFld_tiles (s : State) (k hi lo n : Nat) : (s.bumpFld k hi lo n).tiles = s.tiles := rfl
@[simp] theorem State.bumpFld_plan (s : State) (k hi lo n : Nat) : (s.bumpFld k hi lo n).plan = s.plan := rfl
@[simp] theorem State.bumpFld_shadow (s : State) (k hi lo n : Nat) : (s.bumpFld k hi lo n).shadow = s.shadow := rfl
@[simp] theorem State.bumpFld_ctxs (s : State) (k hi lo n : Nat) : (s.bumpFld k hi lo n).ctxs = s.ctxs := rfl
@[simp] theorem State.bumpFld_agents (s : State) (k hi lo n : Nat) : (s.bumpFld k hi lo n).agents = s.agents := rfl
@[simp] theorem State.bumpFld_bus (s : State) (k hi lo n : Nat) : (s.bumpFld k hi lo n).bus = s.bus := rfl
@[simp] theorem State.bumpFld_bu (s : State) (k hi lo n : Nat) : (s.bumpFld k hi lo n).bu = s.bu := rfl
@[simp] theorem State.bumpFld_ofd (s : State) (k hi lo n : Nat) : (s.bumpFld k hi lo n).ofd = s.ofd := rfl
@[simp] theorem State.bumpFld_hbm (s : State) (k hi lo n : Nat) : (s.bumpFld k hi lo n).hbm = s.hbm := rfl
@[simp] theorem State.bumpFld_esc (s : State) (k hi lo n : Nat) : (s.bumpFld k hi lo n).esc = s.esc := rfl
@[simp] theorem State.bumpFld_test (s : State) (k hi lo n : Nat) : (s.bumpFld k hi lo n).test = s.test := rfl
@[simp] theorem State.bumpFld_thm (s : State) (k hi lo n : Nat) : (s.bumpFld k hi lo n).thm = s.thm := rfl
@[simp] theorem State.bumpFld_obs (s : State) (k hi lo n : Nat) : (s.bumpFld k hi lo n).obs = s.obs := rfl
@[simp] theorem State.bumpFld_ports (s : State) (k hi lo n : Nat) : (s.bumpFld k hi lo n).ports = s.ports := rfl
@[simp] theorem State.bumpFld_cmp (s : State) (k hi lo n : Nat) : (s.bumpFld k hi lo n).cmp = s.cmp := rfl
@[simp] theorem State.bumpFld_nor (s : State) (k hi lo n : Nat) : (s.bumpFld k hi lo n).nor = s.nor := rfl
@[simp] theorem State.bumpFld_free (s : State) (k hi lo n : Nat) : (s.bumpFld k hi lo n).free = s.free := rfl
@[simp] theorem State.bumpFld_out (s : State) (k hi lo n : Nat) : (s.bumpFld k hi lo n).out = s.out := rfl
@[simp] theorem State.bumpFld_pending (s : State) (k hi lo n : Nat) : (s.bumpFld k hi lo n).pending = s.pending := rfl
/-! ### set64 -/
@[simp] theorem State.set64_paths (s : State) (lo hi v : Nat) : (s.set64 lo hi v).paths = s.paths := rfl
@[simp] theorem State.set64_fused (s : State) (lo hi v : Nat) : (s.set64 lo hi v).fused = s.fused := rfl
@[simp] theorem State.set64_sq (s : State) (lo hi v : Nat) : (s.set64 lo hi v).sq = s.sq := rfl
@[simp] theorem State.set64_time (s : State) (lo hi v : Nat) : (s.set64 lo hi v).time = s.time := rfl
@[simp] theorem State.set64_hl (s : State) (lo hi v : Nat) : (s.set64 lo hi v).hl = s.hl := rfl
@[simp] theorem State.set64_pw (s : State) (lo hi v : Nat) : (s.set64 lo hi v).pw = s.pw := rfl
@[simp] theorem State.set64_recd (s : State) (lo hi v : Nat) : (s.set64 lo hi v).recd = s.recd := rfl
@[simp] theorem State.set64_msix (s : State) (lo hi v : Nat) : (s.set64 lo hi v).msix = s.msix := rfl
@[simp] theorem State.set64_host (s : State) (lo hi v : Nat) : (s.set64 lo hi v).host = s.host := rfl
@[simp] theorem State.set64_fns (s : State) (lo hi v : Nat) : (s.set64 lo hi v).fns = s.fns := rfl
@[simp] theorem State.set64_txns (s : State) (lo hi v : Nat) : (s.set64 lo hi v).txns = s.txns := rfl
@[simp] theorem State.set64_regions (s : State) (lo hi v : Nat) : (s.set64 lo hi v).regions = s.regions := rfl
@[simp] theorem State.set64_roles (s : State) (lo hi v : Nat) : (s.set64 lo hi v).roles = s.roles := rfl
@[simp] theorem State.set64_routes (s : State) (lo hi v : Nat) : (s.set64 lo hi v).routes = s.routes := rfl
@[simp] theorem State.set64_slices (s : State) (lo hi v : Nat) : (s.set64 lo hi v).slices = s.slices := rfl
@[simp] theorem State.set64_subs (s : State) (lo hi v : Nat) : (s.set64 lo hi v).subs = s.subs := rfl
@[simp] theorem State.set64_i3c (s : State) (lo hi v : Nat) : (s.set64 lo hi v).i3c = s.i3c := rfl
@[simp] theorem State.set64_tiles (s : State) (lo hi v : Nat) : (s.set64 lo hi v).tiles = s.tiles := rfl
@[simp] theorem State.set64_plan (s : State) (lo hi v : Nat) : (s.set64 lo hi v).plan = s.plan := rfl
@[simp] theorem State.set64_shadow (s : State) (lo hi v : Nat) : (s.set64 lo hi v).shadow = s.shadow := rfl
@[simp] theorem State.set64_ctxs (s : State) (lo hi v : Nat) : (s.set64 lo hi v).ctxs = s.ctxs := rfl
@[simp] theorem State.set64_agents (s : State) (lo hi v : Nat) : (s.set64 lo hi v).agents = s.agents := rfl
@[simp] theorem State.set64_bus (s : State) (lo hi v : Nat) : (s.set64 lo hi v).bus = s.bus := rfl
@[simp] theorem State.set64_bu (s : State) (lo hi v : Nat) : (s.set64 lo hi v).bu = s.bu := rfl
@[simp] theorem State.set64_ofd (s : State) (lo hi v : Nat) : (s.set64 lo hi v).ofd = s.ofd := rfl
@[simp] theorem State.set64_hbm (s : State) (lo hi v : Nat) : (s.set64 lo hi v).hbm = s.hbm := rfl
@[simp] theorem State.set64_esc (s : State) (lo hi v : Nat) : (s.set64 lo hi v).esc = s.esc := rfl
@[simp] theorem State.set64_test (s : State) (lo hi v : Nat) : (s.set64 lo hi v).test = s.test := rfl
@[simp] theorem State.set64_thm (s : State) (lo hi v : Nat) : (s.set64 lo hi v).thm = s.thm := rfl
@[simp] theorem State.set64_obs (s : State) (lo hi v : Nat) : (s.set64 lo hi v).obs = s.obs := rfl
@[simp] theorem State.set64_ports (s : State) (lo hi v : Nat) : (s.set64 lo hi v).ports = s.ports := rfl
@[simp] theorem State.set64_cmp (s : State) (lo hi v : Nat) : (s.set64 lo hi v).cmp = s.cmp := rfl
@[simp] theorem State.set64_nor (s : State) (lo hi v : Nat) : (s.set64 lo hi v).nor = s.nor := rfl
@[simp] theorem State.set64_free (s : State) (lo hi v : Nat) : (s.set64 lo hi v).free = s.free := rfl
@[simp] theorem State.set64_out (s : State) (lo hi v : Nat) : (s.set64 lo hi v).out = s.out := rfl
@[simp] theorem State.set64_pending (s : State) (lo hi v : Nat) : (s.set64 lo hi v).pending = s.pending := rfl
/-! ### add64 -/
@[simp] theorem State.add64_paths (s : State) (lo hi n w : Nat) : (s.add64 lo hi n w).paths = s.paths := State.set64_paths ..
@[simp] theorem State.add64_fused (s : State) (lo hi n w : Nat) : (s.add64 lo hi n w).fused = s.fused := State.set64_fused ..
@[simp] theorem State.add64_sq (s : State) (lo hi n w : Nat) : (s.add64 lo hi n w).sq = s.sq := State.set64_sq ..
@[simp] theorem State.add64_time (s : State) (lo hi n w : Nat) : (s.add64 lo hi n w).time = s.time := State.set64_time ..
@[simp] theorem State.add64_hl (s : State) (lo hi n w : Nat) : (s.add64 lo hi n w).hl = s.hl := State.set64_hl ..
@[simp] theorem State.add64_pw (s : State) (lo hi n w : Nat) : (s.add64 lo hi n w).pw = s.pw := State.set64_pw ..
@[simp] theorem State.add64_recd (s : State) (lo hi n w : Nat) : (s.add64 lo hi n w).recd = s.recd := State.set64_recd ..
@[simp] theorem State.add64_msix (s : State) (lo hi n w : Nat) : (s.add64 lo hi n w).msix = s.msix := State.set64_msix ..
@[simp] theorem State.add64_host (s : State) (lo hi n w : Nat) : (s.add64 lo hi n w).host = s.host := State.set64_host ..
@[simp] theorem State.add64_fns (s : State) (lo hi n w : Nat) : (s.add64 lo hi n w).fns = s.fns := State.set64_fns ..
@[simp] theorem State.add64_txns (s : State) (lo hi n w : Nat) : (s.add64 lo hi n w).txns = s.txns := State.set64_txns ..
@[simp] theorem State.add64_regions (s : State) (lo hi n w : Nat) : (s.add64 lo hi n w).regions = s.regions := State.set64_regions ..
@[simp] theorem State.add64_roles (s : State) (lo hi n w : Nat) : (s.add64 lo hi n w).roles = s.roles := State.set64_roles ..
@[simp] theorem State.add64_routes (s : State) (lo hi n w : Nat) : (s.add64 lo hi n w).routes = s.routes := State.set64_routes ..
@[simp] theorem State.add64_slices (s : State) (lo hi n w : Nat) : (s.add64 lo hi n w).slices = s.slices := State.set64_slices ..
@[simp] theorem State.add64_subs (s : State) (lo hi n w : Nat) : (s.add64 lo hi n w).subs = s.subs := State.set64_subs ..
@[simp] theorem State.add64_i3c (s : State) (lo hi n w : Nat) : (s.add64 lo hi n w).i3c = s.i3c := State.set64_i3c ..
@[simp] theorem State.add64_tiles (s : State) (lo hi n w : Nat) : (s.add64 lo hi n w).tiles = s.tiles := State.set64_tiles ..
@[simp] theorem State.add64_plan (s : State) (lo hi n w : Nat) : (s.add64 lo hi n w).plan = s.plan := State.set64_plan ..
@[simp] theorem State.add64_shadow (s : State) (lo hi n w : Nat) : (s.add64 lo hi n w).shadow = s.shadow := State.set64_shadow ..
@[simp] theorem State.add64_ctxs (s : State) (lo hi n w : Nat) : (s.add64 lo hi n w).ctxs = s.ctxs := State.set64_ctxs ..
@[simp] theorem State.add64_agents (s : State) (lo hi n w : Nat) : (s.add64 lo hi n w).agents = s.agents := State.set64_agents ..
@[simp] theorem State.add64_bus (s : State) (lo hi n w : Nat) : (s.add64 lo hi n w).bus = s.bus := State.set64_bus ..
@[simp] theorem State.add64_bu (s : State) (lo hi n w : Nat) : (s.add64 lo hi n w).bu = s.bu := State.set64_bu ..
@[simp] theorem State.add64_ofd (s : State) (lo hi n w : Nat) : (s.add64 lo hi n w).ofd = s.ofd := State.set64_ofd ..
@[simp] theorem State.add64_hbm (s : State) (lo hi n w : Nat) : (s.add64 lo hi n w).hbm = s.hbm := State.set64_hbm ..
@[simp] theorem State.add64_esc (s : State) (lo hi n w : Nat) : (s.add64 lo hi n w).esc = s.esc := State.set64_esc ..
@[simp] theorem State.add64_test (s : State) (lo hi n w : Nat) : (s.add64 lo hi n w).test = s.test := State.set64_test ..
@[simp] theorem State.add64_thm (s : State) (lo hi n w : Nat) : (s.add64 lo hi n w).thm = s.thm := State.set64_thm ..
@[simp] theorem State.add64_obs (s : State) (lo hi n w : Nat) : (s.add64 lo hi n w).obs = s.obs := State.set64_obs ..
@[simp] theorem State.add64_ports (s : State) (lo hi n w : Nat) : (s.add64 lo hi n w).ports = s.ports := State.set64_ports ..
@[simp] theorem State.add64_cmp (s : State) (lo hi n w : Nat) : (s.add64 lo hi n w).cmp = s.cmp := State.set64_cmp ..
@[simp] theorem State.add64_nor (s : State) (lo hi n w : Nat) : (s.add64 lo hi n w).nor = s.nor := State.set64_nor ..
@[simp] theorem State.add64_free (s : State) (lo hi n w : Nat) : (s.add64 lo hi n w).free = s.free := State.set64_free ..
@[simp] theorem State.add64_out (s : State) (lo hi n w : Nat) : (s.add64 lo hi n w).out = s.out := State.set64_out ..
@[simp] theorem State.add64_pending (s : State) (lo hi n w : Nat) : (s.add64 lo hi n w).pending = s.pending := State.set64_pending ..
/-! ### settle -/
@[simp] theorem settle_regs (s : State) : (settle s).regs = s.regs := rfl
@[simp] theorem settle_paths (s : State) : (settle s).paths = s.paths := rfl
@[simp] theorem settle_fused (s : State) : (settle s).fused = s.fused := rfl
@[simp] theorem settle_sq (s : State) : (settle s).sq = s.sq := rfl
@[simp] theorem settle_time (s : State) : (settle s).time = s.time := rfl
@[simp] theorem settle_hl (s : State) : (settle s).hl = s.hl := rfl
@[simp] theorem settle_recd (s : State) : (settle s).recd = s.recd := rfl
@[simp] theorem settle_host (s : State) : (settle s).host = s.host := rfl
@[simp] theorem settle_fns (s : State) : (settle s).fns = s.fns := rfl
@[simp] theorem settle_txns (s : State) : (settle s).txns = s.txns := rfl
@[simp] theorem settle_regions (s : State) : (settle s).regions = s.regions := rfl
@[simp] theorem settle_roles (s : State) : (settle s).roles = s.roles := rfl
@[simp] theorem settle_routes (s : State) : (settle s).routes = s.routes := rfl
@[simp] theorem settle_slices (s : State) : (settle s).slices = s.slices := rfl
@[simp] theorem settle_subs (s : State) : (settle s).subs = s.subs := rfl
@[simp] theorem settle_i3c (s : State) : (settle s).i3c = s.i3c := rfl
@[simp] theorem settle_tiles (s : State) : (settle s).tiles = s.tiles := rfl
@[simp] theorem settle_plan (s : State) : (settle s).plan = s.plan := rfl
@[simp] theorem settle_shadow (s : State) : (settle s).shadow = s.shadow := rfl
@[simp] theorem settle_ctxs (s : State) : (settle s).ctxs = s.ctxs := rfl
@[simp] theorem settle_agents (s : State) : (settle s).agents = s.agents := rfl
@[simp] theorem settle_bus (s : State) : (settle s).bus = s.bus := rfl
@[simp] theorem settle_bu (s : State) : (settle s).bu = s.bu := rfl
@[simp] theorem settle_ofd (s : State) : (settle s).ofd = s.ofd := rfl
@[simp] theorem settle_hbm (s : State) : (settle s).hbm = s.hbm := rfl
@[simp] theorem settle_esc (s : State) : (settle s).esc = s.esc := rfl
@[simp] theorem settle_test (s : State) : (settle s).test = s.test := rfl
@[simp] theorem settle_thm (s : State) : (settle s).thm = s.thm := rfl
@[simp] theorem settle_obs (s : State) : (settle s).obs = s.obs := rfl
@[simp] theorem settle_ports (s : State) : (settle s).ports = s.ports := rfl
@[simp] theorem settle_cmp (s : State) : (settle s).cmp = s.cmp := rfl
@[simp] theorem settle_nor (s : State) : (settle s).nor = s.nor := rfl
@[simp] theorem settle_free (s : State) : (settle s).free = s.free := rfl
@[simp] theorem settle_pending (s : State) : (settle s).pending = s.pending := rfl

@[simp] theorem done_eq (s : State) : done s = .next (settle s) := rfl

end Sys2Proof.Machine
end

