-- ==== Sys2Proof/Laws/Tables.lean ====
section
/-! SUPPORT. The laws of tables, registers and the NOR bytes: a read after a write, what a write leaves, and that every operation keeps
the canonical form. -/
namespace Sys2Proof.Machine

/-! ### Tables -/

@[simp] theorem tget?_tput_self {α : Type} (t : Tab α) (k : Nat) (v : α) : tget? (tput t k v) k = some v := by
  induction t with
  | nil => simp [tput, tget?]
  | cons e t ih =>
    obtain ⟨k', v'⟩ := e
    simp only [tput]
    split
    · simp [tget?]
    · split
      · simp [tget?]
      · rename_i h1 h2
        have : ¬ k' = k := fun h => h2 h.symm
        simp [tget?, this, ih]

theorem tget?_tput_ne {α : Type} (t : Tab α) {k j : Nat} (v : α) (h : j ≠ k) : tget? (tput t k v) j = tget? t j := by
  have hk : ¬ k = j := fun e => h e.symm
  induction t with
  | nil => simp [tput, tget?, hk]
  | cons e t ih =>
    obtain ⟨k', v'⟩ := e
    simp only [tput]
    split
    · simp [tget?, hk]
    · split
      · rename_i h1 h2
        subst h2
        simp [tget?, hk]
      · simp [tget?, ih]

@[simp] theorem tget?_tdel_self {α : Type} (t : Tab α) (k : Nat) : tget? (tdel t k) k = none := by
  induction t with
  | nil => rfl
  | cons e t ih =>
    obtain ⟨k', v'⟩ := e
    by_cases h : k' = k
    · simp only [tdel, List.filter, h, bne_self_eq_false]; exact ih
    · have hb : (k' != k) = true := by simpa using h
      simp only [tdel, List.filter, hb, tget?, h, if_false]; exact ih

theorem tget?_tdel_ne {α : Type} (t : Tab α) {k j : Nat} (h : j ≠ k) : tget? (tdel t k) j = tget? t j := by
  induction t with
  | nil => rfl
  | cons e t ih =>
    obtain ⟨k', v'⟩ := e
    by_cases hk : k' = k
    · subst hk
      have : ¬ k' = j := fun e => h e.symm
      simp only [tdel, List.filter, bne_self_eq_false, tget?, this, if_false]; exact ih
    · have hb : (k' != k) = true := by simpa using hk
      simp only [tdel, List.filter, hb, tget?]
      split
      · rfl
      · exact ih

@[simp] theorem tget_tput_self {α : Type} (t : Tab α) (k : Nat) (v d : α) : tget (tput t k v) k d = v := by simp [tget]

theorem tget_tput_ne {α : Type} (t : Tab α) {k j : Nat} (v d : α) (h : j ≠ k) : tget (tput t k v) j d = tget t j d := by
  simp [tget, tget?_tput_ne t v h]

/-- Keys below all of a rising table. -/
theorem trising_cons {α : Type} (k : Nat) (v : α) (t : Tab α) :
    trising ((k, v) :: t) = true ↔ (∀ e ∈ t, k < e.1) ∧ trising t = true := by
  induction t generalizing k v with
  | nil => simp [trising]
  | cons e t ih =>
    obtain ⟨k', v'⟩ := e
    simp only [trising, Bool.and_eq_true, decide_eq_true_eq, List.mem_cons, forall_eq_or_imp]
    constructor
    · rintro ⟨h, ht⟩
      exact ⟨⟨h, fun e he => Nat.lt_trans h (((ih k' v').1 ht).1 e he)⟩, ht⟩
    · rintro ⟨⟨h, _⟩, ht⟩
      exact ⟨h, ht⟩

theorem mem_tput {α : Type} {t : Tab α} {k : Nat} {v : α} {e : Nat × α} (h : e ∈ tput t k v) : e = (k, v) ∨ e ∈ t := by
  induction t with
  | nil => simpa [tput] using h
  | cons x t ih =>
    obtain ⟨k', v'⟩ := x
    simp only [tput] at h
    split at h
    · simpa using h
    · split at h
      · simp only [List.mem_cons] at h ⊢
        exact h.elim .inl fun h => .inr (.inr h)
      · simp only [List.mem_cons] at h ⊢
        rcases h with h | h
        · exact .inr (.inl h)
        · exact (ih h).elim .inl fun h => .inr (.inr h)

/-- A write keeps the keys rising. -/
theorem trising_tput {α : Type} (t : Tab α) (k : Nat) (v : α) (h : trising t = true) : trising (tput t k v) = true := by
  induction t with
  | nil => simp [tput, trising]
  | cons x t ih =>
    obtain ⟨k', v'⟩ := x
    have ht := (trising_cons k' v' t).1 h
    simp only [tput]
    split
    · rename_i hlt
      refine (trising_cons _ _ _).2 ⟨fun e he => ?_, h⟩
      rcases List.mem_cons.1 he with rfl | he
      · exact hlt
      · exact Nat.lt_trans hlt (ht.1 e he)
    · split
      · rename_i h2
        subst h2
        exact (trising_cons _ _ _).2 ⟨ht.1, ht.2⟩
      · rename_i h1 h2
        refine (trising_cons _ _ _).2 ⟨fun e he => ?_, ih ht.2⟩
        rcases mem_tput he with rfl | he
        · exact Nat.lt_of_le_of_ne (Nat.le_of_not_lt h1) fun h => h2 h.symm
        · exact ht.1 e he

/-- A removal keeps the keys rising. -/
theorem trising_tdel {α : Type} (t : Tab α) (k : Nat) (h : trising t = true) : trising (tdel t k) = true := by
  induction t with
  | nil => rfl
  | cons x t ih =>
    obtain ⟨k', v'⟩ := x
    have ht := (trising_cons k' v' t).1 h
    by_cases hk : k' = k
    · have : tdel ((k', v') :: t) k = tdel t k := by simp [tdel, hk]
      rw [this]; exact ih ht.2
    · have : tdel ((k', v') :: t) k = (k', v') :: tdel t k := by simp [tdel, hk]
      rw [this]
      exact (trising_cons _ _ _).2 ⟨fun e he => ht.1 e (List.mem_of_mem_filter he), ih ht.2⟩

/-! ### Registers -/

@[simp] theorem State.reg_setReg_self (s : State) (k : Nat) (v : Word) : (s.setReg k v).reg k = v := by
  simp only [State.reg, State.setReg]
  split
  · simp_all
  · simp

theorem State.reg_setReg_ne (s : State) {k j : Nat} (v : Word) (h : j ≠ k) : (s.setReg k v).reg j = s.reg j := by
  simp only [State.reg, State.setReg]
  split
  · rw [tget?_tdel_ne _ h]
  · rw [tget?_tput_ne _ _ h]

theorem State.reg_setNat_ne (s : State) {k j : Nat} (v : Nat) (h : j ≠ k) : (s.setNat k v).reg j = s.reg j :=
  s.reg_setReg_ne _ h

@[simp] theorem State.reg_setNat_self (s : State) (k v : Nat) : (s.setNat k v).reg k = BitVec.ofNat 32 v := s.reg_setReg_self k _

/-- A register depends on the register file alone. -/
theorem State.reg_congr {s t : State} (h : t.regs = s.regs) (k : Nat) : t.reg k = s.reg k := by rw [State.reg, State.reg, h]

/-! ### The NOR bytes -/

@[simp] theorem memRead_memWrite_self (m : List Host.Cell) (a : Nat) (b : Byte) : memRead (memWrite m a b) a = b := by
  simp only [memRead, memWrite]
  split
  · rename_i h; simp [h]
  · simp

theorem memRead_memWrite_ne (m : List Host.Cell) {a x : Nat} (b : Byte) (h : x ≠ a) :
    memRead (memWrite m a b) x = memRead m x := by
  simp only [memRead, memWrite]
  split
  · rw [tget?_tdel_ne _ h]
  · rw [tget?_tput_ne _ _ h]

/-- A byte write keeps the canonical form. -/
theorem memWrite_wf (m : List Host.Cell) (a : Nat) (b : Byte) (h : Memory.wf m = true) : Memory.wf (memWrite m a b) = true := by
  simp only [Memory.wf, Bool.and_eq_true, List.all_eq_true] at h ⊢
  simp only [memWrite]
  split
  · exact ⟨trising_tdel m a h.1, fun e he => h.2 e (List.mem_of_mem_filter he)⟩
  · rename_i hb
    refine ⟨trising_tput m a b h.1, fun e he => ?_⟩
    rcases mem_tput he with rfl | he
    · simpa using hb
    · exact h.2 e he

/-- Writing bytes keeps the canonical form. -/
theorem memWriteAll_wf (l : List Byte) : ∀ (m : List Host.Cell) (a : Nat), Memory.wf m = true →
    Memory.wf (memWriteAll m a l) = true := by
  induction l with
  | nil => intro m a h; exact h
  | cons b r ih => intro m a h; exact ih _ _ (memWrite_wf m a b h)

/-- Writing bytes leaves every byte outside them. -/
theorem memRead_memWriteAll_outside (l : List Byte) : ∀ (m : List Host.Cell) (a x : Nat), (x < a ∨ a + l.length ≤ x) →
    memRead (memWriteAll m a l) x = memRead m x := by
  induction l with
  | nil => intro m a x _; rfl
  | cons b r ih =>
    intro m a x h
    simp only [List.length_cons] at h
    rw [memWriteAll, ih _ _ _ (by omega), memRead_memWrite_ne _ _ (by omega)]

/-- The memory at reset has the canonical form. -/
theorem reset_memory_wf : Memory.wf State.reset.nor.slots = true := rfl

end Sys2Proof.Machine
end

