-- ==== Sys2Proof/Laws/Frames.lean ====
section
/-! SUPPORT. What `settle` does, how frames compose, and the frame of each shared operation: records, events, interrupts, answers. -/
namespace Sys2Proof.Machine

/-! ### settle -/

@[simp] theorem settle_causes (s : State) : (settle s).causes = s.causes := rfl
@[simp] theorem settle_vecMask (s : State) : (settle s).vecMask = s.vecMask := rfl
@[simp] theorem settle_reg (s : State) (k : Nat) : (settle s).reg k = s.reg k := rfl

/-- After any command the signals hold. -/
theorem settle_signals (s : State) : (settle s).Signals := by
  refine ⟨?_, ?_, ?_, ?_⟩
  · simp only [settle_causes]; simp only [settle]
    ext i hi; simp only [BitVec.getElem_and, BitVec.getElem_not]
    cases s.causes[i] <;> simp
  · simp only [settle_causes]; simp only [settle]
    ext i hi; simp only [BitVec.getElem_and, BitVec.getElem_not]
    cases s.causes[i] <;> simp
  · intro h
    have h' : s.pw.d3 = false := h
    simp only [settle_vecMask]; simp only [settle, h']
    ext i hi
    simp only [Bool.false_eq_true, if_false, BitVec.getElem_and, BitVec.getElem_not]
    cases s.vecMask[i] <;> cases s.causes[i] <;> cases s.msix.pba[i] <;> simp
  · intro h
    have h' : s.hl.tripLatch = true := h
    simp [settle, h']

/-- Every command's meaning ends with `settle`. -/
theorem done_signals {s t : State} (h : done s = .next t) : t.Signals := by
  cases h; exact settle_signals s

/-! ### Frames -/

theorem Frame.refl (l : List Part) (s : State) : Frame l s s := fun p _ => by cases p <;> rfl

theorem Part.same_trans {s t u : State} {p : Part} (h : p.same s t) (k : p.same t u) : p.same s u := by
  cases p <;> exact Eq.trans k h

theorem Frame.trans {l : List Part} {s t u : State} (h : Frame l s t) (k : Frame l t u) : Frame l s u :=
  fun p hp => Part.same_trans (h p hp) (k p hp)

theorem Frame.mono {l m : List Part} {s t : State} (h : Frame l s t) (hlm : ∀ p ∈ l, p ∈ m := by decide) : Frame m s t :=
  fun p hp => h p fun hl => hp (hlm p hl)

theorem Frame.ite {l : List Part} {s a b : State} {c : Prop} [Decidable c] (h : Frame l s a) (k : Frame l s b) :
    Frame l s (if c then a else b) := by split <;> assumption

/-- A further step within the frame. -/
theorem Frame.step {l m : List Part} {s t u : State} (k : Frame m t u) (hm : ∀ p ∈ m, p ∈ l) (h : Frame l s t) : Frame l s u :=
  h.trans (k.mono hm)

theorem Frame.foldl {α : Type} {l : List Part} {f : State → α → State} (h : ∀ s x, Frame l s (f s x)) (xs : List α) (s : State) :
    Frame l s (xs.foldl f s) := by
  induction xs generalizing s with
  | nil => exact Frame.refl l s
  | cons x xs ih => exact (h s x).trans (ih _)

theorem Frame.each {α : Type} {l : List Part} {f : State → α → State} (h : ∀ s x, Frame l s (f s x)) (xs : List α) (s : State) :
    Frame l s (s.each xs f) := Frame.foldl h xs s

/-- The fields a record may change: registers, MSI-X, recorder, subscribers, in-band interrupts, output. -/
abbrev recParts : List Part := [.regs, .msix, .recd, .subs, .i3c, .out]
/-- With trace. -/
abbrev evParts : List Part := [.regs, .msix, .recd, .subs, .i3c, .obs, .out]

theorem setReg_frame (s : State) (k : Nat) (v : Word) : Frame [.regs] s (s.setReg k v) := fun q hq => by
  cases q <;> first | rfl | exact absurd (List.mem_singleton.2 rfl) hq
theorem Frame.setReg {l : List Part} {s t : State} {k : Nat} {v : Word} (h : Frame l s t) (hl : ∀ p ∈ ([.regs] : List Part), p ∈ l) :
    Frame l s (t.setReg k v) := .step (setReg_frame t k v) hl h

theorem emitOut_frame (s : State) (o : Out) : Frame [.out] s (s.emitOut o) := fun q hq => by
  cases q <;> first | rfl | exact absurd (List.mem_singleton.2 rfl) hq
theorem Frame.emitOut {l : List Part} {s t : State} {o : Out} (h : Frame l s t) (hl : ∀ p ∈ ([.out] : List Part), p ∈ l) :
    Frame l s (t.emitOut o) := .step (emitOut_frame t o) hl h

theorem modRec_frame (s : State) (f : Recorder → Recorder) : Frame [.recd] s (s.modRec f) := fun q hq => by
  cases q <;> first | rfl | exact absurd (List.mem_singleton.2 rfl) hq
theorem Frame.modRec {l : List Part} {s t : State} {f : Recorder → Recorder} (h : Frame l s t) (hl : ∀ p ∈ ([.recd] : List Part), p ∈ l) :
    Frame l s (t.modRec f) := .step (modRec_frame t f) hl h

theorem modHost_frame (s : State) (f : HostIf → HostIf) : Frame [.host] s (s.modHost f) := fun q hq => by
  cases q <;> first | rfl | exact absurd (List.mem_singleton.2 rfl) hq
theorem Frame.modHost {l : List Part} {s t : State} {f : HostIf → HostIf} (h : Frame l s t) (hl : ∀ p ∈ ([.host] : List Part), p ∈ l) :
    Frame l s (t.modHost f) := .step (modHost_frame t f) hl h

theorem modBu_frame (s : State) (f : BringUp → BringUp) : Frame [.bu] s (s.modBu f) := fun q hq => by
  cases q <;> first | rfl | exact absurd (List.mem_singleton.2 rfl) hq
theorem Frame.modBu {l : List Part} {s t : State} {f : BringUp → BringUp} (h : Frame l s t) (hl : ∀ p ∈ ([.bu] : List Part), p ∈ l) :
    Frame l s (t.modBu f) := .step (modBu_frame t f) hl h

theorem modPlan_frame (s : State) (f : Plan → Plan) : Frame [.plan] s (s.modPlan f) := fun q hq => by
  cases q <;> first | rfl | exact absurd (List.mem_singleton.2 rfl) hq
theorem Frame.modPlan {l : List Part} {s t : State} {f : Plan → Plan} (h : Frame l s t) (hl : ∀ p ∈ ([.plan] : List Part), p ∈ l) :
    Frame l s (t.modPlan f) := .step (modPlan_frame t f) hl h

theorem modShadow_frame (s : State) (f : Shadow → Shadow) : Frame [.shadow] s (s.modShadow f) := fun q hq => by
  cases q <;> first | rfl | exact absurd (List.mem_singleton.2 rfl) hq
theorem Frame.modShadow {l : List Part} {s t : State} {f : Shadow → Shadow} (h : Frame l s t) (hl : ∀ p ∈ ([.shadow] : List Part), p ∈ l) :
    Frame l s (t.modShadow f) := .step (modShadow_frame t f) hl h

theorem modPw_frame (s : State) (f : Power → Power) : Frame [.pw] s (s.modPw f) := fun q hq => by
  cases q <;> first | rfl | exact absurd (List.mem_singleton.2 rfl) hq
theorem Frame.modPw {l : List Part} {s t : State} {f : Power → Power} (h : Frame l s t) (hl : ∀ p ∈ ([.pw] : List Part), p ∈ l) :
    Frame l s (t.modPw f) := .step (modPw_frame t f) hl h

theorem modHl_frame (s : State) (f : HardLines → HardLines) : Frame [.hl] s (s.modHl f) := fun q hq => by
  cases q <;> first | rfl | exact absurd (List.mem_singleton.2 rfl) hq
theorem Frame.modHl {l : List Part} {s t : State} {f : HardLines → HardLines} (h : Frame l s t) (hl : ∀ p ∈ ([.hl] : List Part), p ∈ l) :
    Frame l s (t.modHl f) := .step (modHl_frame t f) hl h

theorem modSq_frame (s : State) (f : Sequencer → Sequencer) : Frame [.sq] s (s.modSq f) := fun q hq => by
  cases q <;> first | rfl | exact absurd (List.mem_singleton.2 rfl) hq
theorem Frame.modSq {l : List Part} {s t : State} {f : Sequencer → Sequencer} (h : Frame l s t) (hl : ∀ p ∈ ([.sq] : List Part), p ∈ l) :
    Frame l s (t.modSq f) := .step (modSq_frame t f) hl h

theorem modEsc_frame (s : State) (f : Escalation → Escalation) : Frame [.esc] s (s.modEsc f) := fun q hq => by
  cases q <;> first | rfl | exact absurd (List.mem_singleton.2 rfl) hq
theorem Frame.modEsc {l : List Part} {s t : State} {f : Escalation → Escalation} (h : Frame l s t) (hl : ∀ p ∈ ([.esc] : List Part), p ∈ l) :
    Frame l s (t.modEsc f) := .step (modEsc_frame t f) hl h

theorem modThm_frame (s : State) (f : Thermal → Thermal) : Frame [.thm] s (s.modThm f) := fun q hq => by
  cases q <;> first | rfl | exact absurd (List.mem_singleton.2 rfl) hq
theorem Frame.modThm {l : List Part} {s t : State} {f : Thermal → Thermal} (h : Frame l s t) (hl : ∀ p ∈ ([.thm] : List Part), p ∈ l) :
    Frame l s (t.modThm f) := .step (modThm_frame t f) hl h

theorem modTest_frame (s : State) (f : SelfTest → SelfTest) : Frame [.test] s (s.modTest f) := fun q hq => by
  cases q <;> first | rfl | exact absurd (List.mem_singleton.2 rfl) hq
theorem Frame.modTest {l : List Part} {s t : State} {f : SelfTest → SelfTest} (h : Frame l s t) (hl : ∀ p ∈ ([.test] : List Part), p ∈ l) :
    Frame l s (t.modTest f) := .step (modTest_frame t f) hl h

theorem modOfd_frame (s : State) (f : Digests → Digests) : Frame [.ofd] s (s.modOfd f) := fun q hq => by
  cases q <;> first | rfl | exact absurd (List.mem_singleton.2 rfl) hq
theorem Frame.modOfd {l : List Part} {s t : State} {f : Digests → Digests} (h : Frame l s t) (hl : ∀ p ∈ ([.ofd] : List Part), p ∈ l) :
    Frame l s (t.modOfd f) := .step (modOfd_frame t f) hl h

theorem modTile_frame (s : State) (x : TileIx) (f : Tile → Tile) : Frame [.tiles] s (s.modTile x f) := fun q hq => by
  cases q <;> first | rfl | exact absurd (List.mem_singleton.2 rfl) hq
theorem Frame.modTile {l : List Part} {s t : State} {x : TileIx} {f : Tile → Tile} (h : Frame l s t) (hl : ∀ p ∈ ([.tiles] : List Part), p ∈ l) :
    Frame l s (t.modTile x f) := .step (modTile_frame t x f) hl h

theorem modCtx_frame (s : State) (x : CtxIx) (f : Ctx → Ctx) : Frame [.ctxs] s (s.modCtx x f) := fun q hq => by
  cases q <;> first | rfl | exact absurd (List.mem_singleton.2 rfl) hq
theorem Frame.modCtx {l : List Part} {s t : State} {x : CtxIx} {f : Ctx → Ctx} (h : Frame l s t) (hl : ∀ p ∈ ([.ctxs] : List Part), p ∈ l) :
    Frame l s (t.modCtx x f) := .step (modCtx_frame t x f) hl h

theorem modAgent_frame (s : State) (x : AgentIx) (f : Agent → Agent) : Frame [.agents] s (s.modAgent x f) := fun q hq => by
  cases q <;> first | rfl | exact absurd (List.mem_singleton.2 rfl) hq
theorem Frame.modAgent {l : List Part} {s t : State} {x : AgentIx} {f : Agent → Agent} (h : Frame l s t) (hl : ∀ p ∈ ([.agents] : List Part), p ∈ l) :
    Frame l s (t.modAgent x f) := .step (modAgent_frame t x f) hl h

theorem modPort_frame (s : State) (x : PortIx) (f : Port → Port) : Frame [.ports] s (s.modPort x f) := fun q hq => by
  cases q <;> first | rfl | exact absurd (List.mem_singleton.2 rfl) hq
theorem Frame.modPort {l : List Part} {s t : State} {x : PortIx} {f : Port → Port} (h : Frame l s t) (hl : ∀ p ∈ ([.ports] : List Part), p ∈ l) :
    Frame l s (t.modPort x f) := .step (modPort_frame t x f) hl h

theorem modStack_frame (s : State) (x : StackIx) (f : Stack → Stack) : Frame [.hbm] s (s.modStack x f) := fun q hq => by
  cases q <;> first | rfl | exact absurd (List.mem_singleton.2 rfl) hq
theorem Frame.modStack {l : List Part} {s t : State} {x : StackIx} {f : Stack → Stack} (h : Frame l s t) (hl : ∀ p ∈ ([.hbm] : List Part), p ∈ l) :
    Frame l s (t.modStack x f) := .step (modStack_frame t x f) hl h

theorem modFp_frame (s : State) (x : TileIx) (f : Fp → Fp) : Frame [.plan] s (s.modFp x f) := fun q hq => by
  cases q <;> first | rfl | exact absurd (List.mem_singleton.2 rfl) hq
theorem Frame.modFp {l : List Part} {s t : State} {x : TileIx} {f : Fp → Fp} (h : Frame l s t) (hl : ∀ p ∈ ([.plan] : List Part), p ∈ l) :
    Frame l s (t.modFp x f) := .step (modFp_frame t x f) hl h

theorem setAgent_frame (s : State) (x : AgentIx) (f : Agent) : Frame [.agents] s (s.setAgent x f) := fun q hq => by
  cases q <;> first | rfl | exact absurd (List.mem_singleton.2 rfl) hq
theorem Frame.setAgent {l : List Part} {s t : State} {x : AgentIx} {f : Agent} (h : Frame l s t) (hl : ∀ p ∈ ([.agents] : List Part), p ∈ l) :
    Frame l s (t.setAgent x f) := .step (setAgent_frame t x f) hl h

theorem setTile_frame (s : State) (x : TileIx) (f : Tile) : Frame [.tiles] s (s.setTile x f) := fun q hq => by
  cases q <;> first | rfl | exact absurd (List.mem_singleton.2 rfl) hq
theorem Frame.setTile {l : List Part} {s t : State} {x : TileIx} {f : Tile} (h : Frame l s t) (hl : ∀ p ∈ ([.tiles] : List Part), p ∈ l) :
    Frame l s (t.setTile x f) := .step (setTile_frame t x f) hl h

theorem setCtx_frame (s : State) (x : CtxIx) (f : Ctx) : Frame [.ctxs] s (s.setCtx x f) := fun q hq => by
  cases q <;> first | rfl | exact absurd (List.mem_singleton.2 rfl) hq
theorem Frame.setCtx {l : List Part} {s t : State} {x : CtxIx} {f : Ctx} (h : Frame l s t) (hl : ∀ p ∈ ([.ctxs] : List Part), p ∈ l) :
    Frame l s (t.setCtx x f) := .step (setCtx_frame t x f) hl h

theorem modTxn_frame (s : State) (w : World) (f : Txn → Txn) : Frame [.txns] s (s.modTxn w f) := fun q hq => by
  cases q <;> first | rfl | exact absurd (List.mem_singleton.2 rfl) hq
theorem Frame.modTxn {l : List Part} {s t : State} {w : World} {f : Txn → Txn} (h : Frame l s t) (hl : ∀ p ∈ ([.txns] : List Part), p ∈ l) :
    Frame l s (t.modTxn w f) := .step (modTxn_frame t w f) hl h

theorem modFn_frame (s : State) (k : Nat) (f : Fn → Fn) : Frame [.fns] s (s.modFn k f) := fun q hq => by
  cases q <;> first | rfl | exact absurd (List.mem_singleton.2 rfl) hq
theorem Frame.modFn {l : List Part} {s t : State} {k : Nat} {f : Fn → Fn} (h : Frame l s t) (hl : ∀ p ∈ ([.fns] : List Part), p ∈ l) :
    Frame l s (t.modFn k f) := .step (modFn_frame t k f) hl h

theorem setWriter_frame (s : State) (p w : Nat) (x : TraceWriter) : Frame [.obs] s (s.setWriter p w x) := fun q hq => by
  cases q <;> first | rfl | exact absurd (List.mem_singleton.2 rfl) hq
theorem Frame.setWriter {l : List Part} {s t : State} {p w : Nat} {x : TraceWriter} (h : Frame l s t) (hl : ∀ p ∈ ([.obs] : List Part), p ∈ l) :
    Frame l s (t.setWriter p w x) := .step (setWriter_frame t p w x) hl h

theorem setNat_frame (s : State) (k v : Nat) : Frame [.regs] s (s.setNat k v) := by unfold State.setNat; exact setReg_frame s k _
theorem Frame.setNat {l : List Part} {s t : State} {k v : Nat} (h : Frame l s t) (hl : ∀ p ∈ ([.regs] : List Part), p ∈ l) :
    Frame l s (t.setNat k v) := .step (setNat_frame t k v) hl h

theorem setFld_frame (s : State) (k hi lo x : Nat) : Frame [.regs] s (s.setFld k hi lo x) := by unfold State.setFld; exact setNat_frame s k _
theorem Frame.setFld {l : List Part} {s t : State} {k hi lo x : Nat} (h : Frame l s t) (hl : ∀ p ∈ ([.regs] : List Part), p ∈ l) :
    Frame l s (t.setFld k hi lo x) := .step (setFld_frame t k hi lo x) hl h

theorem bump_frame (s : State) (k n : Nat) : Frame [.regs] s (s.bump k n) := by unfold State.bump; exact setNat_frame s k _
theorem Frame.bump {l : List Part} {s t : State} {k n : Nat} (h : Frame l s t) (hl : ∀ p ∈ ([.regs] : List Part), p ∈ l) :
    Frame l s (t.bump k n) := .step (bump_frame t k n) hl h

theorem bumpFld_frame (s : State) (k hi lo n : Nat) : Frame [.regs] s (s.bumpFld k hi lo n) := by unfold State.bumpFld; exact setNat_frame s k _
theorem Frame.bumpFld {l : List Part} {s t : State} {k hi lo n : Nat} (h : Frame l s t) (hl : ∀ p ∈ ([.regs] : List Part), p ∈ l) :
    Frame l s (t.bumpFld k hi lo n) := .step (bumpFld_frame t k hi lo n) hl h

theorem set64_frame (s : State) (lo hi v : Nat) : Frame [.regs] s (s.set64 lo hi v) := by
  unfold State.set64; exact (setNat_frame s lo _).trans (setNat_frame _ hi _)
theorem Frame.set64 {l : List Part} {s t : State} {lo hi v : Nat} (h : Frame l s t) (hl : ∀ p ∈ ([.regs] : List Part), p ∈ l) :
    Frame l s (t.set64 lo hi v) := .step (set64_frame t lo hi v) hl h

theorem add64_frame (s : State) (lo hi n w : Nat) : Frame [.regs] s (s.add64 lo hi n w) := by
  unfold State.add64; exact set64_frame s lo hi _
theorem Frame.add64 {l : List Part} {s t : State} {lo hi n w : Nat} (h : Frame l s t) (hl : ∀ p ∈ ([.regs] : List Part), p ∈ l) :
    Frame l s (t.add64 lo hi n w) := .step (add64_frame t lo hi n w) hl h

theorem settle_frame (s : State) : Frame [.msix, .pw, .out] s (settle s) := fun p hp => by
  cases p <;> first | rfl | exact absurd (by decide) hp

/-- An interrupt cause changes the cause register, MSI-X and the output only. -/
theorem irq_frame (s : State) (v : Nat) : Frame [.regs, .msix, .out] s (s.irq v) := by
  unfold State.irq
  simp only
  split
  · exact Frame.refl _ s
  · refine Frame.trans (t := s.setReg HRT_IRQ_CAUSE (s.reg HRT_IRQ_CAUSE ||| BitVec.ofNat 32 (2 ^ v))) (setReg_frame s _ _).mono ?_
    repeat' split
    all_goals first
      | exact Frame.refl _ _
      | exact (emitOut_frame _ _).mono
      | exact fun p hp => by cases p <;> first | rfl | exact absurd (by decide) hp
theorem Frame.irq {l : List Part} {s t : State} {v : Nat} (h : Frame l s t) (hl : ∀ p ∈ ([.regs, .msix, .out] : List Part), p ∈ l) :
    Frame l s (t.irq v) := .step (irq_frame t v) hl h

theorem ibi_frame (s : State) (m : Nat) (w : Word) : Frame [.i3c, .out] s (s.ibi m w) := by
  unfold State.ibi
  split
  · exact fun p hp => by cases p <;> first | rfl | exact absurd (by decide) hp
  · exact Frame.refl _ s
theorem Frame.ibi {l : List Part} {s t : State} {m : Nat} {w : Word} (h : Frame l s t) (hl : ∀ p ∈ ([.i3c, .out] : List Part), p ∈ l) :
    Frame l s (t.ibi m w) := .step (ibi_frame t m w) hl h

theorem pushEvent_frame (s : State) (b : EvBody) : Frame [.regs, .subs, .out] s (s.pushEvent b).1 := by
  unfold State.pushEvent
  simp only
  refine Frame.trans ?_ (bumpFld_frame _ _ _ _ _).mono
  exact fun p hp => by cases p <;> first | rfl | exact absurd (by decide) hp
theorem Frame.pushEvent {l : List Part} {s t : State} {b : EvBody} (h : Frame l s t) (hl : ∀ p ∈ ([.regs, .subs, .out] : List Part), p ∈ l) :
    Frame l s (t.pushEvent b).1 := .step (pushEvent_frame t b) hl h

theorem ringPut_frame (s : State) (r : Record × Bool) : Frame [.regs, .recd] s (s.ringPut r) := by
  unfold State.ringPut
  try simp only
  repeat' (first
    | with_reducible exact Frame.refl _ _
    | with_reducible refine Frame.ite ?_ ?_
    | with_reducible refine Frame.setReg ?_ (by decide)
    | with_reducible refine Frame.setNat ?_ (by decide)
    | with_reducible refine Frame.setFld ?_ (by decide)
    | with_reducible refine Frame.bump ?_ (by decide)
    | with_reducible refine Frame.bumpFld ?_ (by decide)
    | with_reducible refine Frame.set64 ?_ (by decide)
    | with_reducible refine Frame.add64 ?_ (by decide)
    | with_reducible refine Frame.emitOut ?_ (by decide)
    | with_reducible refine Frame.modRec ?_ (by decide))
theorem Frame.ringPut {l : List Part} {s t : State} {r : Record × Bool} (h : Frame l s t) (hl : ∀ p ∈ ([.regs, .recd] : List Part), p ∈ l) :
    Frame l s (t.ringPut r) := .step (ringPut_frame t r) hl h

theorem askFlush_frame (s : State) (k : FlushKind) : Frame [.recd] s (s.askFlush k) := by
  unfold State.askFlush
  try simp only
  repeat' (first
    | with_reducible exact Frame.refl _ _
    | with_reducible refine Frame.ite ?_ ?_
    | with_reducible refine Frame.setReg ?_ (by decide)
    | with_reducible refine Frame.setNat ?_ (by decide)
    | with_reducible refine Frame.setFld ?_ (by decide)
    | with_reducible refine Frame.bump ?_ (by decide)
    | with_reducible refine Frame.bumpFld ?_ (by decide)
    | with_reducible refine Frame.set64 ?_ (by decide)
    | with_reducible refine Frame.add64 ?_ (by decide)
    | with_reducible refine Frame.emitOut ?_ (by decide)
    | with_reducible refine Frame.modRec ?_ (by decide)
    | with_reducible refine Frame.modHost ?_ (by decide)
    | with_reducible refine Frame.modBu ?_ (by decide)
    | with_reducible refine Frame.setWriter ?_ (by decide)
    | with_reducible refine Frame.irq ?_ (by decide)
    | with_reducible refine Frame.ibi ?_ (by decide)
    | with_reducible refine Frame.pushEvent ?_ (by decide)
    | with_reducible refine Frame.ringPut ?_ (by decide)
    | split)
theorem Frame.askFlush {l : List Part} {s t : State} {k : FlushKind} (h : Frame l s t) (hl : ∀ p ∈ ([.recd] : List Part), p ∈ l) :
    Frame l s (t.askFlush k) := .step (askFlush_frame t k) hl h

theorem announce_frame (s : State) (c : Nat) (rs : List Record) : Frame [.regs, .msix, .subs, .i3c, .out] s (s.announce c rs).1 := by
  unfold State.announce
  split
  · suffices h : ∀ (l : List Record) (a : State × List Nat), Frame [.regs, .msix, .subs, .i3c, .out] s a.1 →
        Frame [.regs, .msix, .subs, .i3c, .out] s (l.foldl (fun (a : State × List Nat) r =>
          let x := ((a.1.irq 5).ibi 1 r.code).pushEvent (.record r); (x.1, a.2 ++ x.2)) a).1 from h rs (s, []) (Frame.refl _ s)
    intro l
    induction l with
    | nil => intro a h; exact h
    | cons r l ih => exact fun a h => ih _ (((h.irq (by decide)).ibi (by decide)).pushEvent (by decide))
  · exact Frame.refl _ s
theorem Frame.announce {l : List Part} {s t : State} {c : Nat} {rs : List Record} (h : Frame l s t) (hl : ∀ p ∈ ([.regs, .msix, .subs, .i3c, .out] : List Part), p ∈ l) :
    Frame l s (t.announce c rs).1 := .step (announce_frame t c rs) hl h

theorem emitCore_frame (s : State) (e : Event) (sq : Bool) : Frame [.regs, .msix, .recd, .subs, .i3c, .out] s (s.emitCore e sq).1 := by
  have hput : ∀ (rs : List (Record × Bool)) (a : State), Frame [.regs, .msix, .recd, .subs, .i3c, .out] s a → Frame [.regs, .msix, .recd, .subs, .i3c, .out] s (rs.foldl State.ringPut a) := fun rs => by
    induction rs with
    | nil => exact fun a h => h
    | cons r rs ih => exact fun a h => ih _ (h.ringPut (by decide))
  unfold State.emitCore
  simp only
  repeat' (first
    | with_reducible exact Frame.refl _ _
    | with_reducible refine Frame.bump ?_ (by decide)
    | with_reducible refine Frame.bumpFld ?_ (by decide)
    | with_reducible refine Frame.modRec ?_ (by decide)
    | with_reducible refine Frame.askFlush ?_ (by decide)
    | with_reducible refine Frame.announce ?_ (by decide)
    | with_reducible refine hput _ _ ?_
    | split)
theorem Frame.emitCore {l : List Part} {s t : State} {e : Event} {sq : Bool} (h : Frame l s t) (hl : ∀ p ∈ ([.regs, .msix, .recd, .subs, .i3c, .out] : List Part), p ∈ l) :
    Frame l s (t.emitCore e sq).1 := .step (emitCore_frame t e sq) hl h

theorem lostEvents_frame (s : State) (k : List Nat) : Frame [.regs, .msix, .recd, .subs, .i3c, .out] s (s.lostEvents k) := by
  unfold State.lostEvents
  exact Frame.foldl (fun a n => emitCore_frame a (eventLost n) false) _ _
theorem Frame.lostEvents {l : List Part} {s t : State} {k : List Nat} (h : Frame l s t) (hl : ∀ p ∈ ([.regs, .msix, .recd, .subs, .i3c, .out] : List Part), p ∈ l) :
    Frame l s (t.lostEvents k) := .step (lostEvents_frame t k) hl h

theorem emitBase_frame (s : State) (e : Event) (sq : Bool) : Frame [.regs, .msix, .recd, .subs, .i3c, .out] s (s.emitBase e sq) := by
  unfold State.emitBase
  try simp only
  repeat' (first
    | with_reducible exact Frame.refl _ _
    | with_reducible refine Frame.ite ?_ ?_
    | with_reducible refine Frame.setReg ?_ (by decide)
    | with_reducible refine Frame.setNat ?_ (by decide)
    | with_reducible refine Frame.setFld ?_ (by decide)
    | with_reducible refine Frame.bump ?_ (by decide)
    | with_reducible refine Frame.bumpFld ?_ (by decide)
    | with_reducible refine Frame.set64 ?_ (by decide)
    | with_reducible refine Frame.add64 ?_ (by decide)
    | with_reducible refine Frame.emitOut ?_ (by decide)
    | with_reducible refine Frame.modRec ?_ (by decide)
    | with_reducible refine Frame.modHost ?_ (by decide)
    | with_reducible refine Frame.modBu ?_ (by decide)
    | with_reducible refine Frame.setWriter ?_ (by decide)
    | with_reducible refine Frame.irq ?_ (by decide)
    | with_reducible refine Frame.ibi ?_ (by decide)
    | with_reducible refine Frame.pushEvent ?_ (by decide)
    | with_reducible refine Frame.ringPut ?_ (by decide)
    | with_reducible refine Frame.askFlush ?_ (by decide)
    | with_reducible refine Frame.announce ?_ (by decide)
    | with_reducible refine Frame.emitCore ?_ (by decide)
    | with_reducible refine Frame.lostEvents ?_ (by decide))
theorem Frame.emitBase {l : List Part} {s t : State} {e : Event} {sq : Bool} (h : Frame l s t) (hl : ∀ p ∈ ([.regs, .msix, .recd, .subs, .i3c, .out] : List Part), p ∈ l) :
    Frame l s (t.emitBase e sq) := .step (emitBase_frame t e sq) hl h

theorem event_frame (s : State) (b : EvBody) : Frame [.regs, .msix, .recd, .subs, .i3c, .out] s (s.event b) := by
  unfold State.event
  try simp only
  repeat' (first
    | with_reducible exact Frame.refl _ _
    | with_reducible refine Frame.ite ?_ ?_
    | with_reducible refine Frame.setReg ?_ (by decide)
    | with_reducible refine Frame.setNat ?_ (by decide)
    | with_reducible refine Frame.setFld ?_ (by decide)
    | with_reducible refine Frame.bump ?_ (by decide)
    | with_reducible refine Frame.bumpFld ?_ (by decide)
    | with_reducible refine Frame.set64 ?_ (by decide)
    | with_reducible refine Frame.add64 ?_ (by decide)
    | with_reducible refine Frame.emitOut ?_ (by decide)
    | with_reducible refine Frame.modRec ?_ (by decide)
    | with_reducible refine Frame.modHost ?_ (by decide)
    | with_reducible refine Frame.modBu ?_ (by decide)
    | with_reducible refine Frame.setWriter ?_ (by decide)
    | with_reducible refine Frame.irq ?_ (by decide)
    | with_reducible refine Frame.ibi ?_ (by decide)
    | with_reducible refine Frame.pushEvent ?_ (by decide)
    | with_reducible refine Frame.ringPut ?_ (by decide)
    | with_reducible refine Frame.askFlush ?_ (by decide)
    | with_reducible refine Frame.announce ?_ (by decide)
    | with_reducible refine Frame.emitCore ?_ (by decide)
    | with_reducible refine Frame.lostEvents ?_ (by decide))
theorem Frame.event {l : List Part} {s t : State} {b : EvBody} (h : Frame l s t) (hl : ∀ p ∈ ([.regs, .msix, .recd, .subs, .i3c, .out] : List Part), p ∈ l) :
    Frame l s (t.event b) := .step (event_frame t b) hl h

theorem traceLost_frame (s : State) (p w n : Nat) : Frame [.regs, .msix, .recd, .subs, .i3c, .obs, .out] s (s.traceLost p w n) := by
  unfold State.traceLost
  simp only
  split
  · refine Frame.irq (Frame.emitBase ?_ (by decide)) (by decide)
    refine Frame.trans ?_ (t := if w < 144 then (s.add64 (itemKey OBS_TRACE_LOST_LO p) (itemKey OBS_TRACE_LOST_HI p) n).bump
      (0x100000 + 0x1000 * w + TWD_TRACE_DROP) n else if w < 192 then (s.add64 (itemKey OBS_TRACE_LOST_LO p)
      (itemKey OBS_TRACE_LOST_HI p) n).bump (0x280000 + 0x1000 * (w - 144) + LWD_TS_DROP) n
      else s.add64 (itemKey OBS_TRACE_LOST_LO p) (itemKey OBS_TRACE_LOST_HI p) n) ?_
    · repeat' (first
        | with_reducible exact Frame.refl _ _
        | with_reducible refine Frame.bump ?_ (by decide)
        | with_reducible refine Frame.add64 ?_ (by decide)
        | split)
    · exact fun q hq => by cases q <;> first | rfl | exact absurd (by decide) hq
  · repeat' (first
      | with_reducible exact Frame.refl _ _
      | with_reducible refine Frame.bump ?_ (by decide)
      | with_reducible refine Frame.add64 ?_ (by decide)
      | split)
theorem Frame.traceLost {l : List Part} {s t : State} {p w n : Nat} (h : Frame l s t) (hl : ∀ p ∈ ([.regs, .msix, .recd, .subs, .i3c, .obs, .out] : List Part), p ∈ l) :
    Frame l s (t.traceLost p w n) := .step (traceLost_frame t p w n) hl h

theorem traceDrain_frame (s : State) (p w : Nat) : Frame [.obs, .out] s (s.traceDrain p w) := by
  unfold State.traceDrain
  simp only
  split
  · exact Frame.refl _ s
  · exact fun q hq => by cases q <;> first | rfl | exact absurd (by decide) hq
theorem Frame.traceDrain {l : List Part} {s t : State} {p w : Nat} (h : Frame l s t) (hl : ∀ p ∈ ([.obs, .out] : List Part), p ∈ l) :
    Frame l s (t.traceDrain p w) := .step (traceDrain_frame t p w) hl h

theorem traceRec_frame (s : State) (p w : Nat) (r : List Word) : Frame [.regs, .msix, .recd, .subs, .i3c, .obs, .out] s (s.traceRec p w r) := by
  unfold State.traceRec
  try simp only
  repeat' (first
    | with_reducible exact Frame.refl _ _
    | with_reducible refine Frame.ite ?_ ?_
    | with_reducible refine Frame.setReg ?_ (by decide)
    | with_reducible refine Frame.setNat ?_ (by decide)
    | with_reducible refine Frame.setFld ?_ (by decide)
    | with_reducible refine Frame.bump ?_ (by decide)
    | with_reducible refine Frame.bumpFld ?_ (by decide)
    | with_reducible refine Frame.set64 ?_ (by decide)
    | with_reducible refine Frame.add64 ?_ (by decide)
    | with_reducible refine Frame.emitOut ?_ (by decide)
    | with_reducible refine Frame.modRec ?_ (by decide)
    | with_reducible refine Frame.modHost ?_ (by decide)
    | with_reducible refine Frame.modBu ?_ (by decide)
    | with_reducible refine Frame.setWriter ?_ (by decide)
    | with_reducible refine Frame.irq ?_ (by decide)
    | with_reducible refine Frame.ibi ?_ (by decide)
    | with_reducible refine Frame.pushEvent ?_ (by decide)
    | with_reducible refine Frame.ringPut ?_ (by decide)
    | with_reducible refine Frame.askFlush ?_ (by decide)
    | with_reducible refine Frame.announce ?_ (by decide)
    | with_reducible refine Frame.emitCore ?_ (by decide)
    | with_reducible refine Frame.lostEvents ?_ (by decide)
    | with_reducible refine Frame.emitBase ?_ (by decide)
    | with_reducible refine Frame.event ?_ (by decide)
    | with_reducible refine Frame.traceLost ?_ (by decide)
    | with_reducible refine Frame.traceDrain ?_ (by decide))
theorem Frame.traceRec {l : List Part} {s t : State} {p w : Nat} {r : List Word} (h : Frame l s t) (hl : ∀ p ∈ ([.regs, .msix, .recd, .subs, .i3c, .obs, .out] : List Part), p ∈ l) :
    Frame l s (t.traceRec p w r) := .step (traceRec_frame t p w r) hl h

theorem traceEvent_frame (s : State) (e : Event) (q : Word) : Frame [.regs, .msix, .recd, .subs, .i3c, .obs, .out] s (s.traceEvent e q) := by
  unfold State.traceEvent
  split
  · split
    · exact Frame.foldl (fun a i => traceRec_frame a _ _ _) _ _
    · exact Frame.refl _ s
  · exact Frame.refl _ s
theorem Frame.traceEvent {l : List Part} {s t : State} {e : Event} {q : Word} (h : Frame l s t) (hl : ∀ p ∈ ([.regs, .msix, .recd, .subs, .i3c, .obs, .out] : List Part), p ∈ l) :
    Frame l s (t.traceEvent e q) := .step (traceEvent_frame t e q) hl h

theorem countError_frame (s : State) (e : Event) : Frame [.regs] s (s.countError e) := by
  unfold State.countError
  try simp only
  repeat' (first
    | with_reducible exact Frame.refl _ _
    | with_reducible refine Frame.ite ?_ ?_
    | with_reducible refine Frame.setReg ?_ (by decide)
    | with_reducible refine Frame.setNat ?_ (by decide)
    | with_reducible refine Frame.setFld ?_ (by decide)
    | with_reducible refine Frame.bump ?_ (by decide)
    | with_reducible refine Frame.bumpFld ?_ (by decide)
    | with_reducible refine Frame.set64 ?_ (by decide)
    | with_reducible refine Frame.add64 ?_ (by decide))
theorem Frame.countError {l : List Part} {s t : State} {e : Event} (h : Frame l s t) (hl : ∀ p ∈ ([.regs] : List Part), p ∈ l) :
    Frame l s (t.countError e) := .step (countError_frame t e) hl h

/-- Recording an event changes registers, MSI-X, the recorder, subscribers, in-band interrupts, trace and the output only. -/
theorem emit_frame (s : State) (e : Event) : Frame [.regs, .msix, .recd, .subs, .i3c, .obs, .out] s (s.emit e) := by
  unfold State.emit
  try simp only
  repeat' (first
    | with_reducible exact Frame.refl _ _
    | with_reducible refine Frame.ite ?_ ?_
    | with_reducible refine Frame.setReg ?_ (by decide)
    | with_reducible refine Frame.setNat ?_ (by decide)
    | with_reducible refine Frame.setFld ?_ (by decide)
    | with_reducible refine Frame.bump ?_ (by decide)
    | with_reducible refine Frame.bumpFld ?_ (by decide)
    | with_reducible refine Frame.set64 ?_ (by decide)
    | with_reducible refine Frame.add64 ?_ (by decide)
    | with_reducible refine Frame.emitOut ?_ (by decide)
    | with_reducible refine Frame.modRec ?_ (by decide)
    | with_reducible refine Frame.modHost ?_ (by decide)
    | with_reducible refine Frame.modBu ?_ (by decide)
    | with_reducible refine Frame.setWriter ?_ (by decide)
    | with_reducible refine Frame.irq ?_ (by decide)
    | with_reducible refine Frame.ibi ?_ (by decide)
    | with_reducible refine Frame.pushEvent ?_ (by decide)
    | with_reducible refine Frame.ringPut ?_ (by decide)
    | with_reducible refine Frame.askFlush ?_ (by decide)
    | with_reducible refine Frame.announce ?_ (by decide)
    | with_reducible refine Frame.emitCore ?_ (by decide)
    | with_reducible refine Frame.lostEvents ?_ (by decide)
    | with_reducible refine Frame.emitBase ?_ (by decide)
    | with_reducible refine Frame.event ?_ (by decide)
    | with_reducible refine Frame.traceLost ?_ (by decide)
    | with_reducible refine Frame.traceDrain ?_ (by decide)
    | with_reducible refine Frame.traceRec ?_ (by decide)
    | with_reducible refine Frame.traceEvent ?_ (by decide)
    | with_reducible refine Frame.countError ?_ (by decide))
theorem Frame.emit {l : List Part} {s t : State} {e : Event} (h : Frame l s t) (hl : ∀ p ∈ ([.regs, .msix, .recd, .subs, .i3c, .obs, .out] : List Part), p ∈ l) :
    Frame l s (t.emit e) := .step (emit_frame t e) hl h

theorem emitSq_frame (s : State) (e : Event) : Frame [.regs, .msix, .recd, .subs, .i3c, .obs, .out] s (s.emitSq e) := by
  unfold State.emitSq
  try simp only
  repeat' (first
    | with_reducible exact Frame.refl _ _
    | with_reducible refine Frame.ite ?_ ?_
    | with_reducible refine Frame.setReg ?_ (by decide)
    | with_reducible refine Frame.setNat ?_ (by decide)
    | with_reducible refine Frame.setFld ?_ (by decide)
    | with_reducible refine Frame.bump ?_ (by decide)
    | with_reducible refine Frame.bumpFld ?_ (by decide)
    | with_reducible refine Frame.set64 ?_ (by decide)
    | with_reducible refine Frame.add64 ?_ (by decide)
    | with_reducible refine Frame.emitOut ?_ (by decide)
    | with_reducible refine Frame.modRec ?_ (by decide)
    | with_reducible refine Frame.modHost ?_ (by decide)
    | with_reducible refine Frame.modBu ?_ (by decide)
    | with_reducible refine Frame.setWriter ?_ (by decide)
    | with_reducible refine Frame.irq ?_ (by decide)
    | with_reducible refine Frame.ibi ?_ (by decide)
    | with_reducible refine Frame.pushEvent ?_ (by decide)
    | with_reducible refine Frame.ringPut ?_ (by decide)
    | with_reducible refine Frame.askFlush ?_ (by decide)
    | with_reducible refine Frame.announce ?_ (by decide)
    | with_reducible refine Frame.emitCore ?_ (by decide)
    | with_reducible refine Frame.lostEvents ?_ (by decide)
    | with_reducible refine Frame.emitBase ?_ (by decide)
    | with_reducible refine Frame.event ?_ (by decide)
    | with_reducible refine Frame.traceLost ?_ (by decide)
    | with_reducible refine Frame.traceDrain ?_ (by decide)
    | with_reducible refine Frame.traceRec ?_ (by decide)
    | with_reducible refine Frame.traceEvent ?_ (by decide)
    | with_reducible refine Frame.countError ?_ (by decide))
theorem Frame.emitSq {l : List Part} {s t : State} {e : Event} (h : Frame l s t) (hl : ∀ p ∈ ([.regs, .msix, .recd, .subs, .i3c, .obs, .out] : List Part), p ∈ l) :
    Frame l s (t.emitSq e) := .step (emitSq_frame t e) hl h

theorem releaseHold_frame (s : State) : Frame [.regs, .recd] s s.releaseHold := by
  unfold State.releaseHold
  exact (modRec_frame s _).mono.trans (Frame.foldl (fun a r => ringPut_frame a r) _ _)
theorem Frame.releaseHold {l : List Part} {s t : State} (h : Frame l s t) (hl : ∀ p ∈ ([.regs, .recd] : List Part), p ∈ l) :
    Frame l s t.releaseHold := .step (releaseHold_frame t) hl h

theorem endThrottle_frame (s : State) : Frame [.regs, .msix, .recd, .subs, .i3c, .obs, .out] s s.endThrottle := by
  unfold State.endThrottle
  try simp only
  repeat' (first
    | with_reducible exact Frame.refl _ _
    | with_reducible refine Frame.ite ?_ ?_
    | with_reducible refine Frame.setReg ?_ (by decide)
    | with_reducible refine Frame.setNat ?_ (by decide)
    | with_reducible refine Frame.setFld ?_ (by decide)
    | with_reducible refine Frame.bump ?_ (by decide)
    | with_reducible refine Frame.bumpFld ?_ (by decide)
    | with_reducible refine Frame.set64 ?_ (by decide)
    | with_reducible refine Frame.add64 ?_ (by decide)
    | with_reducible refine Frame.emitOut ?_ (by decide)
    | with_reducible refine Frame.modRec ?_ (by decide)
    | with_reducible refine Frame.modHost ?_ (by decide)
    | with_reducible refine Frame.modBu ?_ (by decide)
    | with_reducible refine Frame.setWriter ?_ (by decide)
    | with_reducible refine Frame.irq ?_ (by decide)
    | with_reducible refine Frame.ibi ?_ (by decide)
    | with_reducible refine Frame.pushEvent ?_ (by decide)
    | with_reducible refine Frame.ringPut ?_ (by decide)
    | with_reducible refine Frame.askFlush ?_ (by decide)
    | with_reducible refine Frame.announce ?_ (by decide)
    | with_reducible refine Frame.emitCore ?_ (by decide)
    | with_reducible refine Frame.lostEvents ?_ (by decide)
    | with_reducible refine Frame.emitBase ?_ (by decide)
    | with_reducible refine Frame.event ?_ (by decide)
    | with_reducible refine Frame.traceLost ?_ (by decide)
    | with_reducible refine Frame.traceDrain ?_ (by decide)
    | with_reducible refine Frame.traceRec ?_ (by decide)
    | with_reducible refine Frame.traceEvent ?_ (by decide)
    | with_reducible refine Frame.countError ?_ (by decide)
    | with_reducible refine Frame.emit ?_ (by decide)
    | with_reducible refine Frame.emitSq ?_ (by decide)
    | with_reducible refine Frame.releaseHold ?_ (by decide))
theorem Frame.endThrottle {l : List Part} {s t : State} (h : Frame l s t) (hl : ∀ p ∈ ([.regs, .msix, .recd, .subs, .i3c, .obs, .out] : List Part), p ∈ l) :
    Frame l s t.endThrottle := .step (endThrottle_frame t) hl h

theorem endFreeze_frame (s : State) : Frame [.regs, .msix, .recd, .subs, .i3c, .obs, .out] s s.endFreeze := by
  unfold State.endFreeze
  try simp only
  repeat' (first
    | with_reducible exact Frame.refl _ _
    | with_reducible refine Frame.ite ?_ ?_
    | with_reducible refine Frame.setReg ?_ (by decide)
    | with_reducible refine Frame.setNat ?_ (by decide)
    | with_reducible refine Frame.setFld ?_ (by decide)
    | with_reducible refine Frame.bump ?_ (by decide)
    | with_reducible refine Frame.bumpFld ?_ (by decide)
    | with_reducible refine Frame.set64 ?_ (by decide)
    | with_reducible refine Frame.add64 ?_ (by decide)
    | with_reducible refine Frame.emitOut ?_ (by decide)
    | with_reducible refine Frame.modRec ?_ (by decide)
    | with_reducible refine Frame.modHost ?_ (by decide)
    | with_reducible refine Frame.modBu ?_ (by decide)
    | with_reducible refine Frame.setWriter ?_ (by decide)
    | with_reducible refine Frame.irq ?_ (by decide)
    | with_reducible refine Frame.ibi ?_ (by decide)
    | with_reducible refine Frame.pushEvent ?_ (by decide)
    | with_reducible refine Frame.ringPut ?_ (by decide)
    | with_reducible refine Frame.askFlush ?_ (by decide)
    | with_reducible refine Frame.announce ?_ (by decide)
    | with_reducible refine Frame.emitCore ?_ (by decide)
    | with_reducible refine Frame.lostEvents ?_ (by decide)
    | with_reducible refine Frame.emitBase ?_ (by decide)
    | with_reducible refine Frame.event ?_ (by decide)
    | with_reducible refine Frame.traceLost ?_ (by decide)
    | with_reducible refine Frame.traceDrain ?_ (by decide)
    | with_reducible refine Frame.traceRec ?_ (by decide)
    | with_reducible refine Frame.traceEvent ?_ (by decide)
    | with_reducible refine Frame.countError ?_ (by decide)
    | with_reducible refine Frame.emit ?_ (by decide)
    | with_reducible refine Frame.emitSq ?_ (by decide)
    | with_reducible refine Frame.releaseHold ?_ (by decide)
    | with_reducible refine Frame.endThrottle ?_ (by decide)
    | split)
theorem Frame.endFreeze {l : List Part} {s t : State} (h : Frame l s t) (hl : ∀ p ∈ ([.regs, .msix, .recd, .subs, .i3c, .obs, .out] : List Part), p ∈ l) :
    Frame l s t.endFreeze := .step (endFreeze_frame t) hl h

theorem jobFailed_frame (s : State) (c : CtxIx) (cause : Nat) (code : Word) (scope : Nat) (coords : Word) : Frame [.regs, .msix, .recd, .subs, .i3c, .out] s (s.jobFailed c cause code scope coords) := by
  unfold State.jobFailed
  try simp only
  repeat' (first
    | with_reducible exact Frame.refl _ _
    | with_reducible refine Frame.ite ?_ ?_
    | with_reducible refine Frame.setReg ?_ (by decide)
    | with_reducible refine Frame.setNat ?_ (by decide)
    | with_reducible refine Frame.setFld ?_ (by decide)
    | with_reducible refine Frame.bump ?_ (by decide)
    | with_reducible refine Frame.bumpFld ?_ (by decide)
    | with_reducible refine Frame.set64 ?_ (by decide)
    | with_reducible refine Frame.add64 ?_ (by decide)
    | with_reducible refine Frame.emitOut ?_ (by decide)
    | with_reducible refine Frame.modRec ?_ (by decide)
    | with_reducible refine Frame.modHost ?_ (by decide)
    | with_reducible refine Frame.modBu ?_ (by decide)
    | with_reducible refine Frame.setWriter ?_ (by decide)
    | with_reducible refine Frame.irq ?_ (by decide)
    | with_reducible refine Frame.ibi ?_ (by decide)
    | with_reducible refine Frame.pushEvent ?_ (by decide)
    | with_reducible refine Frame.ringPut ?_ (by decide)
    | with_reducible refine Frame.askFlush ?_ (by decide)
    | with_reducible refine Frame.announce ?_ (by decide)
    | with_reducible refine Frame.emitCore ?_ (by decide)
    | with_reducible refine Frame.lostEvents ?_ (by decide)
    | with_reducible refine Frame.emitBase ?_ (by decide)
    | with_reducible refine Frame.event ?_ (by decide))
theorem Frame.jobFailed {l : List Part} {s t : State} {c : CtxIx} {cause : Nat} {code : Word} {scope : Nat} {coords : Word} (h : Frame l s t) (hl : ∀ p ∈ ([.regs, .msix, .recd, .subs, .i3c, .out] : List Part), p ∈ l) :
    Frame l s (t.jobFailed c cause code scope coords) := .step (jobFailed_frame t c cause code scope coords) hl h

theorem failJobs_frame (s : State) (cs : List CtxIx) (cause : Nat) (code : Word) (scope : Nat) (coords : Word) : Frame [.regs, .msix, .recd, .subs, .i3c, .out] s (s.failJobs cs cause code scope coords) := by
  unfold State.failJobs
  exact Frame.each (fun a c => jobFailed_frame a c _ _ _ _) _ _
theorem Frame.failJobs {l : List Part} {s t : State} {cs : List CtxIx} {cause : Nat} {code : Word} {scope : Nat} {coords : Word} (h : Frame l s t) (hl : ∀ p ∈ ([.regs, .msix, .recd, .subs, .i3c, .out] : List Part), p ∈ l) :
    Frame l s (t.failJobs cs cause code scope coords) := .step (failJobs_frame t cs cause code scope coords) hl h

theorem failTags_frame (s : State) (l : List (BitVec 16 × Word)) (cause : Nat) (code : Word) (scope : Nat) (coords : Word) : Frame [.regs, .msix, .recd, .subs, .i3c, .out] s (s.failTags l cause code scope coords) := by
  unfold State.failTags
  exact Frame.each (fun a e => event_frame a _) _ _
theorem Frame.failTags {l : List Part} {s t : State} {ts : List (BitVec 16 × Word)} {cause : Nat} {code : Word} {scope : Nat} {coords : Word} (h : Frame l s t) (hl : ∀ p ∈ ([.regs, .msix, .recd, .subs, .i3c, .out] : List Part), p ∈ l) :
    Frame l s (t.failTags ts cause code scope coords) := .step (failTags_frame t ts cause code scope coords) hl h

/-- A change of package state: besides what an event changes, the bring-up state. -/
theorem setPkg_frame (s : State) (p : PkgState) : Frame [.regs, .msix, .recd, .subs, .i3c, .out, .bu] s (s.setPkg p) := by
  unfold State.setPkg
  try simp only
  repeat' (first
    | with_reducible exact Frame.refl _ _
    | with_reducible refine Frame.ite ?_ ?_
    | with_reducible refine Frame.setReg ?_ (by decide)
    | with_reducible refine Frame.setNat ?_ (by decide)
    | with_reducible refine Frame.setFld ?_ (by decide)
    | with_reducible refine Frame.bump ?_ (by decide)
    | with_reducible refine Frame.bumpFld ?_ (by decide)
    | with_reducible refine Frame.set64 ?_ (by decide)
    | with_reducible refine Frame.add64 ?_ (by decide)
    | with_reducible refine Frame.emitOut ?_ (by decide)
    | with_reducible refine Frame.modRec ?_ (by decide)
    | with_reducible refine Frame.modHost ?_ (by decide)
    | with_reducible refine Frame.modBu ?_ (by decide)
    | with_reducible refine Frame.setWriter ?_ (by decide)
    | with_reducible refine Frame.irq ?_ (by decide)
    | with_reducible refine Frame.ibi ?_ (by decide)
    | with_reducible refine Frame.pushEvent ?_ (by decide)
    | with_reducible refine Frame.ringPut ?_ (by decide)
    | with_reducible refine Frame.askFlush ?_ (by decide)
    | with_reducible refine Frame.announce ?_ (by decide)
    | with_reducible refine Frame.emitCore ?_ (by decide)
    | with_reducible refine Frame.lostEvents ?_ (by decide)
    | with_reducible refine Frame.emitBase ?_ (by decide)
    | with_reducible refine Frame.event ?_ (by decide)
    | with_reducible refine Frame.traceLost ?_ (by decide)
    | with_reducible refine Frame.traceDrain ?_ (by decide)
    | with_reducible refine Frame.traceRec ?_ (by decide)
    | with_reducible refine Frame.traceEvent ?_ (by decide)
    | with_reducible refine Frame.countError ?_ (by decide)
    | with_reducible refine Frame.emit ?_ (by decide)
    | with_reducible refine Frame.emitSq ?_ (by decide)
    | with_reducible refine Frame.releaseHold ?_ (by decide)
    | with_reducible refine Frame.endFreeze ?_ (by decide)
    | with_reducible refine Frame.jobFailed ?_ (by decide)
    | with_reducible refine Frame.failTags ?_ (by decide))
theorem Frame.setPkg {l : List Part} {s t : State} {p : PkgState} (h : Frame l s t) (hl : ∀ p ∈ ([.regs, .msix, .recd, .subs, .i3c, .out, .bu] : List Part), p ∈ l) :
    Frame l s (t.setPkg p) := .step (setPkg_frame t p) hl h

theorem denied_frame (s : State) (w : World) : Frame [.host, .regs, .msix, .recd, .subs, .i3c, .obs, .out] s (s.denied w) := by
  unfold State.denied
  try simp only
  repeat' (first
    | with_reducible exact Frame.refl _ _
    | with_reducible refine Frame.ite ?_ ?_
    | with_reducible refine Frame.setReg ?_ (by decide)
    | with_reducible refine Frame.setNat ?_ (by decide)
    | with_reducible refine Frame.setFld ?_ (by decide)
    | with_reducible refine Frame.bump ?_ (by decide)
    | with_reducible refine Frame.bumpFld ?_ (by decide)
    | with_reducible refine Frame.set64 ?_ (by decide)
    | with_reducible refine Frame.add64 ?_ (by decide)
    | with_reducible refine Frame.emitOut ?_ (by decide)
    | with_reducible refine Frame.modRec ?_ (by decide)
    | with_reducible refine Frame.modHost ?_ (by decide)
    | with_reducible refine Frame.modBu ?_ (by decide)
    | with_reducible refine Frame.setWriter ?_ (by decide)
    | with_reducible refine Frame.irq ?_ (by decide)
    | with_reducible refine Frame.ibi ?_ (by decide)
    | with_reducible refine Frame.pushEvent ?_ (by decide)
    | with_reducible refine Frame.ringPut ?_ (by decide)
    | with_reducible refine Frame.askFlush ?_ (by decide)
    | with_reducible refine Frame.announce ?_ (by decide)
    | with_reducible refine Frame.emitCore ?_ (by decide)
    | with_reducible refine Frame.lostEvents ?_ (by decide)
    | with_reducible refine Frame.emitBase ?_ (by decide)
    | with_reducible refine Frame.event ?_ (by decide)
    | with_reducible refine Frame.traceLost ?_ (by decide)
    | with_reducible refine Frame.traceDrain ?_ (by decide)
    | with_reducible refine Frame.traceRec ?_ (by decide)
    | with_reducible refine Frame.traceEvent ?_ (by decide)
    | with_reducible refine Frame.countError ?_ (by decide)
    | with_reducible refine Frame.emit ?_ (by decide))
theorem Frame.denied {l : List Part} {s t : State} {w : World} (h : Frame l s t) (hl : ∀ p ∈ ([.host, .regs, .msix, .recd, .subs, .i3c, .obs, .out] : List Part), p ∈ l) :
    Frame l s (t.denied w) := .step (denied_frame t w) hl h

theorem accessError_frame (s : State) (p : Path) (kind off : Nat) : Frame [.regs, .msix, .out] s (s.accessError p kind off) := by
  unfold State.accessError
  try simp only
  repeat' (first
    | with_reducible exact Frame.refl _ _
    | with_reducible refine Frame.ite ?_ ?_
    | with_reducible refine Frame.setReg ?_ (by decide)
    | with_reducible refine Frame.setNat ?_ (by decide)
    | with_reducible refine Frame.setFld ?_ (by decide)
    | with_reducible refine Frame.bump ?_ (by decide)
    | with_reducible refine Frame.bumpFld ?_ (by decide)
    | with_reducible refine Frame.set64 ?_ (by decide)
    | with_reducible refine Frame.add64 ?_ (by decide)
    | with_reducible refine Frame.emitOut ?_ (by decide)
    | with_reducible refine Frame.modRec ?_ (by decide)
    | with_reducible refine Frame.modHost ?_ (by decide)
    | with_reducible refine Frame.modBu ?_ (by decide)
    | with_reducible refine Frame.setWriter ?_ (by decide)
    | with_reducible refine Frame.irq ?_ (by decide))
theorem Frame.accessError {l : List Part} {s t : State} {p : Path} {kind off : Nat} (h : Frame l s t) (hl : ∀ p ∈ ([.regs, .msix, .out] : List Part), p ∈ l) :
    Frame l s (t.accessError p kind off) := .step (accessError_frame t p kind off) hl h

theorem cmpAnswer_frame (s : State) (m : CmpHdr) (x : Out) : Frame [.cmp, .out] s (s.cmpAnswer m x) := by
  exact fun p hp => by cases p <;> first | rfl | exact absurd (by decide) hp
theorem Frame.cmpAnswer {l : List Part} {s t : State} {m : CmpHdr} {x : Out} (h : Frame l s t) (hl : ∀ p ∈ ([.cmp, .out] : List Part), p ∈ l) :
    Frame l s (t.cmpAnswer m x) := .step (cmpAnswer_frame t m x) hl h

theorem writeSlot_frame (s : State) (a : Nat) (b : List Byte) : Frame [.out] s (s.writeSlot a b) := by
  unfold State.writeSlot
  exact (emitOut_frame s _).emitOut (by decide)
theorem Frame.writeSlot {l : List Part} {s t : State} {a : Nat} {b : List Byte} (h : Frame l s t) (hl : ∀ p ∈ ([.out] : List Part), p ∈ l) :
    Frame l s (t.writeSlot a b) := .step (writeSlot_frame t a b) hl h

/-- An answer changes the cause register, MSI-X, the CMP answers kept and the output only. -/
theorem answer_frame (s : State) (p : Pend) (st : Status) (d : Word) (r : List Word) : Frame [.regs, .msix, .cmp, .out] s (s.answer p st d r) := by
  unfold State.answer
  try simp only
  repeat' (first
    | with_reducible exact Frame.refl _ _
    | with_reducible refine Frame.ite ?_ ?_
    | with_reducible refine Frame.writeSlot ?_ (by decide)
    | with_reducible refine Frame.setReg ?_ (by decide)
    | with_reducible refine Frame.setNat ?_ (by decide)
    | with_reducible refine Frame.setFld ?_ (by decide)
    | with_reducible refine Frame.bump ?_ (by decide)
    | with_reducible refine Frame.bumpFld ?_ (by decide)
    | with_reducible refine Frame.set64 ?_ (by decide)
    | with_reducible refine Frame.add64 ?_ (by decide)
    | with_reducible refine Frame.emitOut ?_ (by decide)
    | with_reducible refine Frame.modRec ?_ (by decide)
    | with_reducible refine Frame.modHost ?_ (by decide)
    | with_reducible refine Frame.modBu ?_ (by decide)
    | with_reducible refine Frame.setWriter ?_ (by decide)
    | with_reducible refine Frame.irq ?_ (by decide)
    | with_reducible refine Frame.ibi ?_ (by decide)
    | with_reducible refine Frame.pushEvent ?_ (by decide)
    | with_reducible refine Frame.ringPut ?_ (by decide)
    | with_reducible refine Frame.askFlush ?_ (by decide)
    | with_reducible refine Frame.announce ?_ (by decide)
    | with_reducible refine Frame.emitCore ?_ (by decide)
    | with_reducible refine Frame.lostEvents ?_ (by decide)
    | with_reducible refine Frame.emitBase ?_ (by decide)
    | with_reducible refine Frame.event ?_ (by decide)
    | with_reducible refine Frame.traceLost ?_ (by decide)
    | with_reducible refine Frame.traceDrain ?_ (by decide)
    | with_reducible refine Frame.traceRec ?_ (by decide)
    | with_reducible refine Frame.traceEvent ?_ (by decide)
    | with_reducible refine Frame.countError ?_ (by decide)
    | with_reducible refine Frame.emit ?_ (by decide)
    | with_reducible refine Frame.emitSq ?_ (by decide)
    | with_reducible refine Frame.releaseHold ?_ (by decide)
    | with_reducible refine Frame.endFreeze ?_ (by decide)
    | with_reducible refine Frame.jobFailed ?_ (by decide)
    | with_reducible refine Frame.failJobs ?_ (by decide)
    | with_reducible refine Frame.setPkg ?_ (by decide)
    | with_reducible refine Frame.denied ?_ (by decide)
    | with_reducible refine Frame.accessError ?_ (by decide)
    | with_reducible refine Frame.cmpAnswer ?_ (by decide)
    | split)
theorem Frame.answer {l : List Part} {s t : State} {p : Pend} {st : Status} {d : Word} {r : List Word} (h : Frame l s t) (hl : ∀ p ∈ ([.regs, .msix, .cmp, .out] : List Part), p ∈ l) :
    Frame l s (t.answer p st d r) := .step (answer_frame t p st d r) hl h

theorem finish_frame (s : State) (p : Pend) (st : Status) (d : Word) (r : List Word) : Frame [.regs, .msix, .cmp, .out, .host] s (s.finish p st d r) := by
  unfold State.finish
  try simp only
  repeat' (first
    | with_reducible exact Frame.refl _ _
    | with_reducible refine Frame.ite ?_ ?_
    | with_reducible refine Frame.setReg ?_ (by decide)
    | with_reducible refine Frame.setNat ?_ (by decide)
    | with_reducible refine Frame.setFld ?_ (by decide)
    | with_reducible refine Frame.bump ?_ (by decide)
    | with_reducible refine Frame.bumpFld ?_ (by decide)
    | with_reducible refine Frame.set64 ?_ (by decide)
    | with_reducible refine Frame.add64 ?_ (by decide)
    | with_reducible refine Frame.emitOut ?_ (by decide)
    | with_reducible refine Frame.modRec ?_ (by decide)
    | with_reducible refine Frame.modHost ?_ (by decide)
    | with_reducible refine Frame.modBu ?_ (by decide)
    | with_reducible refine Frame.setWriter ?_ (by decide)
    | with_reducible refine Frame.irq ?_ (by decide)
    | with_reducible refine Frame.ibi ?_ (by decide)
    | with_reducible refine Frame.pushEvent ?_ (by decide)
    | with_reducible refine Frame.ringPut ?_ (by decide)
    | with_reducible refine Frame.askFlush ?_ (by decide)
    | with_reducible refine Frame.announce ?_ (by decide)
    | with_reducible refine Frame.emitCore ?_ (by decide)
    | with_reducible refine Frame.lostEvents ?_ (by decide)
    | with_reducible refine Frame.emitBase ?_ (by decide)
    | with_reducible refine Frame.event ?_ (by decide)
    | with_reducible refine Frame.traceLost ?_ (by decide)
    | with_reducible refine Frame.traceDrain ?_ (by decide)
    | with_reducible refine Frame.traceRec ?_ (by decide)
    | with_reducible refine Frame.traceEvent ?_ (by decide)
    | with_reducible refine Frame.countError ?_ (by decide)
    | with_reducible refine Frame.emit ?_ (by decide)
    | with_reducible refine Frame.emitSq ?_ (by decide)
    | with_reducible refine Frame.releaseHold ?_ (by decide)
    | with_reducible refine Frame.endFreeze ?_ (by decide)
    | with_reducible refine Frame.jobFailed ?_ (by decide)
    | with_reducible refine Frame.failJobs ?_ (by decide)
    | with_reducible refine Frame.setPkg ?_ (by decide)
    | with_reducible refine Frame.denied ?_ (by decide)
    | with_reducible refine Frame.accessError ?_ (by decide)
    | with_reducible refine Frame.cmpAnswer ?_ (by decide)
    | with_reducible refine Frame.answer ?_ (by decide))
theorem Frame.finish {l : List Part} {s t : State} {p : Pend} {st : Status} {d : Word} {r : List Word} (h : Frame l s t) (hl : ∀ p ∈ ([.regs, .msix, .cmp, .out, .host] : List Part), p ∈ l) :
    Frame l s (t.finish p st d r) := .step (finish_frame t p st d r) hl h

theorem waitAnswer_frame (s : State) (p : Pend) : Frame [.host] s (s.waitAnswer p) := by
  unfold State.waitAnswer
  try simp only
  repeat' (first
    | with_reducible exact Frame.refl _ _
    | with_reducible refine Frame.ite ?_ ?_
    | with_reducible refine Frame.setReg ?_ (by decide)
    | with_reducible refine Frame.setNat ?_ (by decide)
    | with_reducible refine Frame.setFld ?_ (by decide)
    | with_reducible refine Frame.bump ?_ (by decide)
    | with_reducible refine Frame.bumpFld ?_ (by decide)
    | with_reducible refine Frame.set64 ?_ (by decide)
    | with_reducible refine Frame.add64 ?_ (by decide)
    | with_reducible refine Frame.emitOut ?_ (by decide)
    | with_reducible refine Frame.modRec ?_ (by decide)
    | with_reducible refine Frame.modHost ?_ (by decide))
theorem Frame.waitAnswer {l : List Part} {s t : State} {p : Pend} (h : Frame l s t) (hl : ∀ p ∈ ([.host] : List Part), p ∈ l) :
    Frame l s (t.waitAnswer p) := .step (waitAnswer_frame t p) hl h

theorem ringNotice_frame (s : State) (n : Notice) : Frame [.regs, .msix, .out] s (s.ringNotice n) := by
  unfold State.ringNotice
  try simp only
  repeat' (first
    | with_reducible exact Frame.refl _ _
    | with_reducible refine Frame.ite ?_ ?_
    | with_reducible refine Frame.writeSlot ?_ (by decide)
    | with_reducible refine Frame.setReg ?_ (by decide)
    | with_reducible refine Frame.setNat ?_ (by decide)
    | with_reducible refine Frame.setFld ?_ (by decide)
    | with_reducible refine Frame.bump ?_ (by decide)
    | with_reducible refine Frame.bumpFld ?_ (by decide)
    | with_reducible refine Frame.set64 ?_ (by decide)
    | with_reducible refine Frame.add64 ?_ (by decide)
    | with_reducible refine Frame.emitOut ?_ (by decide)
    | with_reducible refine Frame.modRec ?_ (by decide)
    | with_reducible refine Frame.modHost ?_ (by decide)
    | with_reducible refine Frame.modBu ?_ (by decide)
    | with_reducible refine Frame.setWriter ?_ (by decide)
    | with_reducible refine Frame.irq ?_ (by decide))
theorem Frame.ringNotice {l : List Part} {s t : State} {n : Notice} (h : Frame l s t) (hl : ∀ p ∈ ([.regs, .msix, .out] : List Part), p ∈ l) :
    Frame l s (t.ringNotice n) := .step (ringNotice_frame t n) hl h

theorem notify_frame (s : State) (n : Notice) : Frame [.regs, .msix, .recd, .subs, .i3c, .out, .host] s (s.notify n) := by
  unfold State.notify
  try simp only
  repeat' (first
    | with_reducible exact Frame.refl _ _
    | with_reducible refine Frame.ite ?_ ?_
    | with_reducible refine Frame.setReg ?_ (by decide)
    | with_reducible refine Frame.setNat ?_ (by decide)
    | with_reducible refine Frame.setFld ?_ (by decide)
    | with_reducible refine Frame.bump ?_ (by decide)
    | with_reducible refine Frame.bumpFld ?_ (by decide)
    | with_reducible refine Frame.set64 ?_ (by decide)
    | with_reducible refine Frame.add64 ?_ (by decide)
    | with_reducible refine Frame.emitOut ?_ (by decide)
    | with_reducible refine Frame.modRec ?_ (by decide)
    | with_reducible refine Frame.modHost ?_ (by decide)
    | with_reducible refine Frame.modBu ?_ (by decide)
    | with_reducible refine Frame.setWriter ?_ (by decide)
    | with_reducible refine Frame.irq ?_ (by decide)
    | with_reducible refine Frame.ibi ?_ (by decide)
    | with_reducible refine Frame.pushEvent ?_ (by decide)
    | with_reducible refine Frame.ringPut ?_ (by decide)
    | with_reducible refine Frame.askFlush ?_ (by decide)
    | with_reducible refine Frame.announce ?_ (by decide)
    | with_reducible refine Frame.emitCore ?_ (by decide)
    | with_reducible refine Frame.lostEvents ?_ (by decide)
    | with_reducible refine Frame.emitBase ?_ (by decide)
    | with_reducible refine Frame.event ?_ (by decide)
    | with_reducible refine Frame.traceLost ?_ (by decide)
    | with_reducible refine Frame.traceDrain ?_ (by decide)
    | with_reducible refine Frame.traceRec ?_ (by decide)
    | with_reducible refine Frame.traceEvent ?_ (by decide)
    | with_reducible refine Frame.countError ?_ (by decide)
    | with_reducible refine Frame.emit ?_ (by decide)
    | with_reducible refine Frame.emitSq ?_ (by decide)
    | with_reducible refine Frame.releaseHold ?_ (by decide)
    | with_reducible refine Frame.endFreeze ?_ (by decide)
    | with_reducible refine Frame.jobFailed ?_ (by decide)
    | with_reducible refine Frame.failJobs ?_ (by decide)
    | with_reducible refine Frame.setPkg ?_ (by decide)
    | with_reducible refine Frame.denied ?_ (by decide)
    | with_reducible refine Frame.accessError ?_ (by decide)
    | with_reducible refine Frame.cmpAnswer ?_ (by decide)
    | with_reducible refine Frame.answer ?_ (by decide)
    | with_reducible refine Frame.finish ?_ (by decide)
    | with_reducible refine Frame.waitAnswer ?_ (by decide)
    | with_reducible refine Frame.ringNotice ?_ (by decide))
theorem Frame.notify {l : List Part} {s t : State} {n : Notice} (h : Frame l s t) (hl : ∀ p ∈ ([.regs, .msix, .recd, .subs, .i3c, .out, .host] : List Part), p ∈ l) :
    Frame l s (t.notify n) := .step (notify_frame t n) hl h

end Sys2Proof.Machine
end

