-- ==== Sys2Proof/Laws/Fields.lean ====
section
/-! SUPPORT. The frames of the shared operations field by field, for simp. -/
namespace Sys2Proof.Machine

/-! ### irq -/
@[simp] theorem State.irq_paths (s : State) (v : Nat) : (s.irq v).paths = s.paths := irq_frame s v .paths (by decide)
@[simp] theorem State.irq_fused (s : State) (v : Nat) : (s.irq v).fused = s.fused := irq_frame s v .fused (by decide)
@[simp] theorem State.irq_sq (s : State) (v : Nat) : (s.irq v).sq = s.sq := irq_frame s v .sq (by decide)
@[simp] theorem State.irq_time (s : State) (v : Nat) : (s.irq v).time = s.time := irq_frame s v .time (by decide)
@[simp] theorem State.irq_hl (s : State) (v : Nat) : (s.irq v).hl = s.hl := irq_frame s v .hl (by decide)
@[simp] theorem State.irq_pw (s : State) (v : Nat) : (s.irq v).pw = s.pw := irq_frame s v .pw (by decide)
@[simp] theorem State.irq_recd (s : State) (v : Nat) : (s.irq v).recd = s.recd := irq_frame s v .recd (by decide)
@[simp] theorem State.irq_host (s : State) (v : Nat) : (s.irq v).host = s.host := irq_frame s v .host (by decide)
@[simp] theorem State.irq_fns (s : State) (v : Nat) : (s.irq v).fns = s.fns := irq_frame s v .fns (by decide)
@[simp] theorem State.irq_txns (s : State) (v : Nat) : (s.irq v).txns = s.txns := irq_frame s v .txns (by decide)
@[simp] theorem State.irq_regions (s : State) (v : Nat) : (s.irq v).regions = s.regions := irq_frame s v .regions (by decide)
@[simp] theorem State.irq_roles (s : State) (v : Nat) : (s.irq v).roles = s.roles := irq_frame s v .roles (by decide)
@[simp] theorem State.irq_routes (s : State) (v : Nat) : (s.irq v).routes = s.routes := irq_frame s v .routes (by decide)
@[simp] theorem State.irq_slices (s : State) (v : Nat) : (s.irq v).slices = s.slices := irq_frame s v .slices (by decide)
@[simp] theorem State.irq_subs (s : State) (v : Nat) : (s.irq v).subs = s.subs := irq_frame s v .subs (by decide)
@[simp] theorem State.irq_i3c (s : State) (v : Nat) : (s.irq v).i3c = s.i3c := irq_frame s v .i3c (by decide)
@[simp] theorem State.irq_tiles (s : State) (v : Nat) : (s.irq v).tiles = s.tiles := irq_frame s v .tiles (by decide)
@[simp] theorem State.irq_plan (s : State) (v : Nat) : (s.irq v).plan = s.plan := irq_frame s v .plan (by decide)
@[simp] theorem State.irq_shadow (s : State) (v : Nat) : (s.irq v).shadow = s.shadow := irq_frame s v .shadow (by decide)
@[simp] theorem State.irq_ctxs (s : State) (v : Nat) : (s.irq v).ctxs = s.ctxs := irq_frame s v .ctxs (by decide)
@[simp] theorem State.irq_agents (s : State) (v : Nat) : (s.irq v).agents = s.agents := irq_frame s v .agents (by decide)
@[simp] theorem State.irq_bus (s : State) (v : Nat) : (s.irq v).bus = s.bus := irq_frame s v .bus (by decide)
@[simp] theorem State.irq_bu (s : State) (v : Nat) : (s.irq v).bu = s.bu := irq_frame s v .bu (by decide)
@[simp] theorem State.irq_ofd (s : State) (v : Nat) : (s.irq v).ofd = s.ofd := irq_frame s v .ofd (by decide)
@[simp] theorem State.irq_hbm (s : State) (v : Nat) : (s.irq v).hbm = s.hbm := irq_frame s v .hbm (by decide)
@[simp] theorem State.irq_esc (s : State) (v : Nat) : (s.irq v).esc = s.esc := irq_frame s v .esc (by decide)
@[simp] theorem State.irq_test (s : State) (v : Nat) : (s.irq v).test = s.test := irq_frame s v .test (by decide)
@[simp] theorem State.irq_thm (s : State) (v : Nat) : (s.irq v).thm = s.thm := irq_frame s v .thm (by decide)
@[simp] theorem State.irq_obs (s : State) (v : Nat) : (s.irq v).obs = s.obs := irq_frame s v .obs (by decide)
@[simp] theorem State.irq_ports (s : State) (v : Nat) : (s.irq v).ports = s.ports := irq_frame s v .ports (by decide)
@[simp] theorem State.irq_cmp (s : State) (v : Nat) : (s.irq v).cmp = s.cmp := irq_frame s v .cmp (by decide)
@[simp] theorem State.irq_nor (s : State) (v : Nat) : (s.irq v).nor = s.nor := irq_frame s v .nor (by decide)
@[simp] theorem State.irq_free (s : State) (v : Nat) : (s.irq v).free = s.free := irq_frame s v .free (by decide)
@[simp] theorem State.irq_pending (s : State) (v : Nat) : (s.irq v).pending = s.pending := irq_frame s v .pending (by decide)
/-! ### ibi -/
@[simp] theorem State.ibi_regs (s : State) (m : Nat) (w : Word) : (s.ibi m w).regs = s.regs := ibi_frame s m w .regs (by decide)
@[simp] theorem State.ibi_paths (s : State) (m : Nat) (w : Word) : (s.ibi m w).paths = s.paths := ibi_frame s m w .paths (by decide)
@[simp] theorem State.ibi_fused (s : State) (m : Nat) (w : Word) : (s.ibi m w).fused = s.fused := ibi_frame s m w .fused (by decide)
@[simp] theorem State.ibi_sq (s : State) (m : Nat) (w : Word) : (s.ibi m w).sq = s.sq := ibi_frame s m w .sq (by decide)
@[simp] theorem State.ibi_time (s : State) (m : Nat) (w : Word) : (s.ibi m w).time = s.time := ibi_frame s m w .time (by decide)
@[simp] theorem State.ibi_hl (s : State) (m : Nat) (w : Word) : (s.ibi m w).hl = s.hl := ibi_frame s m w .hl (by decide)
@[simp] theorem State.ibi_pw (s : State) (m : Nat) (w : Word) : (s.ibi m w).pw = s.pw := ibi_frame s m w .pw (by decide)
@[simp] theorem State.ibi_recd (s : State) (m : Nat) (w : Word) : (s.ibi m w).recd = s.recd := ibi_frame s m w .recd (by decide)
@[simp] theorem State.ibi_msix (s : State) (m : Nat) (w : Word) : (s.ibi m w).msix = s.msix := ibi_frame s m w .msix (by decide)
@[simp] theorem State.ibi_host (s : State) (m : Nat) (w : Word) : (s.ibi m w).host = s.host := ibi_frame s m w .host (by decide)
@[simp] theorem State.ibi_fns (s : State) (m : Nat) (w : Word) : (s.ibi m w).fns = s.fns := ibi_frame s m w .fns (by decide)
@[simp] theorem State.ibi_txns (s : State) (m : Nat) (w : Word) : (s.ibi m w).txns = s.txns := ibi_frame s m w .txns (by decide)
@[simp] theorem State.ibi_regions (s : State) (m : Nat) (w : Word) : (s.ibi m w).regions = s.regions := ibi_frame s m w .regions (by decide)
@[simp] theorem State.ibi_roles (s : State) (m : Nat) (w : Word) : (s.ibi m w).roles = s.roles := ibi_frame s m w .roles (by decide)
@[simp] theorem State.ibi_routes (s : State) (m : Nat) (w : Word) : (s.ibi m w).routes = s.routes := ibi_frame s m w .routes (by decide)
@[simp] theorem State.ibi_slices (s : State) (m : Nat) (w : Word) : (s.ibi m w).slices = s.slices := ibi_frame s m w .slices (by decide)
@[simp] theorem State.ibi_subs (s : State) (m : Nat) (w : Word) : (s.ibi m w).subs = s.subs := ibi_frame s m w .subs (by decide)
@[simp] theorem State.ibi_tiles (s : State) (m : Nat) (w : Word) : (s.ibi m w).tiles = s.tiles := ibi_frame s m w .tiles (by decide)
@[simp] theorem State.ibi_plan (s : State) (m : Nat) (w : Word) : (s.ibi m w).plan = s.plan := ibi_frame s m w .plan (by decide)
@[simp] theorem State.ibi_shadow (s : State) (m : Nat) (w : Word) : (s.ibi m w).shadow = s.shadow := ibi_frame s m w .shadow (by decide)
@[simp] theorem State.ibi_ctxs (s : State) (m : Nat) (w : Word) : (s.ibi m w).ctxs = s.ctxs := ibi_frame s m w .ctxs (by decide)
@[simp] theorem State.ibi_agents (s : State) (m : Nat) (w : Word) : (s.ibi m w).agents = s.agents := ibi_frame s m w .agents (by decide)
@[simp] theorem State.ibi_bus (s : State) (m : Nat) (w : Word) : (s.ibi m w).bus = s.bus := ibi_frame s m w .bus (by decide)
@[simp] theorem State.ibi_bu (s : State) (m : Nat) (w : Word) : (s.ibi m w).bu = s.bu := ibi_frame s m w .bu (by decide)
@[simp] theorem State.ibi_ofd (s : State) (m : Nat) (w : Word) : (s.ibi m w).ofd = s.ofd := ibi_frame s m w .ofd (by decide)
@[simp] theorem State.ibi_hbm (s : State) (m : Nat) (w : Word) : (s.ibi m w).hbm = s.hbm := ibi_frame s m w .hbm (by decide)
@[simp] theorem State.ibi_esc (s : State) (m : Nat) (w : Word) : (s.ibi m w).esc = s.esc := ibi_frame s m w .esc (by decide)
@[simp] theorem State.ibi_test (s : State) (m : Nat) (w : Word) : (s.ibi m w).test = s.test := ibi_frame s m w .test (by decide)
@[simp] theorem State.ibi_thm (s : State) (m : Nat) (w : Word) : (s.ibi m w).thm = s.thm := ibi_frame s m w .thm (by decide)
@[simp] theorem State.ibi_obs (s : State) (m : Nat) (w : Word) : (s.ibi m w).obs = s.obs := ibi_frame s m w .obs (by decide)
@[simp] theorem State.ibi_ports (s : State) (m : Nat) (w : Word) : (s.ibi m w).ports = s.ports := ibi_frame s m w .ports (by decide)
@[simp] theorem State.ibi_cmp (s : State) (m : Nat) (w : Word) : (s.ibi m w).cmp = s.cmp := ibi_frame s m w .cmp (by decide)
@[simp] theorem State.ibi_nor (s : State) (m : Nat) (w : Word) : (s.ibi m w).nor = s.nor := ibi_frame s m w .nor (by decide)
@[simp] theorem State.ibi_free (s : State) (m : Nat) (w : Word) : (s.ibi m w).free = s.free := ibi_frame s m w .free (by decide)
@[simp] theorem State.ibi_pending (s : State) (m : Nat) (w : Word) : (s.ibi m w).pending = s.pending := ibi_frame s m w .pending (by decide)
/-! ### pushEvent -/
@[simp] theorem State.pushEvent_paths (s : State) (b : EvBody) : (s.pushEvent b).1.paths = s.paths := pushEvent_frame s b .paths (by decide)
@[simp] theorem State.pushEvent_fused (s : State) (b : EvBody) : (s.pushEvent b).1.fused = s.fused := pushEvent_frame s b .fused (by decide)
@[simp] theorem State.pushEvent_sq (s : State) (b : EvBody) : (s.pushEvent b).1.sq = s.sq := pushEvent_frame s b .sq (by decide)
@[simp] theorem State.pushEvent_time (s : State) (b : EvBody) : (s.pushEvent b).1.time = s.time := pushEvent_frame s b .time (by decide)
@[simp] theorem State.pushEvent_hl (s : State) (b : EvBody) : (s.pushEvent b).1.hl = s.hl := pushEvent_frame s b .hl (by decide)
@[simp] theorem State.pushEvent_pw (s : State) (b : EvBody) : (s.pushEvent b).1.pw = s.pw := pushEvent_frame s b .pw (by decide)
@[simp] theorem State.pushEvent_recd (s : State) (b : EvBody) : (s.pushEvent b).1.recd = s.recd := pushEvent_frame s b .recd (by decide)
@[simp] theorem State.pushEvent_msix (s : State) (b : EvBody) : (s.pushEvent b).1.msix = s.msix := pushEvent_frame s b .msix (by decide)
@[simp] theorem State.pushEvent_host (s : State) (b : EvBody) : (s.pushEvent b).1.host = s.host := pushEvent_frame s b .host (by decide)
@[simp] theorem State.pushEvent_fns (s : State) (b : EvBody) : (s.pushEvent b).1.fns = s.fns := pushEvent_frame s b .fns (by decide)
@[simp] theorem State.pushEvent_txns (s : State) (b : EvBody) : (s.pushEvent b).1.txns = s.txns := pushEvent_frame s b .txns (by decide)
@[simp] theorem State.pushEvent_regions (s : State) (b : EvBody) : (s.pushEvent b).1.regions = s.regions := pushEvent_frame s b .regions (by decide)
@[simp] theorem State.pushEvent_roles (s : State) (b : EvBody) : (s.pushEvent b).1.roles = s.roles := pushEvent_frame s b .roles (by decide)
@[simp] theorem State.pushEvent_routes (s : State) (b : EvBody) : (s.pushEvent b).1.routes = s.routes := pushEvent_frame s b .routes (by decide)
@[simp] theorem State.pushEvent_slices (s : State) (b : EvBody) : (s.pushEvent b).1.slices = s.slices := pushEvent_frame s b .slices (by decide)
@[simp] theorem State.pushEvent_i3c (s : State) (b : EvBody) : (s.pushEvent b).1.i3c = s.i3c := pushEvent_frame s b .i3c (by decide)
@[simp] theorem State.pushEvent_tiles (s : State) (b : EvBody) : (s.pushEvent b).1.tiles = s.tiles := pushEvent_frame s b .tiles (by decide)
@[simp] theorem State.pushEvent_plan (s : State) (b : EvBody) : (s.pushEvent b).1.plan = s.plan := pushEvent_frame s b .plan (by decide)
@[simp] theorem State.pushEvent_shadow (s : State) (b : EvBody) : (s.pushEvent b).1.shadow = s.shadow := pushEvent_frame s b .shadow (by decide)
@[simp] theorem State.pushEvent_ctxs (s : State) (b : EvBody) : (s.pushEvent b).1.ctxs = s.ctxs := pushEvent_frame s b .ctxs (by decide)
@[simp] theorem State.pushEvent_agents (s : State) (b : EvBody) : (s.pushEvent b).1.agents = s.agents := pushEvent_frame s b .agents (by decide)
@[simp] theorem State.pushEvent_bus (s : State) (b : EvBody) : (s.pushEvent b).1.bus = s.bus := pushEvent_frame s b .bus (by decide)
@[simp] theorem State.pushEvent_bu (s : State) (b : EvBody) : (s.pushEvent b).1.bu = s.bu := pushEvent_frame s b .bu (by decide)
@[simp] theorem State.pushEvent_ofd (s : State) (b : EvBody) : (s.pushEvent b).1.ofd = s.ofd := pushEvent_frame s b .ofd (by decide)
@[simp] theorem State.pushEvent_hbm (s : State) (b : EvBody) : (s.pushEvent b).1.hbm = s.hbm := pushEvent_frame s b .hbm (by decide)
@[simp] theorem State.pushEvent_esc (s : State) (b : EvBody) : (s.pushEvent b).1.esc = s.esc := pushEvent_frame s b .esc (by decide)
@[simp] theorem State.pushEvent_test (s : State) (b : EvBody) : (s.pushEvent b).1.test = s.test := pushEvent_frame s b .test (by decide)
@[simp] theorem State.pushEvent_thm (s : State) (b : EvBody) : (s.pushEvent b).1.thm = s.thm := pushEvent_frame s b .thm (by decide)
@[simp] theorem State.pushEvent_obs (s : State) (b : EvBody) : (s.pushEvent b).1.obs = s.obs := pushEvent_frame s b .obs (by decide)
@[simp] theorem State.pushEvent_ports (s : State) (b : EvBody) : (s.pushEvent b).1.ports = s.ports := pushEvent_frame s b .ports (by decide)
@[simp] theorem State.pushEvent_cmp (s : State) (b : EvBody) : (s.pushEvent b).1.cmp = s.cmp := pushEvent_frame s b .cmp (by decide)
@[simp] theorem State.pushEvent_nor (s : State) (b : EvBody) : (s.pushEvent b).1.nor = s.nor := pushEvent_frame s b .nor (by decide)
@[simp] theorem State.pushEvent_free (s : State) (b : EvBody) : (s.pushEvent b).1.free = s.free := pushEvent_frame s b .free (by decide)
@[simp] theorem State.pushEvent_pending (s : State) (b : EvBody) : (s.pushEvent b).1.pending = s.pending := pushEvent_frame s b .pending (by decide)
/-! ### ringPut -/
@[simp] theorem State.ringPut_paths (s : State) (r : Record × Bool) : (s.ringPut r).paths = s.paths := ringPut_frame s r .paths (by decide)
@[simp] theorem State.ringPut_fused (s : State) (r : Record × Bool) : (s.ringPut r).fused = s.fused := ringPut_frame s r .fused (by decide)
@[simp] theorem State.ringPut_sq (s : State) (r : Record × Bool) : (s.ringPut r).sq = s.sq := ringPut_frame s r .sq (by decide)
@[simp] theorem State.ringPut_time (s : State) (r : Record × Bool) : (s.ringPut r).time = s.time := ringPut_frame s r .time (by decide)
@[simp] theorem State.ringPut_hl (s : State) (r : Record × Bool) : (s.ringPut r).hl = s.hl := ringPut_frame s r .hl (by decide)
@[simp] theorem State.ringPut_pw (s : State) (r : Record × Bool) : (s.ringPut r).pw = s.pw := ringPut_frame s r .pw (by decide)
@[simp] theorem State.ringPut_msix (s : State) (r : Record × Bool) : (s.ringPut r).msix = s.msix := ringPut_frame s r .msix (by decide)
@[simp] theorem State.ringPut_host (s : State) (r : Record × Bool) : (s.ringPut r).host = s.host := ringPut_frame s r .host (by decide)
@[simp] theorem State.ringPut_fns (s : State) (r : Record × Bool) : (s.ringPut r).fns = s.fns := ringPut_frame s r .fns (by decide)
@[simp] theorem State.ringPut_txns (s : State) (r : Record × Bool) : (s.ringPut r).txns = s.txns := ringPut_frame s r .txns (by decide)
@[simp] theorem State.ringPut_regions (s : State) (r : Record × Bool) : (s.ringPut r).regions = s.regions := ringPut_frame s r .regions (by decide)
@[simp] theorem State.ringPut_roles (s : State) (r : Record × Bool) : (s.ringPut r).roles = s.roles := ringPut_frame s r .roles (by decide)
@[simp] theorem State.ringPut_routes (s : State) (r : Record × Bool) : (s.ringPut r).routes = s.routes := ringPut_frame s r .routes (by decide)
@[simp] theorem State.ringPut_slices (s : State) (r : Record × Bool) : (s.ringPut r).slices = s.slices := ringPut_frame s r .slices (by decide)
@[simp] theorem State.ringPut_subs (s : State) (r : Record × Bool) : (s.ringPut r).subs = s.subs := ringPut_frame s r .subs (by decide)
@[simp] theorem State.ringPut_i3c (s : State) (r : Record × Bool) : (s.ringPut r).i3c = s.i3c := ringPut_frame s r .i3c (by decide)
@[simp] theorem State.ringPut_tiles (s : State) (r : Record × Bool) : (s.ringPut r).tiles = s.tiles := ringPut_frame s r .tiles (by decide)
@[simp] theorem State.ringPut_plan (s : State) (r : Record × Bool) : (s.ringPut r).plan = s.plan := ringPut_frame s r .plan (by decide)
@[simp] theorem State.ringPut_shadow (s : State) (r : Record × Bool) : (s.ringPut r).shadow = s.shadow := ringPut_frame s r .shadow (by decide)
@[simp] theorem State.ringPut_ctxs (s : State) (r : Record × Bool) : (s.ringPut r).ctxs = s.ctxs := ringPut_frame s r .ctxs (by decide)
@[simp] theorem State.ringPut_agents (s : State) (r : Record × Bool) : (s.ringPut r).agents = s.agents := ringPut_frame s r .agents (by decide)
@[simp] theorem State.ringPut_bus (s : State) (r : Record × Bool) : (s.ringPut r).bus = s.bus := ringPut_frame s r .bus (by decide)
@[simp] theorem State.ringPut_bu (s : State) (r : Record × Bool) : (s.ringPut r).bu = s.bu := ringPut_frame s r .bu (by decide)
@[simp] theorem State.ringPut_ofd (s : State) (r : Record × Bool) : (s.ringPut r).ofd = s.ofd := ringPut_frame s r .ofd (by decide)
@[simp] theorem State.ringPut_hbm (s : State) (r : Record × Bool) : (s.ringPut r).hbm = s.hbm := ringPut_frame s r .hbm (by decide)
@[simp] theorem State.ringPut_esc (s : State) (r : Record × Bool) : (s.ringPut r).esc = s.esc := ringPut_frame s r .esc (by decide)
@[simp] theorem State.ringPut_test (s : State) (r : Record × Bool) : (s.ringPut r).test = s.test := ringPut_frame s r .test (by decide)
@[simp] theorem State.ringPut_thm (s : State) (r : Record × Bool) : (s.ringPut r).thm = s.thm := ringPut_frame s r .thm (by decide)
@[simp] theorem State.ringPut_obs (s : State) (r : Record × Bool) : (s.ringPut r).obs = s.obs := ringPut_frame s r .obs (by decide)
@[simp] theorem State.ringPut_ports (s : State) (r : Record × Bool) : (s.ringPut r).ports = s.ports := ringPut_frame s r .ports (by decide)
@[simp] theorem State.ringPut_cmp (s : State) (r : Record × Bool) : (s.ringPut r).cmp = s.cmp := ringPut_frame s r .cmp (by decide)
@[simp] theorem State.ringPut_nor (s : State) (r : Record × Bool) : (s.ringPut r).nor = s.nor := ringPut_frame s r .nor (by decide)
@[simp] theorem State.ringPut_free (s : State) (r : Record × Bool) : (s.ringPut r).free = s.free := ringPut_frame s r .free (by decide)
@[simp] theorem State.ringPut_out (s : State) (r : Record × Bool) : (s.ringPut r).out = s.out := ringPut_frame s r .out (by decide)
@[simp] theorem State.ringPut_pending (s : State) (r : Record × Bool) : (s.ringPut r).pending = s.pending := ringPut_frame s r .pending (by decide)
/-! ### askFlush -/
@[simp] theorem State.askFlush_regs (s : State) (k : FlushKind) : (s.askFlush k).regs = s.regs := askFlush_frame s k .regs (by decide)
@[simp] theorem State.askFlush_paths (s : State) (k : FlushKind) : (s.askFlush k).paths = s.paths := askFlush_frame s k .paths (by decide)
@[simp] theorem State.askFlush_fused (s : State) (k : FlushKind) : (s.askFlush k).fused = s.fused := askFlush_frame s k .fused (by decide)
@[simp] theorem State.askFlush_sq (s : State) (k : FlushKind) : (s.askFlush k).sq = s.sq := askFlush_frame s k .sq (by decide)
@[simp] theorem State.askFlush_time (s : State) (k : FlushKind) : (s.askFlush k).time = s.time := askFlush_frame s k .time (by decide)
@[simp] theorem State.askFlush_hl (s : State) (k : FlushKind) : (s.askFlush k).hl = s.hl := askFlush_frame s k .hl (by decide)
@[simp] theorem State.askFlush_pw (s : State) (k : FlushKind) : (s.askFlush k).pw = s.pw := askFlush_frame s k .pw (by decide)
@[simp] theorem State.askFlush_msix (s : State) (k : FlushKind) : (s.askFlush k).msix = s.msix := askFlush_frame s k .msix (by decide)
@[simp] theorem State.askFlush_host (s : State) (k : FlushKind) : (s.askFlush k).host = s.host := askFlush_frame s k .host (by decide)
@[simp] theorem State.askFlush_fns (s : State) (k : FlushKind) : (s.askFlush k).fns = s.fns := askFlush_frame s k .fns (by decide)
@[simp] theorem State.askFlush_txns (s : State) (k : FlushKind) : (s.askFlush k).txns = s.txns := askFlush_frame s k .txns (by decide)
@[simp] theorem State.askFlush_regions (s : State) (k : FlushKind) : (s.askFlush k).regions = s.regions := askFlush_frame s k .regions (by decide)
@[simp] theorem State.askFlush_roles (s : State) (k : FlushKind) : (s.askFlush k).roles = s.roles := askFlush_frame s k .roles (by decide)
@[simp] theorem State.askFlush_routes (s : State) (k : FlushKind) : (s.askFlush k).routes = s.routes := askFlush_frame s k .routes (by decide)
@[simp] theorem State.askFlush_slices (s : State) (k : FlushKind) : (s.askFlush k).slices = s.slices := askFlush_frame s k .slices (by decide)
@[simp] theorem State.askFlush_subs (s : State) (k : FlushKind) : (s.askFlush k).subs = s.subs := askFlush_frame s k .subs (by decide)
@[simp] theorem State.askFlush_i3c (s : State) (k : FlushKind) : (s.askFlush k).i3c = s.i3c := askFlush_frame s k .i3c (by decide)
@[simp] theorem State.askFlush_tiles (s : State) (k : FlushKind) : (s.askFlush k).tiles = s.tiles := askFlush_frame s k .tiles (by decide)
@[simp] theorem State.askFlush_plan (s : State) (k : FlushKind) : (s.askFlush k).plan = s.plan := askFlush_frame s k .plan (by decide)
@[simp] theorem State.askFlush_shadow (s : State) (k : FlushKind) : (s.askFlush k).shadow = s.shadow := askFlush_frame s k .shadow (by decide)
@[simp] theorem State.askFlush_ctxs (s : State) (k : FlushKind) : (s.askFlush k).ctxs = s.ctxs := askFlush_frame s k .ctxs (by decide)
@[simp] theorem State.askFlush_agents (s : State) (k : FlushKind) : (s.askFlush k).agents = s.agents := askFlush_frame s k .agents (by decide)
@[simp] theorem State.askFlush_bus (s : State) (k : FlushKind) : (s.askFlush k).bus = s.bus := askFlush_frame s k .bus (by decide)
@[simp] theorem State.askFlush_bu (s : State) (k : FlushKind) : (s.askFlush k).bu = s.bu := askFlush_frame s k .bu (by decide)
@[simp] theorem State.askFlush_ofd (s : State) (k : FlushKind) : (s.askFlush k).ofd = s.ofd := askFlush_frame s k .ofd (by decide)
@[simp] theorem State.askFlush_hbm (s : State) (k : FlushKind) : (s.askFlush k).hbm = s.hbm := askFlush_frame s k .hbm (by decide)
@[simp] theorem State.askFlush_esc (s : State) (k : FlushKind) : (s.askFlush k).esc = s.esc := askFlush_frame s k .esc (by decide)
@[simp] theorem State.askFlush_test (s : State) (k : FlushKind) : (s.askFlush k).test = s.test := askFlush_frame s k .test (by decide)
@[simp] theorem State.askFlush_thm (s : State) (k : FlushKind) : (s.askFlush k).thm = s.thm := askFlush_frame s k .thm (by decide)
@[simp] theorem State.askFlush_obs (s : State) (k : FlushKind) : (s.askFlush k).obs = s.obs := askFlush_frame s k .obs (by decide)
@[simp] theorem State.askFlush_ports (s : State) (k : FlushKind) : (s.askFlush k).ports = s.ports := askFlush_frame s k .ports (by decide)
@[simp] theorem State.askFlush_cmp (s : State) (k : FlushKind) : (s.askFlush k).cmp = s.cmp := askFlush_frame s k .cmp (by decide)
@[simp] theorem State.askFlush_nor (s : State) (k : FlushKind) : (s.askFlush k).nor = s.nor := askFlush_frame s k .nor (by decide)
@[simp] theorem State.askFlush_free (s : State) (k : FlushKind) : (s.askFlush k).free = s.free := askFlush_frame s k .free (by decide)
@[simp] theorem State.askFlush_out (s : State) (k : FlushKind) : (s.askFlush k).out = s.out := askFlush_frame s k .out (by decide)
@[simp] theorem State.askFlush_pending (s : State) (k : FlushKind) : (s.askFlush k).pending = s.pending := askFlush_frame s k .pending (by decide)
/-! ### announce -/
@[simp] theorem State.announce_paths (s : State) (c : Nat) (rs : List Record) : (s.announce c rs).1.paths = s.paths := announce_frame s c rs .paths (by decide)
@[simp] theorem State.announce_fused (s : State) (c : Nat) (rs : List Record) : (s.announce c rs).1.fused = s.fused := announce_frame s c rs .fused (by decide)
@[simp] theorem State.announce_sq (s : State) (c : Nat) (rs : List Record) : (s.announce c rs).1.sq = s.sq := announce_frame s c rs .sq (by decide)
@[simp] theorem State.announce_time (s : State) (c : Nat) (rs : List Record) : (s.announce c rs).1.time = s.time := announce_frame s c rs .time (by decide)
@[simp] theorem State.announce_hl (s : State) (c : Nat) (rs : List Record) : (s.announce c rs).1.hl = s.hl := announce_frame s c rs .hl (by decide)
@[simp] theorem State.announce_pw (s : State) (c : Nat) (rs : List Record) : (s.announce c rs).1.pw = s.pw := announce_frame s c rs .pw (by decide)
@[simp] theorem State.announce_recd (s : State) (c : Nat) (rs : List Record) : (s.announce c rs).1.recd = s.recd := announce_frame s c rs .recd (by decide)
@[simp] theorem State.announce_host (s : State) (c : Nat) (rs : List Record) : (s.announce c rs).1.host = s.host := announce_frame s c rs .host (by decide)
@[simp] theorem State.announce_fns (s : State) (c : Nat) (rs : List Record) : (s.announce c rs).1.fns = s.fns := announce_frame s c rs .fns (by decide)
@[simp] theorem State.announce_txns (s : State) (c : Nat) (rs : List Record) : (s.announce c rs).1.txns = s.txns := announce_frame s c rs .txns (by decide)
@[simp] theorem State.announce_regions (s : State) (c : Nat) (rs : List Record) : (s.announce c rs).1.regions = s.regions := announce_frame s c rs .regions (by decide)
@[simp] theorem State.announce_roles (s : State) (c : Nat) (rs : List Record) : (s.announce c rs).1.roles = s.roles := announce_frame s c rs .roles (by decide)
@[simp] theorem State.announce_routes (s : State) (c : Nat) (rs : List Record) : (s.announce c rs).1.routes = s.routes := announce_frame s c rs .routes (by decide)
@[simp] theorem State.announce_slices (s : State) (c : Nat) (rs : List Record) : (s.announce c rs).1.slices = s.slices := announce_frame s c rs .slices (by decide)
@[simp] theorem State.announce_tiles (s : State) (c : Nat) (rs : List Record) : (s.announce c rs).1.tiles = s.tiles := announce_frame s c rs .tiles (by decide)
@[simp] theorem State.announce_plan (s : State) (c : Nat) (rs : List Record) : (s.announce c rs).1.plan = s.plan := announce_frame s c rs .plan (by decide)
@[simp] theorem State.announce_shadow (s : State) (c : Nat) (rs : List Record) : (s.announce c rs).1.shadow = s.shadow := announce_frame s c rs .shadow (by decide)
@[simp] theorem State.announce_ctxs (s : State) (c : Nat) (rs : List Record) : (s.announce c rs).1.ctxs = s.ctxs := announce_frame s c rs .ctxs (by decide)
@[simp] theorem State.announce_agents (s : State) (c : Nat) (rs : List Record) : (s.announce c rs).1.agents = s.agents := announce_frame s c rs .agents (by decide)
@[simp] theorem State.announce_bus (s : State) (c : Nat) (rs : List Record) : (s.announce c rs).1.bus = s.bus := announce_frame s c rs .bus (by decide)
@[simp] theorem State.announce_bu (s : State) (c : Nat) (rs : List Record) : (s.announce c rs).1.bu = s.bu := announce_frame s c rs .bu (by decide)
@[simp] theorem State.announce_ofd (s : State) (c : Nat) (rs : List Record) : (s.announce c rs).1.ofd = s.ofd := announce_frame s c rs .ofd (by decide)
@[simp] theorem State.announce_hbm (s : State) (c : Nat) (rs : List Record) : (s.announce c rs).1.hbm = s.hbm := announce_frame s c rs .hbm (by decide)
@[simp] theorem State.announce_esc (s : State) (c : Nat) (rs : List Record) : (s.announce c rs).1.esc = s.esc := announce_frame s c rs .esc (by decide)
@[simp] theorem State.announce_test (s : State) (c : Nat) (rs : List Record) : (s.announce c rs).1.test = s.test := announce_frame s c rs .test (by decide)
@[simp] theorem State.announce_thm (s : State) (c : Nat) (rs : List Record) : (s.announce c rs).1.thm = s.thm := announce_frame s c rs .thm (by decide)
@[simp] theorem State.announce_obs (s : State) (c : Nat) (rs : List Record) : (s.announce c rs).1.obs = s.obs := announce_frame s c rs .obs (by decide)
@[simp] theorem State.announce_ports (s : State) (c : Nat) (rs : List Record) : (s.announce c rs).1.ports = s.ports := announce_frame s c rs .ports (by decide)
@[simp] theorem State.announce_cmp (s : State) (c : Nat) (rs : List Record) : (s.announce c rs).1.cmp = s.cmp := announce_frame s c rs .cmp (by decide)
@[simp] theorem State.announce_nor (s : State) (c : Nat) (rs : List Record) : (s.announce c rs).1.nor = s.nor := announce_frame s c rs .nor (by decide)
@[simp] theorem State.announce_free (s : State) (c : Nat) (rs : List Record) : (s.announce c rs).1.free = s.free := announce_frame s c rs .free (by decide)
@[simp] theorem State.announce_pending (s : State) (c : Nat) (rs : List Record) : (s.announce c rs).1.pending = s.pending := announce_frame s c rs .pending (by decide)
/-! ### emitCore -/
@[simp] theorem State.emitCore_paths (s : State) (e : Event) (sq : Bool) : (s.emitCore e sq).1.paths = s.paths := emitCore_frame s e sq .paths (by decide)
@[simp] theorem State.emitCore_fused (s : State) (e : Event) (sq : Bool) : (s.emitCore e sq).1.fused = s.fused := emitCore_frame s e sq .fused (by decide)
@[simp] theorem State.emitCore_sq (s : State) (e : Event) (sq : Bool) : (s.emitCore e sq).1.sq = s.sq := emitCore_frame s e sq .sq (by decide)
@[simp] theorem State.emitCore_time (s : State) (e : Event) (sq : Bool) : (s.emitCore e sq).1.time = s.time := emitCore_frame s e sq .time (by decide)
@[simp] theorem State.emitCore_hl (s : State) (e : Event) (sq : Bool) : (s.emitCore e sq).1.hl = s.hl := emitCore_frame s e sq .hl (by decide)
@[simp] theorem State.emitCore_pw (s : State) (e : Event) (sq : Bool) : (s.emitCore e sq).1.pw = s.pw := emitCore_frame s e sq .pw (by decide)
@[simp] theorem State.emitCore_host (s : State) (e : Event) (sq : Bool) : (s.emitCore e sq).1.host = s.host := emitCore_frame s e sq .host (by decide)
@[simp] theorem State.emitCore_fns (s : State) (e : Event) (sq : Bool) : (s.emitCore e sq).1.fns = s.fns := emitCore_frame s e sq .fns (by decide)
@[simp] theorem State.emitCore_txns (s : State) (e : Event) (sq : Bool) : (s.emitCore e sq).1.txns = s.txns := emitCore_frame s e sq .txns (by decide)
@[simp] theorem State.emitCore_regions (s : State) (e : Event) (sq : Bool) : (s.emitCore e sq).1.regions = s.regions := emitCore_frame s e sq .regions (by decide)
@[simp] theorem State.emitCore_roles (s : State) (e : Event) (sq : Bool) : (s.emitCore e sq).1.roles = s.roles := emitCore_frame s e sq .roles (by decide)
@[simp] theorem State.emitCore_routes (s : State) (e : Event) (sq : Bool) : (s.emitCore e sq).1.routes = s.routes := emitCore_frame s e sq .routes (by decide)
@[simp] theorem State.emitCore_slices (s : State) (e : Event) (sq : Bool) : (s.emitCore e sq).1.slices = s.slices := emitCore_frame s e sq .slices (by decide)
@[simp] theorem State.emitCore_tiles (s : State) (e : Event) (sq : Bool) : (s.emitCore e sq).1.tiles = s.tiles := emitCore_frame s e sq .tiles (by decide)
@[simp] theorem State.emitCore_plan (s : State) (e : Event) (sq : Bool) : (s.emitCore e sq).1.plan = s.plan := emitCore_frame s e sq .plan (by decide)
@[simp] theorem State.emitCore_shadow (s : State) (e : Event) (sq : Bool) : (s.emitCore e sq).1.shadow = s.shadow := emitCore_frame s e sq .shadow (by decide)
@[simp] theorem State.emitCore_ctxs (s : State) (e : Event) (sq : Bool) : (s.emitCore e sq).1.ctxs = s.ctxs := emitCore_frame s e sq .ctxs (by decide)
@[simp] theorem State.emitCore_agents (s : State) (e : Event) (sq : Bool) : (s.emitCore e sq).1.agents = s.agents := emitCore_frame s e sq .agents (by decide)
@[simp] theorem State.emitCore_bus (s : State) (e : Event) (sq : Bool) : (s.emitCore e sq).1.bus = s.bus := emitCore_frame s e sq .bus (by decide)
@[simp] theorem State.emitCore_bu (s : State) (e : Event) (sq : Bool) : (s.emitCore e sq).1.bu = s.bu := emitCore_frame s e sq .bu (by decide)
@[simp] theorem State.emitCore_ofd (s : State) (e : Event) (sq : Bool) : (s.emitCore e sq).1.ofd = s.ofd := emitCore_frame s e sq .ofd (by decide)
@[simp] theorem State.emitCore_hbm (s : State) (e : Event) (sq : Bool) : (s.emitCore e sq).1.hbm = s.hbm := emitCore_frame s e sq .hbm (by decide)
@[simp] theorem State.emitCore_esc (s : State) (e : Event) (sq : Bool) : (s.emitCore e sq).1.esc = s.esc := emitCore_frame s e sq .esc (by decide)
@[simp] theorem State.emitCore_test (s : State) (e : Event) (sq : Bool) : (s.emitCore e sq).1.test = s.test := emitCore_frame s e sq .test (by decide)
@[simp] theorem State.emitCore_thm (s : State) (e : Event) (sq : Bool) : (s.emitCore e sq).1.thm = s.thm := emitCore_frame s e sq .thm (by decide)
@[simp] theorem State.emitCore_obs (s : State) (e : Event) (sq : Bool) : (s.emitCore e sq).1.obs = s.obs := emitCore_frame s e sq .obs (by decide)
@[simp] theorem State.emitCore_ports (s : State) (e : Event) (sq : Bool) : (s.emitCore e sq).1.ports = s.ports := emitCore_frame s e sq .ports (by decide)
@[simp] theorem State.emitCore_cmp (s : State) (e : Event) (sq : Bool) : (s.emitCore e sq).1.cmp = s.cmp := emitCore_frame s e sq .cmp (by decide)
@[simp] theorem State.emitCore_nor (s : State) (e : Event) (sq : Bool) : (s.emitCore e sq).1.nor = s.nor := emitCore_frame s e sq .nor (by decide)
@[simp] theorem State.emitCore_free (s : State) (e : Event) (sq : Bool) : (s.emitCore e sq).1.free = s.free := emitCore_frame s e sq .free (by decide)
@[simp] theorem State.emitCore_pending (s : State) (e : Event) (sq : Bool) : (s.emitCore e sq).1.pending = s.pending := emitCore_frame s e sq .pending (by decide)
/-! ### emitBase -/
@[simp] theorem State.emitBase_paths (s : State) (e : Event) (sq : Bool) : (s.emitBase e sq).paths = s.paths := emitBase_frame s e sq .paths (by decide)
@[simp] theorem State.emitBase_fused (s : State) (e : Event) (sq : Bool) : (s.emitBase e sq).fused = s.fused := emitBase_frame s e sq .fused (by decide)
@[simp] theorem State.emitBase_sq (s : State) (e : Event) (sq : Bool) : (s.emitBase e sq).sq = s.sq := emitBase_frame s e sq .sq (by decide)
@[simp] theorem State.emitBase_time (s : State) (e : Event) (sq : Bool) : (s.emitBase e sq).time = s.time := emitBase_frame s e sq .time (by decide)
@[simp] theorem State.emitBase_hl (s : State) (e : Event) (sq : Bool) : (s.emitBase e sq).hl = s.hl := emitBase_frame s e sq .hl (by decide)
@[simp] theorem State.emitBase_pw (s : State) (e : Event) (sq : Bool) : (s.emitBase e sq).pw = s.pw := emitBase_frame s e sq .pw (by decide)
@[simp] theorem State.emitBase_host (s : State) (e : Event) (sq : Bool) : (s.emitBase e sq).host = s.host := emitBase_frame s e sq .host (by decide)
@[simp] theorem State.emitBase_fns (s : State) (e : Event) (sq : Bool) : (s.emitBase e sq).fns = s.fns := emitBase_frame s e sq .fns (by decide)
@[simp] theorem State.emitBase_txns (s : State) (e : Event) (sq : Bool) : (s.emitBase e sq).txns = s.txns := emitBase_frame s e sq .txns (by decide)
@[simp] theorem State.emitBase_regions (s : State) (e : Event) (sq : Bool) : (s.emitBase e sq).regions = s.regions := emitBase_frame s e sq .regions (by decide)
@[simp] theorem State.emitBase_roles (s : State) (e : Event) (sq : Bool) : (s.emitBase e sq).roles = s.roles := emitBase_frame s e sq .roles (by decide)
@[simp] theorem State.emitBase_routes (s : State) (e : Event) (sq : Bool) : (s.emitBase e sq).routes = s.routes := emitBase_frame s e sq .routes (by decide)
@[simp] theorem State.emitBase_slices (s : State) (e : Event) (sq : Bool) : (s.emitBase e sq).slices = s.slices := emitBase_frame s e sq .slices (by decide)
@[simp] theorem State.emitBase_tiles (s : State) (e : Event) (sq : Bool) : (s.emitBase e sq).tiles = s.tiles := emitBase_frame s e sq .tiles (by decide)
@[simp] theorem State.emitBase_plan (s : State) (e : Event) (sq : Bool) : (s.emitBase e sq).plan = s.plan := emitBase_frame s e sq .plan (by decide)
@[simp] theorem State.emitBase_shadow (s : State) (e : Event) (sq : Bool) : (s.emitBase e sq).shadow = s.shadow := emitBase_frame s e sq .shadow (by decide)
@[simp] theorem State.emitBase_ctxs (s : State) (e : Event) (sq : Bool) : (s.emitBase e sq).ctxs = s.ctxs := emitBase_frame s e sq .ctxs (by decide)
@[simp] theorem State.emitBase_agents (s : State) (e : Event) (sq : Bool) : (s.emitBase e sq).agents = s.agents := emitBase_frame s e sq .agents (by decide)
@[simp] theorem State.emitBase_bus (s : State) (e : Event) (sq : Bool) : (s.emitBase e sq).bus = s.bus := emitBase_frame s e sq .bus (by decide)
@[simp] theorem State.emitBase_bu (s : State) (e : Event) (sq : Bool) : (s.emitBase e sq).bu = s.bu := emitBase_frame s e sq .bu (by decide)
@[simp] theorem State.emitBase_ofd (s : State) (e : Event) (sq : Bool) : (s.emitBase e sq).ofd = s.ofd := emitBase_frame s e sq .ofd (by decide)
@[simp] theorem State.emitBase_hbm (s : State) (e : Event) (sq : Bool) : (s.emitBase e sq).hbm = s.hbm := emitBase_frame s e sq .hbm (by decide)
@[simp] theorem State.emitBase_esc (s : State) (e : Event) (sq : Bool) : (s.emitBase e sq).esc = s.esc := emitBase_frame s e sq .esc (by decide)
@[simp] theorem State.emitBase_test (s : State) (e : Event) (sq : Bool) : (s.emitBase e sq).test = s.test := emitBase_frame s e sq .test (by decide)
@[simp] theorem State.emitBase_thm (s : State) (e : Event) (sq : Bool) : (s.emitBase e sq).thm = s.thm := emitBase_frame s e sq .thm (by decide)
@[simp] theorem State.emitBase_obs (s : State) (e : Event) (sq : Bool) : (s.emitBase e sq).obs = s.obs := emitBase_frame s e sq .obs (by decide)
@[simp] theorem State.emitBase_ports (s : State) (e : Event) (sq : Bool) : (s.emitBase e sq).ports = s.ports := emitBase_frame s e sq .ports (by decide)
@[simp] theorem State.emitBase_cmp (s : State) (e : Event) (sq : Bool) : (s.emitBase e sq).cmp = s.cmp := emitBase_frame s e sq .cmp (by decide)
@[simp] theorem State.emitBase_nor (s : State) (e : Event) (sq : Bool) : (s.emitBase e sq).nor = s.nor := emitBase_frame s e sq .nor (by decide)
@[simp] theorem State.emitBase_free (s : State) (e : Event) (sq : Bool) : (s.emitBase e sq).free = s.free := emitBase_frame s e sq .free (by decide)
@[simp] theorem State.emitBase_pending (s : State) (e : Event) (sq : Bool) : (s.emitBase e sq).pending = s.pending := emitBase_frame s e sq .pending (by decide)
/-! ### event -/
@[simp] theorem State.event_paths (s : State) (b : EvBody) : (s.event b).paths = s.paths := event_frame s b .paths (by decide)
@[simp] theorem State.event_fused (s : State) (b : EvBody) : (s.event b).fused = s.fused := event_frame s b .fused (by decide)
@[simp] theorem State.event_sq (s : State) (b : EvBody) : (s.event b).sq = s.sq := event_frame s b .sq (by decide)
@[simp] theorem State.event_time (s : State) (b : EvBody) : (s.event b).time = s.time := event_frame s b .time (by decide)
@[simp] theorem State.event_hl (s : State) (b : EvBody) : (s.event b).hl = s.hl := event_frame s b .hl (by decide)
@[simp] theorem State.event_pw (s : State) (b : EvBody) : (s.event b).pw = s.pw := event_frame s b .pw (by decide)
@[simp] theorem State.event_host (s : State) (b : EvBody) : (s.event b).host = s.host := event_frame s b .host (by decide)
@[simp] theorem State.event_fns (s : State) (b : EvBody) : (s.event b).fns = s.fns := event_frame s b .fns (by decide)
@[simp] theorem State.event_txns (s : State) (b : EvBody) : (s.event b).txns = s.txns := event_frame s b .txns (by decide)
@[simp] theorem State.event_regions (s : State) (b : EvBody) : (s.event b).regions = s.regions := event_frame s b .regions (by decide)
@[simp] theorem State.event_roles (s : State) (b : EvBody) : (s.event b).roles = s.roles := event_frame s b .roles (by decide)
@[simp] theorem State.event_routes (s : State) (b : EvBody) : (s.event b).routes = s.routes := event_frame s b .routes (by decide)
@[simp] theorem State.event_slices (s : State) (b : EvBody) : (s.event b).slices = s.slices := event_frame s b .slices (by decide)
@[simp] theorem State.event_tiles (s : State) (b : EvBody) : (s.event b).tiles = s.tiles := event_frame s b .tiles (by decide)
@[simp] theorem State.event_plan (s : State) (b : EvBody) : (s.event b).plan = s.plan := event_frame s b .plan (by decide)
@[simp] theorem State.event_shadow (s : State) (b : EvBody) : (s.event b).shadow = s.shadow := event_frame s b .shadow (by decide)
@[simp] theorem State.event_ctxs (s : State) (b : EvBody) : (s.event b).ctxs = s.ctxs := event_frame s b .ctxs (by decide)
@[simp] theorem State.event_agents (s : State) (b : EvBody) : (s.event b).agents = s.agents := event_frame s b .agents (by decide)
@[simp] theorem State.event_bus (s : State) (b : EvBody) : (s.event b).bus = s.bus := event_frame s b .bus (by decide)
@[simp] theorem State.event_bu (s : State) (b : EvBody) : (s.event b).bu = s.bu := event_frame s b .bu (by decide)
@[simp] theorem State.event_ofd (s : State) (b : EvBody) : (s.event b).ofd = s.ofd := event_frame s b .ofd (by decide)
@[simp] theorem State.event_hbm (s : State) (b : EvBody) : (s.event b).hbm = s.hbm := event_frame s b .hbm (by decide)
@[simp] theorem State.event_esc (s : State) (b : EvBody) : (s.event b).esc = s.esc := event_frame s b .esc (by decide)
@[simp] theorem State.event_test (s : State) (b : EvBody) : (s.event b).test = s.test := event_frame s b .test (by decide)
@[simp] theorem State.event_thm (s : State) (b : EvBody) : (s.event b).thm = s.thm := event_frame s b .thm (by decide)
@[simp] theorem State.event_obs (s : State) (b : EvBody) : (s.event b).obs = s.obs := event_frame s b .obs (by decide)
@[simp] theorem State.event_ports (s : State) (b : EvBody) : (s.event b).ports = s.ports := event_frame s b .ports (by decide)
@[simp] theorem State.event_cmp (s : State) (b : EvBody) : (s.event b).cmp = s.cmp := event_frame s b .cmp (by decide)
@[simp] theorem State.event_nor (s : State) (b : EvBody) : (s.event b).nor = s.nor := event_frame s b .nor (by decide)
@[simp] theorem State.event_free (s : State) (b : EvBody) : (s.event b).free = s.free := event_frame s b .free (by decide)
@[simp] theorem State.event_pending (s : State) (b : EvBody) : (s.event b).pending = s.pending := event_frame s b .pending (by decide)
/-! ### traceLost -/
@[simp] theorem State.traceLost_paths (s : State) (p w n : Nat) : (s.traceLost p w n).paths = s.paths := traceLost_frame s p w n .paths (by decide)
@[simp] theorem State.traceLost_fused (s : State) (p w n : Nat) : (s.traceLost p w n).fused = s.fused := traceLost_frame s p w n .fused (by decide)
@[simp] theorem State.traceLost_sq (s : State) (p w n : Nat) : (s.traceLost p w n).sq = s.sq := traceLost_frame s p w n .sq (by decide)
@[simp] theorem State.traceLost_time (s : State) (p w n : Nat) : (s.traceLost p w n).time = s.time := traceLost_frame s p w n .time (by decide)
@[simp] theorem State.traceLost_hl (s : State) (p w n : Nat) : (s.traceLost p w n).hl = s.hl := traceLost_frame s p w n .hl (by decide)
@[simp] theorem State.traceLost_pw (s : State) (p w n : Nat) : (s.traceLost p w n).pw = s.pw := traceLost_frame s p w n .pw (by decide)
@[simp] theorem State.traceLost_host (s : State) (p w n : Nat) : (s.traceLost p w n).host = s.host := traceLost_frame s p w n .host (by decide)
@[simp] theorem State.traceLost_fns (s : State) (p w n : Nat) : (s.traceLost p w n).fns = s.fns := traceLost_frame s p w n .fns (by decide)
@[simp] theorem State.traceLost_txns (s : State) (p w n : Nat) : (s.traceLost p w n).txns = s.txns := traceLost_frame s p w n .txns (by decide)
@[simp] theorem State.traceLost_regions (s : State) (p w n : Nat) : (s.traceLost p w n).regions = s.regions := traceLost_frame s p w n .regions (by decide)
@[simp] theorem State.traceLost_roles (s : State) (p w n : Nat) : (s.traceLost p w n).roles = s.roles := traceLost_frame s p w n .roles (by decide)
@[simp] theorem State.traceLost_routes (s : State) (p w n : Nat) : (s.traceLost p w n).routes = s.routes := traceLost_frame s p w n .routes (by decide)
@[simp] theorem State.traceLost_slices (s : State) (p w n : Nat) : (s.traceLost p w n).slices = s.slices := traceLost_frame s p w n .slices (by decide)
@[simp] theorem State.traceLost_tiles (s : State) (p w n : Nat) : (s.traceLost p w n).tiles = s.tiles := traceLost_frame s p w n .tiles (by decide)
@[simp] theorem State.traceLost_plan (s : State) (p w n : Nat) : (s.traceLost p w n).plan = s.plan := traceLost_frame s p w n .plan (by decide)
@[simp] theorem State.traceLost_shadow (s : State) (p w n : Nat) : (s.traceLost p w n).shadow = s.shadow := traceLost_frame s p w n .shadow (by decide)
@[simp] theorem State.traceLost_ctxs (s : State) (p w n : Nat) : (s.traceLost p w n).ctxs = s.ctxs := traceLost_frame s p w n .ctxs (by decide)
@[simp] theorem State.traceLost_agents (s : State) (p w n : Nat) : (s.traceLost p w n).agents = s.agents := traceLost_frame s p w n .agents (by decide)
@[simp] theorem State.traceLost_bus (s : State) (p w n : Nat) : (s.traceLost p w n).bus = s.bus := traceLost_frame s p w n .bus (by decide)
@[simp] theorem State.traceLost_bu (s : State) (p w n : Nat) : (s.traceLost p w n).bu = s.bu := traceLost_frame s p w n .bu (by decide)
@[simp] theorem State.traceLost_ofd (s : State) (p w n : Nat) : (s.traceLost p w n).ofd = s.ofd := traceLost_frame s p w n .ofd (by decide)
@[simp] theorem State.traceLost_hbm (s : State) (p w n : Nat) : (s.traceLost p w n).hbm = s.hbm := traceLost_frame s p w n .hbm (by decide)
@[simp] theorem State.traceLost_esc (s : State) (p w n : Nat) : (s.traceLost p w n).esc = s.esc := traceLost_frame s p w n .esc (by decide)
@[simp] theorem State.traceLost_test (s : State) (p w n : Nat) : (s.traceLost p w n).test = s.test := traceLost_frame s p w n .test (by decide)
@[simp] theorem State.traceLost_thm (s : State) (p w n : Nat) : (s.traceLost p w n).thm = s.thm := traceLost_frame s p w n .thm (by decide)
@[simp] theorem State.traceLost_ports (s : State) (p w n : Nat) : (s.traceLost p w n).ports = s.ports := traceLost_frame s p w n .ports (by decide)
@[simp] theorem State.traceLost_cmp (s : State) (p w n : Nat) : (s.traceLost p w n).cmp = s.cmp := traceLost_frame s p w n .cmp (by decide)
@[simp] theorem State.traceLost_nor (s : State) (p w n : Nat) : (s.traceLost p w n).nor = s.nor := traceLost_frame s p w n .nor (by decide)
@[simp] theorem State.traceLost_free (s : State) (p w n : Nat) : (s.traceLost p w n).free = s.free := traceLost_frame s p w n .free (by decide)
@[simp] theorem State.traceLost_pending (s : State) (p w n : Nat) : (s.traceLost p w n).pending = s.pending := traceLost_frame s p w n .pending (by decide)
/-! ### traceDrain -/
@[simp] theorem State.traceDrain_regs (s : State) (p w : Nat) : (s.traceDrain p w).regs = s.regs := traceDrain_frame s p w .regs (by decide)
@[simp] theorem State.traceDrain_paths (s : State) (p w : Nat) : (s.traceDrain p w).paths = s.paths := traceDrain_frame s p w .paths (by decide)
@[simp] theorem State.traceDrain_fused (s : State) (p w : Nat) : (s.traceDrain p w).fused = s.fused := traceDrain_frame s p w .fused (by decide)
@[simp] theorem State.traceDrain_sq (s : State) (p w : Nat) : (s.traceDrain p w).sq = s.sq := traceDrain_frame s p w .sq (by decide)
@[simp] theorem State.traceDrain_time (s : State) (p w : Nat) : (s.traceDrain p w).time = s.time := traceDrain_frame s p w .time (by decide)
@[simp] theorem State.traceDrain_hl (s : State) (p w : Nat) : (s.traceDrain p w).hl = s.hl := traceDrain_frame s p w .hl (by decide)
@[simp] theorem State.traceDrain_pw (s : State) (p w : Nat) : (s.traceDrain p w).pw = s.pw := traceDrain_frame s p w .pw (by decide)
@[simp] theorem State.traceDrain_recd (s : State) (p w : Nat) : (s.traceDrain p w).recd = s.recd := traceDrain_frame s p w .recd (by decide)
@[simp] theorem State.traceDrain_msix (s : State) (p w : Nat) : (s.traceDrain p w).msix = s.msix := traceDrain_frame s p w .msix (by decide)
@[simp] theorem State.traceDrain_host (s : State) (p w : Nat) : (s.traceDrain p w).host = s.host := traceDrain_frame s p w .host (by decide)
@[simp] theorem State.traceDrain_fns (s : State) (p w : Nat) : (s.traceDrain p w).fns = s.fns := traceDrain_frame s p w .fns (by decide)
@[simp] theorem State.traceDrain_txns (s : State) (p w : Nat) : (s.traceDrain p w).txns = s.txns := traceDrain_frame s p w .txns (by decide)
@[simp] theorem State.traceDrain_regions (s : State) (p w : Nat) : (s.traceDrain p w).regions = s.regions := traceDrain_frame s p w .regions (by decide)
@[simp] theorem State.traceDrain_roles (s : State) (p w : Nat) : (s.traceDrain p w).roles = s.roles := traceDrain_frame s p w .roles (by decide)
@[simp] theorem State.traceDrain_routes (s : State) (p w : Nat) : (s.traceDrain p w).routes = s.routes := traceDrain_frame s p w .routes (by decide)
@[simp] theorem State.traceDrain_slices (s : State) (p w : Nat) : (s.traceDrain p w).slices = s.slices := traceDrain_frame s p w .slices (by decide)
@[simp] theorem State.traceDrain_subs (s : State) (p w : Nat) : (s.traceDrain p w).subs = s.subs := traceDrain_frame s p w .subs (by decide)
@[simp] theorem State.traceDrain_i3c (s : State) (p w : Nat) : (s.traceDrain p w).i3c = s.i3c := traceDrain_frame s p w .i3c (by decide)
@[simp] theorem State.traceDrain_tiles (s : State) (p w : Nat) : (s.traceDrain p w).tiles = s.tiles := traceDrain_frame s p w .tiles (by decide)
@[simp] theorem State.traceDrain_plan (s : State) (p w : Nat) : (s.traceDrain p w).plan = s.plan := traceDrain_frame s p w .plan (by decide)
@[simp] theorem State.traceDrain_shadow (s : State) (p w : Nat) : (s.traceDrain p w).shadow = s.shadow := traceDrain_frame s p w .shadow (by decide)
@[simp] theorem State.traceDrain_ctxs (s : State) (p w : Nat) : (s.traceDrain p w).ctxs = s.ctxs := traceDrain_frame s p w .ctxs (by decide)
@[simp] theorem State.traceDrain_agents (s : State) (p w : Nat) : (s.traceDrain p w).agents = s.agents := traceDrain_frame s p w .agents (by decide)
@[simp] theorem State.traceDrain_bus (s : State) (p w : Nat) : (s.traceDrain p w).bus = s.bus := traceDrain_frame s p w .bus (by decide)
@[simp] theorem State.traceDrain_bu (s : State) (p w : Nat) : (s.traceDrain p w).bu = s.bu := traceDrain_frame s p w .bu (by decide)
@[simp] theorem State.traceDrain_ofd (s : State) (p w : Nat) : (s.traceDrain p w).ofd = s.ofd := traceDrain_frame s p w .ofd (by decide)
@[simp] theorem State.traceDrain_hbm (s : State) (p w : Nat) : (s.traceDrain p w).hbm = s.hbm := traceDrain_frame s p w .hbm (by decide)
@[simp] theorem State.traceDrain_esc (s : State) (p w : Nat) : (s.traceDrain p w).esc = s.esc := traceDrain_frame s p w .esc (by decide)
@[simp] theorem State.traceDrain_test (s : State) (p w : Nat) : (s.traceDrain p w).test = s.test := traceDrain_frame s p w .test (by decide)
@[simp] theorem State.traceDrain_thm (s : State) (p w : Nat) : (s.traceDrain p w).thm = s.thm := traceDrain_frame s p w .thm (by decide)
@[simp] theorem State.traceDrain_ports (s : State) (p w : Nat) : (s.traceDrain p w).ports = s.ports := traceDrain_frame s p w .ports (by decide)
@[simp] theorem State.traceDrain_cmp (s : State) (p w : Nat) : (s.traceDrain p w).cmp = s.cmp := traceDrain_frame s p w .cmp (by decide)
@[simp] theorem State.traceDrain_nor (s : State) (p w : Nat) : (s.traceDrain p w).nor = s.nor := traceDrain_frame s p w .nor (by decide)
@[simp] theorem State.traceDrain_free (s : State) (p w : Nat) : (s.traceDrain p w).free = s.free := traceDrain_frame s p w .free (by decide)
@[simp] theorem State.traceDrain_pending (s : State) (p w : Nat) : (s.traceDrain p w).pending = s.pending := traceDrain_frame s p w .pending (by decide)
/-! ### traceRec -/
@[simp] theorem State.traceRec_paths (s : State) (p w : Nat) (r : List Word) : (s.traceRec p w r).paths = s.paths := traceRec_frame s p w r .paths (by decide)
@[simp] theorem State.traceRec_fused (s : State) (p w : Nat) (r : List Word) : (s.traceRec p w r).fused = s.fused := traceRec_frame s p w r .fused (by decide)
@[simp] theorem State.traceRec_sq (s : State) (p w : Nat) (r : List Word) : (s.traceRec p w r).sq = s.sq := traceRec_frame s p w r .sq (by decide)
@[simp] theorem State.traceRec_time (s : State) (p w : Nat) (r : List Word) : (s.traceRec p w r).time = s.time := traceRec_frame s p w r .time (by decide)
@[simp] theorem State.traceRec_hl (s : State) (p w : Nat) (r : List Word) : (s.traceRec p w r).hl = s.hl := traceRec_frame s p w r .hl (by decide)
@[simp] theorem State.traceRec_pw (s : State) (p w : Nat) (r : List Word) : (s.traceRec p w r).pw = s.pw := traceRec_frame s p w r .pw (by decide)
@[simp] theorem State.traceRec_host (s : State) (p w : Nat) (r : List Word) : (s.traceRec p w r).host = s.host := traceRec_frame s p w r .host (by decide)
@[simp] theorem State.traceRec_fns (s : State) (p w : Nat) (r : List Word) : (s.traceRec p w r).fns = s.fns := traceRec_frame s p w r .fns (by decide)
@[simp] theorem State.traceRec_txns (s : State) (p w : Nat) (r : List Word) : (s.traceRec p w r).txns = s.txns := traceRec_frame s p w r .txns (by decide)
@[simp] theorem State.traceRec_regions (s : State) (p w : Nat) (r : List Word) : (s.traceRec p w r).regions = s.regions := traceRec_frame s p w r .regions (by decide)
@[simp] theorem State.traceRec_roles (s : State) (p w : Nat) (r : List Word) : (s.traceRec p w r).roles = s.roles := traceRec_frame s p w r .roles (by decide)
@[simp] theorem State.traceRec_routes (s : State) (p w : Nat) (r : List Word) : (s.traceRec p w r).routes = s.routes := traceRec_frame s p w r .routes (by decide)
@[simp] theorem State.traceRec_slices (s : State) (p w : Nat) (r : List Word) : (s.traceRec p w r).slices = s.slices := traceRec_frame s p w r .slices (by decide)
@[simp] theorem State.traceRec_tiles (s : State) (p w : Nat) (r : List Word) : (s.traceRec p w r).tiles = s.tiles := traceRec_frame s p w r .tiles (by decide)
@[simp] theorem State.traceRec_plan (s : State) (p w : Nat) (r : List Word) : (s.traceRec p w r).plan = s.plan := traceRec_frame s p w r .plan (by decide)
@[simp] theorem State.traceRec_shadow (s : State) (p w : Nat) (r : List Word) : (s.traceRec p w r).shadow = s.shadow := traceRec_frame s p w r .shadow (by decide)
@[simp] theorem State.traceRec_ctxs (s : State) (p w : Nat) (r : List Word) : (s.traceRec p w r).ctxs = s.ctxs := traceRec_frame s p w r .ctxs (by decide)
@[simp] theorem State.traceRec_agents (s : State) (p w : Nat) (r : List Word) : (s.traceRec p w r).agents = s.agents := traceRec_frame s p w r .agents (by decide)
@[simp] theorem State.traceRec_bus (s : State) (p w : Nat) (r : List Word) : (s.traceRec p w r).bus = s.bus := traceRec_frame s p w r .bus (by decide)
@[simp] theorem State.traceRec_bu (s : State) (p w : Nat) (r : List Word) : (s.traceRec p w r).bu = s.bu := traceRec_frame s p w r .bu (by decide)
@[simp] theorem State.traceRec_ofd (s : State) (p w : Nat) (r : List Word) : (s.traceRec p w r).ofd = s.ofd := traceRec_frame s p w r .ofd (by decide)
@[simp] theorem State.traceRec_hbm (s : State) (p w : Nat) (r : List Word) : (s.traceRec p w r).hbm = s.hbm := traceRec_frame s p w r .hbm (by decide)
@[simp] theorem State.traceRec_esc (s : State) (p w : Nat) (r : List Word) : (s.traceRec p w r).esc = s.esc := traceRec_frame s p w r .esc (by decide)
@[simp] theorem State.traceRec_test (s : State) (p w : Nat) (r : List Word) : (s.traceRec p w r).test = s.test := traceRec_frame s p w r .test (by decide)
@[simp] theorem State.traceRec_thm (s : State) (p w : Nat) (r : List Word) : (s.traceRec p w r).thm = s.thm := traceRec_frame s p w r .thm (by decide)
@[simp] theorem State.traceRec_ports (s : State) (p w : Nat) (r : List Word) : (s.traceRec p w r).ports = s.ports := traceRec_frame s p w r .ports (by decide)
@[simp] theorem State.traceRec_cmp (s : State) (p w : Nat) (r : List Word) : (s.traceRec p w r).cmp = s.cmp := traceRec_frame s p w r .cmp (by decide)
@[simp] theorem State.traceRec_nor (s : State) (p w : Nat) (r : List Word) : (s.traceRec p w r).nor = s.nor := traceRec_frame s p w r .nor (by decide)
@[simp] theorem State.traceRec_free (s : State) (p w : Nat) (r : List Word) : (s.traceRec p w r).free = s.free := traceRec_frame s p w r .free (by decide)
@[simp] theorem State.traceRec_pending (s : State) (p w : Nat) (r : List Word) : (s.traceRec p w r).pending = s.pending := traceRec_frame s p w r .pending (by decide)
/-! ### traceEvent -/
@[simp] theorem State.traceEvent_paths (s : State) (e : Event) (q : Word) : (s.traceEvent e q).paths = s.paths := traceEvent_frame s e q .paths (by decide)
@[simp] theorem State.traceEvent_fused (s : State) (e : Event) (q : Word) : (s.traceEvent e q).fused = s.fused := traceEvent_frame s e q .fused (by decide)
@[simp] theorem State.traceEvent_sq (s : State) (e : Event) (q : Word) : (s.traceEvent e q).sq = s.sq := traceEvent_frame s e q .sq (by decide)
@[simp] theorem State.traceEvent_time (s : State) (e : Event) (q : Word) : (s.traceEvent e q).time = s.time := traceEvent_frame s e q .time (by decide)
@[simp] theorem State.traceEvent_hl (s : State) (e : Event) (q : Word) : (s.traceEvent e q).hl = s.hl := traceEvent_frame s e q .hl (by decide)
@[simp] theorem State.traceEvent_pw (s : State) (e : Event) (q : Word) : (s.traceEvent e q).pw = s.pw := traceEvent_frame s e q .pw (by decide)
@[simp] theorem State.traceEvent_host (s : State) (e : Event) (q : Word) : (s.traceEvent e q).host = s.host := traceEvent_frame s e q .host (by decide)
@[simp] theorem State.traceEvent_fns (s : State) (e : Event) (q : Word) : (s.traceEvent e q).fns = s.fns := traceEvent_frame s e q .fns (by decide)
@[simp] theorem State.traceEvent_txns (s : State) (e : Event) (q : Word) : (s.traceEvent e q).txns = s.txns := traceEvent_frame s e q .txns (by decide)
@[simp] theorem State.traceEvent_regions (s : State) (e : Event) (q : Word) : (s.traceEvent e q).regions = s.regions := traceEvent_frame s e q .regions (by decide)
@[simp] theorem State.traceEvent_roles (s : State) (e : Event) (q : Word) : (s.traceEvent e q).roles = s.roles := traceEvent_frame s e q .roles (by decide)
@[simp] theorem State.traceEvent_routes (s : State) (e : Event) (q : Word) : (s.traceEvent e q).routes = s.routes := traceEvent_frame s e q .routes (by decide)
@[simp] theorem State.traceEvent_slices (s : State) (e : Event) (q : Word) : (s.traceEvent e q).slices = s.slices := traceEvent_frame s e q .slices (by decide)
@[simp] theorem State.traceEvent_tiles (s : State) (e : Event) (q : Word) : (s.traceEvent e q).tiles = s.tiles := traceEvent_frame s e q .tiles (by decide)
@[simp] theorem State.traceEvent_plan (s : State) (e : Event) (q : Word) : (s.traceEvent e q).plan = s.plan := traceEvent_frame s e q .plan (by decide)
@[simp] theorem State.traceEvent_shadow (s : State) (e : Event) (q : Word) : (s.traceEvent e q).shadow = s.shadow := traceEvent_frame s e q .shadow (by decide)
@[simp] theorem State.traceEvent_ctxs (s : State) (e : Event) (q : Word) : (s.traceEvent e q).ctxs = s.ctxs := traceEvent_frame s e q .ctxs (by decide)
@[simp] theorem State.traceEvent_agents (s : State) (e : Event) (q : Word) : (s.traceEvent e q).agents = s.agents := traceEvent_frame s e q .agents (by decide)
@[simp] theorem State.traceEvent_bus (s : State) (e : Event) (q : Word) : (s.traceEvent e q).bus = s.bus := traceEvent_frame s e q .bus (by decide)
@[simp] theorem State.traceEvent_bu (s : State) (e : Event) (q : Word) : (s.traceEvent e q).bu = s.bu := traceEvent_frame s e q .bu (by decide)
@[simp] theorem State.traceEvent_ofd (s : State) (e : Event) (q : Word) : (s.traceEvent e q).ofd = s.ofd := traceEvent_frame s e q .ofd (by decide)
@[simp] theorem State.traceEvent_hbm (s : State) (e : Event) (q : Word) : (s.traceEvent e q).hbm = s.hbm := traceEvent_frame s e q .hbm (by decide)
@[simp] theorem State.traceEvent_esc (s : State) (e : Event) (q : Word) : (s.traceEvent e q).esc = s.esc := traceEvent_frame s e q .esc (by decide)
@[simp] theorem State.traceEvent_test (s : State) (e : Event) (q : Word) : (s.traceEvent e q).test = s.test := traceEvent_frame s e q .test (by decide)
@[simp] theorem State.traceEvent_thm (s : State) (e : Event) (q : Word) : (s.traceEvent e q).thm = s.thm := traceEvent_frame s e q .thm (by decide)
@[simp] theorem State.traceEvent_ports (s : State) (e : Event) (q : Word) : (s.traceEvent e q).ports = s.ports := traceEvent_frame s e q .ports (by decide)
@[simp] theorem State.traceEvent_cmp (s : State) (e : Event) (q : Word) : (s.traceEvent e q).cmp = s.cmp := traceEvent_frame s e q .cmp (by decide)
@[simp] theorem State.traceEvent_nor (s : State) (e : Event) (q : Word) : (s.traceEvent e q).nor = s.nor := traceEvent_frame s e q .nor (by decide)
@[simp] theorem State.traceEvent_free (s : State) (e : Event) (q : Word) : (s.traceEvent e q).free = s.free := traceEvent_frame s e q .free (by decide)
@[simp] theorem State.traceEvent_pending (s : State) (e : Event) (q : Word) : (s.traceEvent e q).pending = s.pending := traceEvent_frame s e q .pending (by decide)
/-! ### countError -/
@[simp] theorem State.countError_paths (s : State) (e : Event) : (s.countError e).paths = s.paths := countError_frame s e .paths (by decide)
@[simp] theorem State.countError_fused (s : State) (e : Event) : (s.countError e).fused = s.fused := countError_frame s e .fused (by decide)
@[simp] theorem State.countError_sq (s : State) (e : Event) : (s.countError e).sq = s.sq := countError_frame s e .sq (by decide)
@[simp] theorem State.countError_time (s : State) (e : Event) : (s.countError e).time = s.time := countError_frame s e .time (by decide)
@[simp] theorem State.countError_hl (s : State) (e : Event) : (s.countError e).hl = s.hl := countError_frame s e .hl (by decide)
@[simp] theorem State.countError_pw (s : State) (e : Event) : (s.countError e).pw = s.pw := countError_frame s e .pw (by decide)
@[simp] theorem State.countError_recd (s : State) (e : Event) : (s.countError e).recd = s.recd := countError_frame s e .recd (by decide)
@[simp] theorem State.countError_msix (s : State) (e : Event) : (s.countError e).msix = s.msix := countError_frame s e .msix (by decide)
@[simp] theorem State.countError_host (s : State) (e : Event) : (s.countError e).host = s.host := countError_frame s e .host (by decide)
@[simp] theorem State.countError_fns (s : State) (e : Event) : (s.countError e).fns = s.fns := countError_frame s e .fns (by decide)
@[simp] theorem State.countError_txns (s : State) (e : Event) : (s.countError e).txns = s.txns := countError_frame s e .txns (by decide)
@[simp] theorem State.countError_regions (s : State) (e : Event) : (s.countError e).regions = s.regions := countError_frame s e .regions (by decide)
@[simp] theorem State.countError_roles (s : State) (e : Event) : (s.countError e).roles = s.roles := countError_frame s e .roles (by decide)
@[simp] theorem State.countError_routes (s : State) (e : Event) : (s.countError e).routes = s.routes := countError_frame s e .routes (by decide)
@[simp] theorem State.countError_slices (s : State) (e : Event) : (s.countError e).slices = s.slices := countError_frame s e .slices (by decide)
@[simp] theorem State.countError_subs (s : State) (e : Event) : (s.countError e).subs = s.subs := countError_frame s e .subs (by decide)
@[simp] theorem State.countError_i3c (s : State) (e : Event) : (s.countError e).i3c = s.i3c := countError_frame s e .i3c (by decide)
@[simp] theorem State.countError_tiles (s : State) (e : Event) : (s.countError e).tiles = s.tiles := countError_frame s e .tiles (by decide)
@[simp] theorem State.countError_plan (s : State) (e : Event) : (s.countError e).plan = s.plan := countError_frame s e .plan (by decide)
@[simp] theorem State.countError_shadow (s : State) (e : Event) : (s.countError e).shadow = s.shadow := countError_frame s e .shadow (by decide)
@[simp] theorem State.countError_ctxs (s : State) (e : Event) : (s.countError e).ctxs = s.ctxs := countError_frame s e .ctxs (by decide)
@[simp] theorem State.countError_agents (s : State) (e : Event) : (s.countError e).agents = s.agents := countError_frame s e .agents (by decide)
@[simp] theorem State.countError_bus (s : State) (e : Event) : (s.countError e).bus = s.bus := countError_frame s e .bus (by decide)
@[simp] theorem State.countError_bu (s : State) (e : Event) : (s.countError e).bu = s.bu := countError_frame s e .bu (by decide)
@[simp] theorem State.countError_ofd (s : State) (e : Event) : (s.countError e).ofd = s.ofd := countError_frame s e .ofd (by decide)
@[simp] theorem State.countError_hbm (s : State) (e : Event) : (s.countError e).hbm = s.hbm := countError_frame s e .hbm (by decide)
@[simp] theorem State.countError_esc (s : State) (e : Event) : (s.countError e).esc = s.esc := countError_frame s e .esc (by decide)
@[simp] theorem State.countError_test (s : State) (e : Event) : (s.countError e).test = s.test := countError_frame s e .test (by decide)
@[simp] theorem State.countError_thm (s : State) (e : Event) : (s.countError e).thm = s.thm := countError_frame s e .thm (by decide)
@[simp] theorem State.countError_obs (s : State) (e : Event) : (s.countError e).obs = s.obs := countError_frame s e .obs (by decide)
@[simp] theorem State.countError_ports (s : State) (e : Event) : (s.countError e).ports = s.ports := countError_frame s e .ports (by decide)
@[simp] theorem State.countError_cmp (s : State) (e : Event) : (s.countError e).cmp = s.cmp := countError_frame s e .cmp (by decide)
@[simp] theorem State.countError_nor (s : State) (e : Event) : (s.countError e).nor = s.nor := countError_frame s e .nor (by decide)
@[simp] theorem State.countError_free (s : State) (e : Event) : (s.countError e).free = s.free := countError_frame s e .free (by decide)
@[simp] theorem State.countError_out (s : State) (e : Event) : (s.countError e).out = s.out := countError_frame s e .out (by decide)
@[simp] theorem State.countError_pending (s : State) (e : Event) : (s.countError e).pending = s.pending := countError_frame s e .pending (by decide)
/-! ### emit -/
@[simp] theorem State.emit_paths (s : State) (e : Event) : (s.emit e).paths = s.paths := emit_frame s e .paths (by decide)
@[simp] theorem State.emit_fused (s : State) (e : Event) : (s.emit e).fused = s.fused := emit_frame s e .fused (by decide)
@[simp] theorem State.emit_sq (s : State) (e : Event) : (s.emit e).sq = s.sq := emit_frame s e .sq (by decide)
@[simp] theorem State.emit_time (s : State) (e : Event) : (s.emit e).time = s.time := emit_frame s e .time (by decide)
@[simp] theorem State.emit_hl (s : State) (e : Event) : (s.emit e).hl = s.hl := emit_frame s e .hl (by decide)
@[simp] theorem State.emit_pw (s : State) (e : Event) : (s.emit e).pw = s.pw := emit_frame s e .pw (by decide)
@[simp] theorem State.emit_host (s : State) (e : Event) : (s.emit e).host = s.host := emit_frame s e .host (by decide)
@[simp] theorem State.emit_fns (s : State) (e : Event) : (s.emit e).fns = s.fns := emit_frame s e .fns (by decide)
@[simp] theorem State.emit_txns (s : State) (e : Event) : (s.emit e).txns = s.txns := emit_frame s e .txns (by decide)
@[simp] theorem State.emit_regions (s : State) (e : Event) : (s.emit e).regions = s.regions := emit_frame s e .regions (by decide)
@[simp] theorem State.emit_roles (s : State) (e : Event) : (s.emit e).roles = s.roles := emit_frame s e .roles (by decide)
@[simp] theorem State.emit_routes (s : State) (e : Event) : (s.emit e).routes = s.routes := emit_frame s e .routes (by decide)
@[simp] theorem State.emit_slices (s : State) (e : Event) : (s.emit e).slices = s.slices := emit_frame s e .slices (by decide)
@[simp] theorem State.emit_tiles (s : State) (e : Event) : (s.emit e).tiles = s.tiles := emit_frame s e .tiles (by decide)
@[simp] theorem State.emit_plan (s : State) (e : Event) : (s.emit e).plan = s.plan := emit_frame s e .plan (by decide)
@[simp] theorem State.emit_shadow (s : State) (e : Event) : (s.emit e).shadow = s.shadow := emit_frame s e .shadow (by decide)
@[simp] theorem State.emit_ctxs (s : State) (e : Event) : (s.emit e).ctxs = s.ctxs := emit_frame s e .ctxs (by decide)
@[simp] theorem State.emit_agents (s : State) (e : Event) : (s.emit e).agents = s.agents := emit_frame s e .agents (by decide)
@[simp] theorem State.emit_bus (s : State) (e : Event) : (s.emit e).bus = s.bus := emit_frame s e .bus (by decide)
@[simp] theorem State.emit_bu (s : State) (e : Event) : (s.emit e).bu = s.bu := emit_frame s e .bu (by decide)
@[simp] theorem State.emit_ofd (s : State) (e : Event) : (s.emit e).ofd = s.ofd := emit_frame s e .ofd (by decide)
@[simp] theorem State.emit_hbm (s : State) (e : Event) : (s.emit e).hbm = s.hbm := emit_frame s e .hbm (by decide)
@[simp] theorem State.emit_esc (s : State) (e : Event) : (s.emit e).esc = s.esc := emit_frame s e .esc (by decide)
@[simp] theorem State.emit_test (s : State) (e : Event) : (s.emit e).test = s.test := emit_frame s e .test (by decide)
@[simp] theorem State.emit_thm (s : State) (e : Event) : (s.emit e).thm = s.thm := emit_frame s e .thm (by decide)
@[simp] theorem State.emit_ports (s : State) (e : Event) : (s.emit e).ports = s.ports := emit_frame s e .ports (by decide)
@[simp] theorem State.emit_cmp (s : State) (e : Event) : (s.emit e).cmp = s.cmp := emit_frame s e .cmp (by decide)
@[simp] theorem State.emit_nor (s : State) (e : Event) : (s.emit e).nor = s.nor := emit_frame s e .nor (by decide)
@[simp] theorem State.emit_free (s : State) (e : Event) : (s.emit e).free = s.free := emit_frame s e .free (by decide)
@[simp] theorem State.emit_pending (s : State) (e : Event) : (s.emit e).pending = s.pending := emit_frame s e .pending (by decide)
/-! ### emitSq -/
@[simp] theorem State.emitSq_paths (s : State) (e : Event) : (s.emitSq e).paths = s.paths := emitSq_frame s e .paths (by decide)
@[simp] theorem State.emitSq_fused (s : State) (e : Event) : (s.emitSq e).fused = s.fused := emitSq_frame s e .fused (by decide)
@[simp] theorem State.emitSq_sq (s : State) (e : Event) : (s.emitSq e).sq = s.sq := emitSq_frame s e .sq (by decide)
@[simp] theorem State.emitSq_time (s : State) (e : Event) : (s.emitSq e).time = s.time := emitSq_frame s e .time (by decide)
@[simp] theorem State.emitSq_hl (s : State) (e : Event) : (s.emitSq e).hl = s.hl := emitSq_frame s e .hl (by decide)
@[simp] theorem State.emitSq_pw (s : State) (e : Event) : (s.emitSq e).pw = s.pw := emitSq_frame s e .pw (by decide)
@[simp] theorem State.emitSq_host (s : State) (e : Event) : (s.emitSq e).host = s.host := emitSq_frame s e .host (by decide)
@[simp] theorem State.emitSq_fns (s : State) (e : Event) : (s.emitSq e).fns = s.fns := emitSq_frame s e .fns (by decide)
@[simp] theorem State.emitSq_txns (s : State) (e : Event) : (s.emitSq e).txns = s.txns := emitSq_frame s e .txns (by decide)
@[simp] theorem State.emitSq_regions (s : State) (e : Event) : (s.emitSq e).regions = s.regions := emitSq_frame s e .regions (by decide)
@[simp] theorem State.emitSq_roles (s : State) (e : Event) : (s.emitSq e).roles = s.roles := emitSq_frame s e .roles (by decide)
@[simp] theorem State.emitSq_routes (s : State) (e : Event) : (s.emitSq e).routes = s.routes := emitSq_frame s e .routes (by decide)
@[simp] theorem State.emitSq_slices (s : State) (e : Event) : (s.emitSq e).slices = s.slices := emitSq_frame s e .slices (by decide)
@[simp] theorem State.emitSq_tiles (s : State) (e : Event) : (s.emitSq e).tiles = s.tiles := emitSq_frame s e .tiles (by decide)
@[simp] theorem State.emitSq_plan (s : State) (e : Event) : (s.emitSq e).plan = s.plan := emitSq_frame s e .plan (by decide)
@[simp] theorem State.emitSq_shadow (s : State) (e : Event) : (s.emitSq e).shadow = s.shadow := emitSq_frame s e .shadow (by decide)
@[simp] theorem State.emitSq_ctxs (s : State) (e : Event) : (s.emitSq e).ctxs = s.ctxs := emitSq_frame s e .ctxs (by decide)
@[simp] theorem State.emitSq_agents (s : State) (e : Event) : (s.emitSq e).agents = s.agents := emitSq_frame s e .agents (by decide)
@[simp] theorem State.emitSq_bus (s : State) (e : Event) : (s.emitSq e).bus = s.bus := emitSq_frame s e .bus (by decide)
@[simp] theorem State.emitSq_bu (s : State) (e : Event) : (s.emitSq e).bu = s.bu := emitSq_frame s e .bu (by decide)
@[simp] theorem State.emitSq_ofd (s : State) (e : Event) : (s.emitSq e).ofd = s.ofd := emitSq_frame s e .ofd (by decide)
@[simp] theorem State.emitSq_hbm (s : State) (e : Event) : (s.emitSq e).hbm = s.hbm := emitSq_frame s e .hbm (by decide)
@[simp] theorem State.emitSq_esc (s : State) (e : Event) : (s.emitSq e).esc = s.esc := emitSq_frame s e .esc (by decide)
@[simp] theorem State.emitSq_test (s : State) (e : Event) : (s.emitSq e).test = s.test := emitSq_frame s e .test (by decide)
@[simp] theorem State.emitSq_thm (s : State) (e : Event) : (s.emitSq e).thm = s.thm := emitSq_frame s e .thm (by decide)
@[simp] theorem State.emitSq_ports (s : State) (e : Event) : (s.emitSq e).ports = s.ports := emitSq_frame s e .ports (by decide)
@[simp] theorem State.emitSq_cmp (s : State) (e : Event) : (s.emitSq e).cmp = s.cmp := emitSq_frame s e .cmp (by decide)
@[simp] theorem State.emitSq_nor (s : State) (e : Event) : (s.emitSq e).nor = s.nor := emitSq_frame s e .nor (by decide)
@[simp] theorem State.emitSq_free (s : State) (e : Event) : (s.emitSq e).free = s.free := emitSq_frame s e .free (by decide)
@[simp] theorem State.emitSq_pending (s : State) (e : Event) : (s.emitSq e).pending = s.pending := emitSq_frame s e .pending (by decide)
/-! ### releaseHold -/
@[simp] theorem State.releaseHold_paths (s : State) : s.releaseHold.paths = s.paths := releaseHold_frame s .paths (by decide)
@[simp] theorem State.releaseHold_fused (s : State) : s.releaseHold.fused = s.fused := releaseHold_frame s .fused (by decide)
@[simp] theorem State.releaseHold_sq (s : State) : s.releaseHold.sq = s.sq := releaseHold_frame s .sq (by decide)
@[simp] theorem State.releaseHold_time (s : State) : s.releaseHold.time = s.time := releaseHold_frame s .time (by decide)
@[simp] theorem State.releaseHold_hl (s : State) : s.releaseHold.hl = s.hl := releaseHold_frame s .hl (by decide)
@[simp] theorem State.releaseHold_pw (s : State) : s.releaseHold.pw = s.pw := releaseHold_frame s .pw (by decide)
@[simp] theorem State.releaseHold_msix (s : State) : s.releaseHold.msix = s.msix := releaseHold_frame s .msix (by decide)
@[simp] theorem State.releaseHold_host (s : State) : s.releaseHold.host = s.host := releaseHold_frame s .host (by decide)
@[simp] theorem State.releaseHold_fns (s : State) : s.releaseHold.fns = s.fns := releaseHold_frame s .fns (by decide)
@[simp] theorem State.releaseHold_txns (s : State) : s.releaseHold.txns = s.txns := releaseHold_frame s .txns (by decide)
@[simp] theorem State.releaseHold_regions (s : State) : s.releaseHold.regions = s.regions := releaseHold_frame s .regions (by decide)
@[simp] theorem State.releaseHold_roles (s : State) : s.releaseHold.roles = s.roles := releaseHold_frame s .roles (by decide)
@[simp] theorem State.releaseHold_routes (s : State) : s.releaseHold.routes = s.routes := releaseHold_frame s .routes (by decide)
@[simp] theorem State.releaseHold_slices (s : State) : s.releaseHold.slices = s.slices := releaseHold_frame s .slices (by decide)
@[simp] theorem State.releaseHold_subs (s : State) : s.releaseHold.subs = s.subs := releaseHold_frame s .subs (by decide)
@[simp] theorem State.releaseHold_i3c (s : State) : s.releaseHold.i3c = s.i3c := releaseHold_frame s .i3c (by decide)
@[simp] theorem State.releaseHold_tiles (s : State) : s.releaseHold.tiles = s.tiles := releaseHold_frame s .tiles (by decide)
@[simp] theorem State.releaseHold_plan (s : State) : s.releaseHold.plan = s.plan := releaseHold_frame s .plan (by decide)
@[simp] theorem State.releaseHold_shadow (s : State) : s.releaseHold.shadow = s.shadow := releaseHold_frame s .shadow (by decide)
@[simp] theorem State.releaseHold_ctxs (s : State) : s.releaseHold.ctxs = s.ctxs := releaseHold_frame s .ctxs (by decide)
@[simp] theorem State.releaseHold_agents (s : State) : s.releaseHold.agents = s.agents := releaseHold_frame s .agents (by decide)
@[simp] theorem State.releaseHold_bus (s : State) : s.releaseHold.bus = s.bus := releaseHold_frame s .bus (by decide)
@[simp] theorem State.releaseHold_bu (s : State) : s.releaseHold.bu = s.bu := releaseHold_frame s .bu (by decide)
@[simp] theorem State.releaseHold_ofd (s : State) : s.releaseHold.ofd = s.ofd := releaseHold_frame s .ofd (by decide)
@[simp] theorem State.releaseHold_hbm (s : State) : s.releaseHold.hbm = s.hbm := releaseHold_frame s .hbm (by decide)
@[simp] theorem State.releaseHold_esc (s : State) : s.releaseHold.esc = s.esc := releaseHold_frame s .esc (by decide)
@[simp] theorem State.releaseHold_test (s : State) : s.releaseHold.test = s.test := releaseHold_frame s .test (by decide)
@[simp] theorem State.releaseHold_thm (s : State) : s.releaseHold.thm = s.thm := releaseHold_frame s .thm (by decide)
@[simp] theorem State.releaseHold_obs (s : State) : s.releaseHold.obs = s.obs := releaseHold_frame s .obs (by decide)
@[simp] theorem State.releaseHold_ports (s : State) : s.releaseHold.ports = s.ports := releaseHold_frame s .ports (by decide)
@[simp] theorem State.releaseHold_cmp (s : State) : s.releaseHold.cmp = s.cmp := releaseHold_frame s .cmp (by decide)
@[simp] theorem State.releaseHold_nor (s : State) : s.releaseHold.nor = s.nor := releaseHold_frame s .nor (by decide)
@[simp] theorem State.releaseHold_free (s : State) : s.releaseHold.free = s.free := releaseHold_frame s .free (by decide)
@[simp] theorem State.releaseHold_out (s : State) : s.releaseHold.out = s.out := releaseHold_frame s .out (by decide)
@[simp] theorem State.releaseHold_pending (s : State) : s.releaseHold.pending = s.pending := releaseHold_frame s .pending (by decide)
/-! ### endFreeze -/
@[simp] theorem State.endFreeze_paths (s : State) : s.endFreeze.paths = s.paths := endFreeze_frame s .paths (by decide)
@[simp] theorem State.endFreeze_fused (s : State) : s.endFreeze.fused = s.fused := endFreeze_frame s .fused (by decide)
@[simp] theorem State.endFreeze_sq (s : State) : s.endFreeze.sq = s.sq := endFreeze_frame s .sq (by decide)
@[simp] theorem State.endFreeze_time (s : State) : s.endFreeze.time = s.time := endFreeze_frame s .time (by decide)
@[simp] theorem State.endFreeze_hl (s : State) : s.endFreeze.hl = s.hl := endFreeze_frame s .hl (by decide)
@[simp] theorem State.endFreeze_pw (s : State) : s.endFreeze.pw = s.pw := endFreeze_frame s .pw (by decide)
@[simp] theorem State.endFreeze_host (s : State) : s.endFreeze.host = s.host := endFreeze_frame s .host (by decide)
@[simp] theorem State.endFreeze_fns (s : State) : s.endFreeze.fns = s.fns := endFreeze_frame s .fns (by decide)
@[simp] theorem State.endFreeze_txns (s : State) : s.endFreeze.txns = s.txns := endFreeze_frame s .txns (by decide)
@[simp] theorem State.endFreeze_regions (s : State) : s.endFreeze.regions = s.regions := endFreeze_frame s .regions (by decide)
@[simp] theorem State.endFreeze_roles (s : State) : s.endFreeze.roles = s.roles := endFreeze_frame s .roles (by decide)
@[simp] theorem State.endFreeze_routes (s : State) : s.endFreeze.routes = s.routes := endFreeze_frame s .routes (by decide)
@[simp] theorem State.endFreeze_slices (s : State) : s.endFreeze.slices = s.slices := endFreeze_frame s .slices (by decide)
@[simp] theorem State.endFreeze_tiles (s : State) : s.endFreeze.tiles = s.tiles := endFreeze_frame s .tiles (by decide)
@[simp] theorem State.endFreeze_plan (s : State) : s.endFreeze.plan = s.plan := endFreeze_frame s .plan (by decide)
@[simp] theorem State.endFreeze_shadow (s : State) : s.endFreeze.shadow = s.shadow := endFreeze_frame s .shadow (by decide)
@[simp] theorem State.endFreeze_ctxs (s : State) : s.endFreeze.ctxs = s.ctxs := endFreeze_frame s .ctxs (by decide)
@[simp] theorem State.endFreeze_agents (s : State) : s.endFreeze.agents = s.agents := endFreeze_frame s .agents (by decide)
@[simp] theorem State.endFreeze_bus (s : State) : s.endFreeze.bus = s.bus := endFreeze_frame s .bus (by decide)
@[simp] theorem State.endFreeze_bu (s : State) : s.endFreeze.bu = s.bu := endFreeze_frame s .bu (by decide)
@[simp] theorem State.endFreeze_ofd (s : State) : s.endFreeze.ofd = s.ofd := endFreeze_frame s .ofd (by decide)
@[simp] theorem State.endFreeze_hbm (s : State) : s.endFreeze.hbm = s.hbm := endFreeze_frame s .hbm (by decide)
@[simp] theorem State.endFreeze_esc (s : State) : s.endFreeze.esc = s.esc := endFreeze_frame s .esc (by decide)
@[simp] theorem State.endFreeze_test (s : State) : s.endFreeze.test = s.test := endFreeze_frame s .test (by decide)
@[simp] theorem State.endFreeze_thm (s : State) : s.endFreeze.thm = s.thm := endFreeze_frame s .thm (by decide)
@[simp] theorem State.endFreeze_ports (s : State) : s.endFreeze.ports = s.ports := endFreeze_frame s .ports (by decide)
@[simp] theorem State.endFreeze_cmp (s : State) : s.endFreeze.cmp = s.cmp := endFreeze_frame s .cmp (by decide)
@[simp] theorem State.endFreeze_nor (s : State) : s.endFreeze.nor = s.nor := endFreeze_frame s .nor (by decide)
@[simp] theorem State.endFreeze_free (s : State) : s.endFreeze.free = s.free := endFreeze_frame s .free (by decide)
@[simp] theorem State.endFreeze_pending (s : State) : s.endFreeze.pending = s.pending := endFreeze_frame s .pending (by decide)
/-! ### jobFailed -/
@[simp] theorem State.jobFailed_paths (s : State) (c : CtxIx) (cause : Nat) (code : Word) (scope : Nat) (coords : Word) : (s.jobFailed c cause code scope coords).paths = s.paths := jobFailed_frame s c cause code scope coords .paths (by decide)
@[simp] theorem State.jobFailed_fused (s : State) (c : CtxIx) (cause : Nat) (code : Word) (scope : Nat) (coords : Word) : (s.jobFailed c cause code scope coords).fused = s.fused := jobFailed_frame s c cause code scope coords .fused (by decide)
@[simp] theorem State.jobFailed_sq (s : State) (c : CtxIx) (cause : Nat) (code : Word) (scope : Nat) (coords : Word) : (s.jobFailed c cause code scope coords).sq = s.sq := jobFailed_frame s c cause code scope coords .sq (by decide)
@[simp] theorem State.jobFailed_time (s : State) (c : CtxIx) (cause : Nat) (code : Word) (scope : Nat) (coords : Word) : (s.jobFailed c cause code scope coords).time = s.time := jobFailed_frame s c cause code scope coords .time (by decide)
@[simp] theorem State.jobFailed_hl (s : State) (c : CtxIx) (cause : Nat) (code : Word) (scope : Nat) (coords : Word) : (s.jobFailed c cause code scope coords).hl = s.hl := jobFailed_frame s c cause code scope coords .hl (by decide)
@[simp] theorem State.jobFailed_pw (s : State) (c : CtxIx) (cause : Nat) (code : Word) (scope : Nat) (coords : Word) : (s.jobFailed c cause code scope coords).pw = s.pw := jobFailed_frame s c cause code scope coords .pw (by decide)
@[simp] theorem State.jobFailed_host (s : State) (c : CtxIx) (cause : Nat) (code : Word) (scope : Nat) (coords : Word) : (s.jobFailed c cause code scope coords).host = s.host := jobFailed_frame s c cause code scope coords .host (by decide)
@[simp] theorem State.jobFailed_fns (s : State) (c : CtxIx) (cause : Nat) (code : Word) (scope : Nat) (coords : Word) : (s.jobFailed c cause code scope coords).fns = s.fns := jobFailed_frame s c cause code scope coords .fns (by decide)
@[simp] theorem State.jobFailed_txns (s : State) (c : CtxIx) (cause : Nat) (code : Word) (scope : Nat) (coords : Word) : (s.jobFailed c cause code scope coords).txns = s.txns := jobFailed_frame s c cause code scope coords .txns (by decide)
@[simp] theorem State.jobFailed_regions (s : State) (c : CtxIx) (cause : Nat) (code : Word) (scope : Nat) (coords : Word) : (s.jobFailed c cause code scope coords).regions = s.regions := jobFailed_frame s c cause code scope coords .regions (by decide)
@[simp] theorem State.jobFailed_roles (s : State) (c : CtxIx) (cause : Nat) (code : Word) (scope : Nat) (coords : Word) : (s.jobFailed c cause code scope coords).roles = s.roles := jobFailed_frame s c cause code scope coords .roles (by decide)
@[simp] theorem State.jobFailed_routes (s : State) (c : CtxIx) (cause : Nat) (code : Word) (scope : Nat) (coords : Word) : (s.jobFailed c cause code scope coords).routes = s.routes := jobFailed_frame s c cause code scope coords .routes (by decide)
@[simp] theorem State.jobFailed_slices (s : State) (c : CtxIx) (cause : Nat) (code : Word) (scope : Nat) (coords : Word) : (s.jobFailed c cause code scope coords).slices = s.slices := jobFailed_frame s c cause code scope coords .slices (by decide)
@[simp] theorem State.jobFailed_tiles (s : State) (c : CtxIx) (cause : Nat) (code : Word) (scope : Nat) (coords : Word) : (s.jobFailed c cause code scope coords).tiles = s.tiles := jobFailed_frame s c cause code scope coords .tiles (by decide)
@[simp] theorem State.jobFailed_plan (s : State) (c : CtxIx) (cause : Nat) (code : Word) (scope : Nat) (coords : Word) : (s.jobFailed c cause code scope coords).plan = s.plan := jobFailed_frame s c cause code scope coords .plan (by decide)
@[simp] theorem State.jobFailed_shadow (s : State) (c : CtxIx) (cause : Nat) (code : Word) (scope : Nat) (coords : Word) : (s.jobFailed c cause code scope coords).shadow = s.shadow := jobFailed_frame s c cause code scope coords .shadow (by decide)
@[simp] theorem State.jobFailed_ctxs (s : State) (c : CtxIx) (cause : Nat) (code : Word) (scope : Nat) (coords : Word) : (s.jobFailed c cause code scope coords).ctxs = s.ctxs := jobFailed_frame s c cause code scope coords .ctxs (by decide)
@[simp] theorem State.jobFailed_agents (s : State) (c : CtxIx) (cause : Nat) (code : Word) (scope : Nat) (coords : Word) : (s.jobFailed c cause code scope coords).agents = s.agents := jobFailed_frame s c cause code scope coords .agents (by decide)
@[simp] theorem State.jobFailed_bus (s : State) (c : CtxIx) (cause : Nat) (code : Word) (scope : Nat) (coords : Word) : (s.jobFailed c cause code scope coords).bus = s.bus := jobFailed_frame s c cause code scope coords .bus (by decide)
@[simp] theorem State.jobFailed_bu (s : State) (c : CtxIx) (cause : Nat) (code : Word) (scope : Nat) (coords : Word) : (s.jobFailed c cause code scope coords).bu = s.bu := jobFailed_frame s c cause code scope coords .bu (by decide)
@[simp] theorem State.jobFailed_ofd (s : State) (c : CtxIx) (cause : Nat) (code : Word) (scope : Nat) (coords : Word) : (s.jobFailed c cause code scope coords).ofd = s.ofd := jobFailed_frame s c cause code scope coords .ofd (by decide)
@[simp] theorem State.jobFailed_hbm (s : State) (c : CtxIx) (cause : Nat) (code : Word) (scope : Nat) (coords : Word) : (s.jobFailed c cause code scope coords).hbm = s.hbm := jobFailed_frame s c cause code scope coords .hbm (by decide)
@[simp] theorem State.jobFailed_esc (s : State) (c : CtxIx) (cause : Nat) (code : Word) (scope : Nat) (coords : Word) : (s.jobFailed c cause code scope coords).esc = s.esc := jobFailed_frame s c cause code scope coords .esc (by decide)
@[simp] theorem State.jobFailed_test (s : State) (c : CtxIx) (cause : Nat) (code : Word) (scope : Nat) (coords : Word) : (s.jobFailed c cause code scope coords).test = s.test := jobFailed_frame s c cause code scope coords .test (by decide)
@[simp] theorem State.jobFailed_thm (s : State) (c : CtxIx) (cause : Nat) (code : Word) (scope : Nat) (coords : Word) : (s.jobFailed c cause code scope coords).thm = s.thm := jobFailed_frame s c cause code scope coords .thm (by decide)
@[simp] theorem State.jobFailed_obs (s : State) (c : CtxIx) (cause : Nat) (code : Word) (scope : Nat) (coords : Word) : (s.jobFailed c cause code scope coords).obs = s.obs := jobFailed_frame s c cause code scope coords .obs (by decide)
@[simp] theorem State.jobFailed_ports (s : State) (c : CtxIx) (cause : Nat) (code : Word) (scope : Nat) (coords : Word) : (s.jobFailed c cause code scope coords).ports = s.ports := jobFailed_frame s c cause code scope coords .ports (by decide)
@[simp] theorem State.jobFailed_cmp (s : State) (c : CtxIx) (cause : Nat) (code : Word) (scope : Nat) (coords : Word) : (s.jobFailed c cause code scope coords).cmp = s.cmp := jobFailed_frame s c cause code scope coords .cmp (by decide)
@[simp] theorem State.jobFailed_nor (s : State) (c : CtxIx) (cause : Nat) (code : Word) (scope : Nat) (coords : Word) : (s.jobFailed c cause code scope coords).nor = s.nor := jobFailed_frame s c cause code scope coords .nor (by decide)
@[simp] theorem State.jobFailed_free (s : State) (c : CtxIx) (cause : Nat) (code : Word) (scope : Nat) (coords : Word) : (s.jobFailed c cause code scope coords).free = s.free := jobFailed_frame s c cause code scope coords .free (by decide)
@[simp] theorem State.jobFailed_pending (s : State) (c : CtxIx) (cause : Nat) (code : Word) (scope : Nat) (coords : Word) : (s.jobFailed c cause code scope coords).pending = s.pending := jobFailed_frame s c cause code scope coords .pending (by decide)
/-! ### failJobs -/
@[simp] theorem State.failJobs_paths (s : State) (cs : List CtxIx) (cause : Nat) (code : Word) (scope : Nat) (coords : Word) : (s.failJobs cs cause code scope coords).paths = s.paths := failJobs_frame s cs cause code scope coords .paths (by decide)
@[simp] theorem State.failJobs_fused (s : State) (cs : List CtxIx) (cause : Nat) (code : Word) (scope : Nat) (coords : Word) : (s.failJobs cs cause code scope coords).fused = s.fused := failJobs_frame s cs cause code scope coords .fused (by decide)
@[simp] theorem State.failJobs_sq (s : State) (cs : List CtxIx) (cause : Nat) (code : Word) (scope : Nat) (coords : Word) : (s.failJobs cs cause code scope coords).sq = s.sq := failJobs_frame s cs cause code scope coords .sq (by decide)
@[simp] theorem State.failJobs_time (s : State) (cs : List CtxIx) (cause : Nat) (code : Word) (scope : Nat) (coords : Word) : (s.failJobs cs cause code scope coords).time = s.time := failJobs_frame s cs cause code scope coords .time (by decide)
@[simp] theorem State.failJobs_hl (s : State) (cs : List CtxIx) (cause : Nat) (code : Word) (scope : Nat) (coords : Word) : (s.failJobs cs cause code scope coords).hl = s.hl := failJobs_frame s cs cause code scope coords .hl (by decide)
@[simp] theorem State.failJobs_pw (s : State) (cs : List CtxIx) (cause : Nat) (code : Word) (scope : Nat) (coords : Word) : (s.failJobs cs cause code scope coords).pw = s.pw := failJobs_frame s cs cause code scope coords .pw (by decide)
@[simp] theorem State.failJobs_host (s : State) (cs : List CtxIx) (cause : Nat) (code : Word) (scope : Nat) (coords : Word) : (s.failJobs cs cause code scope coords).host = s.host := failJobs_frame s cs cause code scope coords .host (by decide)
@[simp] theorem State.failJobs_fns (s : State) (cs : List CtxIx) (cause : Nat) (code : Word) (scope : Nat) (coords : Word) : (s.failJobs cs cause code scope coords).fns = s.fns := failJobs_frame s cs cause code scope coords .fns (by decide)
@[simp] theorem State.failJobs_txns (s : State) (cs : List CtxIx) (cause : Nat) (code : Word) (scope : Nat) (coords : Word) : (s.failJobs cs cause code scope coords).txns = s.txns := failJobs_frame s cs cause code scope coords .txns (by decide)
@[simp] theorem State.failJobs_regions (s : State) (cs : List CtxIx) (cause : Nat) (code : Word) (scope : Nat) (coords : Word) : (s.failJobs cs cause code scope coords).regions = s.regions := failJobs_frame s cs cause code scope coords .regions (by decide)
@[simp] theorem State.failJobs_roles (s : State) (cs : List CtxIx) (cause : Nat) (code : Word) (scope : Nat) (coords : Word) : (s.failJobs cs cause code scope coords).roles = s.roles := failJobs_frame s cs cause code scope coords .roles (by decide)
@[simp] theorem State.failJobs_routes (s : State) (cs : List CtxIx) (cause : Nat) (code : Word) (scope : Nat) (coords : Word) : (s.failJobs cs cause code scope coords).routes = s.routes := failJobs_frame s cs cause code scope coords .routes (by decide)
@[simp] theorem State.failJobs_slices (s : State) (cs : List CtxIx) (cause : Nat) (code : Word) (scope : Nat) (coords : Word) : (s.failJobs cs cause code scope coords).slices = s.slices := failJobs_frame s cs cause code scope coords .slices (by decide)
@[simp] theorem State.failJobs_tiles (s : State) (cs : List CtxIx) (cause : Nat) (code : Word) (scope : Nat) (coords : Word) : (s.failJobs cs cause code scope coords).tiles = s.tiles := failJobs_frame s cs cause code scope coords .tiles (by decide)
@[simp] theorem State.failJobs_plan (s : State) (cs : List CtxIx) (cause : Nat) (code : Word) (scope : Nat) (coords : Word) : (s.failJobs cs cause code scope coords).plan = s.plan := failJobs_frame s cs cause code scope coords .plan (by decide)
@[simp] theorem State.failJobs_shadow (s : State) (cs : List CtxIx) (cause : Nat) (code : Word) (scope : Nat) (coords : Word) : (s.failJobs cs cause code scope coords).shadow = s.shadow := failJobs_frame s cs cause code scope coords .shadow (by decide)
@[simp] theorem State.failJobs_ctxs (s : State) (cs : List CtxIx) (cause : Nat) (code : Word) (scope : Nat) (coords : Word) : (s.failJobs cs cause code scope coords).ctxs = s.ctxs := failJobs_frame s cs cause code scope coords .ctxs (by decide)
@[simp] theorem State.failJobs_agents (s : State) (cs : List CtxIx) (cause : Nat) (code : Word) (scope : Nat) (coords : Word) : (s.failJobs cs cause code scope coords).agents = s.agents := failJobs_frame s cs cause code scope coords .agents (by decide)
@[simp] theorem State.failJobs_bus (s : State) (cs : List CtxIx) (cause : Nat) (code : Word) (scope : Nat) (coords : Word) : (s.failJobs cs cause code scope coords).bus = s.bus := failJobs_frame s cs cause code scope coords .bus (by decide)
@[simp] theorem State.failJobs_bu (s : State) (cs : List CtxIx) (cause : Nat) (code : Word) (scope : Nat) (coords : Word) : (s.failJobs cs cause code scope coords).bu = s.bu := failJobs_frame s cs cause code scope coords .bu (by decide)
@[simp] theorem State.failJobs_ofd (s : State) (cs : List CtxIx) (cause : Nat) (code : Word) (scope : Nat) (coords : Word) : (s.failJobs cs cause code scope coords).ofd = s.ofd := failJobs_frame s cs cause code scope coords .ofd (by decide)
@[simp] theorem State.failJobs_hbm (s : State) (cs : List CtxIx) (cause : Nat) (code : Word) (scope : Nat) (coords : Word) : (s.failJobs cs cause code scope coords).hbm = s.hbm := failJobs_frame s cs cause code scope coords .hbm (by decide)
@[simp] theorem State.failJobs_esc (s : State) (cs : List CtxIx) (cause : Nat) (code : Word) (scope : Nat) (coords : Word) : (s.failJobs cs cause code scope coords).esc = s.esc := failJobs_frame s cs cause code scope coords .esc (by decide)
@[simp] theorem State.failJobs_test (s : State) (cs : List CtxIx) (cause : Nat) (code : Word) (scope : Nat) (coords : Word) : (s.failJobs cs cause code scope coords).test = s.test := failJobs_frame s cs cause code scope coords .test (by decide)
@[simp] theorem State.failJobs_thm (s : State) (cs : List CtxIx) (cause : Nat) (code : Word) (scope : Nat) (coords : Word) : (s.failJobs cs cause code scope coords).thm = s.thm := failJobs_frame s cs cause code scope coords .thm (by decide)
@[simp] theorem State.failJobs_obs (s : State) (cs : List CtxIx) (cause : Nat) (code : Word) (scope : Nat) (coords : Word) : (s.failJobs cs cause code scope coords).obs = s.obs := failJobs_frame s cs cause code scope coords .obs (by decide)
@[simp] theorem State.failJobs_ports (s : State) (cs : List CtxIx) (cause : Nat) (code : Word) (scope : Nat) (coords : Word) : (s.failJobs cs cause code scope coords).ports = s.ports := failJobs_frame s cs cause code scope coords .ports (by decide)
@[simp] theorem State.failJobs_cmp (s : State) (cs : List CtxIx) (cause : Nat) (code : Word) (scope : Nat) (coords : Word) : (s.failJobs cs cause code scope coords).cmp = s.cmp := failJobs_frame s cs cause code scope coords .cmp (by decide)
@[simp] theorem State.failJobs_nor (s : State) (cs : List CtxIx) (cause : Nat) (code : Word) (scope : Nat) (coords : Word) : (s.failJobs cs cause code scope coords).nor = s.nor := failJobs_frame s cs cause code scope coords .nor (by decide)
@[simp] theorem State.failJobs_free (s : State) (cs : List CtxIx) (cause : Nat) (code : Word) (scope : Nat) (coords : Word) : (s.failJobs cs cause code scope coords).free = s.free := failJobs_frame s cs cause code scope coords .free (by decide)
@[simp] theorem State.failJobs_pending (s : State) (cs : List CtxIx) (cause : Nat) (code : Word) (scope : Nat) (coords : Word) : (s.failJobs cs cause code scope coords).pending = s.pending := failJobs_frame s cs cause code scope coords .pending (by decide)
/-! ### setPkg -/
@[simp] theorem State.setPkg_paths (s : State) (p : PkgState) : (s.setPkg p).paths = s.paths := setPkg_frame s p .paths (by decide)
@[simp] theorem State.setPkg_fused (s : State) (p : PkgState) : (s.setPkg p).fused = s.fused := setPkg_frame s p .fused (by decide)
@[simp] theorem State.setPkg_sq (s : State) (p : PkgState) : (s.setPkg p).sq = s.sq := setPkg_frame s p .sq (by decide)
@[simp] theorem State.setPkg_time (s : State) (p : PkgState) : (s.setPkg p).time = s.time := setPkg_frame s p .time (by decide)
@[simp] theorem State.setPkg_hl (s : State) (p : PkgState) : (s.setPkg p).hl = s.hl := setPkg_frame s p .hl (by decide)
@[simp] theorem State.setPkg_pw (s : State) (p : PkgState) : (s.setPkg p).pw = s.pw := setPkg_frame s p .pw (by decide)
@[simp] theorem State.setPkg_host (s : State) (p : PkgState) : (s.setPkg p).host = s.host := setPkg_frame s p .host (by decide)
@[simp] theorem State.setPkg_fns (s : State) (p : PkgState) : (s.setPkg p).fns = s.fns := setPkg_frame s p .fns (by decide)
@[simp] theorem State.setPkg_txns (s : State) (p : PkgState) : (s.setPkg p).txns = s.txns := setPkg_frame s p .txns (by decide)
@[simp] theorem State.setPkg_regions (s : State) (p : PkgState) : (s.setPkg p).regions = s.regions := setPkg_frame s p .regions (by decide)
@[simp] theorem State.setPkg_roles (s : State) (p : PkgState) : (s.setPkg p).roles = s.roles := setPkg_frame s p .roles (by decide)
@[simp] theorem State.setPkg_routes (s : State) (p : PkgState) : (s.setPkg p).routes = s.routes := setPkg_frame s p .routes (by decide)
@[simp] theorem State.setPkg_slices (s : State) (p : PkgState) : (s.setPkg p).slices = s.slices := setPkg_frame s p .slices (by decide)
@[simp] theorem State.setPkg_tiles (s : State) (p : PkgState) : (s.setPkg p).tiles = s.tiles := setPkg_frame s p .tiles (by decide)
@[simp] theorem State.setPkg_plan (s : State) (p : PkgState) : (s.setPkg p).plan = s.plan := setPkg_frame s p .plan (by decide)
@[simp] theorem State.setPkg_shadow (s : State) (p : PkgState) : (s.setPkg p).shadow = s.shadow := setPkg_frame s p .shadow (by decide)
@[simp] theorem State.setPkg_ctxs (s : State) (p : PkgState) : (s.setPkg p).ctxs = s.ctxs := setPkg_frame s p .ctxs (by decide)
@[simp] theorem State.setPkg_agents (s : State) (p : PkgState) : (s.setPkg p).agents = s.agents := setPkg_frame s p .agents (by decide)
@[simp] theorem State.setPkg_bus (s : State) (p : PkgState) : (s.setPkg p).bus = s.bus := setPkg_frame s p .bus (by decide)
@[simp] theorem State.setPkg_ofd (s : State) (p : PkgState) : (s.setPkg p).ofd = s.ofd := setPkg_frame s p .ofd (by decide)
@[simp] theorem State.setPkg_hbm (s : State) (p : PkgState) : (s.setPkg p).hbm = s.hbm := setPkg_frame s p .hbm (by decide)
@[simp] theorem State.setPkg_esc (s : State) (p : PkgState) : (s.setPkg p).esc = s.esc := setPkg_frame s p .esc (by decide)
@[simp] theorem State.setPkg_test (s : State) (p : PkgState) : (s.setPkg p).test = s.test := setPkg_frame s p .test (by decide)
@[simp] theorem State.setPkg_thm (s : State) (p : PkgState) : (s.setPkg p).thm = s.thm := setPkg_frame s p .thm (by decide)
@[simp] theorem State.setPkg_obs (s : State) (p : PkgState) : (s.setPkg p).obs = s.obs := setPkg_frame s p .obs (by decide)
@[simp] theorem State.setPkg_ports (s : State) (p : PkgState) : (s.setPkg p).ports = s.ports := setPkg_frame s p .ports (by decide)
@[simp] theorem State.setPkg_cmp (s : State) (p : PkgState) : (s.setPkg p).cmp = s.cmp := setPkg_frame s p .cmp (by decide)
@[simp] theorem State.setPkg_nor (s : State) (p : PkgState) : (s.setPkg p).nor = s.nor := setPkg_frame s p .nor (by decide)
@[simp] theorem State.setPkg_free (s : State) (p : PkgState) : (s.setPkg p).free = s.free := setPkg_frame s p .free (by decide)
@[simp] theorem State.setPkg_pending (s : State) (p : PkgState) : (s.setPkg p).pending = s.pending := setPkg_frame s p .pending (by decide)
/-! ### denied -/
@[simp] theorem State.denied_paths (s : State) (w : World) : (s.denied w).paths = s.paths := denied_frame s w .paths (by decide)
@[simp] theorem State.denied_fused (s : State) (w : World) : (s.denied w).fused = s.fused := denied_frame s w .fused (by decide)
@[simp] theorem State.denied_sq (s : State) (w : World) : (s.denied w).sq = s.sq := denied_frame s w .sq (by decide)
@[simp] theorem State.denied_time (s : State) (w : World) : (s.denied w).time = s.time := denied_frame s w .time (by decide)
@[simp] theorem State.denied_hl (s : State) (w : World) : (s.denied w).hl = s.hl := denied_frame s w .hl (by decide)
@[simp] theorem State.denied_pw (s : State) (w : World) : (s.denied w).pw = s.pw := denied_frame s w .pw (by decide)
@[simp] theorem State.denied_fns (s : State) (w : World) : (s.denied w).fns = s.fns := denied_frame s w .fns (by decide)
@[simp] theorem State.denied_txns (s : State) (w : World) : (s.denied w).txns = s.txns := denied_frame s w .txns (by decide)
@[simp] theorem State.denied_regions (s : State) (w : World) : (s.denied w).regions = s.regions := denied_frame s w .regions (by decide)
@[simp] theorem State.denied_roles (s : State) (w : World) : (s.denied w).roles = s.roles := denied_frame s w .roles (by decide)
@[simp] theorem State.denied_routes (s : State) (w : World) : (s.denied w).routes = s.routes := denied_frame s w .routes (by decide)
@[simp] theorem State.denied_slices (s : State) (w : World) : (s.denied w).slices = s.slices := denied_frame s w .slices (by decide)
@[simp] theorem State.denied_tiles (s : State) (w : World) : (s.denied w).tiles = s.tiles := denied_frame s w .tiles (by decide)
@[simp] theorem State.denied_plan (s : State) (w : World) : (s.denied w).plan = s.plan := denied_frame s w .plan (by decide)
@[simp] theorem State.denied_shadow (s : State) (w : World) : (s.denied w).shadow = s.shadow := denied_frame s w .shadow (by decide)
@[simp] theorem State.denied_ctxs (s : State) (w : World) : (s.denied w).ctxs = s.ctxs := denied_frame s w .ctxs (by decide)
@[simp] theorem State.denied_agents (s : State) (w : World) : (s.denied w).agents = s.agents := denied_frame s w .agents (by decide)
@[simp] theorem State.denied_bus (s : State) (w : World) : (s.denied w).bus = s.bus := denied_frame s w .bus (by decide)
@[simp] theorem State.denied_bu (s : State) (w : World) : (s.denied w).bu = s.bu := denied_frame s w .bu (by decide)
@[simp] theorem State.denied_ofd (s : State) (w : World) : (s.denied w).ofd = s.ofd := denied_frame s w .ofd (by decide)
@[simp] theorem State.denied_hbm (s : State) (w : World) : (s.denied w).hbm = s.hbm := denied_frame s w .hbm (by decide)
@[simp] theorem State.denied_esc (s : State) (w : World) : (s.denied w).esc = s.esc := denied_frame s w .esc (by decide)
@[simp] theorem State.denied_test (s : State) (w : World) : (s.denied w).test = s.test := denied_frame s w .test (by decide)
@[simp] theorem State.denied_thm (s : State) (w : World) : (s.denied w).thm = s.thm := denied_frame s w .thm (by decide)
@[simp] theorem State.denied_ports (s : State) (w : World) : (s.denied w).ports = s.ports := denied_frame s w .ports (by decide)
@[simp] theorem State.denied_cmp (s : State) (w : World) : (s.denied w).cmp = s.cmp := denied_frame s w .cmp (by decide)
@[simp] theorem State.denied_nor (s : State) (w : World) : (s.denied w).nor = s.nor := denied_frame s w .nor (by decide)
@[simp] theorem State.denied_free (s : State) (w : World) : (s.denied w).free = s.free := denied_frame s w .free (by decide)
@[simp] theorem State.denied_pending (s : State) (w : World) : (s.denied w).pending = s.pending := denied_frame s w .pending (by decide)
/-! ### accessError -/
@[simp] theorem State.accessError_paths (s : State) (p : Path) (kind off : Nat) : (s.accessError p kind off).paths = s.paths := accessError_frame s p kind off .paths (by decide)
@[simp] theorem State.accessError_fused (s : State) (p : Path) (kind off : Nat) : (s.accessError p kind off).fused = s.fused := accessError_frame s p kind off .fused (by decide)
@[simp] theorem State.accessError_sq (s : State) (p : Path) (kind off : Nat) : (s.accessError p kind off).sq = s.sq := accessError_frame s p kind off .sq (by decide)
@[simp] theorem State.accessError_time (s : State) (p : Path) (kind off : Nat) : (s.accessError p kind off).time = s.time := accessError_frame s p kind off .time (by decide)
@[simp] theorem State.accessError_hl (s : State) (p : Path) (kind off : Nat) : (s.accessError p kind off).hl = s.hl := accessError_frame s p kind off .hl (by decide)
@[simp] theorem State.accessError_pw (s : State) (p : Path) (kind off : Nat) : (s.accessError p kind off).pw = s.pw := accessError_frame s p kind off .pw (by decide)
@[simp] theorem State.accessError_recd (s : State) (p : Path) (kind off : Nat) : (s.accessError p kind off).recd = s.recd := accessError_frame s p kind off .recd (by decide)
@[simp] theorem State.accessError_host (s : State) (p : Path) (kind off : Nat) : (s.accessError p kind off).host = s.host := accessError_frame s p kind off .host (by decide)
@[simp] theorem State.accessError_fns (s : State) (p : Path) (kind off : Nat) : (s.accessError p kind off).fns = s.fns := accessError_frame s p kind off .fns (by decide)
@[simp] theorem State.accessError_txns (s : State) (p : Path) (kind off : Nat) : (s.accessError p kind off).txns = s.txns := accessError_frame s p kind off .txns (by decide)
@[simp] theorem State.accessError_regions (s : State) (p : Path) (kind off : Nat) : (s.accessError p kind off).regions = s.regions := accessError_frame s p kind off .regions (by decide)
@[simp] theorem State.accessError_roles (s : State) (p : Path) (kind off : Nat) : (s.accessError p kind off).roles = s.roles := accessError_frame s p kind off .roles (by decide)
@[simp] theorem State.accessError_routes (s : State) (p : Path) (kind off : Nat) : (s.accessError p kind off).routes = s.routes := accessError_frame s p kind off .routes (by decide)
@[simp] theorem State.accessError_slices (s : State) (p : Path) (kind off : Nat) : (s.accessError p kind off).slices = s.slices := accessError_frame s p kind off .slices (by decide)
@[simp] theorem State.accessError_subs (s : State) (p : Path) (kind off : Nat) : (s.accessError p kind off).subs = s.subs := accessError_frame s p kind off .subs (by decide)
@[simp] theorem State.accessError_i3c (s : State) (p : Path) (kind off : Nat) : (s.accessError p kind off).i3c = s.i3c := accessError_frame s p kind off .i3c (by decide)
@[simp] theorem State.accessError_tiles (s : State) (p : Path) (kind off : Nat) : (s.accessError p kind off).tiles = s.tiles := accessError_frame s p kind off .tiles (by decide)
@[simp] theorem State.accessError_plan (s : State) (p : Path) (kind off : Nat) : (s.accessError p kind off).plan = s.plan := accessError_frame s p kind off .plan (by decide)
@[simp] theorem State.accessError_shadow (s : State) (p : Path) (kind off : Nat) : (s.accessError p kind off).shadow = s.shadow := accessError_frame s p kind off .shadow (by decide)
@[simp] theorem State.accessError_ctxs (s : State) (p : Path) (kind off : Nat) : (s.accessError p kind off).ctxs = s.ctxs := accessError_frame s p kind off .ctxs (by decide)
@[simp] theorem State.accessError_agents (s : State) (p : Path) (kind off : Nat) : (s.accessError p kind off).agents = s.agents := accessError_frame s p kind off .agents (by decide)
@[simp] theorem State.accessError_bus (s : State) (p : Path) (kind off : Nat) : (s.accessError p kind off).bus = s.bus := accessError_frame s p kind off .bus (by decide)
@[simp] theorem State.accessError_bu (s : State) (p : Path) (kind off : Nat) : (s.accessError p kind off).bu = s.bu := accessError_frame s p kind off .bu (by decide)
@[simp] theorem State.accessError_ofd (s : State) (p : Path) (kind off : Nat) : (s.accessError p kind off).ofd = s.ofd := accessError_frame s p kind off .ofd (by decide)
@[simp] theorem State.accessError_hbm (s : State) (p : Path) (kind off : Nat) : (s.accessError p kind off).hbm = s.hbm := accessError_frame s p kind off .hbm (by decide)
@[simp] theorem State.accessError_esc (s : State) (p : Path) (kind off : Nat) : (s.accessError p kind off).esc = s.esc := accessError_frame s p kind off .esc (by decide)
@[simp] theorem State.accessError_test (s : State) (p : Path) (kind off : Nat) : (s.accessError p kind off).test = s.test := accessError_frame s p kind off .test (by decide)
@[simp] theorem State.accessError_thm (s : State) (p : Path) (kind off : Nat) : (s.accessError p kind off).thm = s.thm := accessError_frame s p kind off .thm (by decide)
@[simp] theorem State.accessError_obs (s : State) (p : Path) (kind off : Nat) : (s.accessError p kind off).obs = s.obs := accessError_frame s p kind off .obs (by decide)
@[simp] theorem State.accessError_ports (s : State) (p : Path) (kind off : Nat) : (s.accessError p kind off).ports = s.ports := accessError_frame s p kind off .ports (by decide)
@[simp] theorem State.accessError_cmp (s : State) (p : Path) (kind off : Nat) : (s.accessError p kind off).cmp = s.cmp := accessError_frame s p kind off .cmp (by decide)
@[simp] theorem State.accessError_nor (s : State) (p : Path) (kind off : Nat) : (s.accessError p kind off).nor = s.nor := accessError_frame s p kind off .nor (by decide)
@[simp] theorem State.accessError_free (s : State) (p : Path) (kind off : Nat) : (s.accessError p kind off).free = s.free := accessError_frame s p kind off .free (by decide)
@[simp] theorem State.accessError_pending (s : State) (p : Path) (kind off : Nat) : (s.accessError p kind off).pending = s.pending := accessError_frame s p kind off .pending (by decide)
/-! ### cmpAnswer -/
@[simp] theorem State.cmpAnswer_regs (s : State) (m : CmpHdr) (x : Out) : (s.cmpAnswer m x).regs = s.regs := cmpAnswer_frame s m x .regs (by decide)
@[simp] theorem State.cmpAnswer_paths (s : State) (m : CmpHdr) (x : Out) : (s.cmpAnswer m x).paths = s.paths := cmpAnswer_frame s m x .paths (by decide)
@[simp] theorem State.cmpAnswer_fused (s : State) (m : CmpHdr) (x : Out) : (s.cmpAnswer m x).fused = s.fused := cmpAnswer_frame s m x .fused (by decide)
@[simp] theorem State.cmpAnswer_sq (s : State) (m : CmpHdr) (x : Out) : (s.cmpAnswer m x).sq = s.sq := cmpAnswer_frame s m x .sq (by decide)
@[simp] theorem State.cmpAnswer_time (s : State) (m : CmpHdr) (x : Out) : (s.cmpAnswer m x).time = s.time := cmpAnswer_frame s m x .time (by decide)
@[simp] theorem State.cmpAnswer_hl (s : State) (m : CmpHdr) (x : Out) : (s.cmpAnswer m x).hl = s.hl := cmpAnswer_frame s m x .hl (by decide)
@[simp] theorem State.cmpAnswer_pw (s : State) (m : CmpHdr) (x : Out) : (s.cmpAnswer m x).pw = s.pw := cmpAnswer_frame s m x .pw (by decide)
@[simp] theorem State.cmpAnswer_recd (s : State) (m : CmpHdr) (x : Out) : (s.cmpAnswer m x).recd = s.recd := cmpAnswer_frame s m x .recd (by decide)
@[simp] theorem State.cmpAnswer_msix (s : State) (m : CmpHdr) (x : Out) : (s.cmpAnswer m x).msix = s.msix := cmpAnswer_frame s m x .msix (by decide)
@[simp] theorem State.cmpAnswer_host (s : State) (m : CmpHdr) (x : Out) : (s.cmpAnswer m x).host = s.host := cmpAnswer_frame s m x .host (by decide)
@[simp] theorem State.cmpAnswer_fns (s : State) (m : CmpHdr) (x : Out) : (s.cmpAnswer m x).fns = s.fns := cmpAnswer_frame s m x .fns (by decide)
@[simp] theorem State.cmpAnswer_txns (s : State) (m : CmpHdr) (x : Out) : (s.cmpAnswer m x).txns = s.txns := cmpAnswer_frame s m x .txns (by decide)
@[simp] theorem State.cmpAnswer_regions (s : State) (m : CmpHdr) (x : Out) : (s.cmpAnswer m x).regions = s.regions := cmpAnswer_frame s m x .regions (by decide)
@[simp] theorem State.cmpAnswer_roles (s : State) (m : CmpHdr) (x : Out) : (s.cmpAnswer m x).roles = s.roles := cmpAnswer_frame s m x .roles (by decide)
@[simp] theorem State.cmpAnswer_routes (s : State) (m : CmpHdr) (x : Out) : (s.cmpAnswer m x).routes = s.routes := cmpAnswer_frame s m x .routes (by decide)
@[simp] theorem State.cmpAnswer_slices (s : State) (m : CmpHdr) (x : Out) : (s.cmpAnswer m x).slices = s.slices := cmpAnswer_frame s m x .slices (by decide)
@[simp] theorem State.cmpAnswer_subs (s : State) (m : CmpHdr) (x : Out) : (s.cmpAnswer m x).subs = s.subs := cmpAnswer_frame s m x .subs (by decide)
@[simp] theorem State.cmpAnswer_i3c (s : State) (m : CmpHdr) (x : Out) : (s.cmpAnswer m x).i3c = s.i3c := cmpAnswer_frame s m x .i3c (by decide)
@[simp] theorem State.cmpAnswer_tiles (s : State) (m : CmpHdr) (x : Out) : (s.cmpAnswer m x).tiles = s.tiles := cmpAnswer_frame s m x .tiles (by decide)
@[simp] theorem State.cmpAnswer_plan (s : State) (m : CmpHdr) (x : Out) : (s.cmpAnswer m x).plan = s.plan := cmpAnswer_frame s m x .plan (by decide)
@[simp] theorem State.cmpAnswer_shadow (s : State) (m : CmpHdr) (x : Out) : (s.cmpAnswer m x).shadow = s.shadow := cmpAnswer_frame s m x .shadow (by decide)
@[simp] theorem State.cmpAnswer_ctxs (s : State) (m : CmpHdr) (x : Out) : (s.cmpAnswer m x).ctxs = s.ctxs := cmpAnswer_frame s m x .ctxs (by decide)
@[simp] theorem State.cmpAnswer_agents (s : State) (m : CmpHdr) (x : Out) : (s.cmpAnswer m x).agents = s.agents := cmpAnswer_frame s m x .agents (by decide)
@[simp] theorem State.cmpAnswer_bus (s : State) (m : CmpHdr) (x : Out) : (s.cmpAnswer m x).bus = s.bus := cmpAnswer_frame s m x .bus (by decide)
@[simp] theorem State.cmpAnswer_bu (s : State) (m : CmpHdr) (x : Out) : (s.cmpAnswer m x).bu = s.bu := cmpAnswer_frame s m x .bu (by decide)
@[simp] theorem State.cmpAnswer_ofd (s : State) (m : CmpHdr) (x : Out) : (s.cmpAnswer m x).ofd = s.ofd := cmpAnswer_frame s m x .ofd (by decide)
@[simp] theorem State.cmpAnswer_hbm (s : State) (m : CmpHdr) (x : Out) : (s.cmpAnswer m x).hbm = s.hbm := cmpAnswer_frame s m x .hbm (by decide)
@[simp] theorem State.cmpAnswer_esc (s : State) (m : CmpHdr) (x : Out) : (s.cmpAnswer m x).esc = s.esc := cmpAnswer_frame s m x .esc (by decide)
@[simp] theorem State.cmpAnswer_test (s : State) (m : CmpHdr) (x : Out) : (s.cmpAnswer m x).test = s.test := cmpAnswer_frame s m x .test (by decide)
@[simp] theorem State.cmpAnswer_thm (s : State) (m : CmpHdr) (x : Out) : (s.cmpAnswer m x).thm = s.thm := cmpAnswer_frame s m x .thm (by decide)
@[simp] theorem State.cmpAnswer_obs (s : State) (m : CmpHdr) (x : Out) : (s.cmpAnswer m x).obs = s.obs := cmpAnswer_frame s m x .obs (by decide)
@[simp] theorem State.cmpAnswer_ports (s : State) (m : CmpHdr) (x : Out) : (s.cmpAnswer m x).ports = s.ports := cmpAnswer_frame s m x .ports (by decide)
@[simp] theorem State.cmpAnswer_nor (s : State) (m : CmpHdr) (x : Out) : (s.cmpAnswer m x).nor = s.nor := cmpAnswer_frame s m x .nor (by decide)
@[simp] theorem State.cmpAnswer_free (s : State) (m : CmpHdr) (x : Out) : (s.cmpAnswer m x).free = s.free := cmpAnswer_frame s m x .free (by decide)
@[simp] theorem State.cmpAnswer_pending (s : State) (m : CmpHdr) (x : Out) : (s.cmpAnswer m x).pending = s.pending := cmpAnswer_frame s m x .pending (by decide)
/-! ### answer -/
@[simp] theorem State.answer_paths (s : State) (p : Pend) (st : Status) (d : Word) (r : List Word) : (s.answer p st d r).paths = s.paths := answer_frame s p st d r .paths (by decide)
@[simp] theorem State.answer_fused (s : State) (p : Pend) (st : Status) (d : Word) (r : List Word) : (s.answer p st d r).fused = s.fused := answer_frame s p st d r .fused (by decide)
@[simp] theorem State.answer_sq (s : State) (p : Pend) (st : Status) (d : Word) (r : List Word) : (s.answer p st d r).sq = s.sq := answer_frame s p st d r .sq (by decide)
@[simp] theorem State.answer_time (s : State) (p : Pend) (st : Status) (d : Word) (r : List Word) : (s.answer p st d r).time = s.time := answer_frame s p st d r .time (by decide)
@[simp] theorem State.answer_hl (s : State) (p : Pend) (st : Status) (d : Word) (r : List Word) : (s.answer p st d r).hl = s.hl := answer_frame s p st d r .hl (by decide)
@[simp] theorem State.answer_pw (s : State) (p : Pend) (st : Status) (d : Word) (r : List Word) : (s.answer p st d r).pw = s.pw := answer_frame s p st d r .pw (by decide)
@[simp] theorem State.answer_recd (s : State) (p : Pend) (st : Status) (d : Word) (r : List Word) : (s.answer p st d r).recd = s.recd := answer_frame s p st d r .recd (by decide)
@[simp] theorem State.answer_host (s : State) (p : Pend) (st : Status) (d : Word) (r : List Word) : (s.answer p st d r).host = s.host := answer_frame s p st d r .host (by decide)
@[simp] theorem State.answer_fns (s : State) (p : Pend) (st : Status) (d : Word) (r : List Word) : (s.answer p st d r).fns = s.fns := answer_frame s p st d r .fns (by decide)
@[simp] theorem State.answer_txns (s : State) (p : Pend) (st : Status) (d : Word) (r : List Word) : (s.answer p st d r).txns = s.txns := answer_frame s p st d r .txns (by decide)
@[simp] theorem State.answer_regions (s : State) (p : Pend) (st : Status) (d : Word) (r : List Word) : (s.answer p st d r).regions = s.regions := answer_frame s p st d r .regions (by decide)
@[simp] theorem State.answer_roles (s : State) (p : Pend) (st : Status) (d : Word) (r : List Word) : (s.answer p st d r).roles = s.roles := answer_frame s p st d r .roles (by decide)
@[simp] theorem State.answer_routes (s : State) (p : Pend) (st : Status) (d : Word) (r : List Word) : (s.answer p st d r).routes = s.routes := answer_frame s p st d r .routes (by decide)
@[simp] theorem State.answer_slices (s : State) (p : Pend) (st : Status) (d : Word) (r : List Word) : (s.answer p st d r).slices = s.slices := answer_frame s p st d r .slices (by decide)
@[simp] theorem State.answer_subs (s : State) (p : Pend) (st : Status) (d : Word) (r : List Word) : (s.answer p st d r).subs = s.subs := answer_frame s p st d r .subs (by decide)
@[simp] theorem State.answer_i3c (s : State) (p : Pend) (st : Status) (d : Word) (r : List Word) : (s.answer p st d r).i3c = s.i3c := answer_frame s p st d r .i3c (by decide)
@[simp] theorem State.answer_tiles (s : State) (p : Pend) (st : Status) (d : Word) (r : List Word) : (s.answer p st d r).tiles = s.tiles := answer_frame s p st d r .tiles (by decide)
@[simp] theorem State.answer_plan (s : State) (p : Pend) (st : Status) (d : Word) (r : List Word) : (s.answer p st d r).plan = s.plan := answer_frame s p st d r .plan (by decide)
@[simp] theorem State.answer_shadow (s : State) (p : Pend) (st : Status) (d : Word) (r : List Word) : (s.answer p st d r).shadow = s.shadow := answer_frame s p st d r .shadow (by decide)
@[simp] theorem State.answer_ctxs (s : State) (p : Pend) (st : Status) (d : Word) (r : List Word) : (s.answer p st d r).ctxs = s.ctxs := answer_frame s p st d r .ctxs (by decide)
@[simp] theorem State.answer_agents (s : State) (p : Pend) (st : Status) (d : Word) (r : List Word) : (s.answer p st d r).agents = s.agents := answer_frame s p st d r .agents (by decide)
@[simp] theorem State.answer_bus (s : State) (p : Pend) (st : Status) (d : Word) (r : List Word) : (s.answer p st d r).bus = s.bus := answer_frame s p st d r .bus (by decide)
@[simp] theorem State.answer_bu (s : State) (p : Pend) (st : Status) (d : Word) (r : List Word) : (s.answer p st d r).bu = s.bu := answer_frame s p st d r .bu (by decide)
@[simp] theorem State.answer_ofd (s : State) (p : Pend) (st : Status) (d : Word) (r : List Word) : (s.answer p st d r).ofd = s.ofd := answer_frame s p st d r .ofd (by decide)
@[simp] theorem State.answer_hbm (s : State) (p : Pend) (st : Status) (d : Word) (r : List Word) : (s.answer p st d r).hbm = s.hbm := answer_frame s p st d r .hbm (by decide)
@[simp] theorem State.answer_esc (s : State) (p : Pend) (st : Status) (d : Word) (r : List Word) : (s.answer p st d r).esc = s.esc := answer_frame s p st d r .esc (by decide)
@[simp] theorem State.answer_test (s : State) (p : Pend) (st : Status) (d : Word) (r : List Word) : (s.answer p st d r).test = s.test := answer_frame s p st d r .test (by decide)
@[simp] theorem State.answer_thm (s : State) (p : Pend) (st : Status) (d : Word) (r : List Word) : (s.answer p st d r).thm = s.thm := answer_frame s p st d r .thm (by decide)
@[simp] theorem State.answer_obs (s : State) (p : Pend) (st : Status) (d : Word) (r : List Word) : (s.answer p st d r).obs = s.obs := answer_frame s p st d r .obs (by decide)
@[simp] theorem State.answer_ports (s : State) (p : Pend) (st : Status) (d : Word) (r : List Word) : (s.answer p st d r).ports = s.ports := answer_frame s p st d r .ports (by decide)
@[simp] theorem State.answer_nor (s : State) (p : Pend) (st : Status) (d : Word) (r : List Word) : (s.answer p st d r).nor = s.nor := answer_frame s p st d r .nor (by decide)
@[simp] theorem State.answer_free (s : State) (p : Pend) (st : Status) (d : Word) (r : List Word) : (s.answer p st d r).free = s.free := answer_frame s p st d r .free (by decide)
@[simp] theorem State.answer_pending (s : State) (p : Pend) (st : Status) (d : Word) (r : List Word) : (s.answer p st d r).pending = s.pending := answer_frame s p st d r .pending (by decide)
/-! ### finish -/
@[simp] theorem State.finish_paths (s : State) (p : Pend) (st : Status) (d : Word) (r : List Word) : (s.finish p st d r).paths = s.paths := finish_frame s p st d r .paths (by decide)
@[simp] theorem State.finish_fused (s : State) (p : Pend) (st : Status) (d : Word) (r : List Word) : (s.finish p st d r).fused = s.fused := finish_frame s p st d r .fused (by decide)
@[simp] theorem State.finish_sq (s : State) (p : Pend) (st : Status) (d : Word) (r : List Word) : (s.finish p st d r).sq = s.sq := finish_frame s p st d r .sq (by decide)
@[simp] theorem State.finish_time (s : State) (p : Pend) (st : Status) (d : Word) (r : List Word) : (s.finish p st d r).time = s.time := finish_frame s p st d r .time (by decide)
@[simp] theorem State.finish_hl (s : State) (p : Pend) (st : Status) (d : Word) (r : List Word) : (s.finish p st d r).hl = s.hl := finish_frame s p st d r .hl (by decide)
@[simp] theorem State.finish_pw (s : State) (p : Pend) (st : Status) (d : Word) (r : List Word) : (s.finish p st d r).pw = s.pw := finish_frame s p st d r .pw (by decide)
@[simp] theorem State.finish_recd (s : State) (p : Pend) (st : Status) (d : Word) (r : List Word) : (s.finish p st d r).recd = s.recd := finish_frame s p st d r .recd (by decide)
@[simp] theorem State.finish_fns (s : State) (p : Pend) (st : Status) (d : Word) (r : List Word) : (s.finish p st d r).fns = s.fns := finish_frame s p st d r .fns (by decide)
@[simp] theorem State.finish_txns (s : State) (p : Pend) (st : Status) (d : Word) (r : List Word) : (s.finish p st d r).txns = s.txns := finish_frame s p st d r .txns (by decide)
@[simp] theorem State.finish_regions (s : State) (p : Pend) (st : Status) (d : Word) (r : List Word) : (s.finish p st d r).regions = s.regions := finish_frame s p st d r .regions (by decide)
@[simp] theorem State.finish_roles (s : State) (p : Pend) (st : Status) (d : Word) (r : List Word) : (s.finish p st d r).roles = s.roles := finish_frame s p st d r .roles (by decide)
@[simp] theorem State.finish_routes (s : State) (p : Pend) (st : Status) (d : Word) (r : List Word) : (s.finish p st d r).routes = s.routes := finish_frame s p st d r .routes (by decide)
@[simp] theorem State.finish_slices (s : State) (p : Pend) (st : Status) (d : Word) (r : List Word) : (s.finish p st d r).slices = s.slices := finish_frame s p st d r .slices (by decide)
@[simp] theorem State.finish_subs (s : State) (p : Pend) (st : Status) (d : Word) (r : List Word) : (s.finish p st d r).subs = s.subs := finish_frame s p st d r .subs (by decide)
@[simp] theorem State.finish_i3c (s : State) (p : Pend) (st : Status) (d : Word) (r : List Word) : (s.finish p st d r).i3c = s.i3c := finish_frame s p st d r .i3c (by decide)
@[simp] theorem State.finish_tiles (s : State) (p : Pend) (st : Status) (d : Word) (r : List Word) : (s.finish p st d r).tiles = s.tiles := finish_frame s p st d r .tiles (by decide)
@[simp] theorem State.finish_plan (s : State) (p : Pend) (st : Status) (d : Word) (r : List Word) : (s.finish p st d r).plan = s.plan := finish_frame s p st d r .plan (by decide)
@[simp] theorem State.finish_shadow (s : State) (p : Pend) (st : Status) (d : Word) (r : List Word) : (s.finish p st d r).shadow = s.shadow := finish_frame s p st d r .shadow (by decide)
@[simp] theorem State.finish_ctxs (s : State) (p : Pend) (st : Status) (d : Word) (r : List Word) : (s.finish p st d r).ctxs = s.ctxs := finish_frame s p st d r .ctxs (by decide)
@[simp] theorem State.finish_agents (s : State) (p : Pend) (st : Status) (d : Word) (r : List Word) : (s.finish p st d r).agents = s.agents := finish_frame s p st d r .agents (by decide)
@[simp] theorem State.finish_bus (s : State) (p : Pend) (st : Status) (d : Word) (r : List Word) : (s.finish p st d r).bus = s.bus := finish_frame s p st d r .bus (by decide)
@[simp] theorem State.finish_bu (s : State) (p : Pend) (st : Status) (d : Word) (r : List Word) : (s.finish p st d r).bu = s.bu := finish_frame s p st d r .bu (by decide)
@[simp] theorem State.finish_ofd (s : State) (p : Pend) (st : Status) (d : Word) (r : List Word) : (s.finish p st d r).ofd = s.ofd := finish_frame s p st d r .ofd (by decide)
@[simp] theorem State.finish_hbm (s : State) (p : Pend) (st : Status) (d : Word) (r : List Word) : (s.finish p st d r).hbm = s.hbm := finish_frame s p st d r .hbm (by decide)
@[simp] theorem State.finish_esc (s : State) (p : Pend) (st : Status) (d : Word) (r : List Word) : (s.finish p st d r).esc = s.esc := finish_frame s p st d r .esc (by decide)
@[simp] theorem State.finish_test (s : State) (p : Pend) (st : Status) (d : Word) (r : List Word) : (s.finish p st d r).test = s.test := finish_frame s p st d r .test (by decide)
@[simp] theorem State.finish_thm (s : State) (p : Pend) (st : Status) (d : Word) (r : List Word) : (s.finish p st d r).thm = s.thm := finish_frame s p st d r .thm (by decide)
@[simp] theorem State.finish_obs (s : State) (p : Pend) (st : Status) (d : Word) (r : List Word) : (s.finish p st d r).obs = s.obs := finish_frame s p st d r .obs (by decide)
@[simp] theorem State.finish_ports (s : State) (p : Pend) (st : Status) (d : Word) (r : List Word) : (s.finish p st d r).ports = s.ports := finish_frame s p st d r .ports (by decide)
@[simp] theorem State.finish_nor (s : State) (p : Pend) (st : Status) (d : Word) (r : List Word) : (s.finish p st d r).nor = s.nor := finish_frame s p st d r .nor (by decide)
@[simp] theorem State.finish_free (s : State) (p : Pend) (st : Status) (d : Word) (r : List Word) : (s.finish p st d r).free = s.free := finish_frame s p st d r .free (by decide)
@[simp] theorem State.finish_pending (s : State) (p : Pend) (st : Status) (d : Word) (r : List Word) : (s.finish p st d r).pending = s.pending := finish_frame s p st d r .pending (by decide)
/-! ### waitAnswer -/
@[simp] theorem State.waitAnswer_regs (s : State) (p : Pend) : (s.waitAnswer p).regs = s.regs := waitAnswer_frame s p .regs (by decide)
@[simp] theorem State.waitAnswer_paths (s : State) (p : Pend) : (s.waitAnswer p).paths = s.paths := waitAnswer_frame s p .paths (by decide)
@[simp] theorem State.waitAnswer_fused (s : State) (p : Pend) : (s.waitAnswer p).fused = s.fused := waitAnswer_frame s p .fused (by decide)
@[simp] theorem State.waitAnswer_sq (s : State) (p : Pend) : (s.waitAnswer p).sq = s.sq := waitAnswer_frame s p .sq (by decide)
@[simp] theorem State.waitAnswer_time (s : State) (p : Pend) : (s.waitAnswer p).time = s.time := waitAnswer_frame s p .time (by decide)
@[simp] theorem State.waitAnswer_hl (s : State) (p : Pend) : (s.waitAnswer p).hl = s.hl := waitAnswer_frame s p .hl (by decide)
@[simp] theorem State.waitAnswer_pw (s : State) (p : Pend) : (s.waitAnswer p).pw = s.pw := waitAnswer_frame s p .pw (by decide)
@[simp] theorem State.waitAnswer_recd (s : State) (p : Pend) : (s.waitAnswer p).recd = s.recd := waitAnswer_frame s p .recd (by decide)
@[simp] theorem State.waitAnswer_msix (s : State) (p : Pend) : (s.waitAnswer p).msix = s.msix := waitAnswer_frame s p .msix (by decide)
@[simp] theorem State.waitAnswer_fns (s : State) (p : Pend) : (s.waitAnswer p).fns = s.fns := waitAnswer_frame s p .fns (by decide)
@[simp] theorem State.waitAnswer_txns (s : State) (p : Pend) : (s.waitAnswer p).txns = s.txns := waitAnswer_frame s p .txns (by decide)
@[simp] theorem State.waitAnswer_regions (s : State) (p : Pend) : (s.waitAnswer p).regions = s.regions := waitAnswer_frame s p .regions (by decide)
@[simp] theorem State.waitAnswer_roles (s : State) (p : Pend) : (s.waitAnswer p).roles = s.roles := waitAnswer_frame s p .roles (by decide)
@[simp] theorem State.waitAnswer_routes (s : State) (p : Pend) : (s.waitAnswer p).routes = s.routes := waitAnswer_frame s p .routes (by decide)
@[simp] theorem State.waitAnswer_slices (s : State) (p : Pend) : (s.waitAnswer p).slices = s.slices := waitAnswer_frame s p .slices (by decide)
@[simp] theorem State.waitAnswer_subs (s : State) (p : Pend) : (s.waitAnswer p).subs = s.subs := waitAnswer_frame s p .subs (by decide)
@[simp] theorem State.waitAnswer_i3c (s : State) (p : Pend) : (s.waitAnswer p).i3c = s.i3c := waitAnswer_frame s p .i3c (by decide)
@[simp] theorem State.waitAnswer_tiles (s : State) (p : Pend) : (s.waitAnswer p).tiles = s.tiles := waitAnswer_frame s p .tiles (by decide)
@[simp] theorem State.waitAnswer_plan (s : State) (p : Pend) : (s.waitAnswer p).plan = s.plan := waitAnswer_frame s p .plan (by decide)
@[simp] theorem State.waitAnswer_shadow (s : State) (p : Pend) : (s.waitAnswer p).shadow = s.shadow := waitAnswer_frame s p .shadow (by decide)
@[simp] theorem State.waitAnswer_ctxs (s : State) (p : Pend) : (s.waitAnswer p).ctxs = s.ctxs := waitAnswer_frame s p .ctxs (by decide)
@[simp] theorem State.waitAnswer_agents (s : State) (p : Pend) : (s.waitAnswer p).agents = s.agents := waitAnswer_frame s p .agents (by decide)
@[simp] theorem State.waitAnswer_bus (s : State) (p : Pend) : (s.waitAnswer p).bus = s.bus := waitAnswer_frame s p .bus (by decide)
@[simp] theorem State.waitAnswer_bu (s : State) (p : Pend) : (s.waitAnswer p).bu = s.bu := waitAnswer_frame s p .bu (by decide)
@[simp] theorem State.waitAnswer_ofd (s : State) (p : Pend) : (s.waitAnswer p).ofd = s.ofd := waitAnswer_frame s p .ofd (by decide)
@[simp] theorem State.waitAnswer_hbm (s : State) (p : Pend) : (s.waitAnswer p).hbm = s.hbm := waitAnswer_frame s p .hbm (by decide)
@[simp] theorem State.waitAnswer_esc (s : State) (p : Pend) : (s.waitAnswer p).esc = s.esc := waitAnswer_frame s p .esc (by decide)
@[simp] theorem State.waitAnswer_test (s : State) (p : Pend) : (s.waitAnswer p).test = s.test := waitAnswer_frame s p .test (by decide)
@[simp] theorem State.waitAnswer_thm (s : State) (p : Pend) : (s.waitAnswer p).thm = s.thm := waitAnswer_frame s p .thm (by decide)
@[simp] theorem State.waitAnswer_obs (s : State) (p : Pend) : (s.waitAnswer p).obs = s.obs := waitAnswer_frame s p .obs (by decide)
@[simp] theorem State.waitAnswer_ports (s : State) (p : Pend) : (s.waitAnswer p).ports = s.ports := waitAnswer_frame s p .ports (by decide)
@[simp] theorem State.waitAnswer_cmp (s : State) (p : Pend) : (s.waitAnswer p).cmp = s.cmp := waitAnswer_frame s p .cmp (by decide)
@[simp] theorem State.waitAnswer_nor (s : State) (p : Pend) : (s.waitAnswer p).nor = s.nor := waitAnswer_frame s p .nor (by decide)
@[simp] theorem State.waitAnswer_free (s : State) (p : Pend) : (s.waitAnswer p).free = s.free := waitAnswer_frame s p .free (by decide)
@[simp] theorem State.waitAnswer_out (s : State) (p : Pend) : (s.waitAnswer p).out = s.out := waitAnswer_frame s p .out (by decide)
@[simp] theorem State.waitAnswer_pending (s : State) (p : Pend) : (s.waitAnswer p).pending = s.pending := waitAnswer_frame s p .pending (by decide)
/-! ### ringNotice -/
@[simp] theorem State.ringNotice_paths (s : State) (n : Notice) : (s.ringNotice n).paths = s.paths := ringNotice_frame s n .paths (by decide)
@[simp] theorem State.ringNotice_fused (s : State) (n : Notice) : (s.ringNotice n).fused = s.fused := ringNotice_frame s n .fused (by decide)
@[simp] theorem State.ringNotice_sq (s : State) (n : Notice) : (s.ringNotice n).sq = s.sq := ringNotice_frame s n .sq (by decide)
@[simp] theorem State.ringNotice_time (s : State) (n : Notice) : (s.ringNotice n).time = s.time := ringNotice_frame s n .time (by decide)
@[simp] theorem State.ringNotice_hl (s : State) (n : Notice) : (s.ringNotice n).hl = s.hl := ringNotice_frame s n .hl (by decide)
@[simp] theorem State.ringNotice_pw (s : State) (n : Notice) : (s.ringNotice n).pw = s.pw := ringNotice_frame s n .pw (by decide)
@[simp] theorem State.ringNotice_recd (s : State) (n : Notice) : (s.ringNotice n).recd = s.recd := ringNotice_frame s n .recd (by decide)
@[simp] theorem State.ringNotice_host (s : State) (n : Notice) : (s.ringNotice n).host = s.host := ringNotice_frame s n .host (by decide)
@[simp] theorem State.ringNotice_fns (s : State) (n : Notice) : (s.ringNotice n).fns = s.fns := ringNotice_frame s n .fns (by decide)
@[simp] theorem State.ringNotice_txns (s : State) (n : Notice) : (s.ringNotice n).txns = s.txns := ringNotice_frame s n .txns (by decide)
@[simp] theorem State.ringNotice_regions (s : State) (n : Notice) : (s.ringNotice n).regions = s.regions := ringNotice_frame s n .regions (by decide)
@[simp] theorem State.ringNotice_roles (s : State) (n : Notice) : (s.ringNotice n).roles = s.roles := ringNotice_frame s n .roles (by decide)
@[simp] theorem State.ringNotice_routes (s : State) (n : Notice) : (s.ringNotice n).routes = s.routes := ringNotice_frame s n .routes (by decide)
@[simp] theorem State.ringNotice_slices (s : State) (n : Notice) : (s.ringNotice n).slices = s.slices := ringNotice_frame s n .slices (by decide)
@[simp] theorem State.ringNotice_subs (s : State) (n : Notice) : (s.ringNotice n).subs = s.subs := ringNotice_frame s n .subs (by decide)
@[simp] theorem State.ringNotice_i3c (s : State) (n : Notice) : (s.ringNotice n).i3c = s.i3c := ringNotice_frame s n .i3c (by decide)
@[simp] theorem State.ringNotice_tiles (s : State) (n : Notice) : (s.ringNotice n).tiles = s.tiles := ringNotice_frame s n .tiles (by decide)
@[simp] theorem State.ringNotice_plan (s : State) (n : Notice) : (s.ringNotice n).plan = s.plan := ringNotice_frame s n .plan (by decide)
@[simp] theorem State.ringNotice_shadow (s : State) (n : Notice) : (s.ringNotice n).shadow = s.shadow := ringNotice_frame s n .shadow (by decide)
@[simp] theorem State.ringNotice_ctxs (s : State) (n : Notice) : (s.ringNotice n).ctxs = s.ctxs := ringNotice_frame s n .ctxs (by decide)
@[simp] theorem State.ringNotice_agents (s : State) (n : Notice) : (s.ringNotice n).agents = s.agents := ringNotice_frame s n .agents (by decide)
@[simp] theorem State.ringNotice_bus (s : State) (n : Notice) : (s.ringNotice n).bus = s.bus := ringNotice_frame s n .bus (by decide)
@[simp] theorem State.ringNotice_bu (s : State) (n : Notice) : (s.ringNotice n).bu = s.bu := ringNotice_frame s n .bu (by decide)
@[simp] theorem State.ringNotice_ofd (s : State) (n : Notice) : (s.ringNotice n).ofd = s.ofd := ringNotice_frame s n .ofd (by decide)
@[simp] theorem State.ringNotice_hbm (s : State) (n : Notice) : (s.ringNotice n).hbm = s.hbm := ringNotice_frame s n .hbm (by decide)
@[simp] theorem State.ringNotice_esc (s : State) (n : Notice) : (s.ringNotice n).esc = s.esc := ringNotice_frame s n .esc (by decide)
@[simp] theorem State.ringNotice_test (s : State) (n : Notice) : (s.ringNotice n).test = s.test := ringNotice_frame s n .test (by decide)
@[simp] theorem State.ringNotice_thm (s : State) (n : Notice) : (s.ringNotice n).thm = s.thm := ringNotice_frame s n .thm (by decide)
@[simp] theorem State.ringNotice_obs (s : State) (n : Notice) : (s.ringNotice n).obs = s.obs := ringNotice_frame s n .obs (by decide)
@[simp] theorem State.ringNotice_ports (s : State) (n : Notice) : (s.ringNotice n).ports = s.ports := ringNotice_frame s n .ports (by decide)
@[simp] theorem State.ringNotice_cmp (s : State) (n : Notice) : (s.ringNotice n).cmp = s.cmp := ringNotice_frame s n .cmp (by decide)
@[simp] theorem State.ringNotice_nor (s : State) (n : Notice) : (s.ringNotice n).nor = s.nor := ringNotice_frame s n .nor (by decide)
@[simp] theorem State.ringNotice_free (s : State) (n : Notice) : (s.ringNotice n).free = s.free := ringNotice_frame s n .free (by decide)
@[simp] theorem State.ringNotice_pending (s : State) (n : Notice) : (s.ringNotice n).pending = s.pending := ringNotice_frame s n .pending (by decide)
/-! ### notify -/
@[simp] theorem State.notify_paths (s : State) (n : Notice) : (s.notify n).paths = s.paths := notify_frame s n .paths (by decide)
@[simp] theorem State.notify_fused (s : State) (n : Notice) : (s.notify n).fused = s.fused := notify_frame s n .fused (by decide)
@[simp] theorem State.notify_sq (s : State) (n : Notice) : (s.notify n).sq = s.sq := notify_frame s n .sq (by decide)
@[simp] theorem State.notify_time (s : State) (n : Notice) : (s.notify n).time = s.time := notify_frame s n .time (by decide)
@[simp] theorem State.notify_hl (s : State) (n : Notice) : (s.notify n).hl = s.hl := notify_frame s n .hl (by decide)
@[simp] theorem State.notify_pw (s : State) (n : Notice) : (s.notify n).pw = s.pw := notify_frame s n .pw (by decide)
@[simp] theorem State.notify_fns (s : State) (n : Notice) : (s.notify n).fns = s.fns := notify_frame s n .fns (by decide)
@[simp] theorem State.notify_txns (s : State) (n : Notice) : (s.notify n).txns = s.txns := notify_frame s n .txns (by decide)
@[simp] theorem State.notify_regions (s : State) (n : Notice) : (s.notify n).regions = s.regions := notify_frame s n .regions (by decide)
@[simp] theorem State.notify_roles (s : State) (n : Notice) : (s.notify n).roles = s.roles := notify_frame s n .roles (by decide)
@[simp] theorem State.notify_routes (s : State) (n : Notice) : (s.notify n).routes = s.routes := notify_frame s n .routes (by decide)
@[simp] theorem State.notify_slices (s : State) (n : Notice) : (s.notify n).slices = s.slices := notify_frame s n .slices (by decide)
@[simp] theorem State.notify_tiles (s : State) (n : Notice) : (s.notify n).tiles = s.tiles := notify_frame s n .tiles (by decide)
@[simp] theorem State.notify_plan (s : State) (n : Notice) : (s.notify n).plan = s.plan := notify_frame s n .plan (by decide)
@[simp] theorem State.notify_shadow (s : State) (n : Notice) : (s.notify n).shadow = s.shadow := notify_frame s n .shadow (by decide)
@[simp] theorem State.notify_ctxs (s : State) (n : Notice) : (s.notify n).ctxs = s.ctxs := notify_frame s n .ctxs (by decide)
@[simp] theorem State.notify_agents (s : State) (n : Notice) : (s.notify n).agents = s.agents := notify_frame s n .agents (by decide)
@[simp] theorem State.notify_bus (s : State) (n : Notice) : (s.notify n).bus = s.bus := notify_frame s n .bus (by decide)
@[simp] theorem State.notify_bu (s : State) (n : Notice) : (s.notify n).bu = s.bu := notify_frame s n .bu (by decide)
@[simp] theorem State.notify_ofd (s : State) (n : Notice) : (s.notify n).ofd = s.ofd := notify_frame s n .ofd (by decide)
@[simp] theorem State.notify_hbm (s : State) (n : Notice) : (s.notify n).hbm = s.hbm := notify_frame s n .hbm (by decide)
@[simp] theorem State.notify_esc (s : State) (n : Notice) : (s.notify n).esc = s.esc := notify_frame s n .esc (by decide)
@[simp] theorem State.notify_test (s : State) (n : Notice) : (s.notify n).test = s.test := notify_frame s n .test (by decide)
@[simp] theorem State.notify_thm (s : State) (n : Notice) : (s.notify n).thm = s.thm := notify_frame s n .thm (by decide)
@[simp] theorem State.notify_obs (s : State) (n : Notice) : (s.notify n).obs = s.obs := notify_frame s n .obs (by decide)
@[simp] theorem State.notify_ports (s : State) (n : Notice) : (s.notify n).ports = s.ports := notify_frame s n .ports (by decide)
@[simp] theorem State.notify_cmp (s : State) (n : Notice) : (s.notify n).cmp = s.cmp := notify_frame s n .cmp (by decide)
@[simp] theorem State.notify_nor (s : State) (n : Notice) : (s.notify n).nor = s.nor := notify_frame s n .nor (by decide)
@[simp] theorem State.notify_free (s : State) (n : Notice) : (s.notify n).free = s.free := notify_frame s n .free (by decide)
@[simp] theorem State.notify_pending (s : State) (n : Notice) : (s.notify n).pending = s.pending := notify_frame s n .pending (by decide)

end Sys2Proof.Machine
end

