-- ==== Sys2Proof/Laws/Registers.lean ====
section
/-! SUPPORT. Which registers the shared operations move: recording an event and answering a command leave every register but those of
`eventReg`. -/
namespace Sys2Proof.Machine

theorem RegsBut.refl (f : Nat → Bool) (s : State) : RegsBut f s s := fun _ _ => rfl

theorem RegsBut.trans {f : Nat → Bool} {s t u : State} (h : RegsBut f s t) (k : RegsBut f t u) : RegsBut f s u :=
  fun r hr => (k r hr).trans (h r hr)

theorem RegsBut.ite {f : Nat → Bool} {s a b : State} {c : Prop} [Decidable c] (h : RegsBut f s a) (k : RegsBut f s b) :
    RegsBut f s (if c then a else b) := by split <;> assumption

theorem RegsBut.mono {f g : Nat → Bool} {s t : State} (h : RegsBut f s t) (k : ∀ r, g r = false → f r = false) : RegsBut g s t :=
  fun r hr => h r (k r hr)

/-- Two states with one register file agree on every register. -/
theorem RegsBut.of_regs {f : Nat → Bool} {s t : State} (h : t.regs = s.regs) : RegsBut f s t := fun k _ => State.reg_congr h k

/-- A frame without the register file says that every register stands. -/
theorem RegsBut.of_frame {f : Nat → Bool} {l : List Part} {s t : State} (h : Frame l s t) (hl : Part.regs ∉ l) : RegsBut f s t :=
  .of_regs (h .regs hl)

theorem RegsBut.foldl {α : Type} {f : Nat → Bool} {g : State → α → State} (h : ∀ s x, RegsBut f s (g s x)) (xs : List α) (s : State) :
    RegsBut f s (xs.foldl g s) := by
  induction xs generalizing s with
  | nil => exact .refl f s
  | cons x xs ih => exact (h s x).trans (ih _)

theorem RegsBut.setReg {f : Nat → Bool} {s t : State} {k : Nat} {v : Word} (h : RegsBut f s t) (hk : f k = true) :
    RegsBut f s (t.setReg k v) := h.trans fun r hr => t.reg_setReg_ne v fun e => by simp [e, hk] at hr

theorem RegsBut.setNat {f : Nat → Bool} {s t : State} {k v : Nat} (h : RegsBut f s t) (hk : f k = true) :
    RegsBut f s (t.setNat k v) := h.setReg hk

theorem RegsBut.setFld {f : Nat → Bool} {s t : State} {k hi lo x : Nat} (h : RegsBut f s t) (hk : f k = true) :
    RegsBut f s (t.setFld k hi lo x) := h.setReg hk

theorem RegsBut.bump {f : Nat → Bool} {s t : State} {k n : Nat} (h : RegsBut f s t) (hk : f k = true) :
    RegsBut f s (t.bump k n) := h.setReg hk

theorem RegsBut.bumpFld {f : Nat → Bool} {s t : State} {k hi lo n : Nat} (h : RegsBut f s t) (hk : f k = true) :
    RegsBut f s (t.bumpFld k hi lo n) := h.setReg hk

theorem RegsBut.set64 {f : Nat → Bool} {s t : State} {lo hi v : Nat} (h : RegsBut f s t) (hl : f lo = true) (hh : f hi = true) :
    RegsBut f s (t.set64 lo hi v) := (h.setNat hl).setNat hh

theorem RegsBut.add64 {f : Nat → Bool} {s t : State} {lo hi n w : Nat} (h : RegsBut f s t) (hl : f lo = true) (hh : f hi = true) :
    RegsBut f s (t.add64 lo hi n w) := by unfold State.add64; exact h.set64 hl hh

theorem irq_regs (s : State) (v : Nat) : RegsBut eventReg s (s.irq v) := by
  unfold State.irq
  simp only
  split
  · exact .refl _ s
  · have h : RegsBut eventReg s (s.setReg HRT_IRQ_CAUSE (s.reg HRT_IRQ_CAUSE ||| BitVec.ofNat 32 (2 ^ v))) :=
      (RegsBut.refl _ s).setReg (by decide)
    repeat' split
    all_goals exact h.trans (.of_regs rfl)

theorem pushEvent_regs (s : State) (b : EvBody) : RegsBut eventReg s (s.pushEvent b).1 := by
  unfold State.pushEvent
  simp only
  exact (RegsBut.of_regs rfl).bumpFld (by decide)

theorem ringPut_regs (s : State) (r : Record × Bool) : RegsBut eventReg s (s.ringPut r) := by
  unfold State.ringPut
  simp only
  exact .ite ((RegsBut.of_regs rfl).bump (by decide)) (.of_regs rfl)

theorem announce_regs (s : State) (c : Nat) (rs : List Record) : RegsBut eventReg s (s.announce c rs).1 := by
  unfold State.announce
  split
  · suffices h : ∀ (l : List Record) (a : State × List Nat), RegsBut eventReg s a.1 →
        RegsBut eventReg s (l.foldl (fun (a : State × List Nat) r =>
          let x := ((a.1.irq 5).ibi 1 r.code).pushEvent (.record r); (x.1, a.2 ++ x.2)) a).1 from h rs (s, []) (.refl _ s)
    intro l
    induction l with
    | nil => intro a h; exact h
    | cons r l ih => exact fun a h => ih _ (((h.trans (irq_regs _ _)).trans (.of_frame (ibi_frame _ _ _) (by decide))).trans
        (pushEvent_regs _ _))
  · exact .refl _ s

theorem emitCore_regs (s : State) (e : Event) (sq : Bool) : RegsBut eventReg s (s.emitCore e sq).1 := by
  have hr : ∀ (f : Recorder → Recorder) (a : State), RegsBut eventReg s a → RegsBut eventReg s (a.modRec f) :=
    fun f a h => h.trans (.of_regs rfl)
  have ha : ∀ (c : Nat) (rs : List Record) (a : State), RegsBut eventReg s a → RegsBut eventReg s (a.announce c rs).1 :=
    fun c rs a h => h.trans (announce_regs _ _ _)
  have hf : ∀ (k : FlushKind) (a : State), RegsBut eventReg s a → RegsBut eventReg s (a.askFlush k) :=
    fun k a h => h.trans (.of_frame (askFlush_frame _ _) (by decide))
  have hput : ∀ (rs : List (Record × Bool)) (a : State), RegsBut eventReg s a → RegsBut eventReg s (rs.foldl State.ringPut a) :=
    fun rs a h => h.trans (.foldl ringPut_regs _ _)
  unfold State.emitCore
  simp only
  repeat' (first
    | with_reducible exact RegsBut.refl _ _
    | with_reducible refine RegsBut.bump ?_ (by decide)
    | with_reducible refine RegsBut.bumpFld ?_ (by decide)
    | with_reducible refine hr _ _ ?_
    | with_reducible refine hf _ _ ?_
    | with_reducible refine ha _ _ _ ?_
    | with_reducible refine hput _ _ ?_
    | split)

theorem lostEvents_regs (s : State) (k : List Nat) : RegsBut eventReg s (s.lostEvents k) := by
  unfold State.lostEvents
  exact .foldl (fun a n => emitCore_regs a (eventLost n) false) _ _

theorem emitBase_regs (s : State) (e : Event) (sq : Bool) : RegsBut eventReg s (s.emitBase e sq) :=
  (emitCore_regs s e sq).trans (lostEvents_regs _ _)

theorem event_regs (s : State) (b : EvBody) : RegsBut eventReg s (s.event b) := by
  exact (pushEvent_regs s b).trans (lostEvents_regs _ _)

/-- A page register of `eventReg`. -/
theorem eventReg_page {b x o : Nat} (hb : 0x100000 ≤ b) (hm : b % 0x1000 = 0) (ho : o < 0x1000)
    (h : [TWD_TRACE_DROP, TWD_LC_ERR_LO, TWD_LC_ERR_HI, LWD_TS_DROP].contains o = true) : eventReg (b + 0x1000 * x + o) = true := by
  have e : (b + 0x1000 * x + o) % 0x1000 = o := by omega
  have g : 0x100000 ≤ b + 0x1000 * x + o := by omega
  simp only [eventReg, e, h, g, decide_true, Bool.and_self, Bool.or_true]

theorem eventReg_item {o x : Nat} (ho : o < 0x1000000) (h : [OBS_TRACE_LOST_LO, OBS_TRACE_LOST_HI].contains o = true) :
    eventReg (itemKey o x) = true := by
  have e : itemKey o x % 0x1000000 = o := by unfold itemKey; omega
  simp only [eventReg, e, h, Bool.true_or, Bool.or_true]

/-- The combinators of the operations, for chains. -/
theorem RegsBut.irq {s t : State} {v : Nat} (h : RegsBut eventReg s t) : RegsBut eventReg s (t.irq v) := h.trans (irq_regs _ _)
theorem RegsBut.emitBase {s t : State} {e : Event} {q : Bool} (h : RegsBut eventReg s t) : RegsBut eventReg s (t.emitBase e q) :=
  h.trans (emitBase_regs _ _ _)
theorem RegsBut.event {s t : State} {b : EvBody} (h : RegsBut eventReg s t) : RegsBut eventReg s (t.event b) :=
  h.trans (event_regs _ _)
theorem RegsBut.setWriter {f : Nat → Bool} {s t : State} {p w : Nat} {x : TraceWriter} (h : RegsBut f s t) :
    RegsBut f s (t.setWriter p w x) := h.trans (.of_regs rfl)
theorem RegsBut.setRegions {f : Nat → Bool} {s t : State} {o : Observe} (h : RegsBut f s t) : RegsBut f s { t with obs := o } :=
  h.trans (.of_regs rfl)
theorem RegsBut.traceDrain {f : Nat → Bool} {s t : State} {p w : Nat} (h : RegsBut f s t) : RegsBut f s (t.traceDrain p w) :=
  h.trans (.of_frame (traceDrain_frame t p w) (by decide))

theorem traceLost_regs (s : State) (p w n : Nat) : RegsBut eventReg s (s.traceLost p w n) := by
  have h1 : RegsBut eventReg s (s.add64 (itemKey OBS_TRACE_LOST_LO p) (itemKey OBS_TRACE_LOST_HI p) n) := 
    (RegsBut.refl _ s).add64 (eventReg_item (by decide) (by decide)) (eventReg_item (by decide) (by decide))
  unfold State.traceLost
  simp only
  generalize s.add64 (itemKey OBS_TRACE_LOST_LO p) (itemKey OBS_TRACE_LOST_HI p) n = a at *
  have h2 : RegsBut eventReg s (if w < 144 then a.bump (0x100000 + 0x1000 * w + TWD_TRACE_DROP) n
      else if w < 192 then a.bump (0x280000 + 0x1000 * (w - 144) + LWD_TS_DROP) n else a) := by
    refine .ite (h1.bump ?_) (.ite (h1.bump ?_) h1)
    · exact eventReg_page (by decide) (by decide) (by decide) (by decide)
    · exact eventReg_page (by decide) (by decide) (by decide) (by decide)
  generalize (if w < 144 then a.bump (0x100000 + 0x1000 * w + TWD_TRACE_DROP) n
      else if w < 192 then a.bump (0x280000 + 0x1000 * (w - 144) + LWD_TS_DROP) n else a) = x at *
  split
  · exact h2.setRegions.emitBase.irq
  · exact h2

theorem RegsBut.traceLost {s t : State} {p w n : Nat} (h : RegsBut eventReg s t) : RegsBut eventReg s (t.traceLost p w n) :=
  h.trans (traceLost_regs _ _ _ _)

theorem traceRec_regs (s : State) (p w : Nat) (r : List Word) : RegsBut eventReg s (s.traceRec p w r) := by
  unfold State.traceRec
  simp only
  repeat' (first
    | with_reducible exact RegsBut.refl _ _
    | with_reducible refine RegsBut.traceDrain ?_
    | with_reducible refine RegsBut.traceLost ?_
    | with_reducible refine RegsBut.setWriter ?_
    | split)

theorem traceEvent_regs (s : State) (e : Event) (q : Word) : RegsBut eventReg s (s.traceEvent e q) := by
  unfold State.traceEvent
  split
  · split
    · exact RegsBut.foldl (fun a i => traceRec_regs a _ _ _) _ _
    · exact .refl _ s
  · exact .refl _ s

theorem countError_regs (s : State) (e : Event) : RegsBut eventReg s (s.countError e) := by
  unfold State.countError
  exact .ite ((RegsBut.refl _ s).add64 (eventReg_page (by decide) (by decide) (by decide) (by decide))
    (eventReg_page (by decide) (by decide) (by decide) (by decide))) (.refl _ s)

/-- Recording an event moves no register but those of `eventReg`. -/
theorem emit_regs (s : State) (e : Event) : RegsBut eventReg s (s.emit e) :=
  (((countError_regs s e).trans (emitCore_regs _ e false)).trans (traceEvent_regs _ _ _)).trans (lostEvents_regs _ _)

theorem emitSq_regs (s : State) (e : Event) : RegsBut eventReg s (s.emitSq e) :=
  (((countError_regs s e).trans (emitCore_regs _ e true)).trans (traceEvent_regs _ _ _)).trans (lostEvents_regs _ _)

theorem jobFailed_regs (s : State) (c : CtxIx) (cause : Nat) (code : Word) (scope : Nat) (coords : Word) :
    RegsBut eventReg s (s.jobFailed c cause code scope coords) := by
  unfold State.jobFailed
  exact .ite (event_regs s _) (.refl _ s)

theorem failJobs_regs (s : State) (cs : List CtxIx) (cause : Nat) (code : Word) (scope : Nat) (coords : Word) :
    RegsBut eventReg s (s.failJobs cs cause code scope coords) := by
  unfold State.failJobs
  exact RegsBut.foldl (fun a c => jobFailed_regs a c _ _ _ _) _ _

theorem failTags_regs (s : State) (l : List (BitVec 16 × Word)) (cause : Nat) (code : Word) (scope : Nat) (coords : Word) :
    RegsBut eventReg s (s.failTags l cause code scope coords) := by
  unfold State.failTags
  exact RegsBut.foldl (fun a e => event_regs a _) _ _

/-- An answer moves no register but the cause register. -/
theorem answer_regs (s : State) (p : Pend) (st : Status) (d : Word) (r : List Word) : RegsBut eventReg s (s.answer p st d r) := by
  unfold State.answer
  split
  · exact .of_frame (cmpAnswer_frame s _ _) (by decide)
  · have h : RegsBut eventReg s ((s.writeSlot (s.reg64 HRT_CMD_RSP_BASE_LO HRT_CMD_RSP_BASE_HI + p.h.seq.toNat % 256 * 64)
        (responseSlot p.h.seq p.opcode st s.host.epoch d r)).emitOut (.response p.h.seq p.opcode st s.host.epoch d r)) :=
      .of_frame ((writeSlot_frame s _ _).emitOut (l := [.out]) (by decide)) (by decide)
    exact .ite h (h.trans (irq_regs _ _))

theorem finish_regs (s : State) (p : Pend) (st : Status) (d : Word) (r : List Word) : RegsBut eventReg s (s.finish p st d r) := by
  unfold State.finish
  exact .ite ((RegsBut.of_regs rfl).trans (answer_regs _ _ _ _ _)) (.refl _ s)

end Sys2Proof.Machine
end

