-- ==== Sys2Proof/Laws/Intake.lean ====
section
/-! SUPPORT. How a served host command runs, and how an answer stands in the state after it. -/
namespace Sys2Proof.Machine

/-- settle leaves the pins where the TRIP latch holds TRAY_PC_N already. -/
theorem settle_pw_of {s : State} (h : s.hl.tripLatch = true → s.pw.trayPc = true) : (settle s).pw = s.pw := by
  have : (s.pw.trayPc || s.hl.tripLatch) = s.pw.trayPc := by
    cases h1 : s.hl.tripLatch <;> cases h2 : s.pw.trayPc <;> simp_all
  simp [settle, this]

/-- settle within a frame: with the latch and the pins as in a state whose signals hold, only MSI-X and the output move. -/
theorem Frame.settle {l : List Part} {s t : State} (h : Frame l s t) (hs : s.hl.tripLatch = true → s.pw.trayPc = true)
    (hl : Part.hl ∉ l) (hp : Part.pw ∉ l) (hm : Part.msix ∈ l) (ho : Part.out ∈ l) : Frame l s (Machine.settle t) := by
  have e1 : t.hl = s.hl := h .hl hl
  have e2 : t.pw = s.pw := h .pw hp
  have e3 : (Machine.settle t).pw = t.pw := settle_pw_of (by rw [e1, e2]; exact hs)
  intro p hp'
  by_cases hpw : p = .pw
  · subst hpw; exact e3.trans e2
  · refine Part.same_trans (h p hp') (settle_frame t p fun hmem => ?_)
    simp only [List.mem_cons, List.not_mem_nil, or_false] at hmem
    rcases hmem with rfl | rfl | rfl
    · exact hp' hm
    · exact hpw rfl
    · exact hp' ho

theorem settle_out_mem {s : State} {o : Out} (h : o ∈ s.out) : o ∈ (settle s).out := by
  simp only [settle, List.mem_append]; exact .inr h

theorem irq_out_mem {s : State} {v : Nat} {o : Out} (h : o ∈ s.out) : o ∈ (s.irq v).out := by
  unfold State.irq
  simp only
  repeat' split
  all_goals first | exact h | exact List.mem_cons_of_mem _ h

/-- A cause raised is set. -/
theorem irq_cause {s : State} {v : Nat} (hv : v < 16) : (s.irq v).causes.getLsbD v = true := by
  unfold State.irq
  simp only
  split
  · assumption
  · have h : (s.setReg HRT_IRQ_CAUSE (s.reg HRT_IRQ_CAUSE ||| BitVec.ofNat 32 (2 ^ v))).causes.getLsbD v = true := by
      simp only [State.causes, State.reg_setReg_self, BitVec.getLsbD_setWidth, BitVec.getLsbD_or, hv, decide_true, Bool.true_and,
        BitVec.getLsbD_ofNat, Nat.testBit_two_pow_self, show v < 32 by omega, Bool.or_true]
    repeat' split
    all_goals exact h

theorem cmpAnswer_out (s : State) (m : CmpHdr) (o : Out) : (s.cmpAnswer m o).out = o :: s.out := rfl

/-- An answer given last stands in the settled state. -/
theorem answered_settle {s u : State} {h : Hdr} {op : Nat} {st : Status} {data : List Word} (he : u.host.epoch = s.host.epoch) :
    Answered s (settle (u.answer ⟨h, op⟩ st 0 data)) h op st data := by
  unfold Answered State.answer
  cases hv : h.via with
  | cmp m => exact settle_out_mem (by rw [cmpAnswer_out]; exact List.mem_cons_self)
  | window a =>
    simp only [he]
    cases hn : h.noMsix with
    | true =>
      refine ⟨settle_out_mem ?_, by simp⟩
      simp
    | false =>
      refine ⟨settle_out_mem (irq_out_mem (by simp)), fun _ => ?_⟩
      simp only [settle_causes, Bool.false_eq_true, if_false]
      exact irq_cause (by decide)

/-- A command that the block serves reaches its own chapter in the accepted state. -/
theorem intake_serves {s : State} {h : Hdr} (hs : s.Serves h) (op : Nat) (i : Instr) (f : Pend → State → State) :
    s.intake h op i f = f ⟨h, op⟩ (s.accepted h) := by
  obtain ⟨hr, _, hv⟩ := hs
  unfold State.intake State.accepted
  cases hvia : h.via with
  | cmp m => simp only [hr]
  | window a =>
    simp only [hvia] at hv
    obtain ⟨h0, rfl, h1, h2, h3⟩ := hv
    have h3' : ¬ 64 ≤ s.sq.waiting.length := by omega
    have hr' : (s.setReg HRT_CMD_NEXT_SEQ (h.seq + 1)).sq.run = .running := hr
    simp only [Bool.not_true, Bool.false_eq_true, if_false, h0, h1, ← h2, ne_eq, not_true_eq_false, h3', hr']
    simp

theorem accepted_frame (s : State) (h : Hdr) : Frame [.regs] s (s.accepted h) := by
  unfold State.accepted
  split
  · exact Frame.refl _ s
  · exact setReg_frame s _ _

theorem accepted_regs (s : State) (h : Hdr) : RegsBut commandReg s (s.accepted h) := by
  unfold State.accepted
  split
  · exact .refl _ s
  · exact (RegsBut.refl _ s).setReg (by decide)

/-- Over the window the next sequence number is due afterwards. -/
theorem accepted_seq {s : State} {h : Hdr} {a : Bool} (hv : h.via = .window a) : (s.accepted h).reg HRT_CMD_NEXT_SEQ = h.seq + 1 := by
  simp [State.accepted, hv]

theorem RegsBut.command {s t : State} (h : RegsBut eventReg s t) : RegsBut commandReg s t :=
  h.mono fun k hk => by
    cases he : eventReg k
    · rfl
    · simp [commandReg, he] at hk

/-- With operator privilege a command is served. -/
theorem serveAs_operator {s : State} {p : Pend} (ho : p.h.operator = true) (hb : p.h.badOperand = false) (b : Bool) (n : Option CtxIx) (k : State → State) :
    s.serveAs p b n k = k s := by
  simp [State.serveAs, privileged, ho, hb]

/-- A command whose chapter runs `k` in a state `u` and answers `st` with data completes so. -/
theorem command_completes {s u : State} {h : Hdr} {op : Nat} {st : Status} {data : List Word} {l : List Part}
    (hf : Frame l (s.accepted h) u) (hr : RegsBut commandReg s u) (hl : ∀ p ∈ ([.regs, .msix, .cmp, .out] : List Part), p ∈ l)
    (hh : u.host.epoch = s.host.epoch) (hsig : s.Signals) (h1 : Part.hl ∉ l) (h2 : Part.pw ∉ l) :
    Answered s (settle (u.answer ⟨h, op⟩ st 0 data)) h op st data ∧ Frame l s (settle (u.answer ⟨h, op⟩ st 0 data)) ∧
      RegsBut commandReg s (settle (u.answer ⟨h, op⟩ st 0 data)) := by
  refine ⟨answered_settle hh, ?_, ?_⟩
  · refine Frame.settle ?_ hsig.2.2.2 h1 h2 (hl _ (by decide)) (hl _ (by decide))
    exact (((accepted_frame s h).mono fun p hp => hl p (by simp at hp; simp [hp])).trans hf).trans ((answer_frame u _ st 0 data).mono hl)
  · exact hr.trans ((answer_regs u _ st 0 data).command.trans (.of_regs rfl))

end Sys2Proof.Machine
end

