-- ==== Sys2Proof/Laws/Commands.lean ====
section
/-! SUPPORT. How every host command, CMP message and Bellows request reaches what serves it. -/
namespace Sys2Proof.Machine

theorem accepted_portCount (s : State) (h : Hdr) : (s.accepted h).portCount = s.portCount := by
  unfold State.accepted; split <;> rfl

/-- A served row that carries a host command runs what serves the command in the accepted state. -/
theorem exec_host {s : State} {i : Instr} {h : Hdr} {c : HostCmd} (hi : hostOf i = some (h, c)) (hs : s.Serves h) :
    exec i s = done (serveHost c ⟨h, hostOpcode c⟩ (s.accepted h)) := by
  cases i <;> first
    | (injection hi with e
       injection e with e1 e2
       subst e1 e2
       show done (State.intake _ _ _ _ _) = _
       rw [intake_serves hs]
       first
         | rfl
         | simp only [serveHost, accepted_portCount]; rfl)
    | exact absurd hi (by simp [hostOf])

/-- A new message outside or inside a session reaches its chapter in the state that has taken it. -/
theorem cmpIn_fresh {s : State} {m : CmpHdr} {i : Instr} {q : Bool} {act : State → State} (hf : s.fresh m = true)
    (hr : q = true ∨ s.sq.run = .running) : s.cmpIn m i q act = act (s.taken m) := by
  unfold State.fresh at hf
  rw [Bool.and_eq_true, Bool.and_eq_true] at hf
  obtain ⟨⟨h1, h2⟩, h3⟩ := hf
  have run : ∀ u : State, u.sq.run = s.sq.run → (if q then act u else match u.sq.run with
      | .running => act u
      | .restarting => u.modSq fun x => { x with waiting := x.waiting ++ [i] }
      | .halted => u.reply m .halted []
      | .off => u) = act u := by
    intro u hu
    rcases hr with rfl | hr
    · rfl
    · rw [hu, hr]; split <;> rfl
  unfold State.cmpIn State.taken
  simp only [h1, h2, Bool.not_true, Bool.false_eq_true, if_false]
  split
  · rename_i hs
    simp only [hs, if_true, Bool.and_eq_true, Bool.not_eq_true'] at h3
    unfold State.outsideSession
    simp only [h3.1, Bool.false_eq_true, if_false]
    generalize s.cmp.sources.getD (s.sourceOf m.addr) none = x at h3 ⊢
    cases hy : x.filter fun y => y.addr == m.addr with
    | none => exact run _ rfl
    | some y =>
      obtain ⟨hx, ha⟩ := Option.filter_eq_some_iff.mp hy
      subst hx
      have hny : y.seq ≠ some m.seq := by
        intro e
        have := h3.2
        simp only [Option.any_some, ha, e, beq_self_eq_true, Bool.and_self] at this
        cases this
      simp only [hny, if_false]
      exact run _ rfl
  · rename_i hs
    simp only [hs, if_false, Bool.and_eq_true] at h3
    unfold State.inSession
    cases ho : s.sessionOf m.session with
    | none => simp [ho] at h3
    | some k =>
      simp only [ho, Option.any_some] at h3
      simp only []
      generalize s.cmp.sessions.getD k none = x at h3 ⊢
      cases x with
      | none => simp at h3
      | some y =>
        simp only [Option.any_some, Bool.and_eq_true, bne_iff_ne, ne_eq] at h3
        simp only [h3.1, h3.2.1, h3.2.2, Bool.not_true, Bool.false_eq_true, if_false, if_true]
        exact run _ rfl

/-- A request that reaches its agent is acted on, its answer kept and sent. -/
theorem atAgent_reaches {s : State} {e : Env} {cls l op : Nat} {operands : List Nat} {act : State → State × Nat × List Word}
    (h : s.Reaches e cls l op operands) (hl : l = if op = 0x40 ∨ (s.agent e.dst).level = 0 then 1 else (s.agent e.dst).level) :
    s.atAgent e cls op operands act = ((act s).1.modAgent e.dst fun x =>
      { x with last := tput x.last cls ⟨e.seq.val, (act s).2.1, (act s).2.2⟩ }).respond e.dst (act s).2.1 (act s).2.2 := by
  obtain ⟨h1, h2, h3, h4, h5, h6, h7, h8, h9, h10, h11⟩ := h
  have h3' : (e.dst == s.hearthAgent) = false := by simpa using h3
  have hn : (tget? (s.agent e.dst).last cls).filter (fun l => l.seq == e.seq.val) = none := by
    cases hq : tget? (s.agent e.dst).last cls with
    | none => rfl
    | some a => rw [hq] at h9; simpa using h9
  unfold State.atAgent
  simp only [h1, h2, h3', h4, h5, h6, h7, h8, hn, Bool.not_true, Bool.or_self, Bool.false_eq_true, if_false, ne_eq, not_true_eq_false]
  have hw : wireBadOp e.wire = false := by simp [wireBadOp, h11]
  simp only [h10, hl, hw, or_self, false_and, if_false, not_true_eq_false, Bool.false_eq_true]

end Sys2Proof.Machine
end

