-- ==== Sys2Proof/WellFormed.lean ====
section
/-! DEFINITION. Well-formed commands: operands that an event of the spec can carry. The meanings are total on every command; this
check says which commands the block can be sent at all. -/
namespace Sys2Proof

/-- A BAR offset lies in the 16 MiB of the RAS BAR, and an access that claims to be aligned is (R15, R477). -/
def Acc.wf (a : Acc) : Bool := decide (a.off < 0x1000000) && (!a.aligned || a.off % 4 == 0)

/-- Lanes of a digest are residues modulo 2^61 - 1 (R155). -/
def Ofd.wf (d : Ofd) : Bool := decide (d.lane0 < 2 ^ 61 - 1) && decide (d.lane1 < 2 ^ 61 - 1)

/-- A command has at most 65,536 passes (R88), a handle for at most each of its streams, each below 256 (R163). -/
def Cmd.wf (c : Cmd) : Bool :=
  decide (c.passes ≤ 65536) && decide (c.handles.length ≤ c.streams) && c.handles.all fun h => decide (h < 256)

/-- A replay window is 0 to 1 MiB (R99). -/
def CtxDesc.wf (d : CtxDesc) : Bool := decide (d.replayWindow ≤ 2 ^ 20)

/-- A pass has at most 128 rows and 96 columns (R84). -/
def PassIn.wf (p : PassIn) : Bool := decide (p.acc.length ≤ 128) && p.acc.all fun r => decide (r.length ≤ 96)

/-- A queue number has eight bits (R258). -/
def queueWf (q : Nat) : Bool := decide (q < 256)

def Token.wf (k : Token) : Bool := queueWf k.queue

/-- A write enables at least one byte, in a 64-bit address space (R171). -/
def TagWrite.wf (w : TagWrite) : Bool := w.bytes.any Prod.snd && decide (w.addr + w.bytes.length ≤ 2 ^ 64)

/-- The offset of a Bellows register access has twelve bits (R55). -/
def offsetWf (off : Nat) : Bool := decide (off < 0x1000)

/-- An opcode that stands in place of a row's own is one that R55 does not assign. -/
def Wire.wf (w : Wire) : Bool := w.opcode.all fun o => !assignedOps.contains o.toNat

/-- Requests present together come in at different inputs (R69). -/
def portsWf (l : List Head) : Bool := decide ((l.map Head.port).Nodup)

/-- A part lies below its count (R56, R450). -/
def partWf (part count : Nat) : Bool := decide (part < count)

/-- A firmware chunk has an index below 512 and at most 4 KiB of payload (R310). -/
def FwChunk.wf (c : FwChunk) : Bool := decide (c.index < 512) && decide (c.data.length ≤ 4096)

/-- The items of a comparison report: four byte counts and a digest (R133). -/
def CmpItems.wf (i : CmpItems) : Bool := i.ofd.wf && decide (i.bytes.length ≤ 4)

/-- A report with digest lanes carries residues (R134, R167). -/
def Rep.wf : Rep → Bool
  | .shadowDigest _ _ _ i => i.wf
  | .latch _ _ _ d _ _ _ => d.wf
  | _ => true

/-- A memory region has 64-bit bounds and is not empty (R163). -/
def MemRegion.wf (r : MemRegion) : Bool := decide (0 < r.length) && decide (r.base + r.length ≤ 2 ^ 64)

def OfdDecl.wf (d : OfdDecl) : Bool := d.region.wf && decide (d.indexBase < 2 ^ 64)

def WatchDecl.wf (w : WatchDecl) : Bool := w.dump.wf

/-- A region-table entry counts MiB of a 64-bit address space (R301). -/
def RegionEntry.wf (e : RegionEntry) : Bool := decide ((e.base + e.length) * 2 ^ 20 ≤ 2 ^ 64)

/-- A boundary stop names a partition (R256). -/
def stopWf (parts : BitVec 4) : Bool := parts != 0

/-- A host command that CMP carries. -/
def HostCmd.wf : HostCmd → Bool
  | .itemRegion _ e => e.all RegionEntry.wf
  | .boundaryStop p _ => stopWf p
  | .ofdRegister d => d.wf
  | .scrubDigest d => d.wf
  | .ofdVerify d e _ => d.wf && e.wf
  | .watchSet w => w.wf
  | _ => true

/-- The byte strings of SESSION_OPEN: keys of 97 bytes, a nonce of 32, a signature of 96 (R469). -/
def sessionWf (ephemeral nonce key signature : List Byte) : Bool :=
  ephemeral.length == 97 && nonce.length == 32 && key.length == 97 && signature.length == 96

/-- RECORD_READ asks for 1 to 32 records (R470). -/
def countWf (n : Nat) : Bool := decide (1 ≤ n ∧ n ≤ 32)

/-- IMAGE_WRITE: a 32-bit offset and at most 1,024 bytes (R470). -/
def imageWf (offset : Nat) (data : List Byte) : Bool := decide (offset < 2 ^ 32) && decide (data.length ≤ 1024)

/-- A UDP port has sixteen bits, an IPv6 address 128 (R465). -/
def sourceWf (addr port : Nat) : Bool := decide (addr < 2 ^ 128) && decide (port < 2 ^ 16)

/-- Trace writers: 144 tile wardens, 48 link wardens, the Hearth (R386). -/
def writerWf (w : Nat) : Bool := decide (w ≤ 192)

/-- An identity block lists the generations of the four partitions (R448). -/
def Identity.wf (i : Identity) : Bool := decide (i.gens.length = 4)

/-- A fence notice lists the generations of the four partitions and at most sixteen contexts (R462). -/
def FenceNotice.wf (n : FenceNotice) : Bool := decide (n.gens.length = 4) && decide (n.entries.length ≤ 16)

/-- The check of a whole command. -/
def Instr.wf : Instr → Bool
  | .standbyPowerGood _ => true
  | .standbyPowerLoss => true
  | .stage1Authentication => true
  | .stage2HearthBoot => true
  | .mainInputGood _ => true
  | .mainPowerTimeout => true
  | .censusAgentTimeout _ => true
  | .stage3DomainPower => true
  | .domainPowerGood _ _ => true
  | .alignGridPoint _ => true
  | .stage4Bist _ => true
  | .bistInvalidRetry _ => true
  | .stage5Training _ _ => true
  | .linkWaitExpiry _ => true
  | .stage6Payload _ => true
  | .fwChunkReceive _ c => c.wf
  | .stage7Topology => true
  | .wiringWaitExpiry => true
  | .stage8Anvil _ => true
  | .stage9Ready => true
  | .trainingRecordDone _ => true
  | .coreWatchdogExpiry _ => true
  | .hearthRestartComplete => true
  | .heartbeat _ _ => true
  | .refclkLoss => true
  | .reportSend _ => true
  | .reportDropped _ r => r.wf
  | .routerForward _ h others => portsWf (h :: others)
  | .regRead e offset _ => e.wire.wf && offsetWf offset
  | .regWrite e offset _ _ => e.wire.wf && offsetWf offset
  | .blockRead e offset count => e.wire.wf && offsetWf offset && decide (count < 65536)
  | .report _ r w => r.wf && w.wf
  | .reportData _ r part w => r.wf && partWf part 16 && w.wf
  | .reportTaken => true
  | .response _ _ _ _ _ => true
  | .responseTimeout _ _ _ => true
  | .reportResendTimer _ => true
  | .censusProbe e _ => e.wire.wf
  | .censusReply _ _ => true
  | .levelSet e _ timeout => e.wire.wf && decide (timeout < 128)
  | .unitWaitExpiry _ => true
  | .unitTakesCommand _ => true
  | .aliveLow _ _ => true
  | .handshakeTimeout _ _ => true
  | .portErrorSample => true
  | .hardlineFault _ _ => true
  | .portResetSeen _ unread => decide (unread ≤ 8)
  | .portOpen _ => true
  | .commandIssue _ c => c.wf
  | .commandStart _ _ => true
  | .passCheckResult _ p => p.wf
  | .indexParityError _ _ _ _ => true
  | .operandParityError _ _ _ _ => true
  | .converterMismatch _ _ _ _ => true
  | .checkerInjection _ _ _ _ => true
  | .reexecResult _ _ _ _ _ _ => true
  | .selfFenceTimer _ => true
  | .commandComplete _ _ _ => true
  | .commandCommit _ _ => true
  | .taggedWrite _ w => w.wf
  | .tokenArrival _ k => k.wf
  | .stepBarrier _ => true
  | .samplerUpdate _ _ _ _ => true
  | .startCopyDone _ _ => true
  | .multicastOverrun _ => true
  | .holdWaitExpiry _ _ => true
  | .arbitrationStart => true
  | .captureCopyDone _ ofd _ => ofd.wf
  | .watchPeriodExpiry _ => true
  | .tileFenceCommand _ _ => true
  | .fenceUnconfirmed _ => true
  | .replacementStart => true
  | .reloadComplete _ _ => true
  | .spareRecordWriteDone _ => true
  | .spareRecordRetry => true
  | .hbmUncorrectable _ _ => true
  | .tileSramUE _ _ _ => true
  | .pathParityFail _ _ => true
  | .slagConsumed _ _ _ _ => true
  | .dataReplyArrival _ _ _ _ => true
  | .remoteGoneAnswer _ _ _ => true
  | .genHoldoffExpiry => true
  | .tileWatchdogExpiry _ => true
  | .contextWatchdogExpiry _ => true
  | .partitionWatchdogExpiry _ => true
  | .chipWatchdogExpiry => true
  | .edgeReport _ _ => true
  | .edgeWithdraw _ _ => true
  | .knotTimeoutExpiry _ _ => true
  | .spillRead _ queue _ => queueWf queue
  | .reconfiguration _ _ => true
  | .reconfigCommit _ _ _ _ => true
  | .contextKill _ _ => true
  | .contextKillCommand _ _ => true
  | .killTimeout _ _ => true
  | .quarantineExpiry _ => true
  | .resetComplete => true
  | .resetBoundExpiry => true
  | .escHoldExpiry => true
  | .escRelease h => !h.badOperand
  | .snapshot _ _ => true
  | .snapshotUnitTimeout _ _ => true
  | .snapshotComplete _ => true
  | .snapshotWriteTimeout _ => true
  | .snapCopy _ _ _ _ => true
  | .snapRelease _ _ => true
  | .fenceNoticeReceive _ n => n.wf
  | .boundaryStop _ parts _ => stopWf parts
  | .boundaryCutReached => true
  | .bstopTimeout => true
  | .boundaryResume _ => true
  | .bistSlotOpen => true
  | .handOverComplete _ => true
  | .bistResult _ _ => true
  | .handBackComplete _ => true
  | .returnTestRetry _ _ => true
  | .bistDiag _ _ => true
  | .hbmRowSlice _ _ _ _ _ => true
  | .anvilRun _ _ _ _ => true
  | .anvilRunStart => true
  | .anvilCoverTimeout => true
  | .anvilKernelResult _ _ => true
  | .txnBegin h => !h.badOperand
  | .txnItemRegion _ _ e => e.all RegionEntry.wf
  | .txnItemPortRole _ _ _ => true
  | .txnItemRoute _ _ _ => true
  | .txnItemSliceFilter _ _ _ _ => true
  | .txnItemSparing _ _ _ => true
  | .txnCommitImmediate _ => true
  | .txnCommitStep _ => true
  | .txnAbort h => !h.badOperand
  | .txnTimeoutExpiry _ => true
  | .transactionalRegisterWrite a _ => a.wf
  | .fnEnable _ _ => true
  | .fnDisable _ _ => true
  | .fnStartComplete _ _ => true
  | .fnStopComplete _ => true
  | .nop h => !h.badOperand
  | .removeAck h => !h.badOperand
  | .resetRequestPartition _ _ => true
  | .resetRequestComputePart _ => true
  | .resetRequestChip _ => true
  | .ofdRegister _ d => d.wf
  | .ofdRelease _ _ => true
  | .ofdRead _ _ => true
  | .scrubDigest _ d => d.wf
  | .ofdVerify _ d expected _ => d.wf && expected.wf
  | .scrubStart => true
  | .scrubComplete _ => true
  | .digestLatchCommand _ _ _ => true
  | .bankLatch _ _ _ _ => true
  | .replicaInterval _ _ => true
  | .digestExchange _ _ _ _ _ ofd _ _ => ofd.wf
  | .obsCtxRead _ _ => true
  | .watchSet _ w => w.wf
  | .watchRelease _ _ _ => true
  | .watchCopyDone _ _ _ => true
  | .watchHoldExpiry _ _ _ => true
  | .pcSample _ _ _ => true
  | .traceBlockClaim _ writer => writerWf writer
  | .traceBlockCloseTimer _ writer => writerWf writer
  | .traceTimeRecord => true
  | .traceRecordDrop _ writer _ => writerWf writer
  | .linkFrameReceive _ f => decide (f.destPkg < 4096)
  | .linkFrameSend _ _ f => decide (f.destPkg < 4096)
  | .linkTrained _ _ => true
  | .identityBlockReceive _ i => i.wf
  | .linkLossOfSignal _ => true
  | .linkRetrainTimer _ _ _ _ => true
  | .laneMarginCheck _ _ => true
  | .linkAlarmCheck _ _ _ => true
  | .sensorRound _ _ => true
  | .thermalGraceExpiry _ => true
  | .temperTick _ => true
  | .tripAssert _ _ => true
  | .stackTripSample _ _ => true
  | .stackTripConfirm _ _ => true
  | .sensorReadRequest a _ _ => a.wf
  | .pmbusRound _ => true
  | .powerAverage => true
  | .powerGraceExpiry => true
  | .powerFloorExpiry => true
  | .powerFailWarn => true
  | .attnRequest => true
  | .hostNoticeWaitExpiry => true
  | .removalPowerDownDone => true
  | .hostFullReset _ => true
  | .pmStateChange _ => true
  | .backgroundFlush => true
  | .flushComplete _ _ => true
  | .headerWriteTimer => true
  | .storeRetry _ => true
  | .recFlushReq a _ => a.wf
  | .recFreeze a _ => a.wf
  | .freezeLimitExpiry => true
  | .recErase a _ => a.wf
  | .eraseOverwriteDone => true
  | .hrtCmdCtrlWrite a _ => a.wf
  | .hrtNtcConsWrite a _ => a.wf
  | .hrtIrqCauseClear a _ => a.wf
  | .hrtTbCapture a _ => a.wf
  | .hrtConsSelWrite a _ => a.wf
  | .twdJnlSelWrite a _ => a.wf
  | .twdCheckInjectWrite a _ => a.wf
  | .blwDeadClear a _ => a.wf
  | .blwRspTimeoutWrite a _ => a.wf
  | .obsFullEnWrite a _ => a.wf
  | .counterLowRead a => a.wf
  | .counterHighRead a => a.wf
  | .rcRead a => a.wf
  | .registerWrite a _ => a.wf
  | .hello _ _ _ _ => true
  | .sessionOpen _ ephemeral nonce _ key signature => sessionWf ephemeral nonce key signature
  | .sessionClose _ => true
  | .sessionIdleExpiry _ => true
  | .cmpStatus _ => true
  | .recordRead _ _ count => countWf count
  | .cmpRegRead _ offs => decide (offs.length ≤ 64)
  | .cmpRegWrite _ pairs => decide (pairs.length ≤ 32)
  | .snapshotRead _ _ _ => true
  | .cmpCommand _ c => c.wf
  | .setCoordinates _ _ => true
  | .wiringSet _ part count entries => partWf part count && decide (entries.length ≤ 48)
  | .replicaDeclare _ _ members _ _ => decide (members.length ≤ 16)
  | .imageWrite _ offset data => imageWf offset data
  | .imageArm _ _ => true
  | .imageConfirm _ => true
  | .rollbackCommit _ => true
  | .keyRevoke _ _ => true
  | .removeRequest _ => true
  | .mainOn _ => true
  | .eventSubscribe _ addr port _ => sourceWf addr port
  | .eventAck _ _ => true
  | .eventResendTimer => true
  | .i3cPointerWrite bytes => decide (bytes ≠ [])
  | .i3cPrivateRead _ => true
  | .entdaa _ => true
  | .setdasa _ _ => true
  | .ibiRetryTimer _ => true
  | .contextAssigned _ d => d.wf
  | .badOpcode h _ => !h.badOperand
  | .rstdaa => true
  | .getpid => true
  | .getbcr => true
  | .getdcr => true
  | .getstatus => true
  | .getmxds => true
  | .enec => true
  | .disec => true
  | .refclkReturn => true
  | .pcieLinkTrained => true
  | .mainPathRemoved => true

end Sys2Proof
end

