-- ==== Sys2Proof/Laws/PerInstr.lean ====
section
/-! SUPPORT. Family F, per command: a row carries a host command or a CMP message of the firmware, never both, and a row that carries a
host command with its operands in range is well-formed exactly as the same command carried by CMP. -/
namespace Sys2Proof.Laws.F

def Statement (i : Instr) : Prop :=
  (Machine.hostOf i = none ∨ Machine.cmpOf i = none) ∧ ∀ h c, Machine.hostOf i = some (h, c) → h.badOperand = false → i.wf = c.wf

theorem of_host {i : Instr} {h : Hdr} {c : HostCmd} (hi : Machine.hostOf i = some (h, c)) (hc : Machine.cmpOf i = none)
    (hw : h.badOperand = false → i.wf = c.wf) : Statement i :=
  ⟨.inr hc, fun h2 c2 e => by rw [hi] at e; cases e; exact hw⟩

theorem of_other {i : Instr} (hi : Machine.hostOf i = none) : Statement i := ⟨.inl hi, fun _ _ e => by rw [hi] at e; cases e⟩

theorem standbyPowerGood (i : Stage0In) : Statement (Instr.standbyPowerGood i) := of_other rfl
theorem standbyPowerLoss : Statement (Instr.standbyPowerLoss) := of_other rfl
theorem stage1Authentication : Statement (Instr.stage1Authentication) := of_other rfl
theorem stage2HearthBoot : Statement (Instr.stage2HearthBoot) := of_other rfl
theorem mainInputGood (failedAgents : List AgentIx) : Statement (Instr.mainInputGood failedAgents) := of_other rfl
theorem mainPowerTimeout : Statement (Instr.mainPowerTimeout) := of_other rfl
theorem censusAgentTimeout (a : AgentIx) : Statement (Instr.censusAgentTimeout a) := of_other rfl
theorem stage3DomainPower : Statement (Instr.stage3DomainPower) := of_other rfl
theorem domainPowerGood (d : DomainIx) (r : DomainRes) : Statement (Instr.domainPowerGood d r) := of_other rfl
theorem alignGridPoint (late : List DomainIx) : Statement (Instr.alignGridPoint late) := of_other rfl
theorem stage4Bist (i : Stage4In) : Statement (Instr.stage4Bist i) := of_other rfl
theorem bistInvalidRetry (r : Retry) : Statement (Instr.bistInvalidRetry r) := of_other rfl
theorem stage5Training (stackRes : List (StackIx × TrainRes)) (portRes : List (PortIx × TrainRes × List Nat)) :
    Statement (Instr.stage5Training stackRes portRes) := of_other rfl
theorem linkWaitExpiry (p : PortIx) : Statement (Instr.linkWaitExpiry p) := of_other rfl
theorem stage6Payload (ph : Stage6Phase) : Statement (Instr.stage6Payload ph) := of_other rfl
theorem fwChunkReceive (t : TileIx) (c : FwChunk) : Statement (Instr.fwChunkReceive t c) := of_other rfl
theorem stage7Topology : Statement (Instr.stage7Topology) := of_other rfl
theorem wiringWaitExpiry : Statement (Instr.wiringWaitExpiry) := of_other rfl
theorem stage8Anvil (rs : List (TileIx × List KernelRes)) : Statement (Instr.stage8Anvil rs) := of_other rfl
theorem stage9Ready : Statement (Instr.stage9Ready) := of_other rfl
theorem trainingRecordDone (ok : Bool) : Statement (Instr.trainingRecordDone ok) := of_other rfl
theorem coreWatchdogExpiry (digestOk : Bool) : Statement (Instr.coreWatchdogExpiry digestOk) := of_other rfl
theorem hearthRestartComplete : Statement (Instr.hearthRestartComplete) := of_other rfl
theorem heartbeat (path : Path) (value : Word) : Statement (Instr.heartbeat path value) := of_other rfl
theorem refclkLoss : Statement (Instr.refclkLoss) := of_other rfl
theorem reportSend (a : AgentIx) : Statement (Instr.reportSend a) := of_other rfl
theorem reportDropped (a : AgentIx) (r : Rep) : Statement (Instr.reportDropped a r) := of_other rfl
theorem routerForward (die : DieIx) (h : Head) (others : List Head) : Statement (Instr.routerForward die h others) := of_other rfl
theorem regRead (e : Env) (offset : Nat) (path : Fin 4) : Statement (Instr.regRead e offset path) := of_other rfl
theorem regWrite (e : Env) (offset : Nat) (path : Fin 4) (data : Word) : Statement (Instr.regWrite e offset path data) := of_other rfl
theorem blockRead (e : Env) (offset : Nat) (count : Nat) : Statement (Instr.blockRead e offset count) := of_other rfl
theorem report (a : AgentIx) (r : Rep) (w : Wire) : Statement (Instr.report a r w) := of_other rfl
theorem reportData (a : AgentIx) (r : Rep) (part : Nat) (w : Wire) : Statement (Instr.reportData a r part w) := of_other rfl
theorem reportTaken : Statement (Instr.reportTaken) := of_other rfl
theorem response (who : Sender) (a : AgentIx) (cls : MsgClass) (seq : Fin 64) (status : Fin 16) :
    Statement (Instr.response who a cls seq status) := of_other rfl
theorem responseTimeout (who : Sender) (a : AgentIx) (cls : MsgClass) : Statement (Instr.responseTimeout who a cls) := of_other rfl
theorem reportResendTimer (a : AgentIx) : Statement (Instr.reportResendTimer a) := of_other rfl
theorem censusProbe (e : Env) (b : CensusBody) : Statement (Instr.censusProbe e b) := of_other rfl
theorem censusReply (a : AgentIx) (b : CensusBody) : Statement (Instr.censusReply a b) := of_other rfl
theorem levelSet (e : Env) (level : Fin 16) (timeout : Nat) : Statement (Instr.levelSet e level timeout) := of_other rfl
theorem unitWaitExpiry (a : AgentIx) : Statement (Instr.unitWaitExpiry a) := of_other rfl
theorem unitTakesCommand (a : AgentIx) : Statement (Instr.unitTakesCommand a) := of_other rfl
theorem aliveLow (die : DieIx) (port : RPort) : Statement (Instr.aliveLow die port) := of_other rfl
theorem handshakeTimeout (die : DieIx) (port : RPort) : Statement (Instr.handshakeTimeout die port) := of_other rfl
theorem portErrorSample : Statement (Instr.portErrorSample) := of_other rfl
theorem hardlineFault (d : DomainIx) (line : Fin 4) : Statement (Instr.hardlineFault d line) := of_other rfl
theorem portResetSeen (a : AgentIx) (unread : Nat) : Statement (Instr.portResetSeen a unread) := of_other rfl
theorem portOpen (a : AgentIx) : Statement (Instr.portOpen a) := of_other rfl
theorem commandIssue (l : LogIx) (c : Cmd) : Statement (Instr.commandIssue l c) := of_other rfl
theorem commandStart (t : TileIx) (seq : Word) : Statement (Instr.commandStart t seq) := of_other rfl
theorem passCheckResult (t : TileIx) (p : PassIn) : Statement (Instr.passCheckResult t p) := of_other rfl
theorem indexParityError (t : TileIx) (seq : Word) (pass exec : Nat) :
    Statement (Instr.indexParityError t seq pass exec) := of_other rfl
theorem operandParityError (t : TileIx) (seq : Word) (pass exec : Nat) :
    Statement (Instr.operandParityError t seq pass exec) := of_other rfl
theorem converterMismatch (t : TileIx) (seq : Word) (pass exec : Nat) :
    Statement (Instr.converterMismatch t seq pass exec) := of_other rfl
theorem checkerInjection (t : TileIx) (row : Fin 128) (col : Fin 96) (d : Nat) :
    Statement (Instr.checkerInjection t row col d) := of_other rfl
theorem reexecResult (t : TileIx) (seq : Word) (failed : Bool) (cause : Cause) (pass : Nat) (l : Location) :
    Statement (Instr.reexecResult t seq failed cause pass l) := of_other rfl
theorem selfFenceTimer (t : TileIx) : Statement (Instr.selfFenceTimer t) := of_other rfl
theorem commandComplete (t : TileIx) (seq : Word) (outs : List StreamOut) : Statement (Instr.commandComplete t seq outs) := of_other rfl
theorem commandCommit (t : TileIx) (seq : Word) : Statement (Instr.commandCommit t seq) := of_other rfl
theorem taggedWrite (n : StackIx) (w : TagWrite) : Statement (Instr.taggedWrite n w) := of_other rfl
theorem tokenArrival (t : TileIx) (k : Token) : Statement (Instr.tokenArrival t k) := of_other rfl
theorem stepBarrier (b : Barrier) : Statement (Instr.stepBarrier b) := of_other rfl
theorem samplerUpdate (t : TileIx) (c : CtxIx) (seed : Word64) (r : Fin 16) : Statement (Instr.samplerUpdate t c seed r) := of_other rfl
theorem startCopyDone (t : TileIx) (waited : Nat) : Statement (Instr.startCopyDone t waited) := of_other rfl
theorem multicastOverrun (t : TileIx) : Statement (Instr.multicastOverrun t) := of_other rfl
theorem holdWaitExpiry (t : TileIx) (seq : Word) : Statement (Instr.holdWaitExpiry t seq) := of_other rfl
theorem arbitrationStart : Statement (Instr.arbitrationStart) := of_other rfl
theorem captureCopyDone (slot : Fin 2) (ofd : Ofd) (parityError : Bool) :
    Statement (Instr.captureCopyDone slot ofd parityError) := of_other rfl
theorem watchPeriodExpiry (t : TileIx) : Statement (Instr.watchPeriodExpiry t) := of_other rfl
theorem tileFenceCommand (t : TileIx) (reason : Nat) : Statement (Instr.tileFenceCommand t reason) := of_other rfl
theorem fenceUnconfirmed (t : TileIx) : Statement (Instr.fenceUnconfirmed t) := of_other rfl
theorem replacementStart : Statement (Instr.replacementStart) := of_other rfl
theorem reloadComplete (slot : Fin 2) (slag : Option CtxIx) : Statement (Instr.reloadComplete slot slag) := of_other rfl
theorem spareRecordWriteDone (ok : Bool) : Statement (Instr.spareRecordWriteDone ok) := of_other rfl
theorem spareRecordRetry : Statement (Instr.spareRecordRetry) := of_other rfl
theorem hbmUncorrectable (n : StackIx) (addr : Nat) : Statement (Instr.hbmUncorrectable n addr) := of_other rfl
theorem tileSramUE (t : TileIx) (addr : Nat) (control : Bool) : Statement (Instr.tileSramUE t addr control) := of_other rfl
theorem pathParityFail (p : ParityPoint) (addr : Nat) : Statement (Instr.pathParityFail p addr) := of_other rfl
theorem slagConsumed (t : TileIx) (seq : Word) (code addr : Nat) : Statement (Instr.slagConsumed t seq code addr) := of_other rfl
theorem dataReplyArrival (via : ReplyVia) (dom : Fin 16) (gen : Byte) (ctx : CtxIx) :
    Statement (Instr.dataReplyArrival via dom gen ctx) := of_other rfl
theorem remoteGoneAnswer (p : PortIx) (selfReset : Bool) (bytes : Nat) :
    Statement (Instr.remoteGoneAnswer p selfReset bytes) := of_other rfl
theorem genHoldoffExpiry : Statement (Instr.genHoldoffExpiry) := of_other rfl
theorem tileWatchdogExpiry (t : TileIx) : Statement (Instr.tileWatchdogExpiry t) := of_other rfl
theorem contextWatchdogExpiry (c : CtxIx) : Statement (Instr.contextWatchdogExpiry c) := of_other rfl
theorem partitionWatchdogExpiry (p : PartIx) : Statement (Instr.partitionWatchdogExpiry p) := of_other rfl
theorem chipWatchdogExpiry : Statement (Instr.chipWatchdogExpiry) := of_other rfl
theorem edgeReport (t : TileIx) (e : Edge) : Statement (Instr.edgeReport t e) := of_other rfl
theorem edgeWithdraw (t : TileIx) (e : Edge) : Statement (Instr.edgeWithdraw t e) := of_other rfl
theorem knotTimeoutExpiry (stillBlocked : Bool) (entries : Nat) :
    Statement (Instr.knotTimeoutExpiry stillBlocked entries) := of_other rfl
theorem spillRead (c : CtxIx) (queue : Nat) (pos : Word) : Statement (Instr.spillRead c queue pos) := of_other rfl
theorem reconfiguration (t : TileIx) (seq : Word) : Statement (Instr.reconfiguration t seq) := of_other rfl
theorem reconfigCommit (t : TileIx) (windowExpired : Bool) (leftover : Nat) (mustDrain : Option (CtxIx × Word)) :
    Statement (Instr.reconfigCommit t windowExpired leftover mustDrain) := of_other rfl
theorem contextKill (h : Hdr) (c : CtxIx) : Statement (Instr.contextKill h c) := of_host rfl rfl fun _ => rfl
theorem contextKillCommand (t : TileIx) (c : CtxIx) : Statement (Instr.contextKillCommand t c) := of_other rfl
theorem killTimeout (t : TileIx) (c : CtxIx) : Statement (Instr.killTimeout t c) := of_other rfl
theorem quarantineExpiry (c : CtxIx) : Statement (Instr.quarantineExpiry c) := of_other rfl
theorem resetComplete : Statement (Instr.resetComplete) := of_other rfl
theorem resetBoundExpiry : Statement (Instr.resetBoundExpiry) := of_other rfl
theorem escHoldExpiry : Statement (Instr.escHoldExpiry) := of_other rfl
theorem escRelease (h : Hdr) : Statement (Instr.escRelease h) := of_host rfl rfl (congrArg (!·))
theorem snapshot (h : Hdr) (scope : SnapScope) : Statement (Instr.snapshot h scope) := of_host rfl rfl fun _ => rfl
theorem snapshotUnitTimeout (buffer : Fin 2) (a : AgentIx) : Statement (Instr.snapshotUnitTimeout buffer a) := of_other rfl
theorem snapshotComplete (buffer : Fin 2) : Statement (Instr.snapshotComplete buffer) := of_other rfl
theorem snapshotWriteTimeout (buffer : Fin 2) : Statement (Instr.snapshotWriteTimeout buffer) := of_other rfl
theorem snapCopy (h : Hdr) (buffer : Fin 2) (offset length : Nat) :
    Statement (Instr.snapCopy h buffer offset length) := of_host rfl rfl fun _ => rfl
theorem snapRelease (h : Hdr) (buffer : Fin 2) : Statement (Instr.snapRelease h buffer) := of_host rfl rfl fun _ => rfl
theorem fenceNoticeReceive (p : PortIx) (n : FenceNotice) : Statement (Instr.fenceNoticeReceive p n) := of_other rfl
theorem boundaryStop (h : Hdr) (parts : BitVec 4) (step : Bool) :
    Statement (Instr.boundaryStop h parts step) := of_host rfl rfl fun _ => rfl
theorem boundaryCutReached : Statement (Instr.boundaryCutReached) := of_other rfl
theorem bstopTimeout : Statement (Instr.bstopTimeout) := of_other rfl
theorem boundaryResume (h : Hdr) : Statement (Instr.boundaryResume h) := of_host rfl rfl fun _ => rfl
theorem bistSlotOpen : Statement (Instr.bistSlotOpen) := of_other rfl
theorem handOverComplete (slot : Option (Fin 8)) : Statement (Instr.handOverComplete slot) := of_other rfl
theorem bistResult (r : BistRun) (t : TileIx) : Statement (Instr.bistResult r t) := of_other rfl
theorem handBackComplete (slot : Option (Fin 8)) : Statement (Instr.handBackComplete slot) := of_other rfl
theorem returnTestRetry (t : TileIx) (r : BistRun) : Statement (Instr.returnTestRetry t r) := of_other rfl
theorem bistDiag (t : TileIx) (pattern : Nat) : Statement (Instr.bistDiag t pattern) := of_other rfl
theorem hbmRowSlice (n : StackIx) (temp : Int) (fails : List (Fin 16 × Bool × Nat × Nat)) (lost : List Nat) (w : EnvWindow) :
    Statement (Instr.hbmRowSlice n temp fails lost w) := of_other rfl
theorem anvilRun (h : Hdr) (tiles : List TileName) (kernels : BitVec 12) (times : Nat) :
    Statement (Instr.anvilRun h tiles kernels times) := of_host rfl rfl fun _ => rfl
theorem anvilRunStart : Statement (Instr.anvilRunStart) := of_other rfl
theorem anvilCoverTimeout : Statement (Instr.anvilCoverTimeout) := of_other rfl
theorem anvilKernelResult (slot : Fin 8) (r : KernelRes) : Statement (Instr.anvilKernelResult slot r) := of_other rfl
theorem txnBegin (h : Hdr) : Statement (Instr.txnBegin h) := of_host rfl rfl (congrArg (!·))
theorem txnItemRegion (h : Hdr) (ix : Fin 64) (e : Option RegionEntry) :
    Statement (Instr.txnItemRegion h ix e) := of_host rfl rfl fun _ => rfl
theorem txnItemPortRole (h : Hdr) (p : PortIx) (r : PortRole) : Statement (Instr.txnItemPortRole h p r) := of_host rfl rfl fun _ => rfl
theorem txnItemRoute (h : Hdr) (ix : Fin 1024) (r : Option Route) :
    Statement (Instr.txnItemRoute h ix r) := of_host rfl rfl fun _ => rfl
theorem txnItemSliceFilter (h : Hdr) (p : PortIx) (ix : Fin 16) (e : Option Slice) :
    Statement (Instr.txnItemSliceFilter h p ix e) := of_host rfl rfl fun _ => rfl
theorem txnItemSparing (h : Hdr) (r : SpareReq) (t : TileIx) : Statement (Instr.txnItemSparing h r t) := of_host rfl rfl fun _ => rfl
theorem txnCommitImmediate (h : Hdr) : Statement (Instr.txnCommitImmediate h) := of_host rfl rfl fun _ => rfl
theorem txnCommitStep (h : Hdr) : Statement (Instr.txnCommitStep h) := of_host rfl rfl fun _ => rfl
theorem txnAbort (h : Hdr) : Statement (Instr.txnAbort h) := of_host rfl rfl (congrArg (!·))
theorem txnTimeoutExpiry (w : World) : Statement (Instr.txnTimeoutExpiry w) := of_other rfl
theorem transactionalRegisterWrite (a : Acc) (v : Word) : Statement (Instr.transactionalRegisterWrite a v) := of_other rfl
theorem fnEnable (h : Hdr) (f : FnIx) : Statement (Instr.fnEnable h f) := of_host rfl rfl fun _ => rfl
theorem fnDisable (h : Hdr) (f : FnIx) : Statement (Instr.fnDisable h f) := of_host rfl rfl fun _ => rfl
theorem fnStartComplete (f : FnIx) (ok : Bool) : Statement (Instr.fnStartComplete f ok) := of_other rfl
theorem fnStopComplete (f : FnIx) : Statement (Instr.fnStopComplete f) := of_other rfl
theorem nop (h : Hdr) : Statement (Instr.nop h) := of_host rfl rfl (congrArg (!·))
theorem removeAck (h : Hdr) : Statement (Instr.removeAck h) := of_host rfl rfl (congrArg (!·))
theorem resetRequestPartition (h : Hdr) (p : PartIx) : Statement (Instr.resetRequestPartition h p) := of_host rfl rfl fun _ => rfl
theorem resetRequestComputePart (h : Hdr) : Statement (Instr.resetRequestComputePart h) := of_host rfl rfl fun _ => rfl
theorem resetRequestChip (h : Hdr) : Statement (Instr.resetRequestChip h) := of_host rfl rfl fun _ => rfl
theorem ofdRegister (h : Hdr) (d : OfdDecl) : Statement (Instr.ofdRegister h d) := of_host rfl rfl fun _ => rfl
theorem ofdRelease (h : Hdr) (handle : Fin 256) : Statement (Instr.ofdRelease h handle) := of_host rfl rfl fun _ => rfl
theorem ofdRead (h : Hdr) (handle : Fin 256) : Statement (Instr.ofdRead h handle) := of_host rfl rfl fun _ => rfl
theorem scrubDigest (h : Hdr) (d : OfdDecl) : Statement (Instr.scrubDigest h d) := of_host rfl rfl fun _ => rfl
theorem ofdVerify (h : Hdr) (d : OfdDecl) (expected : Ofd) (count : Nat) :
    Statement (Instr.ofdVerify h d expected count) := of_host rfl rfl fun _ => rfl
theorem scrubStart : Statement (Instr.scrubStart) := of_other rfl
theorem scrubComplete (parts : List ScrubPart) : Statement (Instr.scrubComplete parts) := of_other rfl
theorem digestLatchCommand (n : StackIx) (c : CtxIx) (step : Word) : Statement (Instr.digestLatchCommand n c step) := of_other rfl
theorem bankLatch (n : StackIx) (c : CtxIx) (step : Word) (kat : List Ofd) : Statement (Instr.bankLatch n c step kat) := of_other rfl
theorem replicaInterval (group : Word) (r : ReplicaReg) : Statement (Instr.replicaInterval group r) := of_other rfl
theorem digestExchange (m : CmpHdr) (group : Word) (member : Fin 16) (version : Word) (keySet : Fin 4) (ofd : Ofd) (count : Nat) (status : Fin 9) :
    Statement (Instr.digestExchange m group member version keySet ofd count status) := of_other rfl
theorem obsCtxRead (h : Hdr) (c : CtxIx) : Statement (Instr.obsCtxRead h c) := of_host rfl rfl fun _ => rfl
theorem watchSet (h : Hdr) (w : WatchDecl) : Statement (Instr.watchSet h w) := of_host rfl rfl fun _ => rfl
theorem watchRelease (h : Hdr) (part : PartIx) (wp : Fin 8) : Statement (Instr.watchRelease h part wp) := of_host rfl rfl fun _ => rfl
theorem watchCopyDone (part : PartIx) (wp : Fin 8) (bytes : Nat) : Statement (Instr.watchCopyDone part wp bytes) := of_other rfl
theorem watchHoldExpiry (part : PartIx) (wp : Fin 8) (bytes : Nat) : Statement (Instr.watchHoldExpiry part wp bytes) := of_other rfl
theorem pcSample (t : TileIx) (pc : Word) (stall : Option (Fin 8)) : Statement (Instr.pcSample t pc stall) := of_other rfl
theorem traceBlockClaim (part : PartIx) (writer : Nat) : Statement (Instr.traceBlockClaim part writer) := of_other rfl
theorem traceBlockCloseTimer (part : PartIx) (writer : Nat) : Statement (Instr.traceBlockCloseTimer part writer) := of_other rfl
theorem traceTimeRecord : Statement (Instr.traceTimeRecord) := of_other rfl
theorem traceRecordDrop (part : PartIx) (writer : Nat) (count : Nat) :
    Statement (Instr.traceRecordDrop part writer count) := of_other rfl
theorem linkFrameReceive (p : PortIx) (f : Frame) : Statement (Instr.linkFrameReceive p f) := of_other rfl
theorem linkFrameSend (p : PortIx) (t : TileIx) (f : Frame) : Statement (Instr.linkFrameSend p t f) := of_other rfl
theorem linkTrained (p : PortIx) (floors : List Nat) : Statement (Instr.linkTrained p floors) := of_other rfl
theorem identityBlockReceive (p : PortIx) (i : Identity) : Statement (Instr.identityBlockReceive p i) := of_other rfl
theorem linkLossOfSignal (p : PortIx) : Statement (Instr.linkLossOfSignal p) := of_other rfl
theorem linkRetrainTimer (p : PortIx) (trained farEnd : Bool) (floors : List Nat) :
    Statement (Instr.linkRetrainTimer p trained farEnd floors) := of_other rfl
theorem laneMarginCheck (p : PortIx) (lanes : List (Nat × Nat)) : Statement (Instr.laneMarginCheck p lanes) := of_other rfl
theorem linkAlarmCheck (p : PortIx) (fec retry : Nat) : Statement (Instr.linkAlarmCheck p fec retry) := of_other rfl
theorem sensorRound (readings : List (Sensor × Int)) (dies : List DieSample) :
    Statement (Instr.sensorRound readings dies) := of_other rfl
theorem thermalGraceExpiry (u : ThermalUnit) : Statement (Instr.thermalGraceExpiry u) := of_other rfl
theorem temperTick (g : Fin 16) : Statement (Instr.temperTick g) := of_other rfl
theorem tripAssert (x : Sensor) (temp : Int) : Statement (Instr.tripAssert x temp) := of_other rfl
theorem stackTripSample (n : StackIx) (temp : Int) : Statement (Instr.stackTripSample n temp) := of_other rfl
theorem stackTripConfirm (n : StackIx) (temp : Int) : Statement (Instr.stackTripConfirm n temp) := of_other rfl
theorem sensorReadRequest (a : Acc) (v : Word) (temp : Option Int) : Statement (Instr.sensorReadRequest a v temp) := of_other rfl
theorem pmbusRound (rs : List PmbRead) : Statement (Instr.pmbusRound rs) := of_other rfl
theorem powerAverage : Statement (Instr.powerAverage) := of_other rfl
theorem powerGraceExpiry : Statement (Instr.powerGraceExpiry) := of_other rfl
theorem powerFloorExpiry : Statement (Instr.powerFloorExpiry) := of_other rfl
theorem powerFailWarn : Statement (Instr.powerFailWarn) := of_other rfl
theorem attnRequest : Statement (Instr.attnRequest) := of_other rfl
theorem hostNoticeWaitExpiry : Statement (Instr.hostNoticeWaitExpiry) := of_other rfl
theorem removalPowerDownDone : Statement (Instr.removalPowerDownDone) := of_other rfl
theorem hostFullReset (perst : Bool) : Statement (Instr.hostFullReset perst) := of_other rfl
theorem pmStateChange (d3 : Bool) : Statement (Instr.pmStateChange d3) := of_other rfl
theorem backgroundFlush : Statement (Instr.backgroundFlush) := of_other rfl
theorem flushComplete (ok : Bool) (duration : Nat) : Statement (Instr.flushComplete ok duration) := of_other rfl
theorem headerWriteTimer : Statement (Instr.headerWriteTimer) := of_other rfl
theorem storeRetry (ok : Bool) : Statement (Instr.storeRetry ok) := of_other rfl
theorem recFlushReq (a : Acc) (v : Word) : Statement (Instr.recFlushReq a v) := of_other rfl
theorem recFreeze (a : Acc) (v : Word) : Statement (Instr.recFreeze a v) := of_other rfl
theorem freezeLimitExpiry : Statement (Instr.freezeLimitExpiry) := of_other rfl
theorem recErase (a : Acc) (v : Word) : Statement (Instr.recErase a v) := of_other rfl
theorem eraseOverwriteDone : Statement (Instr.eraseOverwriteDone) := of_other rfl
theorem hrtCmdCtrlWrite (a : Acc) (v : Word) : Statement (Instr.hrtCmdCtrlWrite a v) := of_other rfl
theorem hrtNtcConsWrite (a : Acc) (v : Word) : Statement (Instr.hrtNtcConsWrite a v) := of_other rfl
theorem hrtIrqCauseClear (a : Acc) (v : Word) : Statement (Instr.hrtIrqCauseClear a v) := of_other rfl
theorem hrtTbCapture (a : Acc) (v : Word) : Statement (Instr.hrtTbCapture a v) := of_other rfl
theorem hrtConsSelWrite (a : Acc) (v : Word) : Statement (Instr.hrtConsSelWrite a v) := of_other rfl
theorem twdJnlSelWrite (a : Acc) (v : Word) : Statement (Instr.twdJnlSelWrite a v) := of_other rfl
theorem twdCheckInjectWrite (a : Acc) (v : Word) : Statement (Instr.twdCheckInjectWrite a v) := of_other rfl
theorem blwDeadClear (a : Acc) (v : Word) : Statement (Instr.blwDeadClear a v) := of_other rfl
theorem blwRspTimeoutWrite (a : Acc) (v : Word) : Statement (Instr.blwRspTimeoutWrite a v) := of_other rfl
theorem obsFullEnWrite (a : Acc) (v : Word) : Statement (Instr.obsFullEnWrite a v) := of_other rfl
theorem counterLowRead (a : Acc) : Statement (Instr.counterLowRead a) := of_other rfl
theorem counterHighRead (a : Acc) : Statement (Instr.counterHighRead a) := of_other rfl
theorem rcRead (a : Acc) : Statement (Instr.rcRead a) := of_other rfl
theorem registerWrite (a : Acc) (v : Word) : Statement (Instr.registerWrite a v) := of_other rfl
theorem hello (m : CmpHdr) (lowest highest : BitVec 16) (features : Word) :
    Statement (Instr.hello m lowest highest features) := of_other rfl
theorem sessionOpen (m : CmpHdr) (ephemeral nonce : List Byte) (index : Nat) (key signature : List Byte) :
    Statement (Instr.sessionOpen m ephemeral nonce index key signature) := of_other rfl
theorem sessionClose (m : CmpHdr) : Statement (Instr.sessionClose m) := of_other rfl
theorem sessionIdleExpiry (slot : Fin 4) : Statement (Instr.sessionIdleExpiry slot) := of_other rfl
theorem cmpStatus (m : CmpHdr) : Statement (Instr.cmpStatus m) := of_other rfl
theorem recordRead (m : CmpHdr) (first : Word) (count : Nat) : Statement (Instr.recordRead m first count) := of_other rfl
theorem cmpRegRead (m : CmpHdr) (offs : List Nat) : Statement (Instr.cmpRegRead m offs) := of_other rfl
theorem cmpRegWrite (m : CmpHdr) (pairs : List (Nat × Word)) : Statement (Instr.cmpRegWrite m pairs) := of_other rfl
theorem snapshotRead (m : CmpHdr) (buffer : Fin 2) (offset : Nat) : Statement (Instr.snapshotRead m buffer offset) := of_other rfl
theorem cmpCommand (m : CmpHdr) (c : HostCmd) : Statement (Instr.cmpCommand m c) := of_other rfl
theorem setCoordinates (m : CmpHdr) (coords : Word) : Statement (Instr.setCoordinates m coords) := of_other rfl
theorem wiringSet (m : CmpHdr) (part count : Nat) (entries : List WireExp) :
    Statement (Instr.wiringSet m part count entries) := of_other rfl
theorem replicaDeclare (m : CmpHdr) (group : Word) (members : List Word) (self : Fin 16) (interval : Nat) :
    Statement (Instr.replicaDeclare m group members self interval) := of_other rfl
theorem imageWrite (m : CmpHdr) (offset : Nat) (data : List Byte) : Statement (Instr.imageWrite m offset data) := of_other rfl
theorem imageArm (m : CmpHdr) (autoConfirm : Bool) : Statement (Instr.imageArm m autoConfirm) := of_other rfl
theorem imageConfirm (m : CmpHdr) : Statement (Instr.imageConfirm m) := of_other rfl
theorem rollbackCommit (m : CmpHdr) : Statement (Instr.rollbackCommit m) := of_other rfl
theorem keyRevoke (m : CmpHdr) (slot : Fin 4) : Statement (Instr.keyRevoke m slot) := of_other rfl
theorem removeRequest (m : CmpHdr) : Statement (Instr.removeRequest m) := of_other rfl
theorem mainOn (m : CmpHdr) : Statement (Instr.mainOn m) := of_other rfl
theorem eventSubscribe (m : CmpHdr) (addr port : Nat) (mask : Word) : Statement (Instr.eventSubscribe m addr port mask) := of_other rfl
theorem eventAck (m : CmpHdr) (event : Word) : Statement (Instr.eventAck m event) := of_other rfl
theorem eventResendTimer : Statement (Instr.eventResendTimer) := of_other rfl
theorem i3cPointerWrite (bytes : List Byte) : Statement (Instr.i3cPointerWrite bytes) := of_other rfl
theorem i3cPrivateRead (len : Nat) : Statement (Instr.i3cPrivateRead len) := of_other rfl
theorem entdaa (addr : Fin 128) : Statement (Instr.entdaa addr) := of_other rfl
theorem setdasa (static : Fin 128) (addr : Fin 128) : Statement (Instr.setdasa static addr) := of_other rfl
theorem ibiRetryTimer (accepted : Bool) : Statement (Instr.ibiRetryTimer accepted) := of_other rfl
theorem contextAssigned (c : CtxIx) (d : CtxDesc) : Statement (Instr.contextAssigned c d) := of_other rfl
theorem badOpcode (h : Hdr) (opcode : BitVec 16) : Statement (Instr.badOpcode h opcode) := of_host rfl rfl (congrArg (!·))
theorem rstdaa : Statement (Instr.rstdaa) := of_other rfl
theorem getpid : Statement (Instr.getpid) := of_other rfl
theorem getbcr : Statement (Instr.getbcr) := of_other rfl
theorem getdcr : Statement (Instr.getdcr) := of_other rfl
theorem getstatus : Statement (Instr.getstatus) := of_other rfl
theorem getmxds : Statement (Instr.getmxds) := of_other rfl
theorem enec : Statement (Instr.enec) := of_other rfl
theorem disec : Statement (Instr.disec) := of_other rfl
theorem refclkReturn : Statement (Instr.refclkReturn) := of_other rfl
theorem pcieLinkTrained : Statement (Instr.pcieLinkTrained) := of_other rfl
theorem mainPathRemoved : Statement (Instr.mainPathRemoved) := of_other rfl

end Sys2Proof.Laws.F
end

