-- ==== Sys2Proof/Tests/Slice0.lean ====
section
/-! SUPPORT. The model's own tests: a term that each check of WellFormed refuses, values that the spec works out, single commands,
and for every obligation states and operands that meet its hypotheses, clause by clause. -/
open Sys2Proof Sys2Proof.Machine
namespace Sys2Proof.Machine

/-! ### States and operands the tests share -/

/-- A package in service: Hearth core running, main power good, command intake enabled, nothing else changed from reset. -/
def srv : State := { State.reset with
  regs := [(HRT_CMD_CTRL, 1)]
  sq := ⟨.running, 0, false, none, none, 0, 20, [], []⟩
  time := ⟨2000000, 0, true, 0, none, 0, none⟩
  pw := ⟨true, true, false, 0, 0x1FFFFFFFFFF, 0x1FFFFFFFFFF, 0, 0, true, false, false, false, false, false, true, false, false⟩
  bu := { pkg := .ready, stage := 9, complete := true } }
/-- A host command of the operator over the window, and one over CMP. -/
def hw : Hdr := ⟨.window true, 0, true, 0, false, false⟩
def hc : Hdr := ⟨.cmp ⟨1, 0, false, true, 5⟩, 0, true, 0, false, false⟩
/-- A command of context 1. -/
def cmd1 : Cmd := ⟨1, 7, 3, .bi8, 0, true, false, false, [.external ⟨0x100000, 0x1000⟩], 64, false, [], 1, 1, 0⟩
def desc1 : CtxDesc := ⟨9, 3, 5, false, false, false, 262144, [], [], []⟩
/-- Context 1 in use, its logical tile 0 on tile 0. -/
def srvCtx : State := { srv with
  ctxs := [(1, { used := true, desc := desc1, step := 3 })]
  plan := { fp := [(0, { st := .good }), (1, { st := .spare })], map := [(0, 0)] }
  tiles := [(0, { role := .logical }), (1, { role := .idle })] }
/-- Tile 0 running the command. -/
def srvRun : State := { srvCtx with tiles := [(0, { role := .logical, jnl := [(0, { cmd := cmd1, state := .running, execs := 1, passes := 1 })], jhead := 0 }), (1, { role := .idle })] }
/-- A knot of context 1: tile 0 waits for itself with a full queue. -/
def srvKnot : State := { srvRun with
  esc := { graph := [⟨⟨1, 3, 0, 0, true, 5, 64⟩, 0⟩] }
  time := { srvRun.time with tb := 4000000000 }
  tiles := [(0, { role := .logical, queues := [(259, { depth := 2, tokens := [(5, 0, false), (6, 0, false)] })] })] }
/-- A package whose PMBus channel 4 is the input power. -/
def srvPmb : State := { srv with regs := [(HRT_CMD_CTRL, 1), (itemKey HRT_PMB_MAP 4, 0x80000000)] }
/-- A host command over authenticated CMP. -/
def ha : Hdr := ⟨.cmp ⟨1, 3, true, true, 5⟩, 0, true, 0, false, false⟩
def srvIss : State := { srvCtx with tiles := [(0, { role := .logical, jnl := [(0, { cmd := cmd1 })], jhead := 0 }), (1, { role := .idle })] }
def jDone : JEntry := { cmd := cmd1, state := .complete, wrote := true, execs := 1, passes := 1, judged := [0], residue := 1 }
def srvDone : State := { srvCtx with tiles := [(0, { role := .logical, jnl := [(0, jDone)], jhead := 0 })] }
def srvHold : State := { srvCtx with tiles := [(0, { role := .logical, jnl := [(0, { jDone with cmpWait := true })], jhead := 0 })] }
def jRetry : JEntry := { jDone with state := .running, held := true, outcome := 3 }
def srvRetry : State := { srvCtx with tiles := [(0, { role := .logical, jnl := [(0, jRetry)], jhead := 0, retry := some (7, .residue) })] }
def srvRetryC : State := { srvCtx with tiles := [(0, { role := .logical, jnl := [(0, { jRetry with state := .complete })], jhead := 0, retry := some (7, .residue) })] }
def items0 : CmpItems := ⟨7, ⟨1, 2⟩, [0, 0, 0, 0], 1, true, true, 0, false⟩
def arb1 : Arb := ⟨0, 1, 1, 3, 7, 0, 0, false, true, none, false, [], items0, { items0 with ofd := ⟨3, 4⟩ }⟩
/-- Tile 1 shadows tile 0. -/
def srvArb : State := { srvCtx with tiles := [(0, { role := .logical, jnl := [(0, { jDone with sampled := true })], jhead := 0 }),
  (1, { role := .shadow, jnl := [(0, { cmd := cmd1, role := .shadow, primary := some 0 })], jhead := 0, slots := [some { primary := 0, ctx := 1, seq := 7, hold := false }, none] })] }
def repl0 : Repl := ⟨0, 0, some ⟨3, 1, 0, 0x0102, []⟩, none, 5, none, 0, []⟩
/-- Tile 0 fenced, its number waiting for the spare, tile 1. -/
def srvRepl : State := { srvDone with
  tiles := [(0, { role := .out, gateClosed := true, jnl := [(0, jDone)], jhead := 0, gate := [{ cmd1 with seq := 8 }] }), (1, { role := .idle })]
  plan := { fp := [(0, { st := .fenced, reason := 1 }), (1, { st := .spare })], map := [(0, 0)], waiting := [repl0] } }
def repl1 : Repl := { repl0 with spare := some 1 }
/-- The first MiB of memory after the base is of class control. -/
def srvCtl : State := { srvCtx with regions := [(0, ⟨1, 1, true, .secure, .general⟩)] }
def ofd1 : OfdDecl := ⟨1, ⟨0x100000, 0x1000⟩, 1, 0, 0⟩
/-- Handle 1 over a page of a general region of the non-secure world. -/
def srvOfd : State := { srvCtx with
  regions := [(0, ⟨1, 64, false, .nonSecure, .general⟩)]
  ofd := { handles := [(1, { d := ofd1 })] }
  agents := (List.range 24).map fun n => (agentKey (srv.stackAgent (Fin.ofNat 24 n)), { resync := false }) }
def srvScrub : State := { srvOfd with fns := [(4, ⟨.on, 1, .nonSecure⟩)] }
def partA : ScrubPart := ⟨3, 0, [1, 2, 3, 4], [], 0⟩
def scrA : Scrub := ⟨some ⟨hw, 0x43⟩, ofd1, none, []⟩
def scrV : Scrub := ⟨some ⟨hc, 0x44⟩, ofd1, some ((srvScrub.partBank ofd1 [] partA).ofd, 4), []⟩
def grp1 : Group := { ident := 7, members := [1, 2, 3], self := 0 }
/-- The trace function ON, every source selected, partition 0 traced. -/
def srvTrace : State := { srvRun with fns := [(1, ⟨.on, 1, .nonSecure⟩)]
                                      regs := [(HRT_CMD_CTRL, 1), (OBS_TRACE_CFG, 0xFFFFFF), (itemKey OBS_TRACE_SIZE 0, 1)] }
def watch1 : WatchDecl := ⟨0, 1, 4, .address 0 0x800, ⟨0x100000, 0x1000⟩⟩
def srvWatch : State := { srvScrub with fns := [(2, ⟨.on, 1, .nonSecure⟩)] }
def srvSnap : State := { srvRun with esc := { snaps := [{}, { st := 1, todo := [⟨0, 3⟩, ⟨0, 30⟩] }] } }
def anv1 : AnvilJob := { tile := 0, why := .nonidem, kernels := [0, 1], all := [0, 1] }
def envGood : EnvWindow := ⟨7275, 7875, 1200, 2000, 0⟩
def bistGood : BistRun := ⟨envGood, [], [], 0, 0, 0, 0⟩
def bistBad : BistRun := ⟨envGood, [(7, 63, 9)], [], 0, 0, 0, 0⟩
def srvReturn : State := { srvCtx with plan := { srvCtx.plan with fp := [(0, { st := .good }), (5, { st := .fenced, reason := 1 })] },
                                       test := { returns := [{ tile := 5, long := true }] } }
def id1 : Identity := ⟨77, 0x102, 4, 2, [1, 2, 3, 4], 9, 0⟩
def notice1 : FenceNotice := ⟨6, 4, 77, 0x102, 9, 10, [2, 2, 3, 4], [(9, 3)]⟩
def port1 : Port := { up := true, far := some id1, gens := [1, 2, 3, 4], floors := [20, 20] }
def frame1 : Sys2Proof.Frame := ⟨9, 3, 2, 0, 1, true, 64⟩
/-- Port 5 up, with a slice entry and a route for tag 9. -/
def srvLink : State := { srvRun with ports := [(5, port1)], slices := [(80, ⟨9, true, true, 0x102⟩)], routes := [(0, ⟨9, 3, 5, none⟩)] }
/-- Bring-up at a stage: standby power, the core running, every tile a candidate. -/
def boot (n : Nat) : State := { srv with bu := { stage := n, good := List.finRange 144 } }
/-- The census waits for two agents, the anchor's router and tile 0's warden. -/
def bootCensus : State := { boot 2 with agents := [(agentKey (routerAgent srv.anchor), { probing := true }), (agentKey (tileAgent 0), { probing := true })] }
def chunk1 : FwChunk := ⟨3, 5, 4096, crc32 (List.replicate 4096 0), List.replicate 4096 0⟩
def bootCast : State := { boot 6 with bu := { stage := 6, good := [0, 1], fwGen := 3, cast := some { pending := [0] } }, tiles := [(0, { fwGen := 3 })], regs := [(tileReg 0 TWD_FW_STATUS, 0x40000003)] }
def tab1 : List WireExp := []
/-- Every warden island is up and tile 0's warden is an agent at level 2. -/
def srvBus : State := { srv with pw := { srv.pw with islands := 0x1FFFFFF }, agents := [(agentKey (tileAgent 0), { present := true, level := 2, resync := false })], bus := { level := 2 } }
def env1 : Env := ⟨tileAgent 0, srvBus.anchor, 0, 5, ⟨2, none, none⟩⟩
/-- A message with the TAIL of its flits. -/
def wireFor (dst src : AgentIx) (cls seq op : Nat) (operands : List Nat) (level : Fin 16) : Wire :=
  ⟨level, none, some (msgCrc (msgFlits dst src cls seq op level.val operands))⟩
def envFor (a : AgentIx) (cls op : Nat) (operands : List Nat) (level : Fin 16) : Env :=
  ⟨a, srvBus.anchor, 0, 5, wireFor a ⟨srvBus.anchor, 0⟩ cls 5 op operands level⟩
def rep1 : Rep := .pathParity 3 64
def bell1 : Bell := .levelSet 2 8
def head1 : Head := ⟨none, 9, 31, tileAgent 0, 2, none, none⟩
def row0 (o : Nat) : RegRow := ((rowAt o).map fun x => x.1).getD ⟨0, 0, 0, .ro, false, 0, 0, 0, false, none, false, .none⟩
def accH (o : Nat) : Acc := ⟨.host, o, true⟩
def accC (o : Nat) : Acc := ⟨.core, o, true⟩
/-- The transaction of the non-secure world is open. -/
def srvTxn : State := { srv with txns := [(World.num .nonSecure, { isOpen := true, ident := 4, items := [], openedAt := 5, excluded := 0, lastStep := false, commit := none, commitAt := 0 })] }
def recA : Record := ⟨7, 1, 0, 5, 9, []⟩
/-- A session 7 of source 5 with every feature, an idle source 6. -/
def srvCmp : State := { srv with cmp := { sessions := [some ⟨7, 5, 100, 0, 0x3F, some 3, none⟩, none, none, none], sources := [some { addr := 6, last := 5, seq := some 2, features := some 0x3F, nonce := some [1] }, none, none, none, none, none, none, none] } }
/-- A new message of the session, and one of the source. -/
def mA : CmpHdr := ⟨5, 7, true, true, 4⟩
def mU : CmpHdr := ⟨6, 0, false, true, 3⟩
def srvImg : State := { srvCmp with bu := { srvCmp.bu with slot := some 0 } }

/-! ### Ill-formed operands are refused, one theorem per check -/

theorem smoke_acc : (⟨.host, 0x1000000, true⟩ : Acc).wf = false ∧ (⟨.host, 6, true⟩ : Acc).wf = false ∧ (⟨.host, 8, true⟩ : Acc).wf = true := by decide
theorem smoke_ofd : (⟨2 ^ 61 - 1, 0⟩ : Ofd).wf = false ∧ (⟨0, 2 ^ 61 - 1⟩ : Ofd).wf = false ∧ (⟨0, 2 ^ 61 - 2⟩ : Ofd).wf = true := by decide
theorem smoke_cmd : ({ cmd1 with passes := 65537 } : Cmd).wf = false ∧ ({ cmd1 with handles := [256] } : Cmd).wf = false ∧ cmd1.wf = true := by decide
theorem smoke_pass : (⟨0, 0, 1, false, false, [], [], [], [], [], [List.replicate 97 0], [], [], .proper, false⟩ : PassIn).wf = false := by decide
theorem smoke_token : (⟨0, 0, 256, 0, 0, false, false, none⟩ : Token).wf = false := by decide
theorem smoke_tagged_write : (⟨1, 0, 0, 0, [(1, false)], none, none⟩ : TagWrite).wf = false ∧
    (⟨1, 0, 0, 2 ^ 64 - 1, [(1, true), (1, true)], none, none⟩ : TagWrite).wf = false := by decide
theorem smoke_offset : (Instr.regRead env1 0x1000 0).wf = false ∧ (Instr.regWrite env1 0x1000 0 1).wf = false ∧
    (Instr.blockRead env1 0x1000 4).wf = false := by decide
theorem smoke_wire : (⟨2, some 0x10, none⟩ : Wire).wf = false ∧ (⟨2, some 0, none⟩ : Wire).wf = true := by decide
theorem smoke_ports : (Instr.routerForward 9 head1 [head1]).wf = false := by decide
theorem smoke_window : ({ desc1 with replayWindow := 2 ^ 20 + 1 } : CtxDesc).wf = false := by decide
theorem smoke_part : (Instr.reportData (tileAgent 0) rep1 16 ⟨2, none, none⟩).wf = false := by decide
theorem smoke_chunk : (⟨0, 512, 0, 0, []⟩ : FwChunk).wf = false := by decide
theorem smoke_items : ({ items0 with bytes := [0, 0, 0, 0, 0] } : CmpItems).wf = false ∧
    (Rep.shadowDigest 0 .shadow 1 { items0 with ofd := ⟨2 ^ 61, 0⟩ }).wf = false := by decide
theorem smoke_region : (⟨0, 0⟩ : MemRegion).wf = false ∧ (⟨2 ^ 64 - 1, 2⟩ : MemRegion).wf = false := by decide
theorem smoke_decl : (⟨0, ⟨0, 64⟩, 0, 2 ^ 64, 0⟩ : OfdDecl).wf = false ∧ (⟨0, 0, 0, .address 0 64, ⟨0, 0⟩⟩ : WatchDecl).wf = false := by decide
theorem smoke_region_entry : (Instr.txnItemRegion hw 0 (some ⟨2 ^ 44, 1, false, .secure, .general⟩)).wf = false := by decide
theorem smoke_stop : (Instr.boundaryStop hw 0 true).wf = false := by decide
theorem smoke_no_operand : (Instr.nop { hw with badOperand := true }).wf = false ∧ (Instr.nop hw).wf = true := by decide
theorem smoke_session : (Instr.sessionOpen mU [] [] 0 [] []).wf = false := by decide
theorem smoke_count : (Instr.recordRead mA 0 0).wf = false ∧ (Instr.recordRead mA 0 33).wf = false ∧ (Instr.recordRead mA 0 32).wf = true := by decide
theorem smoke_image : (Instr.imageWrite mA (2 ^ 32) []).wf = false := by decide
theorem smoke_source : (Instr.eventSubscribe mA (2 ^ 128) 0 1).wf = false ∧ (Instr.eventSubscribe mA 0 (2 ^ 16) 1).wf = false := by decide
theorem smoke_writer : (Instr.traceBlockClaim 0 193).wf = false := by decide
theorem smoke_identity : (Instr.identityBlockReceive 0 { id1 with gens := [1] }).wf = false ∧
    (Instr.fenceNoticeReceive 0 { notice1 with gens := [1] }).wf = false := by decide
theorem smoke_frame : (Instr.linkFrameReceive 0 { frame1 with destPkg := 4096 }).wf = false ∧
    (Instr.linkFrameSend 0 0 { frame1 with destPkg := 4096 }).wf = false := by decide

/-! ### Values the spec works out -/

/-- A command answers a next state that passes a check. -/
def nextHas (i : Instr) (s : State) (p : State → Bool) : Bool :=
  match exec i s with
  | .next t => p t
  | _ => false

/-- The pass of the worked example of 03_residue_lanes.md (R84 to R90). -/
def passEx : PassIn := ⟨7, 0, 1, false, false, [[100, -37], [55, 12]], [[3], [0]], [[20, -4], [9, 77]], [[1, 2]], [[0, 0], [0, 0]],
  [[26672, -103968], [2416, 2816]], [], [], .proper, false⟩

/-- From reset, standby power opens stage 1 (R288). -/
theorem test_power_on : ((doStandbyPowerGood ⟨none, none, true, true, true, false⟩ State.reset).stageOpen 1) = true := by decide +kernel

/-- A firmware that boots asserts READY_FOR_MAIN, and main input good then opens the census (R317, R318, R305). -/
theorem test_main_on :
    (let s := doStage2 ((doStandbyPowerGood ⟨none, none, true, true, true, false⟩ State.reset).modBu fun b => { b with stage := 2 })
     s.pw.readyForMain && (doMainInputGood [] s).pw.mainGood && (doMainInputGood [] s).censusOpen) = true := by decide +kernel

theorem test_residue_predictions : predRow 0 passEx 0 = 4614 ∧ predRow 0 passEx 1 = 5232 ∧ predCol 0 passEx 0 = 4515 ∧ predCol 0 passEx 1 = 5331 ∧
    (locate 0 passEx).rows = 0 := by decide +kernel
/-- Bit 20 of acc[0,1] flipped: one row and one column with syndrome 8,063. -/
theorem test_residue_flip :
    locate 0 { passEx with acc := [[26672, -1152544], [2416, 2816]] } = ⟨1, 1, 0, 1, 8063, 8063, true⟩ := by decide +kernel
/-- Four rows of the table under R148: H at p f = 1/64, 1/256, 1/16 (n = 4) and 0.01016. -/
theorem test_horizon : horizon (2 ^ 26) 32 9 = 42 ∧ horizon (2 ^ 24) 32 9 = 166 ∧ horizon (2 ^ 28) 4 9 = 81 ∧ horizon 43638130 32 9 = 64 := by
  decide +kernel
/-- The record of the worked example of 11_event_recorder_and_codes.md: its first 30 bytes. -/
theorem test_record_bytes :
    ((⟨0x31470102, 531, 0, 0x000B71B020040000, 0x00048C31, [0, 3, 0, 0x29, 0x11, 0x3B, 0x2A, 0, 0, 0]⟩ : Record).bytes).take 30 =
      [0x02, 0x01, 0x47, 0x31, 0x00, 0x13, 0x02, 0x00, 0x00, 0x00, 0x04, 0x20, 0xB0, 0x71, 0x0B, 0x00, 0x31, 0x8C, 0x04, 0x00,
        0x00, 0x03, 0x00, 0x29, 0x11, 0x3B, 0x2A, 0x00, 0x00, 0x00] := by decide +kernel
/-- HRT_STATUS of a package in service (the first access of the example of 15_register_map_hearth.md). -/
theorem test_hearth_status : (srvBus.readWord .host HRT_STATUS).2 = 0x94000000 := by decide +kernel
/-- HRT_FP_PHYS[71] at 0x000_B21C of a tile fenced for reason 1 (the second access of that example). -/
theorem test_floor_plan_word :
    (({ srv with plan := { srv.plan with fp := [(71, { st := .fenced, reason := 1 })] }
                 tiles := [(71, { role := .out })] } : State).readWord .host 0xB21C).2 = 0x650100FF := by decide +kernel
/-- TWD_RES_SYND of page 71 stands at 0x014_7208 (the third access). -/
theorem test_tile_page : tileReg 71 TWD_RES_SYND = 0x147208 := by decide
/-- The origin register pair of an origin at 2,300,000,640 ns, low word first (the sixth access; R19). -/
def timeEx : State := { srv with time := { srv.time with origin := some 2300000640 } }
theorem test_origin : (timeEx.readWord .host HRT_TB_ORIGIN_LO).2 = 0x89173980 ∧
    ((timeEx.readWord .host HRT_TB_ORIGIN_LO).1.readWord .host HRT_TB_ORIGIN_HI).2 = 0x80000000 := by decide +kernel
/-- HRT_THM_RATIO[5] with the east region of CD5 enforced at 11/16 (the worked example of 10_thermal_and_power_watch.md). -/
theorem test_ratio_word : (({ srv with thm := { srv.thm with regions := [(11, { thermal := 11, enforced := true })] } } : State).readWord .host
    (HRT_THM_RATIO + 20)).2 = 0x4B10 := by decide +kernel
/-- Key set 0 (R157). -/
theorem test_key_set_zero : ((srv.readWord .host HRT_OFD_KEY_LO).1.readWord .host HRT_OFD_KEY_HI).2 = 0x4C415245 := by decide +kernel

/-! ### Single commands -/

/-- The refused commit of the worked example of 13_commands_worlds_transactions.md: 1,000 is below 5 · 300. -/
def txnEx : State := { srv with txns := [(World.num .nonSecure, ⟨true, 7, [.reg HRT_WDOG_CTX 0 300, .reg HRT_WDOG_PART 0 1000], 5, 0, false, none, 0, false⟩)] }
theorem test_commit_refused : nextHas (.txnCommitImmediate hw) txnEx (fun t => t.reg TXN_NS_FAIL == 0x17019008) = true := by decide +kernel
/-- ENTDAA assigns the dynamic address, RSTDAA removes it (R518). -/
theorem test_entdaa : nextHas (.entdaa 9) srv (fun t => t.i3c.addr == some 9) = true ∧
    nextHas .rstdaa { srv with i3c := { srv.i3c with addr := some 9 } } (fun t => t.i3c.addr == none) = true := by decide
/-- ENEC before DISEC: the first in is the first out. -/
theorem test_queue_order : (match step { srv with pending := [.enec, .disec] } with
    | .next t => t.pending == [.disec] && t.i3c.ibiOn
    | _ => false) = true := by decide
/-- A misaligned access is counted and writes nothing (R15). -/
theorem test_misaligned : nextHas (.registerWrite ⟨.host, HRT_KNOT_TIMEOUT, false⟩ 7) srv
    (fun t => t.reg HRT_KNOT_TIMEOUT == srv.reg HRT_KNOT_TIMEOUT) = true := by decide +kernel
/-- An unknown opcode is answered BAD_OPCODE (R420). -/
theorem test_bad_opcode : nextHas (.badOpcode hw 0x7FFF) srv
    (fun t => t.out.any fun o => match o with | .response _ 0x7FFF st _ _ _ => st == .badOpcode | _ => false) = true := by decide +kernel
/-- The codes of the knot and CONTROL_UE examples (R351). -/
theorem test_codes : codeOf 1 0 6 0x0505 = 0x10060505 ∧ codeOf 5 2 9 0x040A = 0x5209040A := by decide
/-- Digest addition stays below the modulus (R155). -/
theorem test_ofd_wraps : ofdAdd ⟨2 ^ 61 - 2, 0⟩ ⟨1, 5⟩ = ⟨0, 5⟩ := by decide

/-! ### The hypotheses of every obligation can be met -/

theorem witness_TxnLifecycle :
    (∃ (s : State) (h : Hdr), s.Signals ∧ s.Serves h ∧ h.operator = true ∧ (s.txn (Pend.world ⟨h, 0x10⟩)).isOpen = false) ∧
    (∃ (s : State) (h : Hdr), s.Signals ∧ s.Serves h ∧ h.operator = true ∧ (s.txn (Pend.world ⟨h, 0x13⟩)).isOpen = true ∧
      (s.txn (Pend.world ⟨h, 0x13⟩)).commit = none) ∧
    (∃ (s : State) (w : World), s.Signals ∧ (s.txn w).isOpen = true ∧ (s.txn w).commit = none) :=
  ⟨⟨(srv : State), (hw : Hdr), (by unfold State.Signals; decide), ⟨rfl, rfl, rfl, by decide, by decide, by decide⟩, (by decide),
      (by decide)⟩,
   ⟨({ srv with txns := [(1, ⟨true, 4, [.reg HRT_KNOT_TIMEOUT 0 7], 5, 0, false, none, 0, false⟩)] } : State), (hw : Hdr),
      (by unfold State.Signals; decide), ⟨rfl, rfl, rfl, by decide, by decide, by decide⟩, (by decide), (by decide), (by decide)⟩,
   ⟨({ srv with txns := [(1, ⟨true, 4, [.reg HRT_KNOT_TIMEOUT 0 7], 5, 0, false, none, 0, false⟩)] } : State),
      (World.nonSecure : World), (by unfold State.Signals; decide), (by decide), (by decide)⟩⟩

theorem witness_TxnItemsStage :
    (∃ (s : State) (h : Hdr), s.Signals ∧ s.Serves h ∧ h.operator = true ∧ Pend.world ⟨h, 0x11⟩ = .secure ∧
      (s.txn .secure).isOpen = true ∧ (s.txn .secure).commit = none ∧ (s.txn .secure).items.length < 256) :=
  ⟨({ srv with txns := [(0, ⟨true, 4, [], 5, 0, false, none, 0, false⟩)] } : State), (ha : Hdr), (by unfold State.Signals; decide),
      ⟨rfl, rfl, trivial⟩, (by decide), (by decide), (by decide), (by decide), (by decide)⟩

theorem witness_TxnItemDenied :
    (∃ (s : State) (h : Hdr) (i : Instr), s.Serves h ∧ h.operator = true ∧ Pend.world ⟨h, 0x11⟩ = .nonSecure ∧
      ((∃ ix e, i = .txnItemRegion h ix e) ∨ (∃ p r, i = .txnItemPortRole h p r) ∨ (∃ ix r, i = .txnItemRoute h ix r) ∨ (∃ p ix e, i = .txnItemSliceFilter h p ix e) ∨ (∃ r x, i = .txnItemSparing h r x))) :=
  ⟨(srv : State), (hw : Hdr), (Instr.txnItemPortRole hw 0 ⟨.ethernet, false⟩ : Instr),
      ⟨rfl, rfl, rfl, by decide, by decide, by decide⟩, (by decide), (by decide), (.inr (.inl ⟨0, ⟨.ethernet, false⟩, rfl⟩))⟩

theorem witness_TxnCommitApplies :
    (∃ (s : State) (h : Hdr), s.Signals ∧ s.Serves h ∧ h.operator = true ∧ Pend.world ⟨h, 0x12⟩ = .nonSecure ∧
      (s.txn .nonSecure).isOpen = true ∧ (s.txn .nonSecure).commit = none ∧
      (∀ i ∈ (s.txn .nonSecure).items, ∃ off sel v, i = .reg off sel v ∧ off ≠ HRT_WORLD_MAP ∧ itemKey off sel ≠ TXN_CFG_EPOCH ∧ itemKey off sel ≠ TXN_COMMITS ∧ itemKey off sel ≠ HRT_FN_LOCK ∧ eventReg (itemKey off sel) = false) ∧
      (((s.accepted h).modTxn .nonSecure fun x => { x with lastStep := false }).firstFail .nonSecure) = none) :=
  ⟨({ srv with txns := [(1, ⟨true, 4, [.reg HRT_KNOT_TIMEOUT 0 7], 5, 0, false, none, 0, false⟩)] } : State), (hw : Hdr),
      (by unfold State.Signals; decide), ⟨rfl, rfl, rfl, by decide, by decide, by decide⟩, (by decide), (by decide), (by decide),
      (by decide),
      (fun i hi => ⟨HRT_KNOT_TIMEOUT, 0, 7, List.mem_singleton.mp hi, by decide, by decide, by decide, by decide, by decide⟩),
      (by decide)⟩

theorem witness_TxnCommitRefused :
    (∃ (s : State) (h : Hdr) (b : Bool) (k : Nat), s.Signals ∧ s.Serves h ∧ h.operator = true ∧
      (s.txn (Pend.world ⟨h, 0x12⟩)).isOpen = true ∧ (s.txn (Pend.world ⟨h, 0x12⟩)).commit = none ∧
      (((s.accepted h).modTxn (Pend.world ⟨h, 0x12⟩) fun x => { x with lastStep := b }).firstFail (Pend.world ⟨h, 0x12⟩)) = some k) :=
  ⟨({ srv with txns := [(1, ⟨true, 4, [.sparing .ret 5], 5, 0, false, none, 0, false⟩)] } : State), (hw : Hdr), (true : Bool),
      (0 : Nat), (by unfold State.Signals; decide), ⟨rfl, rfl, rfl, by decide, by decide, by decide⟩, (by decide), (by decide),
      (by decide), (by decide)⟩

theorem witness_TxnStepWaits :
    (∃ (s : State) (h : Hdr), s.Signals ∧ s.Serves h ∧ h.operator = true ∧ (s.txn (Pend.world ⟨h, 0x12⟩)).isOpen = true ∧
      (s.txn (Pend.world ⟨h, 0x12⟩)).commit = none ∧ s.anyRunning = true ∧ s.esc.bstop = none ∧
      (((s.accepted h).modTxn (Pend.world ⟨h, 0x12⟩) fun x => { x with lastStep := true }).firstFail (Pend.world ⟨h, 0x12⟩)) = none) :=
  ⟨({ srvCtx with txns := [(1, ⟨true, 4, [.reg HRT_KNOT_TIMEOUT 0 7], 5, 0, false, none, 0, false⟩)] } : State), (hw : Hdr),
      (by unfold State.Signals; decide), ⟨rfl, rfl, rfl, by decide, by decide, by decide⟩, (by decide), (by decide), (by decide),
      (by decide), (by decide), (by decide)⟩

theorem witness_FunctionStates :
    (∃ (s : State) (h : Hdr), s.Signals ∧ s.Serves h ∧ h.operator = true ∧ s.bu.pkg ≠ .safe) ∧
    (∃ (s : State) (h : Hdr) (f : FnIx), s.Signals ∧ s.Serves h ∧ h.operator = true ∧
      ((s.reg HRT_FN_LOCK).getLsbD f = false ∨ Pend.world ⟨h, 0x21⟩ = .secure)) ∧
    (∃ (s : State) (f : FnIx) (ok : Bool) (good : Bool), s.Signals ∧ (s.fn f).st = .starting ∧
      good = (ok && (f != 1 || (List.range 4).all fun p => !s.traced p || s.traceRegionOk p))) ∧
    (∃ (s : State) (f : FnIx), s.Signals ∧ ((s.fn f).st = .stopping ∨ (s.fn f).st = .pendingOn)) :=
  ⟨⟨(srv : State), (hw : Hdr), (by unfold State.Signals; decide), ⟨rfl, rfl, rfl, by decide, by decide, by decide⟩, (by decide),
      (by decide)⟩,
   ⟨({ srv with fns := [(2, ⟨.pendingOn, 3, .nonSecure⟩)] } : State), (hw : Hdr), (2 : FnIx), (by unfold State.Signals; decide),
      ⟨rfl, rfl, rfl, by decide, by decide, by decide⟩, (by decide), (by decide)⟩,
   ⟨({ srv with fns := [(3, ⟨.starting, 65535, .nonSecure⟩)] } : State), (3 : FnIx), (true : Bool), (true : Bool),
      (by unfold State.Signals; decide), (by decide), (by decide)⟩,
   ⟨({ srv with fns := [(0, ⟨.stopping, 65535, .nonSecure⟩)] } : State), (0 : FnIx), (by unfold State.Signals; decide), (by decide)⟩⟩

theorem witness_CoreRestart :
    (∃ (s : State), s.Signals ∧ s.sq.run = .running ∧ s.secondExpiry = false) ∧
    (∃ (s : State), s.Signals ∧ s.sq.run = .restarting ∧ s.sq.held = [] ∧ s.sq.waiting = [] ∧ s.thm.quenchWait = none ∧
      s.esc.bstop = none ∧ (∀ w, (s.txn w).isOpen = false) ∧ (∀ a, (s.agent a).dropsInRestart = 0) ∧ s.plan.waiting = []) ∧
    (∃ (s : State), s.sq.run = .restarting ∧ s.sq.held = [] ∧ s.sq.waiting = [] ∧ s.thm.quenchWait = none ∧ s.esc.bstop = none) :=
  ⟨⟨(srvRun : State), (by unfold State.Signals; decide), (by decide), (by decide)⟩,
   ⟨({ srvCtx with sq := ⟨.restarting, 1, false, some 5, none, 0, 20, [], []⟩ } : State), (by unfold State.Signals; decide),
      (by decide), (by decide), (by decide), (by decide), (by decide), (fun w => by cases w <;> rfl), (fun _ => rfl), (by decide)⟩,
   ⟨({ srvCtx with sq := ⟨.restarting, 1, false, some 5, none, 0, 20, [], []⟩, txns := [(1, ⟨true, 4, [], 5, 0, false, none, 0, false⟩)] } : State),
      (by decide), (by decide), (by decide), (by decide), (by decide)⟩⟩

theorem witness_CoreHalt :
    (∃ (s : State) (ok : Bool), s.sq.run = .running ∧ (s.secondExpiry = true ∨ ok = false)) ∧
    (∃ (s : State), s.sq.run ≠ .running) :=
  ⟨⟨({ srvRun with sq := ⟨.running, 1, false, some 5, none, 0, 20, [], []⟩ } : State), (true : Bool), (by decide), (by decide)⟩,
   ⟨(State.reset : State), (by decide)⟩⟩

theorem witness_TimeBaseAndHeartbeat :
    (∃ (s : State), s.Signals ∧ s.time.refclk = true) ∧
    (∃ (s : State), s.Signals) ∧
    (∃ (s : State), s.Signals ∧ s.pw.standby = true ∧ s.sq.run = .running) ∧
    (∃ (s : State), s.Signals ∧ s.pw.standby = true) :=
  ⟨⟨(srv : State), (by unfold State.Signals; decide), (by decide)⟩,
   ⟨({ srv with time := { srv.time with refclk := false } } : State), (by unfold State.Signals; decide)⟩,
   ⟨(srv : State), (by unfold State.Signals; decide), (by decide), (by decide)⟩,
   ⟨(srv : State), (by unfold State.Signals; decide), (by decide)⟩⟩

theorem witness_IdlePeriod :
    (∃ (s : State), s.Signals ∧ s.pending = [] ∧ s.pw.standby = true ∧ s.time.refclk = true) ∧
    (∃ (s : State), s.pending = [] ∧ (s.pw.standby = false ∨ s.time.refclk = false)) :=
  ⟨⟨(srvRun : State), (by unfold State.Signals; decide), (by decide), (by decide), (by decide)⟩,
   ⟨({ srv with pw := { srv.pw with standby := false } } : State), (by decide), (by decide)⟩⟩

theorem witness_Removal :
    (∃ (s : State), s.pw.standby = true ∧ s.pw.trayPc = false ∧ s.sq.run = .running ∧ s.bu.removal = .none ∧ s.bu.complete = true ∧
      s.thm.quenching = false ∧ s.esc.reset = none) ∧
    (∃ (s : State), s.sq.run = .restarting) ∧
    (∃ (s : State), s.bu.removal = .notice) ∧
    (∃ (s : State) (h : Hdr), s.Serves h ∧ h.operator = true ∧ s.bu.removal = .notice) ∧
    (∃ (s : State), s.bu.removal = .powerDown ∧ s.hl.tripLatch = false) :=
  ⟨⟨(srvRun : State), (by decide), (by decide), (by decide), (by decide), (by decide), (by decide), (by decide)⟩,
   ⟨({ srv with sq := ⟨.restarting, 1, false, some 5, none, 0, 20, [], []⟩ } : State), (by decide)⟩,
   ⟨({ srvRun with bu := { srvRun.bu with removal := .notice } } : State), (by decide)⟩,
   ⟨({ srvRun with bu := { srvRun.bu with removal := .notice } } : State), (hw : Hdr), ⟨rfl, rfl, rfl, by decide, by decide, by decide⟩,
      (by decide), (by decide)⟩,
   ⟨({ srvRun with bu := { srvRun.bu with removal := .powerDown } } : State), (by decide), (by decide)⟩⟩

theorem witness_HostLinkAndMainPath :
    (∃ (s : State), s.Signals ∧ s.pw.pcieTrained = false) ∧
    (∃ (s : State), s.Signals ∧ s.pw.domOn.getLsbD 40 = true) ∧
    (∃ (s : State), s.Signals) ∧
    (∃ (s : State), s.Signals) :=
  ⟨⟨({ srv with pw := { srv.pw with pcieTrained := false } } : State), (by unfold State.Signals; decide), (by decide)⟩,
   ⟨(srv : State), (by unfold State.Signals; decide), (by decide)⟩,
   ⟨(srv : State), (by unfold State.Signals; decide)⟩,
   ⟨({ srv with pw := { srv.pw with d3 := true } } : State), (by unfold State.Signals; decide)⟩⟩

theorem witness_TripLatches :
    (∃ (s : State) (u : Sensor) (x : Int), s.pw.standby = true ∧ s.sensorExists u = true ∧ s.tripAt (unitOfSensor u) ≤ x ∧
      s.hl.tripLatch = false) ∧
    (∃ (s : State) (n : StackIx) (x : Int), s.Signals ∧ n.val < s.stackCount ∧ s.tripAt (.stack n) ≤ x ∧
      s.thm.confirming.contains n = false) ∧
    (∃ (s : State) (n : StackIx) (x : Int), s.thm.confirming.contains n = true ∧ s.tripAt (.stack n) ≤ x ∧ s.hl.tripLatch = false) ∧
    (∃ (s : State) (n : StackIx) (x : Int), s.Signals ∧ s.thm.confirming.contains n = true ∧ x < s.tripAt (.stack n)) :=
  ⟨⟨(srvRun : State), (Sensor.tile 3 : Sensor), (450 : Int), (by decide), (by decide), (by decide), (by decide)⟩,
   ⟨(srvRun : State), (23 : StackIx), (450 : Int), (by unfold State.Signals; decide), (by decide), (by decide), (by decide)⟩,
   ⟨({ srvRun with thm := { confirming := [3] } } : State), (3 : StackIx), (450 : Int), (by decide), (by decide), (by decide)⟩,
   ⟨({ srvRun with thm := { confirming := [3] } } : State), (3 : StackIx), (200 : Int), (by unfold State.Signals; decide), (by decide),
      (by decide)⟩⟩

theorem witness_TemperLoop :
    (∃ (s : State) (g : Fin 16), s.Signals ∧ s.sq.run = .running ∧ (s.region g).enforced = true ∧ s.thm.powerOn = false ∧
      (∃ u ∈ (s.region g).drivers.map unitAt, s.blind u = true ∨ ∃ x, s.unitTemp u = some x ∧ s.request u - 12 ≤ x) ∧
      ¬ (max s.floorRatio ((s.region g).thermal - 1) = 16 ∧ (s.region g).power = 16)) ∧
    (∃ (s : State) (u : ThermalUnit), s.sq.run = .running ∧ (s.levelOf u).grace = true) :=
  ⟨⟨({ srv with thm := { regions := [(2, { enforced := true, thermal := 16, drivers := [2] })], temps := [(18, 500), (19, 400)] } } : State),
      (2 : Fin 16), (by unfold State.Signals; decide), (by decide), (by decide), (by decide), (by decide), (by decide)⟩,
   ⟨({ srv with thm := { levels := [(2, { grace := true })] } } : State), (ThermalUnit.region 2 : ThermalUnit), (by decide), (by decide)⟩⟩

theorem witness_SensorAndPower :
    (∃ (s : State) (x : Sensor) (temp : Int) (m : Int), s.Signals ∧ s.sq.run = .running ∧ s.sensorExists x = true ∧
      s.thm.failed.contains (sensorNum x) = false ∧ (s.putReading x temp).sensorBad x temp = false ∧
      (s.putReading x temp).unitTemp (unitOfSensor x) = some m ∧ s.blind (unitOfSensor x) = false ∧ s.levelOf (unitOfSensor x) = {} ∧
      m < s.advise (unitOfSensor x) ∧ m < s.request (unitOfSensor x) ∧ m < s.quenchAt (unitOfSensor x)) ∧
    (∃ (s : State), s.sq.run = .running) ∧
    (∃ (s : State) (w : Nat) (c : CtxIx), s.Signals ∧ s.sq.run = .running ∧ meanOf s.thm.pins = some w ∧ s.inputChannel = some c ∧
      w ≤ s.fld HRT_PWR_LIMIT 11 0) ∧
    (∃ (s : State) (w : Nat) (c : CtxIx), s.Signals ∧ s.sq.run = .running ∧ meanOf s.thm.pins = some w ∧ s.inputChannel = some c ∧
      s.fld HRT_PWR_LIMIT 11 0 < w ∧ s.thm.powerGrace = false ∧ s.thm.powerOn = false ∧ s.fld HRT_PWR_GRACE 12 0 ≠ 0) ∧
    (∃ (s : State), s.Signals ∧ s.sq.run = .running ∧ s.thm.powerGrace = true ∧
      (s.thm.power * 100 ≤ s.fld HRT_PWR_LIMIT 11 0 * 95 ∨ s.inputChannel = none)) ∧
    (∃ (s : State), s.sq.run = .running ∧ s.thm.powerGrace = true ∧ s.inputChannel ≠ none ∧
      s.fld HRT_PWR_LIMIT 11 0 * 95 < s.thm.power * 100) ∧
    (∃ (s : State), s.sq.run = .running ∧ s.thm.powerOn = true ∧ s.inputChannel ≠ none ∧ s.fld HRT_PWR_LIMIT 11 0 < s.thm.power ∧
      (∀ g, g < 16 → (s.region g).ratio ≤ s.floorRatio) ∧ s.thm.quenching = false ∧ s.thm.quenched = false ∧ s.hl.tripLatch = false) :=
  ⟨⟨(srv : State), (Sensor.stack 3 : Sensor), (200 : Int), (200 : Int), (by unfold State.Signals; decide), (by decide), (by decide),
      (by decide), (by decide), (by decide), (by decide), (by decide), (by decide), (by decide), (by decide)⟩,
   ⟨(srvPmb : State), (by decide)⟩,
   ⟨({ srvPmb with thm := { pins := [200, 400] } } : State), (300 : Nat), (4 : CtxIx), (by unfold State.Signals; decide), (by decide),
      (by decide), (by decide), (by decide)⟩,
   ⟨({ srvPmb with thm := { pins := [1300] }, regs := (HRT_PWR_LIMIT, 1000#32) :: srvPmb.regs } : State), (1300 : Nat), (4 : CtxIx),
      (by unfold State.Signals; decide), (by decide), (by decide), (by decide), (by decide), (by decide), (by decide), (by decide)⟩,
   ⟨({ srv with thm := { powerGrace := true } } : State), (by unfold State.Signals; decide), (by decide), (by decide), (by decide)⟩,
   ⟨({ srvPmb with thm := { powerGrace := true, power := 4000 } } : State), (by decide), (by decide), (by decide), (by decide)⟩,
   ⟨({ srvPmb with thm := { powerOn := true, power := 4000, regions := (List.range 16).map fun g => (g, { thermal := 2, enforced := true }) } } : State),
      (by decide), (by decide), (by decide), (by decide), (by decide), (by decide), (by decide), (by decide)⟩⟩

theorem witness_PowerFailWarning :
    (∃ (s : State), s.pw.mainGood = true ∧ s.pw.pfWarn = false) ∧
    (∃ (s : State), (s.pw.mainGood = false ∨ s.pw.pfWarn = true)) :=
  ⟨⟨(srvRun : State), (by decide), (by decide)⟩,
   ⟨({ srv with pw := { srv.pw with pfWarn := true } } : State), (by decide)⟩⟩

theorem witness_BoundaryStops :
    (∃ (s : State) (h : Hdr) (parts : BitVec 4), s.Signals ∧ s.Serves h ∧ h.operator = true ∧ s.esc.bstop = none ∧ parts ≠ 0) ∧
    (∃ (s : State) (p : Pend) (parts : BitVec 4) (b : Bool) (l : List CtxIx), s.Signals ∧
      s.esc.bstop = some ⟨parts, b, .host p, false, false, l⟩ ∧
      s.atBoundary ⟨parts, b, .host p, false, false, l⟩ = (s.stopTiles ⟨parts, b, .host p, false, false, l⟩).length) ∧
    (∃ (s : State) (p : Pend) (parts : BitVec 4) (b : Bool) (l : List CtxIx), s.esc.bstop = some ⟨parts, b, .host p, false, false, l⟩) ∧
    (∃ (s : State) (h : Hdr) (p : Pend) (parts : BitVec 4) (b : Bool) (l : List CtxIx) (held : Bool) (out : Bool), s.Serves h ∧
      h.operator = true ∧ s.esc.bstop = some ⟨parts, b, .host p, held, out, l⟩) :=
  ⟨⟨(srvRun : State), (hw : Hdr), (15 : BitVec 4), (by unfold State.Signals; decide), ⟨rfl, rfl, rfl, by decide, by decide, by decide⟩,
      (by decide), (by decide), (by decide)⟩,
   ⟨({ srvIss with esc := { bstop := some ⟨1, false, .host ⟨hw, 0x33⟩, false, false, []⟩ } } : State), (⟨hw, 0x33⟩ : Pend),
      (1 : BitVec 4), (false : Bool), ([] : List CtxIx), (by unfold State.Signals; decide), (by decide), (by decide)⟩,
   ⟨({ srvRun with esc := { bstop := some ⟨1, false, .host ⟨hw, 0x33⟩, false, false, []⟩ } } : State), (⟨hw, 0x33⟩ : Pend),
      (1 : BitVec 4), (false : Bool), ([] : List CtxIx), (by decide)⟩,
   ⟨({ srvRun with esc := { bstop := some ⟨1, false, .host ⟨hw, 0x33⟩, true, false, []⟩ } } : State), (hw : Hdr), (⟨hw, 0x33⟩ : Pend),
      (1 : BitVec 4), (false : Bool), ([] : List CtxIx), (true : Bool), (false : Bool),
      ⟨rfl, rfl, rfl, by decide, by decide, by decide⟩, (by decide), (by decide)⟩⟩

theorem witness_Watchdogs :
    (∃ (s : State) (tl : TileIx) (e : JEntry), s.Signals ∧ s.running tl = some e ∧ (s.tile tl).gateClosed = false ∧
      s.regionRuns tl = true ∧ (s.agent (tileAgent tl)).queue.length < 16) ∧
    (∃ (s : State) (c : CtxIx) (ts : List TileIx), ts = (s.openTiles fun e => e.cmd.ctx == c) ∧
      s.watchdogRuns ts (domsOfTiles ts) (s.partsOfTiles ts) = true ∧ (s.ctx c).used = true ∧ (s.ctx c).faulted = false) ∧
    (∃ (s : State) (p : PartIx), s.watchdogRuns ((s.openTiles fun _ => true).filter fun tl => s.partOfTile tl == p) (s.domsOfPart p) (BitVec.ofNat 4 (2 ^ p.val)) = true ∧
      s.LadderFree .partition (BitVec.ofNat 4 (2 ^ p.val))) ∧
    (∃ (s : State), s.watchdogRuns (s.openTiles fun _ => true) s.stopReach 0xF = true ∧ s.LadderFree .chip 0xF) :=
  ⟨⟨(srvRun : State), (0 : TileIx), ({ cmd := cmd1, state := .running, execs := 1, passes := 1 } : JEntry),
      (by unfold State.Signals; decide), (by decide), (by decide), (by decide), (by decide)⟩,
   ⟨(srvRun : State), (1 : CtxIx), ([0] : List TileIx), (by decide), (by decide), (by decide), (by decide)⟩,
   ⟨(srvRun : State), (0 : PartIx), (by decide), (by unfold State.LadderFree; decide)⟩,
   ⟨(srvRun : State), (by decide), (by unfold State.LadderFree; decide)⟩⟩

theorem witness_ResetTriggers :
    (∃ (s : State) (d : DomainIx), s.domExists d = true ∧ s.LadderFree .chip 0xF) ∧
    (∃ (s : State) (tl : TileIx) (x : Option Event × Nat × Option TileIx × Nat), tget? s.plan.fencing tl.val = some x ∧
      s.LadderFree .partition (BitVec.ofNat 4 (2 ^ (s.partOfTile tl).val))) ∧
    (∃ (r : Reset) (s : State), s.esc.reset = some r ∧ r.phase = .aligning ∧ r.level = .partition) ∧
    (∃ (s : State) (h : Hdr) (p : PartIx), s.Serves h ∧ h.operator = true ∧ s.bu.pkg ≠ .safe ∧
      s.LadderFree .partition (BitVec.ofNat 4 (2 ^ p.val))) ∧
    (∃ (s : State) (h : Hdr), s.Serves h ∧ h.operator = true ∧ s.bu.pkg ≠ .safe ∧ s.LadderFree .computePart 0xF) ∧
    (∃ (s : State) (h : Hdr), s.Serves h ∧ h.operator = true ∧ s.LadderFree .chip 0xF) ∧
    (∃ (s : State) (perst : Bool), (perst = true → s.pw.pcieTrained = true) ∧ s.pw.pfWarn = false ∧ s.recd.pfLock = false ∧
      s.LadderFree .chip 0xF) :=
  ⟨⟨(srv : State), (40 : DomainIx), (by decide), (by unfold State.LadderFree; decide)⟩,
   ⟨({ srvCtx with plan := { srvCtx.plan with fencing := [(0, (none, 5, none, 1))] } } : State), (0 : TileIx),
      ((none, 5, none, 1) : Option Event × Nat × Option TileIx × Nat), (by decide), (by unfold State.LadderFree; decide)⟩,
   ⟨(⟨.partition, 1, 0, .aligning, 5, []⟩ : Reset),
      ({ srvCtx with esc := { reset := some (⟨.partition, 1, 0, .aligning, 5, []⟩ : Reset) } } : State), (by decide), (by decide),
      (by decide)⟩,
   ⟨(srvCtx : State), (hw : Hdr), (3 : PartIx), ⟨rfl, rfl, rfl, by decide, by decide, by decide⟩, (by decide), (by decide),
      (by unfold State.LadderFree; decide)⟩,
   ⟨(srvCtx : State), (hc : Hdr), ⟨rfl, rfl, trivial⟩, (by decide), (by decide), (by unfold State.LadderFree; decide)⟩,
   ⟨(srvCtx : State), (hw : Hdr), ⟨rfl, rfl, rfl, by decide, by decide, by decide⟩, (by decide), (by unfold State.LadderFree; decide)⟩,
   ⟨({ srvCtx with pw := { srvCtx.pw with pcieTrained := true } } : State), (true : Bool), (by decide), (by decide), (by decide),
      (by unfold State.LadderFree; decide)⟩⟩

theorem witness_ResetProgress :
    (∃ (r : Reset) (s : State), s.esc.reset = some r ∧ r.phase = .holding ∧ r.level ≠ .chip) ∧
    (∃ (r : Reset) (s : State) (h : Hdr), s.Serves h ∧ h.operator = true ∧ s.esc.reset = some r ∧ r.phase = .holding ∧ r.level ≠ .chip) ∧
    (∃ (r : Reset) (s : State), s.Signals ∧ s.esc.reset = some r ∧ r.phase = .holdoff ∧ s.time.alignAt ≠ some s.nextGrid) ∧
    (∃ (r : Reset) (s : State), s.Signals ∧ s.esc.reset = some r ∧ r.level ≠ .chip ∧ r.phase = .aligning ∧
      (s.bu.cast.all fun c => c.reset.isNone) = true ∧ s.hl.kill &&& s.domsOfParts r.parts = 0) :=
  ⟨⟨(⟨.partition, 1, 0, .holding, 5, []⟩ : Reset),
      ({ srvCtx with esc := { reset := some (⟨.partition, 1, 0, .holding, 5, []⟩ : Reset) } } : State), (by decide), (by decide),
      (by decide)⟩,
   ⟨(⟨.computePart, 0xF, 0, .holding, 5, []⟩ : Reset),
      ({ srvCtx with esc := { reset := some (⟨.computePart, 0xF, 0, .holding, 5, []⟩ : Reset) } } : State), (hw : Hdr),
      ⟨rfl, rfl, rfl, by decide, by decide, by decide⟩, (by decide), (by decide), (by decide), (by decide)⟩,
   ⟨(⟨.partition, 1, 0, .holdoff, 5, []⟩ : Reset),
      ({ srvCtx with esc := { reset := some (⟨.partition, 1, 0, .holdoff, 5, []⟩ : Reset) }, hl := { srvCtx.hl with kill := 0xFFFF } } : State),
      (by unfold State.Signals; decide), (by decide), (by decide), (by decide)⟩,
   ⟨(⟨.partition, 1, 0, .aligning, 5, []⟩ : Reset),
      ({ srvCtx with esc := { reset := some (⟨.partition, 1, 0, .aligning, 5, []⟩ : Reset) } } : State),
      (by unfold State.Signals; decide), (by decide), (by decide), (by decide), (by decide), (by decide)⟩⟩

theorem witness_WaitForGraph :
    (∃ (s : State) (tl : TileIx), s.Signals ∧ (s.agent (tileAgent tl)).queue.length < 16) ∧
    (∃ (s : State) (tl : TileIx), s.Signals ∧ (s.agent (tileAgent tl)).queue.length < 16) ∧
    (∃ (s : State) (cyc : List GEdge), s.Signals ∧
      findKnot (s.esc.graph.filter fun g => decide (g.since + s.fld HRT_KNOT_TIMEOUT 13 0 * 1000 ≤ s.time.tb)) = some cyc) ∧
    (∃ (s : State) (cyc : List GEdge) (e : Edge) (tl : TileIx), findKnot (s.esc.graph.filter fun g => decide (g.since + s.fld HRT_KNOT_TIMEOUT 13 0 * 1000 ≤ s.time.tb)) = some cyc ∧
      spillEdge cyc = some e ∧ (∀ g ∈ cyc, (s.ctx g.e.ctx).desc.creditFallback = false) ∧ s.holder e.consumer = some tl ∧
      (cyc.any fun g => s.drainHolds g.e) = false ∧
      s.spillUsed (s.partOfTile tl) + min (s.quantum e) e.capacity ≤ s.fld HRT_SPILL_SIZE 12 0 * 1024) ∧
    (∃ (x : Spill) (s : State) (c : CtxIx) (q : Nat) (pos : Word) (tl : TileIx), s.Signals ∧
      (s.esc.spills.find? fun y => y.ctx == c && y.queue == q && y.left.contains pos.toNat) = some x ∧
      s.holder x.consumer = some tl ∧ x.left.erase pos.toNat = []) :=
  ⟨⟨(srvCtx : State), (0 : TileIx), (by unfold State.Signals; decide), (by decide)⟩,
   ⟨(srvCtx : State), (0 : TileIx), (by unfold State.Signals; decide), (by decide)⟩,
   ⟨(srvKnot : State), ([⟨⟨1, 3, 0, 0, true, 5, 64⟩, 0⟩] : List GEdge), (by unfold State.Signals; decide), (by decide)⟩,
   ⟨(srvKnot : State), ([⟨⟨1, 3, 0, 0, true, 5, 64⟩, 0⟩] : List GEdge), (⟨1, 3, 0, 0, true, 5, 64⟩ : Edge), (0 : TileIx), (by decide),
      (by decide), (by decide), (by decide), (by decide), (by decide)⟩,
   ⟨(⟨1, 3, 0, 0, 64, 1, [5]⟩ : Spill), ({ srvCtx with esc := { spills := [(⟨1, 3, 0, 0, 64, 1, [5]⟩ : Spill)] } } : State),
      (1 : CtxIx), (3 : Nat), (5 : Word), (0 : TileIx), (by unfold State.Signals; decide), (by decide), (by decide), (by decide)⟩⟩

theorem witness_ReconfigurationAndKill :
    (∃ (e : JEntry) (s : State) (tl : TileIx) (seq : Word) (k : Nat), s.Signals ∧ (s.tile tl).slotOf seq = some (k, e) ∧
      e.cmd.kind = .reconfig ∧ e.state = .issued ∧ e.isOpen = true ∧
      ((s.tile tl).jnl.any fun x => x.1 != k && x.2.isOpen && x.2.state != .complete && later seq x.2.cmd.seq) = false ∧
      (s.tile tl).gateClosed = false ∧ (s.tile tl).draining = none ∧ s.regionRuns tl = true ∧ s.stopsIssue tl e.cmd.ctx = false) ∧
    (∃ (s : State) (tl : TileIx) (b : Bool) (n : Nat) (d : Nat) (seq : Word), s.Signals ∧ (s.tile tl).draining = some (d, seq) ∧
      (s.tile tl).gateClosed = false ∧ s.regionRuns tl = true ∧ (b = true ∨ (n = 0 ∧ (s.tile tl).oldTokens = []))) ∧
    (∃ (s : State) (h : Hdr) (c : CtxIx), s.Serves h ∧ h.operator = true ∧ (s.ctx c).used = true ∧ (s.ctx c).faulted = false) ∧
    (∃ (s : State) (tl : TileIx) (c : CtxIx) (p : Option Pend), (s.ctx c).killing = some ([tileAgent tl], p)) ∧
    (∃ (s : State) (tl : TileIx) (c : CtxIx) (p : Option Pend), (s.ctx c).killing = some ([tileAgent tl], p) ∧
      (s.fpOf tl).st = .good ∧ tget? s.plan.fencing tl.val = none ∧ s.inReset tl = false) ∧
    (∃ (s : State) (c : CtxIx), s.Signals ∧ (s.ctx c).quarantine.isSome = true ∧ (s.ctx c).killing = none) :=
  ⟨⟨({ cmd := { cmd1 with kind := .reconfig }, state := .issued } : JEntry),
      ({ srvCtx with tiles := [(0, { role := .logical, jnl := [(0, ({ cmd := { cmd1 with kind := .reconfig }, state := .issued } : JEntry))], jhead := 0 })] } : State),
      (0 : TileIx), (7 : Word), (0 : Nat), (by unfold State.Signals; decide), (by decide), (by decide), (by decide), (by decide),
      (by decide), (by decide), (by decide), (by decide), (by decide)⟩,
   ⟨({ srvCtx with tiles := [(0, { role := .logical, jnl := [(0, ({ cmd := { cmd1 with kind := .reconfig }, state := .running } : JEntry))], jhead := 0, draining := some (5, 7), epoch := 15 })] } : State),
      (0 : TileIx), (false : Bool), (0 : Nat), (5 : Nat), (7 : Word), (by unfold State.Signals; decide), (by decide), (by decide),
      (by decide), (by decide)⟩,
   ⟨(srvRun : State), (hw : Hdr), (1 : CtxIx), ⟨rfl, rfl, rfl, by decide, by decide, by decide⟩, (by decide), (by decide), (by decide)⟩,
   ⟨({ srvRun with ctxs := [(1, { used := true, desc := desc1, step := 3, faulted := true, killing := some ([tileAgent 0], none) })] } : State),
      (0 : TileIx), (1 : CtxIx), (none : Option Pend), (by decide)⟩,
   ⟨({ srvRun with ctxs := [(1, { used := true, desc := desc1, step := 3, faulted := true, killing := some ([tileAgent 0], none) })] } : State),
      (0 : TileIx), (1 : CtxIx), (none : Option Pend), (by decide), (by decide), (by decide), (by decide)⟩,
   ⟨({ srvRun with ctxs := [(1, { quarantine := some 9 })] } : State), (1 : CtxIx), (by unfold State.Signals; decide), (by decide),
      (by decide)⟩⟩

theorem witness_CommandPath :
    (∃ (s : State) (l : LogIx) (k : Cmd) (tl : TileIx), s.Signals ∧ (s.ctx k.ctx).used = true ∧ (s.ctx k.ctx).faulted = false ∧
      (s.ctx k.ctx).watchHold = false ∧ s.holder l = some tl ∧ (s.tile tl).gateClosed = false ∧ (s.tile tl).handing = false ∧
      (s.tile tl).hasRoom = true ∧ (s.tile tl).reloading = false ∧ (s.tile tl).gate = [] ∧ s.stopsIssue tl k.ctx = false) ∧
    (∃ (s : State) (tl : TileIx) (seq : Word) (k : Nat) (e : JEntry), s.Signals ∧ (s.tile tl).slotOf seq = some (k, e) ∧
      e.state = .issued ∧ e.isOpen = true ∧ (s.tile tl).gateClosed = false ∧ (s.tile tl).handing = false ∧
      (s.tile tl).reloading = false ∧ s.regionRuns tl = true ∧ s.stopsIssue tl e.cmd.ctx = false) ∧
    (∃ (s : State) (tl : TileIx) (seq : Word) (k : Nat) (e : JEntry), s.Signals ∧ (s.tile tl).slotOf seq = some (k, e) ∧
      e.state = .running ∧ (s.tile tl).gateClosed = false ∧ s.regionRuns tl = true ∧ (s.tile tl).mayWrite k = true ∧
      s.copyHolds tl e = false) ∧
    (∃ (s : State) (tl : TileIx) (seq : Word) (k : Nat) (e : JEntry), s.Signals ∧ (s.tile tl).slotOf seq = some (k, e) ∧
      e.mayCommit = true ∧ (s.tile tl).gateClosed = false) :=
  ⟨⟨(srvCtx : State), (0 : LogIx), (cmd1 : Cmd), (0 : TileIx), (by unfold State.Signals; decide), (by decide), (by decide), (by decide),
      (by decide), (by decide), (by decide), (by decide), (by decide), (by decide), (by decide)⟩,
   ⟨(srvIss : State), (0 : TileIx), ((7 : Word) : Word), (0 : Nat), ({ cmd := cmd1 } : JEntry), (by unfold State.Signals; decide),
      (by decide), (by decide), (by decide), (by decide), (by decide), (by decide), (by decide), (by decide)⟩,
   ⟨(srvRun : State), (0 : TileIx), ((7 : Word) : Word), (0 : Nat),
      ({ cmd := cmd1, state := .running, execs := 1, passes := 1 } : JEntry), (by unfold State.Signals; decide), (by decide),
      (by decide), (by decide), (by decide), (by decide), (by decide)⟩,
   ⟨(srvDone : State), (0 : TileIx), ((7 : Word) : Word), (0 : Nat), (jDone : JEntry), (by unfold State.Signals; decide), (by decide),
      (by decide), (by decide)⟩⟩

theorem witness_CheckFailures :
    (∃ (s : State) (tl : TileIx) (p : PassIn) (k : Nat) (e : JEntry), s.Signals ∧ (s.tile tl).slotOf p.seq = some (k, e) ∧
      isBlockInt e.cmd.kind = true ∧ e.state ≠ .issued ∧ e.state ≠ .committed ∧ (s.tile tl).gateClosed = false ∧
      s.regionRuns tl = true ∧ (s.tile tl).mayWrite k = true ∧ p.exec = e.execs ∧ e.judged.contains p.pass.val = false ∧
      p.pass.val < e.cmd.passes ∧ passChecked e.cmd.e0.toInt p = true ∧ p.rails = .proper ∧ s.injection tl = none ∧
      (locate e.cmd.e0.toInt p).rows = 0 ∧ (locate e.cmd.e0.toInt p).cols = 0) ∧
    (∃ (s : State) (tl : TileIx) (p : PassIn) (k : Nat) (e : JEntry), s.Signals ∧ (s.tile tl).slotOf p.seq = some (k, e) ∧
      isBlockInt e.cmd.kind = true ∧ e.state ≠ .issued ∧ e.state ≠ .committed ∧ (s.tile tl).gateClosed = false ∧
      s.regionRuns tl = true ∧ (s.tile tl).mayWrite k = true ∧ p.exec = e.execs ∧ e.judged.contains p.pass.val = false ∧
      p.pass.val < e.cmd.passes ∧ passChecked e.cmd.e0.toInt p = true ∧ p.rails = .proper ∧ p.falseAgree = false ∧
      s.injection tl = none ∧ (locate e.cmd.e0.toInt p).rows ≠ 0 ∧ (s.tile tl).retry = none ∧ e.held = false ∧
      e.cmd.idempotent = true ∧ replayable (s.ctx e.cmd.ctx).desc e.cmd = true) ∧
    (∃ (s : State) (tl : TileIx) (seq : Word) (exe : Nat) (k : Nat) (e : JEntry), s.Signals ∧ (s.tile tl).slotOf seq = some (k, e) ∧
      e.state ≠ .issued ∧ e.state ≠ .committed ∧ e.execs = exe ∧ (s.tile tl).gateClosed = false ∧ (s.tile tl).retry = none ∧
      e.held = false ∧ e.cmd.idempotent = true ∧ replayable (s.ctx e.cmd.ctx).desc e.cmd = true) ∧
    (∃ (s : State) (tl : TileIx) (d : Nat), s.Signals ∧ 2 ^ s.fld (tileReg tl TWD_INJECT_INTERVAL) 4 0 ≤ (s.tile tl).sinceInj ∧
      d % 8191 ≠ 0) ∧
    (∃ (s : State) (tl : TileIx) (seq : Word) (k : Nat) (e : JEntry) (c0 : Cause), s.Signals ∧ (s.tile tl).slotOf seq = some (k, e) ∧
      (s.tile tl).retry = some (seq, c0) ∧ (s.tile tl).gateClosed = false ∧ s.regionRuns tl = true ∧ e.role ≠ .shadow ∧
      e.state = .complete) ∧
    (∃ (s : State) (tl : TileIx), s.Signals ∧ s.time.refclk = true ∧ (s.tile tl).failedTwice.isSome = true ∧
      (s.tile tl).gateClosed = false) :=
  ⟨⟨(srvRun : State), (0 : TileIx),
      (⟨7, 0, 1, false, false, [[1]], [[0]], [[2]], [[0]], [[0]], [[2]], [], [], .proper, false⟩ : PassIn), (0 : Nat),
      ({ cmd := cmd1, state := .running, execs := 1, passes := 1 } : JEntry), (by unfold State.Signals; decide), (by decide),
      (by decide), (by decide), (by decide), (by decide), (by decide), (by decide), (by decide), (by decide), (by decide),
      (by decide), (by decide), (by decide), (by decide), (by decide)⟩,
   ⟨(srvRun : State), (0 : TileIx),
      (⟨7, 0, 1, false, false, [[1]], [[0]], [[2]], [[0]], [[0]], [[3]], [], [], .proper, false⟩ : PassIn), (0 : Nat),
      ({ cmd := cmd1, state := .running, execs := 1, passes := 1 } : JEntry), (by unfold State.Signals; decide), (by decide),
      (by decide), (by decide), (by decide), (by decide), (by decide), (by decide), (by decide), (by decide), (by decide),
      (by decide), (by decide), (by decide), (by decide), (by decide), (by decide), (by decide), (by decide), (by decide)⟩,
   ⟨(srvRun : State), (0 : TileIx), ((7 : Word) : Word), (1 : Nat), (0 : Nat),
      ({ cmd := cmd1, state := .running, execs := 1, passes := 1 } : JEntry), (by unfold State.Signals; decide), (by decide),
      (by decide), (by decide), (by decide), (by decide), (by decide), (by decide), (by decide), (by decide)⟩,
   ⟨({ srv with tiles := [(0, { sinceInj := 2 ^ 31 })] } : State), (0 : TileIx), (8190 : Nat), (by unfold State.Signals; decide),
      (by decide), (by decide)⟩,
   ⟨(srvRetryC : State), (0 : TileIx), ((7 : Word) : Word), (0 : Nat), ({ jRetry with state := .complete } : JEntry),
      (Cause.residue : Cause), (by unfold State.Signals; decide), (by decide), (by decide), (by decide), (by decide), (by decide),
      (by decide)⟩,
   ⟨({ srvRun with tiles := [(0, { failedTwice := some 5 })] } : State), (0 : TileIx), (by unfold State.Signals; decide), (by decide),
      (by decide), (by decide)⟩⟩

theorem witness_ShadowPool :
    (∃ (s : State), s.Signals) ∧
    (∃ (s : State) (tl : TileIx) (q : Word) (rest : List Word), s.Signals ∧ (s.tile tl).copies = q :: rest) ∧
    (∃ (s : State) (tl : TileIx) (c : Capture), s.Signals ∧ s.filling tl = some c) ∧
    (∃ (s : State) (tl : TileIx) (seq : Word) (k : Nat) (e : JEntry), s.Signals ∧ (s.tile tl).slotOf seq = some (k, e) ∧
      e.cmpWait = true ∧ e.sampled = false ∧ e.isOpen = true ∧ s.fld HRT_SHD_POLICY 12 12 = 0 ∧
      ({ e with cmpWait := false } : JEntry).mayCommit = true ∧ (s.tile tl).gateClosed = false) ∧
    (∃ (s : State) (tl : TileIx) (seq : Word) (k : Nat) (e : JEntry), (s.tile tl).slotOf seq = some (k, e) ∧ e.cmpWait = true ∧
      e.sampled = false ∧ e.isOpen = true ∧ s.fld HRT_SHD_POLICY 12 12 ≠ 0 ∧ (s.ctx e.cmd.ctx).used = true ∧
      (s.ctx e.cmd.ctx).faulted = false) ∧
    (∃ (s : State) (a : Arb) (rest : List Arb) (i : Nat) (u : TileIx), s.Signals ∧ s.shadow.waiting = a :: rest ∧
      s.freeArbSlot = some i ∧ s.chooseArbiter a.p a.s = some u) ∧
    (∃ (s : State) (a : Arb) (rest : List Arb) (i : Nat), s.Signals ∧ s.shadow.waiting = a :: rest ∧ s.freeArbSlot = some i ∧
      s.chooseArbiter a.p a.s = none) ∧
    (∃ (s : State) (a : Arb) (i : Fin 2) (u : TileIx) (k : Nat) (e : JEntry) (c : Capture) (o : Ofd), s.Signals ∧
      s.shadow.running.getD i.val none = some a ∧ a.s2 = some u ∧ (s.tile a.s).dutyOf a.p a.seq = some (k, e) ∧
      (s.tile a.s).captureOf a.p a.seq = some c ∧ o ≠ c.ofd ∧ a.resent = false) ∧
    (∃ (s : State) (tl : TileIx) (w : Nat), s.Signals ∧ (s.fpOf tl).watch = some w ∧ w ≤ s.opTime) :=
  ⟨⟨(srvRun : State), (by unfold State.Signals; decide)⟩,
   ⟨({ srvRun with tiles := [(0, { role := .logical, copies := [7, 9] })] } : State), (0 : TileIx), (7 : Word), ([9] : List Word),
      (by unfold State.Signals; decide), (by decide)⟩,
   ⟨({ srvArb with tiles := tput srvArb.tiles 0 { role := .logical, jnl := [(0, { jDone with sampled := true, state := .running })], jhead := 0 } } : State),
      (1 : TileIx), (⟨0, 1, 7, false, false, ⟨0, 0⟩⟩ : Capture), (by unfold State.Signals; decide), (by decide)⟩,
   ⟨(srvHold : State), (0 : TileIx), ((7 : Word) : Word), (0 : Nat), ({ jDone with cmpWait := true } : JEntry),
      (by unfold State.Signals; decide), (by decide), (by decide), (by decide), (by decide), (by decide), (by decide), (by decide)⟩,
   ⟨({ srvHold with regs := [(HRT_SHD_POLICY, 0x1000#32)] } : State), (0 : TileIx), ((7 : Word) : Word), (0 : Nat),
      ({ jDone with cmpWait := true } : JEntry), (by decide), (by decide), (by decide), (by decide), (by decide), (by decide),
      (by decide)⟩,
   ⟨({ srvArb with shadow := { waiting := [arb1] }, tiles := tput srvArb.tiles 40 { role := .idle }, plan := { srvArb.plan with fp := (40, { st := .spare }) :: srvArb.plan.fp } } : State),
      (arb1 : Arb), ([] : List Arb), (0 : Nat), (40 : TileIx), (by unfold State.Signals; decide), (by decide), (by decide),
      (by decide)⟩,
   ⟨({ srvArb with shadow := { waiting := [arb1] } } : State), (arb1 : Arb), ([] : List Arb), (0 : Nat),
      (by unfold State.Signals; decide), (by decide), (by decide), (by decide)⟩,
   ⟨({ srvArb with shadow := { running := [some { arb1 with s2 := some 40 }, none] } } : State), ({ arb1 with s2 := some 40 } : Arb),
      (0 : Fin 2), (40 : TileIx), (0 : Nat), ({ cmd := cmd1, role := .shadow, primary := some 0 } : JEntry),
      (⟨0, 1, 7, false, false, ⟨0, 0⟩⟩ : Capture), (⟨0, 1⟩ : Ofd), (by unfold State.Signals; decide), (by decide), (by decide),
      (by decide), (by decide), (by decide), (by decide)⟩,
   ⟨({ srvCtx with plan := { fp := [(3, { st := .spare, watch := some 5 })] }, time := { srvCtx.time with opBase := 5 } } : State),
      (3 : TileIx), (5 : Nat), (by unfold State.Signals; decide), (by decide), (by decide)⟩⟩

theorem witness_FenceAndReplacement :
    (∃ (s : State) (tl : TileIx), s.Signals ∧ tget? s.plan.fencing tl.val = none) ∧
    (∃ (s : State) (tl : TileIx) (cause : Option Event) (at0 : Nat) (prefer : Option TileIx) (x : Nat), s.Signals ∧
      tget? s.plan.fencing tl.val = some (cause, at0, prefer, x) ∧ ((s.fpOf tl).st = .good ∨ (s.fpOf tl).st = .spare) ∧
      ((s.plan.slots.take 2).all fun r => r.all fun x => x.spare != some tl) = true) ∧
    (∃ (s : State) (tl : TileIx) (cause : Option Event) (at0 : Nat) (prefer : Option TileIx) (x : Nat) (i : Nat) (r : Repl), s.Signals ∧
      tget? s.plan.fencing tl.val = some (cause, at0, prefer, x) ∧ s.plan.slots.getD i none = some r ∧ r.spare = some tl ∧ i < 2 ∧
      (i = 1 → (s.plan.slots.getD 0 none).all (fun q => q.spare != some tl) = true)) ∧
    (∃ (s : State) (r : Repl) (rest : List Repl) (i : Nat) (u : TileIx), s.Signals ∧ s.plan.waiting = r :: rest ∧
      s.freeReplSlot = some i ∧ s.chooseSpare r.prefer (dieOfTile r.failed) = some u ∧ s.recd.pfLock = false) ∧
    (∃ (s : State) (r : Repl) (rest : List Repl) (i : Nat), s.Signals ∧ s.plan.waiting = r :: rest ∧ s.freeReplSlot = some i ∧
      s.chooseSpare r.prefer (dieOfTile r.failed) = none) ∧
    (∃ (s : State) (i : Fin 2) (r : Repl) (u : TileIx), s.Signals ∧ s.plan.slots.getD i.val none = some r ∧ r.spare = some u ∧
      s.regionRuns u = true) ∧
    (∃ (s : State) (i : Fin 2) (r : Repl) (u : TileIx) (e : JEntry) (k : Nat), s.Signals ∧ s.plan.slots.getD i.val none = some r ∧
      r.spare = some u ∧ s.regionRuns u = true ∧ u ≠ r.first ∧ s.openPrimary r.first = [e] ∧
      (s.tile r.first).slotOf e.cmd.seq = some (k, e) ∧ (s.ctx e.cmd.ctx).faulted = false ∧ (s.tile r.first).gate = [] ∧
      (s.tile r.failed).gate = [] ∧ (s.tile u).gate = [] ∧ (tget? (s.tile u).jnl (s.tile u).newSlot).all (fun x => !x.isOpen) = true) ∧
    (∃ (s : State) (w : Tab TileIx × List TileIx) (rest : List (Tab TileIx × List TileIx)), s.Signals ∧ s.plan.writeQ = w :: rest ∧
      s.plan.writing = true) ∧
    (∃ (s : State), s.Signals ∧ s.plan.writeQ ≠ [] ∧ s.plan.writing = false ∧ s.plan.retries < 8 ∧ s.recd.pfLock = false) :=
  ⟨⟨(srvArb : State), (1 : TileIx), (by unfold State.Signals; decide), (by decide)⟩,
   ⟨({ srvCtx with plan := { srvCtx.plan with fencing := [(0, (none, 5, none, 1))] } } : State), (0 : TileIx), (none : Option Event),
      (5 : Nat), (none : Option TileIx), (1 : Nat), (by unfold State.Signals; decide), (by decide), (by decide), (by decide)⟩,
   ⟨({ srvRepl with plan := { srvRepl.plan with waiting := [], slots := [none, some repl1], fencing := [(1, (none, 5, none, 1))] } } : State),
      (1 : TileIx), (none : Option Event), (5 : Nat), (none : Option TileIx), (1 : Nat), (1 : Nat), (repl1 : Repl),
      (by unfold State.Signals; decide), (by decide), (by decide), (by decide), (by decide), (by decide)⟩,
   ⟨(srvRepl : State), (repl0 : Repl), ([] : List Repl), (0 : Nat), (1 : TileIx), (by unfold State.Signals; decide), (by decide),
      (by decide), (by decide), (by decide)⟩,
   ⟨({ srvRepl with plan := { srvRepl.plan with fp := [(0, { st := .fenced, reason := 1 })] } } : State), (repl0 : Repl),
      ([] : List Repl), (0 : Nat), (by unfold State.Signals; decide), (by decide), (by decide), (by decide)⟩,
   ⟨({ srvRepl with plan := { srvRepl.plan with waiting := [], slots := [some repl1, none] } } : State), (0 : Fin 2), (repl1 : Repl),
      (1 : TileIx), (by unfold State.Signals; decide), (by decide), (by decide), (by decide)⟩,
   ⟨({ srvRepl with plan := { srvRepl.plan with waiting := [], slots := [some repl1, none] }, tiles := [(0, { role := .out, gateClosed := true, jnl := [(0, jDone)], jhead := 0 }), (1, { role := .logical, reloading := true })] } : State),
      (0 : Fin 2), (repl1 : Repl), (1 : TileIx), (jDone : JEntry), (0 : Nat), (by unfold State.Signals; decide), (by decide),
      (by decide), (by decide), (by decide), (by decide), (by decide), (by decide), (by decide), (by decide), (by decide), (by decide)⟩,
   ⟨({ srvCtx with plan := { srvCtx.plan with writing := true, writeQ := [([(0, 1)], [3]), ([], [])] } } : State),
      (([(0, 1)], [3]) : Tab TileIx × List TileIx), ([([], [])] : List (Tab TileIx × List TileIx)),
      (by unfold State.Signals; decide), (by decide), (by decide)⟩,
   ⟨({ srvCtx with plan := { srvCtx.plan with writeQ := [([], [])], retries := 7 } } : State), (by unfold State.Signals; decide),
      (by decide), (by decide), (by decide), (by decide)⟩⟩

theorem witness_TokensAndSlag :
    (∃ (s : State) (tl : TileIx) (k : Token), s.Signals ∧ (s.tile tl).gateClosed = false ∧ (s.tile tl).role ≠ .shadow ∧
      (s.tile tl).role ≠ .arbiter ∧ (s.ctx k.ctx).used = true ∧ (s.ctx k.ctx).faulted = false ∧
      (s.ctx k.ctx).desc.creditFallback = false ∧ (k.cons.all fun c => c.2.1 == .received || c.2.1 == .returned) = true ∧
      k.epoch.val = (s.tile tl).epoch ∧
      (k.marked = false ∨ (tget (s.tile tl).queues (k.ctx.val * 256 + k.queue % 256) {}).accepted.contains k.pos = false)) ∧
    (∃ (s : State) (tl : TileIx) (k : Token), s.Signals ∧ (s.tile tl).gateClosed = false ∧ (s.tile tl).role ≠ .shadow ∧
      (s.tile tl).role ≠ .arbiter ∧ (s.ctx k.ctx).used = true ∧ (s.ctx k.ctx).faulted = false ∧
      (s.ctx k.ctx).desc.creditFallback = false ∧ k.cons = none ∧ k.epoch.val = (s.tile tl).epoch ∧ k.marked = true ∧
      (tget (s.tile tl).queues (k.ctx.val * 256 + k.queue % 256) {}).accepted.contains k.pos = true) ∧
    (∃ (s : State) (tl : TileIx) (k : Token), s.Signals ∧ (s.tile tl).gateClosed = true ∧ (s.tile tl).role ≠ .shadow ∧
      (s.tile tl).role ≠ .arbiter ∧ s.movedTo tl = none ∧ (s.ctx k.ctx).used = true ∧ (s.ctx k.ctx).faulted = false ∧
      (s.ctx k.ctx).desc.creditFallback = false ∧ k.cons = none) ∧
    (∃ (s : State) (tl : TileIx) (k : Token) (key : ConsKey) (pl : Placement), s.Signals ∧ (s.tile tl).gateClosed = false ∧
      (s.tile tl).role ≠ .shadow ∧ (s.tile tl).role ≠ .arbiter ∧ (s.ctx k.ctx).used = true ∧ (s.ctx k.ctx).faulted = false ∧
      k.marked = false ∧ (k.cons = some (key, .dispatched, pl) ∨ k.cons = some (key, .dropped, pl))) ∧
    (∃ (s : State) (n : StackIx) (addr : Nat), s.Signals ∧ (s.agent (s.stackAgent n)).queue.length < 16 ∧ s.controlAt addr = false) ∧
    (∃ (s : State) (n : StackIx) (addr : Nat), s.Signals ∧ (s.agent (s.stackAgent n)).queue.length < 16 ∧ s.controlAt addr = true) ∧
    (∃ (s : State) (tl : TileIx), s.Signals ∧ (s.agent (tileAgent tl)).queue.length < 16) ∧
    (∃ (s : State) (n : StackIx) (addr : Nat), s.Signals ∧ (s.agent (s.stackAgent n)).queue.length < 15 ∧ s.controlAt addr = false) ∧
    (∃ (s : State) (n : StackIx) (addr : Nat), s.Signals ∧ (s.agent (s.stackAgent n)).queue.length < 16 ∧ s.controlAt addr = true) ∧
    (∃ (s : State) (p : PortIx), s.Signals ∧ (s.agent (portAgent p)).queue.length < 16) ∧
    (∃ (s : State) (tl : TileIx), s.Signals ∧ (s.agent (tileAgent tl)).queue.length < 16) ∧
    (∃ (s : State) (tl : TileIx) (seq : Word) (k : Nat) (e : JEntry), s.Signals ∧ (s.tile tl).slotOf seq = some (k, e) ∧
      e.role = .primary ∧ isCompute e.cmd.kind = true ∧ e.state = .running ∧ e.isOpen = true ∧
      (s.agent (tileAgent tl)).queue.length < 16) ∧
    (∃ (s : State) (dom : Fin 16) (gen : Byte) (c : CtxIx), s.Signals ∧ gen = tget s.esc.domGen dom.val 0 ∧
      (s.ctx c).faulted = false ∧ (s.ctx c).quarantine = none) ∧
    (∃ (s : State) (dom : Fin 16) (gen : Byte), s.Signals ∧ gen ≠ tget s.esc.domGen dom.val 0) ∧
    (∃ (s : State) (p : PortIx) (self : Bool), s.Signals ∧ (self = true → s.leaving = true) ∧
      (self = false → (s.port p).gone = true ∨ (s.port p).up = false)) :=
  ⟨⟨(srvCtx : State), (0 : TileIx), (⟨1, 3, 259, 7, 0, false, true, some (⟨1, 2, 3⟩, .received, .localExpert)⟩ : Token),
      (by unfold State.Signals; decide), (by decide), (by decide), (by decide), (by decide), (by decide), (by decide), (by decide),
      (by decide), (by decide)⟩,
   ⟨({ srvCtx with tiles := [(0, { role := .logical, queues := [(259, { accepted := [7] })] })] } : State), (0 : TileIx),
      (⟨1, 3, 259, 7, 0, true, true, none⟩ : Token), (by unfold State.Signals; decide), (by decide), (by decide), (by decide),
      (by decide), (by decide), (by decide), (by decide), (by decide), (by decide), (by decide)⟩,
   ⟨(srvRepl : State), (0 : TileIx), (⟨1, 3, 259, 7, 0, true, true, none⟩ : Token), (by unfold State.Signals; decide), (by decide),
      (by decide), (by decide), (by decide), (by decide), (by decide), (by decide), (by decide)⟩,
   ⟨(srvCtx : State), (0 : TileIx), (⟨1, 3, 259, 7, 0, false, true, some (⟨1, 2, 3⟩, .dispatched, .localExpert)⟩ : Token),
      (⟨1, 2, 3⟩ : ConsKey), (.localExpert : Placement), (by unfold State.Signals; decide), (by decide), (by decide), (by decide),
      (by decide), (by decide), (by decide), (by decide)⟩,
   ⟨(srvCtx : State), (23 : StackIx), (5 : Nat), (by unfold State.Signals; decide), (by decide), (by decide)⟩,
   ⟨(srvCtl : State), (23 : StackIx), (0x1FFFFF : Nat), (by unfold State.Signals; decide), (by decide), (by decide)⟩,
   ⟨(srvCtx : State), (143 : TileIx), (by unfold State.Signals; decide), (by decide)⟩,
   ⟨(srvCtx : State), (23 : StackIx), (5 : Nat), (by unfold State.Signals; decide), (by decide), (by decide)⟩,
   ⟨(srvCtl : State), (23 : StackIx), (0x100000 : Nat), (by unfold State.Signals; decide), (by decide), (by decide)⟩,
   ⟨(srvCtx : State), (47 : PortIx), (by unfold State.Signals; decide), (by decide)⟩,
   ⟨(srvCtx : State), (143 : TileIx), (by unfold State.Signals; decide), (by decide)⟩,
   ⟨(srvRun : State), (0 : TileIx), ((7 : Word) : Word), (0 : Nat),
      ({ cmd := cmd1, state := .running, execs := 1, passes := 1 } : JEntry), (by unfold State.Signals; decide), (by decide),
      (by decide), (by decide), (by decide), (by decide), (by decide)⟩,
   ⟨(srvCtx : State), (15 : Fin 16), (0 : Byte), (1 : CtxIx), (by unfold State.Signals; decide), (by decide), (by decide), (by decide)⟩,
   ⟨(srvCtx : State), (7 : Fin 16), (255 : Byte), (by unfold State.Signals; decide), (by decide)⟩,
   ⟨(srvCtx : State), (3 : PortIx), (false : Bool), (by unfold State.Signals; decide), (by decide), (by decide)⟩⟩

theorem witness_StepBarrier :
    (∃ (s : State) (b : Barrier), s.Signals ∧ (s.ctx b.ctx).used = true ∧ (s.ctx b.ctx).faulted = false ∧
      (s.ctx b.ctx).step = b.step ∧ (∀ tl, consOf b.ctx (stepParity b.step) (s.tile tl) = [])) ∧
    (∃ (s : State) (b : Barrier) (r : ConsRow) (k : Nat), (s.ctx b.ctx).used = true ∧ (s.ctx b.ctx).faulted = false ∧
      (s.ctx b.ctx).step = b.step ∧ (s.ctx b.ctx).desc.noticeOnly = false ∧ r ∈ s.consRows b.ctx b.step ∧ r.key.isSome = true ∧
      r.saturated = false ∧ r.judge = some k ∧ (s.consRows b.ctx b.step).length + s.ofd.cons.length ≤ 4096) ∧
    (∃ (s : State) (c : CtxIx), s.Signals ∧ (s.ctx c).used = false ∧ s.bu.pkg ≠ .safe) :=
  ⟨⟨(srvRun : State), (⟨1, 3, 0, 100, 0, 0, 0, 0, false⟩ : Barrier), (by unfold State.Signals; decide), (by decide), (by decide),
      (by decide), (by decide)⟩,
   ⟨({ srvRun with tiles := [(0, { role := .logical, cons := [⟨true, 1, some ⟨1, 2, 3⟩, .localExpert, 3, 5, 0, 4, 4⟩] })] } : State),
      (⟨1, 3, 0, 100, 0, 0, 0, 0, false⟩ : Barrier), (⟨1, some ⟨1, 2, 3⟩, .localExpert, 3, 5, 0, 4, 4, none⟩ : ConsRow), (0 : Nat),
      (by decide), (by decide), (by decide), (by decide), (by decide), (by decide), (by decide), (by decide), (by decide)⟩,
   ⟨(srvRun : State), (15 : CtxIx), (by unfold State.Signals; decide), (by decide), (by decide)⟩⟩

theorem witness_DigestBanks :
    (∃ (s : State) (n : StackIx) (w : TagWrite) (x : Handle) (us : List (Nat × Nat) × Bool), s.Signals ∧
      s.handle? w.handle.val = some x ∧ x.d.ctx = w.ctx ∧ w.handle.val ≠ 0 ∧ (s.agent (s.stackAgent n)).resync = false ∧
      unitsAt (widthOf x.d.width) ((w.addr + 2 ^ 64 - x.d.region.base) % 2 ^ 64) w.bytes = us) ∧
    (∃ (s : State) (w : TagWrite), s.Signals ∧ s.handle? w.handle.val = none ∧ w.handle.val ≠ 0) ∧
    (∃ (s : State), s.Signals) ∧
    (∃ (s : State) (n : StackIx) (c : CtxIx) (step : Word), s.Signals ∧ (s.stack n).latch.contains (c, step) = true) ∧
    (∃ (s : State) (h : Hdr) (d : OfdDecl) (k : Nat), s.Signals ∧ s.Serves h ∧ h.operator = true ∧ d.indexBase < 2 ^ 48 ∧
      s.ownsRegion ⟨h, 0x40⟩ d.region = true ∧ d.region.length * 8 % widthOf d.width = 0 ∧
      (s.ofd.handles.any fun e => overlaps e.2.d.region d.region) = false ∧ s.freeHandle = some k) ∧
    (∃ (s : State) (h : Hdr) (k : Fin 256) (x : Handle), s.Signals ∧ s.Serves h ∧ h.operator = true ∧ s.handle? k.val = some x) ∧
    (∃ (s : State) (h : Hdr) (k : Fin 256) (x : Handle), s.Signals ∧ s.Serves h ∧ h.operator = true ∧ s.handle? k.val = some x) :=
  ⟨⟨(srvOfd : State), (0 : StackIx), (⟨1, 1, 3, 0x100008, [(1, true), (2, true), (3, false)], none, some 2⟩ : TagWrite),
      ({ d := ofd1 } : Handle), (unitsAt (widthOf ofd1.width) 8 [(1, true), (2, true), (3, false)] : List (Nat × Nat) × Bool),
      (by unfold State.Signals; decide), (by decide), (by decide), (by decide), (by decide), (by decide)⟩,
   ⟨(srvOfd : State), (⟨9, 1, 3, 8, [(1, true)], none, none⟩ : TagWrite), (by unfold State.Signals; decide), (by decide), (by decide)⟩,
   ⟨(srvOfd : State), (by unfold State.Signals; decide)⟩,
   ⟨({ srvOfd with hbm := [(2, { latch := [(1, 3)], banks := [(3, ⟨1, 2, 3, 0⟩)] })] } : State), (2 : StackIx), (1 : CtxIx), (3 : Word),
      (by unfold State.Signals; decide), (by decide)⟩,
   ⟨(srvOfd : State), (hw : Hdr), ({ ofd1 with region := ⟨0x101000, 0x1000⟩ } : OfdDecl), (2 : Nat), (by unfold State.Signals; decide),
      ⟨rfl, rfl, rfl, by decide, by decide, by decide⟩, (by decide), (by decide), (by decide), (by decide), (by decide), (by decide)⟩,
   ⟨(srvOfd : State), (hw : Hdr), (1 : Fin 256), ({ d := ofd1 } : Handle), (by unfold State.Signals; decide),
      ⟨rfl, rfl, rfl, by decide, by decide, by decide⟩, (by decide), (by decide)⟩,
   ⟨(srvOfd : State), (hc : Hdr), (1 : Fin 256), ({ d := ofd1 } : Handle), (by unfold State.Signals; decide), ⟨rfl, rfl, trivial⟩,
      (by decide), (by decide)⟩⟩

theorem witness_ScrubsAndReplicas :
    (∃ (s : State) (h : Hdr) (d : OfdDecl), s.Signals ∧ s.Serves h ∧ h.operator = true ∧ d.indexBase < 2 ^ 48 ∧
      s.ownsRegion ⟨h, 0x43⟩ d.region = true ∧ s.fnOn 4 = true ∧ s.faultyRegion d.region = false ∧ s.ofd.queue.length < 16) ∧
    (∃ (s : State) (h : Hdr) (d : OfdDecl), s.Signals ∧ s.Serves h ∧ h.operator = true ∧ d.indexBase < 2 ^ 48 ∧
      s.ownsRegion ⟨h, 0x44⟩ d.region = true ∧ s.fnOn 4 = true ∧ s.faultyRegion d.region = false ∧ s.ofd.queue.length < 16) ∧
    (∃ (s : State) (r : Scrub) (rest : List Scrub), s.Signals ∧ s.ofd.queue = r :: rest ∧ s.ofd.running = none ∧ s.fnOn 4 = true ∧
      s.faultyRegion r.d.region = false) ∧
    (∃ (s : State) (r : Scrub) (p : Pend) (parts : List ScrubPart) (b : Bank), s.Signals ∧ s.ofd.running = some r ∧ r.who = some p ∧
      r.expected = none ∧ s.host.unanswered.contains p = true ∧ (∀ q ∈ parts, s.memoryStopped q.stack = false) ∧
      (parts.map (s.partBank r.d r.disturbed)).foldl Bank.combine {} = b) ∧
    (∃ (s : State) (r : Scrub) (p : Pend) (parts : List ScrubPart) (e : Ofd) (n : Nat) (b : Bank), s.Signals ∧
      s.ofd.running = some r ∧ r.who = some p ∧ r.expected = some (e, n) ∧ s.host.unanswered.contains p = true ∧
      (∀ q ∈ parts, s.memoryStopped q.stack = false) ∧ (parts.map (s.partBank r.d r.disturbed)).foldl Bank.combine {} = b ∧
      b.status n = 0 ∧ b.ofd = e) ∧
    (∃ (s : State) (r : Scrub) (p : Pend) (parts : List ScrubPart) (e : Ofd) (n : Nat) (b : Bank), s.Signals ∧
      s.ofd.running = some r ∧ r.who = some p ∧ r.expected = some (e, n) ∧ s.host.unanswered.contains p = true ∧
      (∀ q ∈ parts, s.memoryStopped q.stack = false) ∧ (parts.map (s.partBank r.d r.disturbed)).foldl Bank.combine {} = b ∧
      b.status n ≠ 0) ∧
    (∃ (s : State) (g : Group) (r : ReplicaReg) (own : Replica), s.Signals ∧
      (s.ofd.groups.find? fun x => x.ident == g.ident) = some g ∧ (∀ w ∈ g.waits, w.2 = 0) ∧ s.ownReplica g r = some own) ∧
    (∃ (s : State) (g : Group), s.Signals ∧ (s.ofd.groups.find? fun x => x.ident == g.ident) = some g ∧ (∀ w ∈ g.waits, w.2 = 0)) ∧
    (∃ (s : State) (m : CmpHdr) (g : Group) (k : Fin 16) (v : Word), s.Signals ∧ s.pw.standby = true ∧ m.good = true ∧
      s.sq.run = .running ∧ (s.ofd.groups.find? fun x => x.ident == g.ident) = some g ∧ k.val < g.members.length ∧ k.val ≠ g.self ∧
      (g.seen.filter fun q => q.version == v && q.member != k.val).length + 1 < g.members.length) :=
  ⟨⟨(srvScrub : State), (hw : Hdr), (ofd1 : OfdDecl), (by unfold State.Signals; decide),
      ⟨rfl, rfl, rfl, by decide, by decide, by decide⟩, (by decide), (by decide), (by decide), (by decide), (by decide), (by decide)⟩,
   ⟨(srvScrub : State), (hw : Hdr), (ofd1 : OfdDecl), (by unfold State.Signals; decide),
      ⟨rfl, rfl, rfl, by decide, by decide, by decide⟩, (by decide), (by decide), (by decide), (by decide), (by decide), (by decide)⟩,
   ⟨({ srvScrub with ofd := { srvScrub.ofd with queue := [⟨some ⟨hw, 0x43⟩, ofd1, none, []⟩] } } : State),
      (⟨some ⟨hw, 0x43⟩, ofd1, none, []⟩ : Scrub), ([] : List Scrub), (by unfold State.Signals; decide), (by decide), (by decide),
      (by decide), (by decide)⟩,
   ⟨({ srvScrub with host := { srvScrub.host with unanswered := [⟨hw, 0x43⟩] }, ofd := { srvScrub.ofd with running := some scrA } } : State),
      (scrA : Scrub), (⟨hw, 0x43⟩ : Pend), ([partA] : List ScrubPart),
      ([srvScrub.partBank ofd1 [] partA].foldl Bank.combine {} : Bank), (by unfold State.Signals; decide), (by decide), (by decide),
      (by decide), (by decide), (by decide), (by decide)⟩,
   ⟨({ srvScrub with host := { srvScrub.host with unanswered := [⟨hc, 0x44⟩] }, ofd := { srvScrub.ofd with running := some scrV } } : State),
      (scrV : Scrub), (⟨hc, 0x44⟩ : Pend), ([partA] : List ScrubPart), ((srvScrub.partBank ofd1 [] partA).ofd : Ofd), (4 : Nat),
      ([srvScrub.partBank ofd1 [] partA].foldl Bank.combine {} : Bank), (by unfold State.Signals; decide), (by decide), (by decide),
      (by decide), (by decide), (by decide), (by decide), (by decide), (by decide)⟩,
   ⟨({ srvScrub with host := { srvScrub.host with unanswered := [⟨hc, 0x44⟩] }, ofd := { srvScrub.ofd with running := some { scrV with expected := some ((srvScrub.partBank ofd1 [] partA).ofd, 5) } } } : State),
      ({ scrV with expected := some ((srvScrub.partBank ofd1 [] partA).ofd, 5) } : Scrub), (⟨hc, 0x44⟩ : Pend),
      ([partA] : List ScrubPart), ((srvScrub.partBank ofd1 [] partA).ofd : Ofd), (5 : Nat),
      ([srvScrub.partBank ofd1 [] partA].foldl Bank.combine {} : Bank), (by unfold State.Signals; decide), (by decide), (by decide),
      (by decide), (by decide), (by decide), (by decide), (by decide)⟩,
   ⟨({ srvOfd with ofd := { srvOfd.ofd with groups := [grp1], handles := [(1, { d := ofd1, latched := [(3, ⟨5, 6, 9, 0⟩), (2, ⟨1, 2, 9, 0⟩)] })] } } : State),
      (grp1 : Group), (.static ofd1 4 [partA] : ReplicaReg),
      (⟨grp1.self, 4, 0, ([srvOfd.partBank ofd1 [] partA].foldl Bank.combine {}).ofd, ([srvOfd.partBank ofd1 [] partA].foldl Bank.combine {}).count, ([srvOfd.partBank ofd1 [] partA].foldl Bank.combine {}).status (unitsOf ofd1)⟩ : Replica),
      (by unfold State.Signals; decide), (by decide), (by decide), (by decide)⟩,
   ⟨({ srvOfd with ofd := { srvOfd.ofd with groups := [grp1] } } : State), (grp1 : Group), (by unfold State.Signals; decide),
      (by decide), (by decide)⟩,
   ⟨({ srv with ofd := { groups := [grp1] } } : State), (⟨1, 0, false, true, 5⟩ : CmpHdr), (grp1 : Group), (2 : Fin 16), (4 : Word),
      (by unfold State.Signals; decide), (by decide), (by decide), (by decide), (by decide), (by decide), (by decide), (by decide)⟩⟩

theorem witness_TraceRecords :
    (∃ (s : State) (tl : TileIx), s.Signals ∧ s.regionRuns tl = true ∧ (s.tile tl).gateClosed = false ∧
      s.traceSrc 21 ((s.running tl).map fun e => e.cmd.ctx) = true ∧ s.traced (s.partOfTile tl).val = true ∧
      (s.writer (s.partOfTile tl).val (tileWriter tl)).blk = none ∧ (s.writer (s.partOfTile tl).val (tileWriter tl)).lost = 0 ∧
      (s.writer (s.partOfTile tl).val (tileWriter tl)).buf.length < 512) ∧
    (∃ (s : State) (p : Nat), s.Signals ∧ (List.range 4).find? s.traced = some p ∧ s.traceOn = true ∧
      (s.writer p hearthWriter).blk = none ∧ (s.writer p hearthWriter).lost = 0 ∧ (s.writer p hearthWriter).buf.length < 512) ∧
    (∃ (s : State) (p : PartIx) (w : Nat), s.Signals ∧ s.traceWriting = true ∧ s.traced p.val = true ∧
      (s.writer p.val (w % 193)).blk = none ∧ s.fld OBS_TRACE_CFG 27 27 = 0) ∧
    (∃ (s : State) (p : PartIx) (w : Nat), s.Signals ∧ s.traceWriting = true ∧ s.traced p.val = true ∧
      (s.writer p.val (w % 193)).blk = none ∧ s.fld OBS_TRACE_CFG 27 27 ≠ 0 ∧
      s.traceBlocks p.val ≤ (tget s.obs.regions p.val {}).next ∧ (tget s.obs.regions p.val {}).full = false) ∧
    (∃ (s : State) (p : PartIx) (w : Nat) (b : Nat) (used : Nat) (c : Nat), s.Signals ∧
      (s.writer p.val (w % 193)).blk = some (b, used, c) ∧ c + 10 ^ 9 ≤ s.clock) ∧
    (∃ (s : State) (p : PartIx), s.Signals ∧ s.traceOn = true ∧ s.traced p.val = true) :=
  ⟨⟨(srvTrace : State), (0 : TileIx), (by unfold State.Signals; decide), (by decide), (by decide), (by decide), (by decide),
      (by decide), (by decide), (by decide)⟩,
   ⟨(srvTrace : State), (0 : Nat), (by unfold State.Signals; decide), (by decide), (by decide), (by decide), (by decide), (by decide)⟩,
   ⟨(srvTrace : State), (0 : PartIx), (192 : Nat), (by unfold State.Signals; decide), (by decide), (by decide), (by decide), (by decide)⟩,
   ⟨({ srvTrace with regs := (OBS_TRACE_CFG, 0x08FFFFFF#32) :: (srvTrace.regs.filter fun e => e.1 != OBS_TRACE_CFG), obs := { regions := [(0, { next := 256 })] } } : State),
      (0 : PartIx), (192 : Nat), (by unfold State.Signals; decide), (by decide), (by decide), (by decide), (by decide), (by decide),
      (by decide)⟩,
   ⟨({ srvTrace with time := { srvTrace.time with tb := 5000000000, origin := some 0 }, obs := { writers := [(192, { blk := some (3, 7, 5), buf := [] })] } } : State),
      (0 : PartIx), (192 : Nat), (3 : Nat), (7 : Nat), (5 : Nat), (by unfold State.Signals; decide), (by decide), (by decide)⟩,
   ⟨(srvTrace : State), (0 : PartIx), (by unfold State.Signals; decide), (by decide), (by decide)⟩⟩

theorem witness_WatchesAndCounters :
    (∃ (s : State) (h : Hdr), s.Signals ∧ s.Serves h ∧ h.operator = true) ∧
    (∃ (s : State) (h : Hdr) (w : WatchDecl) (k : Nat), s.Signals ∧ s.Serves h ∧ h.operator = true ∧ s.fnOn 2 = true ∧
      s.freeWatch w.part = some k ∧ later w.step (s.ctx w.ctx).step = true ∧
      (isAddress w.sel = true ∨ s.fld OBS_TAG_FORM w.part.val w.part.val ≠ 0) ∧ s.ownsRegion ⟨h, 0x61⟩ w.dump = true ∧
      s.dumpOk ⟨h, 0x61⟩ w = true) ∧
    (∃ (s : State) (h : Hdr) (p : PartIx) (k : Fin 8) (w : WatchDecl), s.Signals ∧ s.Serves h ∧ h.operator = true ∧
      (s.watch (watchKey p k.val)).w = some w ∧ (s.ctx w.ctx).watchHold = false) ∧
    (∃ (s : State) (p : PartIx) (k : Fin 8) (w : WatchDecl), (s.watch (watchKey p k.val)).w = some w ∧
      (s.watch (watchKey p k.val)).st = 2 ∧ isAddress w.sel = true ∧ (s.ctx w.ctx).watchHold = true ∧ s.copyPaused = false) ∧
    (∃ (s : State) (p : PartIx) (k : Fin 8) (w : WatchDecl), (s.watch (watchKey p k.val)).w = some w ∧
      (s.watch (watchKey p k.val)).st = 2 ∧ isAddress w.sel = true ∧ (s.ctx w.ctx).watchHold = true) :=
  ⟨⟨(srvRun : State), (hw : Hdr), (by unfold State.Signals; decide), ⟨rfl, rfl, rfl, by decide, by decide, by decide⟩, (by decide)⟩,
   ⟨(srvWatch : State), (hw : Hdr), (watch1 : WatchDecl), (0 : Nat), (by unfold State.Signals; decide),
      ⟨rfl, rfl, rfl, by decide, by decide, by decide⟩, (by decide), (by decide), (by decide), (by decide), (by decide), (by decide),
      (by decide)⟩,
   ⟨({ srvWatch with obs := { watches := [(7, { st := 1, w := some watch1 })] } } : State), (hc : Hdr), (0 : PartIx), (7 : Fin 8),
      (watch1 : WatchDecl), (by unfold State.Signals; decide), ⟨rfl, rfl, trivial⟩, (by decide), (by decide), (by decide)⟩,
   ⟨({ srvWatch with obs := { watches := [(7, { st := 2, w := some watch1 })] }, ctxs := [(1, { used := true, desc := desc1, step := 5, watchHold := true, held := [(0, cmd1)] })] } : State),
      (0 : PartIx), (7 : Fin 8), (watch1 : WatchDecl), (by decide), (by decide), (by decide), (by decide), (by decide)⟩,
   ⟨({ srvWatch with obs := { watches := [(7, { st := 2, w := some watch1 })] }, ctxs := [(1, { used := true, desc := desc1, step := 5, watchHold := true, held := [(0, cmd1)] })] } : State),
      (0 : PartIx), (7 : Fin 8), (watch1 : WatchDecl), (by decide), (by decide), (by decide), (by decide)⟩⟩

theorem witness_Snapshots :
    (∃ (s : State) (h : Hdr) (b : Nat), s.Signals ∧ s.Serves h ∧ h.operator = true ∧ s.snapRegion = true ∧ s.esc.snaps.length = 2 ∧
      (List.range 2).find? (fun b => (s.snap b).st == 0) = some b) ∧
    (∃ (s : State) (b : Fin 2) (a : AgentIx), s.Signals ∧ (s.snap b.val).st = 1 ∧ (s.snap b.val).todo.contains a = true) ∧
    (∃ (s : State) (b : Fin 2), s.Signals ∧ (s.snap b.val).st = 1 ∧ (s.snap b.val).todo = []) ∧
    (∃ (s : State) (b : Fin 2), s.Signals ∧ (s.snap b.val).st = 1) ∧
    (∃ (s : State) (h : Hdr) (b : Fin 2) (off : Nat) (len : Nat), s.Signals ∧ s.Serves h ∧ h.operator = true ∧
      (s.snap b.val).st = 2 ∧ off + len ≤ 0x20000) ∧
    (∃ (s : State) (h : Hdr) (b : Fin 2), s.Signals ∧ s.Serves h ∧ h.operator = true ∧ (s.snap b.val).st = 2) :=
  ⟨⟨({ srvRun with regions := [(3, ⟨1, 1, true, .secure, .snapshot⟩)] } : State), (hw : Hdr), (0 : Nat),
      (by unfold State.Signals; decide), ⟨rfl, rfl, rfl, by decide, by decide, by decide⟩, (by decide), (by decide), (by decide),
      (by decide)⟩,
   ⟨(srvSnap : State), (1 : Fin 2), (⟨0, 3⟩ : AgentIx), (by unfold State.Signals; decide), (by decide), (by decide)⟩,
   ⟨({ srvSnap with esc := { srvSnap.esc with snaps := [{}, { st := 1, noresp := [⟨0, 3⟩] }] } } : State), (1 : Fin 2),
      (by unfold State.Signals; decide), (by decide), (by decide)⟩,
   ⟨(srvSnap : State), (1 : Fin 2), (by unfold State.Signals; decide), (by decide)⟩,
   ⟨({ srvSnap with esc := { snaps := [{ st := 2 }, {}] } } : State), (hw : Hdr), (0 : Fin 2), (0x1FC00 : Nat), (0x400 : Nat),
      (by unfold State.Signals; decide), ⟨rfl, rfl, rfl, by decide, by decide, by decide⟩, (by decide), (by decide), (by decide)⟩,
   ⟨({ srvSnap with esc := { snaps := [{ st := 2 }, {}] } } : State), (hc : Hdr), (0 : Fin 2), (by unfold State.Signals; decide),
      ⟨rfl, rfl, trivial⟩, (by decide), (by decide)⟩⟩

theorem witness_SlicedBist :
    (∃ (s : State) (tl : TileIx), s.Signals ∧ s.test.bist = none ∧ s.fnOn 3 = true ∧ s.rotation.head? = some tl ∧
      (s.fpOf tl).st = .spare ∧ (s.tile tl).role = .idle) ∧
    (∃ (s : State) (b : BistSlot) (c : TileIx) (l : LogIx), s.test.bist = some b ∧ b.cover = some c ∧ b.logical = some l ∧
      b.phase = .handOver ∧ (s.tile b.tile).handReady = true) ∧
    (∃ (s : State) (k : Fin 8) (j : AnvilJob) (c : TileIx) (l : LogIx), s.test.slots.getD k.val none = some j ∧ j.cover = some c ∧
      j.logical = some l ∧ j.phase = .handOver ∧ (s.tile j.tile).handReady = true) ∧
    (∃ (s : State) (b : BistSlot) (r : BistRun), s.Signals ∧ s.test.bist = some b ∧ b.phase = .testing ∧
      s.judgeBist b.tile r = .fail ∧ b.first = none) ∧
    (∃ (s : State) (b : BistSlot) (r : BistRun) (r0 : BistRun), s.test.bist = some b ∧ b.phase = .testing ∧
      s.judgeBist b.tile r = .fail ∧ b.first = some r0 ∧ ((s.fpOf b.tile).st = .good ∨ (s.fpOf b.tile).st = .spare) ∧
      tget? s.plan.fencing b.tile.val = none ∧ s.inReset b.tile = false) ∧
    (∃ (s : State) (b : BistSlot) (l : LogIx) (u : TileIx), s.test.bist = some b ∧ b.logical = some l ∧ b.phase = .handBack ∧
      s.holder l = some u ∧ (s.tile u).handReady = true) ∧
    (∃ (s : State) (k : Fin 8) (j : AnvilJob) (l : LogIx) (u : TileIx), s.test.slots.getD k.val none = some j ∧ j.logical = some l ∧
      j.phase = .handBack ∧ s.holder l = some u ∧ (s.tile u).handReady = true) ∧
    (∃ (s : State) (tl : TileIx) (x : ReturnTest) (r : BistRun), s.returnOf tl = some x ∧ x.long = true ∧ s.judgeBist tl r = .fail ∧
      s.recd.pfLock = false) ∧
    (∃ (s : State) (tl : TileIx) (x : ReturnTest) (r : BistRun), s.returnOf tl = some x ∧ x.long = true ∧ s.judgeBist tl r = .pass) ∧
    (∃ (s : State) (tl : TileIx), s.Signals ∧ ((s.fpOf tl).st = .fenced ∨ (s.fpOf tl).st = .defect) ∧
      s.fld (tileReg tl TWD_BIST_STATUS) 23 16 ≠ 0) ∧
    (∃ (s : State) (n : StackIx) (temp : Int), s.Signals ∧ s.fnOn 3 = true ∧ s.unitStopped (s.stackAgent n) = false ∧
      s.isExcluded 2 n.val = false ∧ n.val < s.stackCount ∧
      s.fld HRT_BIST_DIE_HOLD (s.stackAgent n).die.val (s.stackAgent n).die.val ≠ 1 ∧ temp ≤ 380 ∧
      tget s.test.slicePos n.val 0 + 1 < sliceCount) :=
  ⟨⟨({ srvCtx with fns := [(3, ⟨.on, 1, .nonSecure⟩)], regs := (HRT_BIST_NEXT, 0xFF01#32) :: srvCtx.regs } : State), (1 : TileIx),
      (by unfold State.Signals; decide), (by decide), (by decide), (by decide), (by decide), (by decide)⟩,
   ⟨({ srvCtx with test := { bist := some { tile := 0, cover := some 1, logical := some 0, phase := .handOver } } } : State),
      ({ tile := 0, cover := some 1, logical := some 0, phase := .handOver } : BistSlot), (1 : TileIx), (0 : LogIx), (by decide),
      (by decide), (by decide), (by decide), (by decide)⟩,
   ⟨({ srvCtx with test := { slots := [some { anv1 with phase := .handOver, cover := some 1, logical := some 0 }, none] } } : State),
      (0 : Fin 8), ({ anv1 with phase := .handOver, cover := some 1, logical := some 0 } : AnvilJob), (1 : TileIx), (0 : LogIx),
      (by decide), (by decide), (by decide), (by decide), (by decide)⟩,
   ⟨({ srvCtx with test := { bist := some { tile := 1, phase := .testing } } } : State), ({ tile := 1, phase := .testing } : BistSlot),
      (bistBad : BistRun), (by unfold State.Signals; decide), (by decide), (by decide), (by decide), (by decide)⟩,
   ⟨({ srvCtx with test := { bist := some { tile := 1, phase := .testing, first := some bistBad } } } : State),
      ({ tile := 1, phase := .testing, first := some bistBad } : BistSlot), (bistBad : BistRun), (bistBad : BistRun), (by decide),
      (by decide), (by decide), (by decide), (by decide), (by decide), (by decide)⟩,
   ⟨({ srvCtx with test := { bist := some { tile := 1, cover := some 0, logical := some 0, phase := .handBack } } } : State),
      ({ tile := 1, cover := some 0, logical := some 0, phase := .handBack } : BistSlot), (0 : LogIx), (0 : TileIx), (by decide),
      (by decide), (by decide), (by decide), (by decide)⟩,
   ⟨({ srvCtx with test := { slots := [some { anv1 with tile := 1, phase := .handBack, cover := some 0, logical := some 0 }, none] } } : State),
      (0 : Fin 8), ({ anv1 with tile := 1, phase := .handBack, cover := some 0, logical := some 0 } : AnvilJob), (0 : LogIx),
      (0 : TileIx), (by decide), (by decide), (by decide), (by decide), (by decide)⟩,
   ⟨(srvReturn : State), (5 : TileIx), ({ tile := 5, long := true } : ReturnTest), (bistBad : BistRun), (by decide), (by decide),
      (by decide), (by decide)⟩,
   ⟨(srvReturn : State), (5 : TileIx), ({ tile := 5, long := true } : ReturnTest), (bistGood : BistRun), (by decide), (by decide),
      (by decide)⟩,
   ⟨({ srvReturn with regs := (tileReg 5 TWD_BIST_STATUS, 0x10000#32) :: srvReturn.regs } : State), (5 : TileIx),
      (by unfold State.Signals; decide), (by decide), (by decide)⟩,
   ⟨({ srvCtx with fns := [(3, ⟨.on, 1, .nonSecure⟩)] } : State), (23 : StackIx), (380 : Int), (by unfold State.Signals; decide),
      (by decide), (by decide), (by decide), (by decide), (by decide), (by decide), (by decide)⟩⟩

theorem witness_AnvilRuns :
    (∃ (s : State) (h : Hdr) (ts : List TileName) (ks : BitVec 12) (n : Nat), s.Signals ∧ s.Serves h ∧ h.operator = true ∧ ts ≠ [] ∧
      ts.length ≤ 8 ∧ ks ≠ 0 ∧ n ≠ 0 ∧ n ≤ 255 ∧
      (∀ x ∈ ts, ∃ u, s.named x = some u ∧ (s.fpOf u).st ≠ .defect ∧ (s.fpOf u).retired = false) ∧ s.reqsQueued < 16) ∧
    (∃ (s : State) (i : Nat) (j : AnvilJob) (c : Option TileIx) (ph : TPhase), s.Signals ∧
      (List.range 8).find? (fun i => s.test.slots.getD i none == none) = some i ∧
      (s.test.queue.findSome? fun j => (s.canStart j).map fun x => (j, x)) = some (j, c, ph) ∧
      (∀ o ∈ (s.tile j.tile).slots.filterMap id, ((s.tile o.primary).slotOf o.seq).any (fun e => e.2.cmd.hold) = false)) ∧
    (∃ (s : State) (j : AnvilJob) (rest : List AnvilJob) (id : Nat) (r : AnvilReq), s.Signals ∧ s.test.queue = j :: rest ∧
      j.why = .request id ∧ (s.fpOf j.tile).st = .good ∧ s.chooseCover j.tile = none ∧
      (s.test.reqs.find? fun r => r.id == id) = some r ∧ s.host.unanswered.contains r.who = true) ∧
    (∃ (s : State) (i : Fin 8) (j : AnvilJob) (r : KernelRes) (k : Nat) (ks : List Nat), s.Signals ∧
      s.test.slots.getD i.val none = some j ∧ j.phase = .testing ∧ j.kernels = r.kernel.val :: k :: ks ∧ r.aborted = false ∧
      j.stopped = false ∧ s.regionRuns j.tile = true ∧ r.skipped = false ∧ r.invalid = false ∧ KernelRes.ok r = true) ∧
    (∃ (s : State) (i : Fin 8) (j : AnvilJob) (r : KernelRes), s.test.slots.getD i.val none = some j ∧ j.phase = .testing ∧
      j.kernels.head? = some r.kernel.val ∧ r.aborted = false ∧ j.stopped = false ∧ s.regionRuns j.tile = true ∧ r.skipped = false ∧
      r.invalid = false ∧ KernelRes.ok r = false) :=
  ⟨⟨(srvCtx : State), (hw : Hdr), ([TileName.phys 1, TileName.logical 0] : List TileName), (0xFFF : BitVec 12), (255 : Nat),
      (by unfold State.Signals; decide +kernel), ⟨rfl, rfl, rfl, by decide +kernel, by decide +kernel, by decide +kernel⟩, (by decide +kernel), (by decide +kernel), (by decide +kernel),
      (by decide +kernel), (by decide +kernel), (by decide +kernel), (by decide +kernel), (by decide +kernel)⟩,
   ⟨({ srvCtx with test := { queue := [anv1] } } : State), (0 : Nat), (anv1 : AnvilJob), (some 1 : Option TileIx), (.handOver : TPhase),
      (by unfold State.Signals; decide +kernel), (by decide +kernel), (by decide +kernel), (by decide +kernel)⟩,
   ⟨({ srvCtx with plan := { fp := [(0, { st := .good })], map := [(0, 0)] }, test := { queue := [{ anv1 with why := .request 4 }], reqs := [⟨4, ⟨hw, 0x50⟩, [0], []⟩] }, host := { srvCtx.host with unanswered := [⟨hw, 0x50⟩] } } : State),
      ({ anv1 with why := .request 4 } : AnvilJob), ([] : List AnvilJob), (4 : Nat), (⟨4, ⟨hw, 0x50⟩, [0], []⟩ : AnvilReq),
      (by unfold State.Signals; decide +kernel), (by decide +kernel), (by decide +kernel), (by decide +kernel), (by decide +kernel), (by decide +kernel), (by decide +kernel)⟩,
   ⟨({ srvCtx with test := { slots := [some { anv1 with phase := .testing }] } } : State), (0 : Fin 8),
      ({ anv1 with phase := .testing } : AnvilJob),
      (⟨0, ⟨1, 2⟩, ⟨1, 2⟩, true, true, false, false, false, false, envGood⟩ : KernelRes), (1 : Nat), ([] : List Nat),
      (by unfold State.Signals; decide +kernel), (by decide +kernel), (by decide +kernel), (by decide +kernel), (by decide +kernel), (by decide +kernel), (by decide +kernel), (by decide +kernel),
      (by decide +kernel), (by decide +kernel)⟩,
   ⟨({ srvCtx with test := { slots := [some { anv1 with phase := .testing }] } } : State), (0 : Fin 8),
      ({ anv1 with phase := .testing } : AnvilJob),
      (⟨0, ⟨1, 2⟩, ⟨1, 3⟩, true, true, false, false, false, false, envGood⟩ : KernelRes), (by decide +kernel), (by decide +kernel), (by decide +kernel),
      (by decide +kernel), (by decide +kernel), (by decide +kernel), (by decide +kernel), (by decide +kernel), (by decide +kernel)⟩⟩

theorem witness_LinkFrames :
    (∃ (s : State) (p : PortIx) (f : Sys2Proof.Frame), s.Signals ∧ (s.port p).up = true ∧ s.isTensor p = true ∧
      (s.port p).gens.contains f.gen = true ∧ f.tag ≠ 0xFFFF ∧ s.filterOpen p (fun e => e.rx && e.tag == f.tag) = true) ∧
    (∃ (s : State) (p : PortIx) (f : Sys2Proof.Frame), s.Signals ∧ (s.port p).up = true ∧ s.isTensor p = true ∧ f.tag ≠ 0xFFFF ∧
      s.filterOpen p (fun e => e.rx && e.tag == f.tag) = false ∧
      ((s.port p).gens.contains f.gen = true ∨ (s.reg (linkReg p LWD_GEN_CTRL)).getLsbD 0 = false)) ∧
    (∃ (s : State) (p : PortIx), s.Signals ∧ (s.port p).up = true ∧ s.isTensor p = false) ∧
    (∃ (s : State) (p : PortIx) (f : Sys2Proof.Frame), s.Signals ∧ (s.hl.stop ||| s.hl.trip).getLsbD (24 + p.val / 3) = false ∧
      s.isTensor p = true ∧ (s.port p).gone = false ∧ (s.port p).up = true ∧
      s.filterOpen p (fun e => e.tx && e.tag == f.tag) = true ∧ s.routed p f = true) ∧
    (∃ (s : State) (p : PortIx) (f : Sys2Proof.Frame), (s.hl.stop ||| s.hl.trip).getLsbD (24 + p.val / 3) = false ∧
      s.isTensor p = true ∧ (s.port p).gone = false ∧
      (s.filterOpen p (fun e => e.tx && e.tag == f.tag) = false ∨ s.routed p f = false) ∧ (s.ctx f.ctx).used = true ∧
      (s.ctx f.ctx).faulted = false) ∧
    (∃ (s : State) (p : PortIx) (f : Sys2Proof.Frame), s.Signals ∧ (s.hl.stop ||| s.hl.trip).getLsbD (24 + p.val / 3) = false ∧
      s.isTensor p = true ∧ (s.port p).gone = true ∧ f.isWrite = true) ∧
    (∃ (s : State) (p : PortIx) (f : Sys2Proof.Frame), s.Signals ∧ (s.hl.stop ||| s.hl.trip).getLsbD (24 + p.val / 3) = false ∧
      s.isTensor p = true ∧ (s.port p).gone = true ∧ f.isWrite = false) ∧
    (∃ (s : State) (p : PortIx), (s.hl.stop ||| s.hl.trip).getLsbD (24 + p.val / 3) = true) :=
  ⟨⟨(srvLink : State), (5 : PortIx), (frame1 : Sys2Proof.Frame), (by unfold State.Signals; decide), (by decide), (by decide),
      (by decide), (by decide), (by decide)⟩,
   ⟨(srvLink : State), (5 : PortIx), ({ frame1 with tag := 10 } : Sys2Proof.Frame), (by unfold State.Signals; decide), (by decide),
      (by decide), (by decide), (by decide), (by decide)⟩,
   ⟨({ srvLink with roles := [(5, ⟨.ethernet, false⟩)] } : State), (5 : PortIx), (by unfold State.Signals; decide), (by decide),
      (by decide)⟩,
   ⟨(srvLink : State), (5 : PortIx), (frame1 : Sys2Proof.Frame), (by unfold State.Signals; decide), (by decide), (by decide),
      (by decide), (by decide), (by decide), (by decide)⟩,
   ⟨(srvLink : State), (5 : PortIx), ({ frame1 with tag := 10 } : Sys2Proof.Frame), (by decide), (by decide), (by decide), (by decide),
      (by decide), (by decide)⟩,
   ⟨({ srvLink with ports := [(5, { port1 with gone := true })] } : State), (5 : PortIx), (frame1 : Sys2Proof.Frame),
      (by unfold State.Signals; decide), (by decide), (by decide), (by decide), (by decide)⟩,
   ⟨({ srvLink with ports := [(5, { port1 with gone := true })] } : State), (5 : PortIx),
      ({ frame1 with isWrite := false } : Sys2Proof.Frame), (by unfold State.Signals; decide), (by decide), (by decide), (by decide),
      (by decide)⟩,
   ⟨({ srvLink with hl := { srvLink.hl with stop := 0x2000000 } } : State), (5 : PortIx), (by decide)⟩⟩

theorem witness_LinkState :
    (∃ (s : State) (p : PortIx), s.portLives p = true ∧ (s.port p).up = false ∧ s.bu.linkWaits.contains p = false) ∧
    (∃ (s : State) (p : PortIx), (s.port p).up = true ∧ s.isTensor p = true) ∧
    (∃ (s : State) (p : PortIx), (s.port p).up = true ∧ s.isTensor p = true ∧ (s.port p).lossExpected = false) ∧
    (∃ (s : State) (p : PortIx) (n : FenceNotice), (s.port p).up = true ∧ s.isTensor p = true ∧
      (s.port p).lastNotice.any (sameNotice n) = false ∧ 3 ≤ n.scope.val) ∧
    (∃ (s : State) (p : PortIx) (n : FenceNotice), (s.port p).up = true ∧ s.isTensor p = true ∧
      (s.port p).lastNotice.any (sameNotice n) = false ∧ (n.scope.val = 1 ∨ n.scope.val = 2)) ∧
    (∃ (s : State) (p : PortIx) (n : FenceNotice), s.Signals ∧ (s.port p).up = true ∧ s.isTensor p = true ∧
      (s.port p).lastNotice.any (sameNotice n) = true) ∧
    (∃ (s : State) (p : PortIx) (lanes : List (Nat × Nat)), (s.port p).up = true ∧ s.isTensor p = true ∧
      (lanes.zipIdx.any fun l => decide (l.1.1 < (s.port p).floors.getD l.2 0)) = true) ∧
    (∃ (s : State) (p : PortIx) (lanes : List (Nat × Nat)), s.Signals ∧ (s.port p).up = true ∧
      (lanes.zipIdx.any fun l => decide (l.1.1 < (s.port p).floors.getD l.2 0)) = false) ∧
    (∃ (s : State) (p : PortIx), s.Signals ∧ (s.port p).up = true) :=
  ⟨⟨({ srvLink with ports := [(5, { port1 with up := false })] } : State), (5 : PortIx), (by decide), (by decide), (by decide)⟩,
   ⟨(srvLink : State), (5 : PortIx), (by decide), (by decide)⟩,
   ⟨(srvLink : State), (5 : PortIx), (by decide), (by decide), (by decide)⟩,
   ⟨(srvLink : State), (5 : PortIx), ({ notice1 with scope := 3 } : FenceNotice), (by decide), (by decide), (by decide), (by decide)⟩,
   ⟨(srvLink : State), (5 : PortIx), ({ notice1 with scope := 2 } : FenceNotice), (by decide), (by decide), (by decide), (by decide)⟩,
   ⟨({ srvLink with ports := [(5, { port1 with lastNotice := some notice1 })] } : State), (5 : PortIx), (notice1 : FenceNotice),
      (by unfold State.Signals; decide), (by decide), (by decide), (by decide)⟩,
   ⟨(srvLink : State), (5 : PortIx), ([(20, 3), (19, 3)] : List (Nat × Nat)), (by decide), (by decide), (by decide)⟩,
   ⟨(srvLink : State), (5 : PortIx), ([(20, 3), (20, 3)] : List (Nat × Nat)), (by unfold State.Signals; decide), (by decide), (by decide)⟩,
   ⟨(srvLink : State), (5 : PortIx), (by unfold State.Signals; decide), (by decide)⟩⟩

theorem witness_StandbyAndBoot :
    (∃ (s : State) (i : Stage0In), s.pw.standby = false ∧ i.coreMem = none ∧ i.recorderMem = none ∧ i.mramAnswers = true ∧
      i.headersGood = true ∧ i.norAnswers = true) ∧
    (∃ (s : State) (i : Stage0In), s.pw.standby = false ∧ i.coreMem = none ∧ i.recorderMem = none ∧ i.norAnswers = false) ∧
    (∃ (s : State), s.stageOpen 1 = true ∧ s.bu.chipPass = false) ∧
    (∃ (s : State) (u : State), u = s.modSq (fun q => if q.run = .off then { q with run := .running, lastBeat := s.time.tb } else q) ∧
      u.stageOpen 2 = true ∧ s.bu.chipPass = false ∧ s.pw.readyForMain = false) ∧
    (∃ (s : State), s.recd.pfLock = false ∧ s.stageOpen 2 = true ∧ s.pw.readyForMain = true ∧ s.pw.mainGood = false) ∧
    (∃ (s : State), s.Signals ∧ s.stageOpen 2 = true ∧ s.pw.readyForMain = true ∧ s.pw.mainGood = false ∧ s.bu.mainTimedOut = false) :=
  ⟨⟨(State.reset : State), (⟨none, none, true, true, true, false⟩ : Stage0In), (by decide), (by decide), (by decide), (by decide),
      (by decide), (by decide)⟩,
   ⟨(State.reset : State), (⟨none, none, false, true, true, false⟩ : Stage0In), (by decide), (by decide), (by decide), (by decide)⟩,
   ⟨({ boot 1 with sq := State.reset.sq } : State), (by decide), (by decide)⟩,
   ⟨({ boot 2 with sq := State.reset.sq, pw := { srv.pw with readyForMain := false } } : State),
      ({ boot 2 with sq := { State.reset.sq with run := .running, lastBeat := 2000000 }, pw := { srv.pw with readyForMain := false } } : State),
      (by decide), (by decide), (by decide), (by decide)⟩,
   ⟨({ boot 2 with pw := { srv.pw with readyForMain := true, mainGood := false } } : State), (by decide), (by decide), (by decide),
      (by decide)⟩,
   ⟨({ boot 2 with pw := { srv.pw with readyForMain := true, mainGood := false } } : State), (by unfold State.Signals; decide),
      (by decide), (by decide), (by decide), (by decide)⟩⟩

theorem witness_CensusAndPower :
    (∃ (s : State) (a : AgentIx), s.censusOpen = true ∧ s.agentExists a = true ∧ (s.agent a).probing = true) ∧
    (∃ (s : State) (a : AgentIx), s.censusOpen = true ∧ s.agentExists a = true ∧ (s.agent a).probing = true) ∧
    (∃ (s : State) (a : AgentIx), s.censusOpen = true ∧ s.agentExists a = true ∧ (s.agent a).probing = true ∧ a.agent = 31) ∧
    (∃ (s : State), s.stageOpen 3 = true ∧ s.pw.domOn = 0 ∧ s.time.refclk = true) ∧
    (∃ (s : State), s.stageOpen 3 = true ∧ s.pw.domOn = 0 ∧ s.time.refclk = false) ∧
    (∃ (s : State) (d : DomainIx), s.stageOpen 3 = true ∧ s.pw.domOn.getLsbD d.val = true ∧ s.pw.gridOk.getLsbD d.val = false ∧
      s.esc.reset = none) ∧
    (∃ (s : State) (d : DomainIx) (r : DomainRes), s.stageOpen 3 = true ∧ s.pw.domOn.getLsbD d.val = true ∧
      s.pw.gridOk.getLsbD d.val = false ∧ s.esc.reset = none ∧ r ≠ .ok ∧ s.isExcluded 4 (s.dieOfDomain d).val = false) ∧
    (∃ (s : State) (late : List DomainIx) (a : Nat), s.time.refclk = true ∧ s.time.alignAt = some a ∧ s.stageOpen 3 = true ∧
      (late.filter fun d => s.hl.armed.getLsbD d.val) = []) :=
  ⟨⟨(bootCensus : State), (tileAgent 0 : AgentIx), (by decide), (by decide), (by decide)⟩,
   ⟨(bootCensus : State), (tileAgent 0 : AgentIx), (by decide), (by decide), (by decide)⟩,
   ⟨(bootCensus : State), (routerAgent srv.anchor : AgentIx), (by decide), (by decide), (by decide), (by decide)⟩,
   ⟨({ boot 3 with pw := { srv.pw with domOn := 0 } } : State), (by decide), (by decide), (by decide)⟩,
   ⟨({ boot 3 with pw := { srv.pw with domOn := 0 }, time := { srv.time with refclk := false } } : State), (by decide), (by decide),
      (by decide)⟩,
   ⟨({ boot 3 with pw := { srv.pw with domOn := 0x100FFFFFFFF, gridOk := 0 } } : State), (16 : DomainIx), (by decide), (by decide),
      (by decide), (by decide)⟩,
   ⟨({ boot 3 with pw := { srv.pw with gridOk := 0 }, bu := { stage := 3, degraded := true } } : State), (30 : DomainIx),
      (.late : DomainRes), (by decide), (by decide), (by decide), (by decide), (by decide), (by decide)⟩,
   ⟨({ boot 3 with time := { srv.time with alignAt := some 2000640 }, hl := { srv.hl with armed := 0xFFFF, kill := 0xFFFF } } : State),
      ([] : List DomainIx), (2000640 : Nat), (by decide), (by decide), (by decide), (by decide)⟩⟩

theorem witness_TestsAndTraining :
    (∃ (s : State), s.stageOpen 4 = true ∧ s.bu.retries = [] ∧ s.fetchOk 5 = false) ∧
    (∃ (s : State), s.stageOpen 5 = true ∧ s.bu.linkWaits = [] ∧ s.fetchOk 6 = false) ∧
    (∃ (s : State), s.stageOpen 4 = true ∧ s.bu.retries = [] ∧ s.fetchOk 5 = true) ∧
    (∃ (s : State) (tl : TileIx) (r : BistRun), s.stageOpen 4 = true ∧ s.bu.good.contains tl = true ∧
      (s.retryOf .tile tl.val).isSome = true ∧ s.judgeBist tl r = .pass) ∧
    (∃ (s : State) (tl : TileIx) (r : BistRun) (x : StartRetry), s.stageOpen 4 = true ∧ s.bu.good.contains tl = true ∧
      s.retryOf .tile tl.val = some x ∧ x.tries = 3 ∧ s.judgeBist tl r = .invalid) ∧
    (∃ (s : State), s.stageOpen 5 = true ∧ s.bu.linkWaits = [] ∧ s.fetchOk 6 = true) ∧
    (∃ (s : State) (p : PortIx), s.stageOpen 5 = true ∧ s.bu.linkWaits.contains p = true) ∧
    (∃ (s : State), s.Signals ∧ s.bu.trainPending = true ∧ s.recd.pfLock = false ∧ s.bu.trainRetries ≤ 8) :=
  ⟨⟨({ boot 4 with bu := { stage := 4, slot := some 0 } } : State), (by decide), (by decide), (by decide)⟩,
   ⟨({ boot 5 with bu := { stage := 5, slot := some 0 } } : State), (by decide), (by decide), (by decide)⟩,
   ⟨(boot 4 : State), (by decide), (by decide), (by decide)⟩,
   ⟨({ boot 4 with bu := { stage := 4, good := List.finRange 144, retries := [⟨.tile, 0, 1⟩] } } : State), (0 : TileIx),
      (bistGood : BistRun), (by decide), (by decide), (by decide), (by decide)⟩,
   ⟨({ boot 4 with bu := { stage := 4, good := List.finRange 144, retries := [⟨.tile, 0, 3⟩] } } : State), (0 : TileIx),
      ({ bistGood with window := { envGood with supply0 := 0 } } : BistRun), (⟨.tile, 0, 3⟩ : StartRetry), (by decide), (by decide),
      (by decide), (by decide), (by decide)⟩,
   ⟨(boot 5 : State), (by decide), (by decide), (by decide)⟩,
   ⟨({ boot 5 with bu := { stage := 5, linkWaits := [3, 4] } } : State), (3 : PortIx), (by decide), (by decide)⟩,
   ⟨({ srv with bu := { srv.bu with trainPending := true, trainRetries := 8, fullUnits := [(2, 1)] } } : State),
      (by unfold State.Signals; decide), (by decide), (by decide), (by decide)⟩⟩

theorem witness_PayloadAndReady :
    (∃ (s : State), s.stageOpen 6 = true ∧ s.bu.cast = none ∧ s.fetchOk 3 = true ∧ s.fetchOk 4 = true) ∧
    (∃ (s : State), s.stageOpen 6 = true ∧ s.bu.cast = none ∧ (s.fetchOk 3 = false ∨ s.fetchOk 4 = false)) ∧
    (∃ (s : State) (c : Broadcast), s.stageOpen 6 = true ∧ s.bu.cast = some c ∧ c.reset = none ∧ s.castPaused c = false) ∧
    (∃ (s : State) (tl : TileIx) (c : FwChunk), s.Signals ∧ s.unitStopped (tileAgent tl) = false ∧ c.gen = (s.tile tl).fwGen ∧
      c.index < 512 ∧ s.fld (tileReg tl TWD_FW_STATUS) 31 30 ≠ 0 ∧ crc32 c.data = c.crc ∧ c.length = 4096 ∧ c.data.length = 4096 ∧
      s.holdsChunk tl c.index = false) ∧
    (∃ (s : State) (tl : TileIx) (c : FwChunk), s.Signals ∧ s.unitStopped (tileAgent tl) = false ∧ c.gen = (s.tile tl).fwGen ∧
      s.fld (tileReg tl TWD_FW_STATUS) 31 30 ≠ 0 ∧ (512 ≤ c.index ∨ crc32 c.data ≠ c.crc ∨ c.length ≠ 4096 ∨ c.data.length ≠ 4096)) ∧
    (∃ (s : State), s.stageOpen 7 = true) ∧
    (∃ (s : State), s.Signals ∧ s.stageOpen 7 = true ∧ s.bu.wiringWait = true) ∧
    (∃ (s : State), s.stageOpen 8 = true) ∧
    (∃ (s : State), s.stageOpen 9 = true ∧ s.logicals + 4 ≤ s.bu.good.length) ∧
    (∃ (s : State), s.stageOpen 9 = true ∧ s.bu.good.length < s.logicals + 4) :=
  ⟨⟨(boot 6 : State), (by decide +kernel), (by decide +kernel), (by decide +kernel), (by decide +kernel)⟩,
   ⟨({ boot 6 with bu := { stage := 6, slot := some 0 } } : State), (by decide +kernel), (by decide +kernel), (by decide +kernel)⟩,
   ⟨({ bootCast with bu := { bootCast.bu with cast := some { pending := [0], round := 3 } } } : State),
      ({ pending := [0], round := 3 } : Broadcast), (by decide +kernel), (by decide +kernel), (by decide +kernel), (by decide +kernel)⟩,
   ⟨(bootCast : State), (0 : TileIx), (chunk1 : FwChunk), (by unfold State.Signals; decide +kernel), (by decide +kernel), (by decide +kernel), (by decide +kernel),
      (by decide +kernel), rfl, rfl, List.length_replicate, (by decide +kernel)⟩,
   ⟨(bootCast : State), (0 : TileIx), ({ chunk1 with length := 4095 } : FwChunk), (by unfold State.Signals; decide +kernel), (by decide +kernel),
      (by decide +kernel), (by decide +kernel), (.inr (.inr (.inl (by decide +kernel))))⟩,
   ⟨(boot 7 : State), (by decide +kernel)⟩,
   ⟨({ boot 7 with bu := { stage := 7, wiringWait := true } } : State), (by unfold State.Signals; decide +kernel), (by decide +kernel), (by decide +kernel)⟩,
   ⟨(boot 8 : State), (by decide +kernel)⟩,
   ⟨(boot 9 : State), (by decide +kernel), (by decide +kernel)⟩,
   ⟨({ boot 9 with bu := { stage := 9, good := (List.finRange 144).take 131 } } : State), (by decide +kernel), (by decide +kernel)⟩⟩

theorem witness_BellowsRequests :
    (∃ (s : State) (e : Env) (off : Nat) (path : Fin 4) (r : RegRow) (k : PageKind) (n : Nat) (base : Nat) (p : Path), s.Signals ∧
      s.Reaches e 3 (s.levelAt e.dst) 0x01 [off % 4096 + path.val * 2 ^ 12] ∧ s.agentRow e.dst off = some (r, k, n, base) ∧
      pathOf path = some p) ∧
    (∃ (s : State) (e : Env) (off : Nat) (path : Fin 4) (v : Word) (r : RegRow) (n : Nat) (base : Nat) (p : Path), s.Signals ∧
      s.Reaches e 3 (s.levelAt e.dst) 0x02 ((off % 4096 + path.val * 2 ^ 12) :: flits 2 v.toNat) ∧
      s.agentRow e.dst off = some (r, .tile, n, base) ∧ pathOf path = some p ∧ r.code = .rw ∧ r.perPath = false ∧ off ≠ TWD_JNL_SEL ∧
      s.outOfRange .tile off (s.itemOf p r base) (v &&& r.mask) = false) ∧
    (∃ (s : State) (e : Env) (off : Nat) (count : Nat), s.Signals ∧ s.Reaches e 3 2 0x03 [off % 4096, count] ∧
      (s.agent e.dst).level = 2 ∧ 1 ≤ count ∧ count ≤ 6 ∧ (∀ i, i < count → (s.agentRow e.dst (off + 4 * i)).isSome = true)) ∧
    (∃ (s : State) (e : Env), s.Signals ∧ s.Reaches e 1 1 0x40 []) ∧
    (∃ (s : State) (e : Env), s.Signals ∧ s.Reaches e 1 1 0x40 [] ∧ e.dst.agent = 31) ∧
    (∃ (s : State) (e : Env) (level : Fin 16) (timeout : Nat), s.Signals ∧
      s.Reaches e 1 (s.levelAt e.dst) 0x42 [level.val + timeout % 128 * 2 ^ 4]) ∧
    (∃ (s : State) (a : AgentIx) (q : Nat), s.Signals ∧ (s.agent a).unitCmd = some q) ∧
    (∃ (s : State) (a : AgentIx) (q : Nat), s.Signals ∧ (s.agent a).unitCmd = some q ∧ s.time.refclk = true) :=
  ⟨⟨(srvBus : State), (envFor (tileAgent 0) 3 1 [TWD_FENCE] 2 : Env), (TWD_FENCE : Nat), (0 : Fin 4),
      ((((srvBus : State).agentRow (envFor (tileAgent 0) 3 1 [TWD_FENCE] 2 : Env).dst (TWD_FENCE : ℕ)).map fun x => x.1).getD ⟨0,0,0,.ro,false,0,0,0,false,none,false,.none⟩ : RegRow),
      (.tile : PageKind), (0 : Nat), (0x100000 : Nat), (.host : Path), (by unfold State.Signals; decide +kernel),
      (by unfold State.Reaches; decide +kernel), (by decide +kernel), (by decide +kernel)⟩,
   ⟨(srvBus : State), (envFor (tileAgent 0) 3 2 [TWD_QSEL + 2 ^ 12, 3, 0] 2 : Env), (TWD_QSEL : Nat), (1 : Fin 4), (3 : Word),
      ((((srvBus : State).agentRow (envFor (tileAgent 0) 3 2 [TWD_QSEL + 2 ^ 12, 3, 0] 2 : Env).dst (TWD_QSEL : ℕ)).map fun x => x.1).getD ⟨0,0,0,.ro,false,0,0,0,false,none,false,.none⟩ : RegRow),
      (0 : Nat), (0x100000 : Nat), (.core : Path), (by unfold State.Signals; decide +kernel), (by unfold State.Reaches; decide +kernel), (by decide +kernel),
      (by decide +kernel), (by decide +kernel), (by decide +kernel), (by decide +kernel), (by decide +kernel)⟩,
   ⟨(srvBus : State), (envFor (tileAgent 0) 3 3 [0, 6] 2 : Env), (0 : Nat), (6 : Nat), (by unfold State.Signals; decide +kernel),
      (by unfold State.Reaches; decide +kernel), (by decide +kernel), (by decide +kernel), (by decide +kernel), (by decide +kernel)⟩,
   ⟨(srvBus : State), (envFor (tileAgent 0) 1 0x40 [] 1 : Env), (by unfold State.Signals; decide +kernel), (by unfold State.Reaches; decide +kernel)⟩,
   ⟨(srvBus : State), (envFor (routerAgent 3) 1 0x40 [] 1 : Env), (by unfold State.Signals; decide +kernel), (by unfold State.Reaches; decide +kernel),
      (by decide +kernel)⟩,
   ⟨(srvBus : State), (envFor (tileAgent 0) 1 0x42 [1 + 20 * 2 ^ 4] 2 : Env), (1 : Fin 16), (20 : Nat),
      (by unfold State.Signals; decide +kernel), (by unfold State.Reaches; decide +kernel)⟩,
   ⟨({ srvBus with agents := [(agentKey (tileAgent 0), { unitCmd := some 3 })] } : State), (tileAgent 0 : AgentIx), (3 : Nat),
      (by unfold State.Signals; decide +kernel), (by decide +kernel)⟩,
   ⟨({ srvBus with agents := [(agentKey (tileAgent 0), { unitCmd := some 3 })] } : State), (tileAgent 0 : AgentIx), (3 : Nat),
      (by unfold State.Signals; decide +kernel), (by decide +kernel), (by decide +kernel)⟩⟩

theorem witness_BellowsReports :
    (∃ (s : State) (a : AgentIx) (q : QRep) (r : List QRep), s.Signals ∧ s.agentExists a = true ∧ s.islandOn a.die.val = true ∧
      (s.agent a).failed = false ∧ (s.agent a).queue = q :: r ∧ ((s.agent a).queue.all fun e => e.state == .unsent) = true) ∧
    (∃ (s : State) (a : AgentIx), s.Signals ∧ 16 ≤ (s.agent a).queue.length) ∧
    (∃ (s : State) (a : AgentIx) (r : Rep) (w : Wire), s.Signals ∧ s.agentExists a = true ∧ a ≠ s.hearthAgent ∧
      tget? s.bus.taken (agentKey a) ≠ some (s.seqOf a r).2 ∧
      (s.bus.queue.any fun h => h.src == a && h.seq == (s.seqOf a r).2) = false ∧
      wireIntact w s.hearthAgent a 0 (s.seqOf a r).2 0x10 (repFlits s r 1 0) = true ∧ w.level.val = s.bus.level ∧ wireBadOp w = false) ∧
    (∃ (s : State) (a : AgentIx) (r : Rep) (w : Wire), s.Signals ∧ s.agentExists a = true ∧ a ≠ s.hearthAgent ∧ s.sq.run = .running ∧
      wireIntact w s.hearthAgent a 0 (s.seqOf a r).2 0x10 (repFlits s r 1 0) = false) ∧
    (∃ (s : State) (a : AgentIx) (r : Rep) (part : Nat) (w : Wire), s.Signals ∧ s.agentExists a = true ∧ a ≠ s.hearthAgent ∧
      s.bus.level = 2 ∧ tget? s.bus.taken (agentKey a) ≠ some (s.seqOf a r).2 ∧
      (s.bus.queue.any fun h => h.src == a && h.seq == (s.seqOf a r).2) = false ∧
      wireIntact w s.hearthAgent a 0 (s.seqOf a r).2 0x11 (repFlits s r 2 part) = true ∧ w.level.val = 2 ∧ wireBadOp w = false) ∧
    (∃ (h : HRep) (s : State) (rest : List HRep) (stack : StackIx) (addr : Nat), s.Signals ∧ s.sq.run = .running ∧
      s.bus.queue = h :: rest ∧ h.count ≤ 1 ∧ h.rep = .pathParity stack addr) ∧
    (∃ (h : HRep) (s : State) (rest : List HRep), s.Signals ∧ s.sq.run = .running ∧ s.bus.queue = h :: rest ∧ 1 < h.count ∧
      s.bus.parts = []) ∧
    (∃ (m : Sent) (s : State) (a : AgentIx) (cls : MsgClass) (rest : List Sent) (seq : Fin 64) (st : Fin 16), s.Signals ∧
      tget s.bus.out (agentKey a * 4 + classNum cls) [] = m :: rest ∧ m.seq = seq.val ∧ bellClass m.bell = classNum cls ∧
      m.bell.forUnit = false ∧ st = 0) ∧
    (∃ (q : QRep) (s : State) (w : AgentIx) (seq : Fin 64) (st : Fin 16), s.Signals ∧
      ((s.agent w).queue.find? fun q => q.state.sentNow && q.seq == seq.val) = some q ∧ st = 0 ∧
      q.part + 1 = partsAt (s.sendLevel w) q.rep) ∧
    (∃ (m : Sent) (s : State) (a : AgentIx) (cls : MsgClass) (rest : List Sent), s.Signals ∧
      tget s.bus.out (agentKey a * 4 + classNum cls) [] = m :: rest ∧ bellClass m.bell = classNum cls ∧ m.tries < 4) ∧
    (∃ (q : QRep) (s : State) (w : AgentIx) (n : Nat), s.Signals ∧ s.time.refclk = true ∧
      ((s.agent w).queue.find? fun q => q.state.sentNow) = some q ∧ q.state = .sent n ∧ n < 4) ∧
    (∃ (q : QRep) (s : State) (a : AgentIx), s.Signals ∧ s.time.refclk = true ∧
      ((s.agent a).queue.find? fun q => q.state == .again) = some q) :=
  ⟨⟨({ srvBus with agents := [(agentKey (tileAgent 0), { queue := [⟨rep1, 0, .unsent, 0⟩], nextSeq := 63 })] } : State),
      (tileAgent 0 : AgentIx), (⟨rep1, 0, .unsent, 0⟩ : QRep), ([] : List QRep), (by unfold State.Signals; decide +kernel), (by decide +kernel),
      (by decide +kernel), (by decide +kernel), (by decide +kernel), (by decide +kernel)⟩,
   ⟨({ srvBus with agents := [(agentKey (tileAgent 0), { queue := List.replicate 16 ⟨rep1, 0, .unsent, 0⟩ })] } : State),
      (tileAgent 0 : AgentIx), (by unfold State.Signals; decide +kernel), (by decide +kernel)⟩,
   ⟨(srvBus : State), (tileAgent 0 : AgentIx), (rep1 : Rep),
      (wireFor srvBus.hearthAgent (tileAgent 0) 0 (srvBus.seqOf (tileAgent 0) rep1).2 0x10 (repFlits srvBus rep1 1 0) 2 : Wire),
      (by unfold State.Signals; decide +kernel), (by decide +kernel), (by decide +kernel), (by decide +kernel), (by decide +kernel), (by decide +kernel), (by decide +kernel), (by decide +kernel)⟩,
   ⟨(srvBus : State), (tileAgent 0 : AgentIx), (rep1 : Rep), (⟨2, none, none⟩ : Wire), (by unfold State.Signals; decide +kernel), (by decide +kernel),
      (by decide +kernel), (by decide +kernel), (by decide +kernel)⟩,
   ⟨(srvBus : State), (tileAgent 0 : AgentIx), (rep1 : Rep), (0 : Nat),
      (wireFor srvBus.hearthAgent (tileAgent 0) 0 (srvBus.seqOf (tileAgent 0) rep1).2 0x11 (repFlits srvBus rep1 2 0) 2 : Wire),
      (by unfold State.Signals; decide +kernel), (by decide +kernel), (by decide +kernel), (by decide +kernel), (by decide +kernel), (by decide +kernel), (by decide +kernel), (by decide +kernel),
      (by decide +kernel)⟩,
   ⟨(⟨tileAgent 0, rep1, 5, 0, 1, 0⟩ : HRep), ({ srvBus with bus := { queue := [(⟨tileAgent 0, rep1, 5, 0, 1, 0⟩ : HRep)] } } : State),
      ([] : List HRep), (3 : StackIx), (64 : Nat), (by unfold State.Signals; decide +kernel), (by decide +kernel), (by decide +kernel), (by decide +kernel), (by decide +kernel)⟩,
   ⟨(⟨tileAgent 0, rep1, 5, 0, 2, 0⟩ : HRep), ({ srvBus with bus := { queue := [(⟨tileAgent 0, rep1, 5, 0, 2, 0⟩ : HRep)] } } : State),
      ([] : List HRep), (by unfold State.Signals; decide +kernel), (by decide +kernel), (by decide +kernel), (by decide +kernel), (by decide +kernel)⟩,
   ⟨(⟨5, bell1, 0, 20⟩ : Sent),
      ({ srvBus with bus := { out := [(agentKey (tileAgent 0) * 4 + 1, [(⟨5, bell1, 0, 20⟩ : Sent)])] } } : State),
      (tileAgent 0 : AgentIx), (.command : MsgClass), ([] : List Sent), (5 : Fin 64), (0 : Fin 16),
      (by unfold State.Signals; decide +kernel), (by decide +kernel), (by decide +kernel), (by decide +kernel), (by decide +kernel), (by decide +kernel)⟩,
   ⟨(⟨rep1, 5, .sent 0, 0⟩ : QRep),
      ({ srvBus with agents := [(agentKey (tileAgent 0), { queue := [(⟨rep1, 5, .sent 0, 0⟩ : QRep)] })] } : State),
      (tileAgent 0 : AgentIx), (5 : Fin 64), (0 : Fin 16), (by unfold State.Signals; decide +kernel), (by decide +kernel), (by decide +kernel), (by decide +kernel)⟩,
   ⟨(⟨5, bell1, 3, 20⟩ : Sent),
      ({ srvBus with bus := { out := [(agentKey (tileAgent 0) * 4 + 1, [(⟨5, bell1, 3, 20⟩ : Sent)])] } } : State),
      (tileAgent 0 : AgentIx), (.command : MsgClass), ([] : List Sent), (by unfold State.Signals; decide +kernel), (by decide +kernel), (by decide +kernel),
      (by decide +kernel)⟩,
   ⟨(⟨rep1, 5, .sent 3, 0⟩ : QRep),
      ({ srvBus with agents := [(agentKey (tileAgent 0), { queue := [(⟨rep1, 5, .sent 3, 0⟩ : QRep)] })] } : State),
      (tileAgent 0 : AgentIx), (3 : Nat), (by unfold State.Signals; decide +kernel), (by decide +kernel), (by decide +kernel), (by decide +kernel), (by decide +kernel)⟩,
   ⟨(⟨rep1, 5, .again, 0⟩ : QRep),
      ({ srvBus with agents := [(agentKey (tileAgent 0), { queue := [(⟨rep1, 5, .again, 0⟩ : QRep)] })] } : State),
      (tileAgent 0 : AgentIx), (by unfold State.Signals; decide +kernel), (by decide +kernel), (by decide +kernel)⟩⟩

theorem witness_BellowsRouters :
    (∃ (s : State) (d : DieIx) (h : Head), s.Signals ∧ s.routerUp d = true ∧
      (h.port.map fun p => s.portDead d p.val).getD false = false ∧ h.error = none ∧ 2 ≤ h.bodyCount.val ∧ h.destDie.val = d.val ∧
      s.agentExists ⟨d, h.destAgent⟩ = true) ∧
    (∃ (s : State) (d : DieIx) (h : Head) (n : Nat) (p : Nat), s.Signals ∧ s.routerUp d = true ∧
      (h.port.map fun p => s.portDead d p.val).getD false = false ∧ h.error = none ∧ 2 ≤ h.bodyCount.val ∧ h.destDie.val < 25 ∧
      h.destDie.val ≠ d.val ∧ h.alternate = none ∧ s.primaryHop d.val h.destDie.val = some n ∧ s.portTo d.val n = some p ∧
      s.portDead d p = false) ∧
    (∃ (s : State) (d : DieIx) (h : Head) (g : Head) (p : Nat), s.Signals ∧ s.routerUp d = true ∧ s.outputOf d h = some p ∧
      s.outputOf d g = some p ∧ p < 5) ∧
    (∃ (s : State) (d : DieIx) (p : RPort), s.Signals ∧ s.routerUp d = true ∧ (s.neighbours d.val)[p.val]? ≠ none ∧
      s.portDead d p.val = false ∧ (s.agent (routerAgent d)).queue.length < 16 ∧ s.time.refclk = true) ∧
    (∃ (s : State), s.Signals ∧ s.sq.run = .running) ∧
    (∃ (s : State) (a : AgentIx), s.Signals ∧ s.agentExists a = true ∧ a ≠ s.hearthAgent) ∧
    (∃ (s : State) (a : AgentIx), s.Signals ∧ s.agentExists a = true ∧ a ≠ s.hearthAgent ∧ (s.agent a).resync = true ∧
      (s.agent a).queue.length < 16) :=
  ⟨⟨(srvBus : State), (9 : DieIx), (head1 : Head), (by unfold State.Signals; decide +kernel), (by decide +kernel), (by decide +kernel), (by decide +kernel),
      (by decide +kernel), (by decide +kernel), (by decide +kernel)⟩,
   ⟨(srvBus : State), (8 : DieIx), (head1 : Head), (((srvBus : State).primaryHop 8 9).getD 0 : Nat),
      (((srvBus : State).portTo 8 (((srvBus : State).primaryHop 8 9).getD 0 : ℕ)).getD 0 : Nat), (by unfold State.Signals; decide +kernel),
      (by decide +kernel), (by decide +kernel), (by decide +kernel), (by decide +kernel), (by decide +kernel), (by decide +kernel), (by decide +kernel), (by decide +kernel), (by decide +kernel), (by decide +kernel)⟩,
   ⟨(srvBus : State), (9 : DieIx), (head1 : Head), (head1 : Head), (4 : Nat), (by unfold State.Signals; decide +kernel), (by decide +kernel),
      (by decide +kernel), (by decide +kernel), (by decide +kernel)⟩,
   ⟨(srvBus : State), (3 : DieIx), (2 : RPort), (by unfold State.Signals; decide +kernel), (by decide +kernel), (by decide +kernel), (by decide +kernel), (by decide +kernel),
      (by decide +kernel)⟩,
   ⟨(srvBus : State), (by unfold State.Signals; decide +kernel), (by decide +kernel)⟩,
   ⟨(srvBus : State), (tileAgent 0 : AgentIx), (by unfold State.Signals; decide +kernel), (by decide +kernel), (by decide +kernel)⟩,
   ⟨({ srvBus with agents := [] } : State), (tileAgent 0 : AgentIx), (by unfold State.Signals; decide +kernel), (by decide +kernel), (by decide +kernel),
      (by decide +kernel), (by decide +kernel)⟩⟩

theorem witness_RegisterReads :
    (∃ (a : Acc) (s : State) (r : RegRow) (k : PageKind) (n : Nat) (page : Nat) (hi : RegRow × Nat), s.Signals ∧
      s.Opens a r k n page ∧ r.code = .ro ∧ r.half = .low ∧ rowAt (a.off + 4) = some hi) ∧
    (∃ (s : State) (a : Acc) (r : RegRow) (k : PageKind) (n : Nat) (page : Nat), s.Signals ∧ s.Opens a r k n page ∧ r.code = .ro ∧
      r.half = .high) ∧
    (∃ (s : State) (a : Acc) (r : RegRow) (k : PageKind) (n : Nat) (page : Nat), s.Signals ∧ s.Opens a r k n page ∧ r.code = .rc ∧
      r.half = .none) :=
  ⟨⟨(accH (tileReg 0 TWD_LC_BUSY_LO) : Acc), ({ srv with pw := srvBus.pw } : State),
      (row0 (accH (tileReg 0 TWD_LC_BUSY_LO) : Acc).off : RegRow), (.tile : PageKind), (0 : Nat), (0x100000 : Nat),
      ((row0 ((accH (tileReg 0 TWD_LC_BUSY_LO) : Acc).off + 4), 0x100000) : RegRow × Nat), (by unfold State.Signals; decide),
      (by unfold State.Opens; decide), (by decide), (by decide), (by decide)⟩,
   ⟨(srvBus : State), (accH (tileReg 0 TWD_LC_BUSY_HI) : Acc), (row0 (accH (tileReg 0 TWD_LC_BUSY_HI) : Acc).off : RegRow),
      (.tile : PageKind), (0 : Nat), (0x100000 : Nat), (by unfold State.Signals; decide), (by unfold State.Opens; decide),
      (by decide), (by decide)⟩,
   ⟨(srvBus : State), (accH HRT_NTC_LOST : Acc), (row0 (accH HRT_NTC_LOST : Acc).off : RegRow), (.hearth : PageKind), (0 : Nat),
      (0 : Nat), (by unfold State.Signals; decide), (by unfold State.Opens; decide), (by decide), (by decide)⟩⟩

theorem witness_RegisterWrites :
    (∃ (s : State) (a : Acc) (v : Word) (r : RegRow) (k : PageKind) (n : Nat) (page : Nat), s.Signals ∧ s.Takes a v r k n page ∧
      r.code = .rw ∧ r.txn = false ∧ r.perPath = false ∧
      (k = .hearth ∧ [HRT_CMD_CTRL, HRT_NTC_CONS, REC_FREEZE, OBS_FULL_EN, HRT_SQ_HEARTBEAT].contains (a.off - page) = false ∨ k = .tile)) ∧
    (∃ (s : State) (a : Acc) (v : Word) (r : RegRow) (k : PageKind) (n : Nat) (page : Nat), s.Signals ∧ s.Takes a v r k n page ∧
      r.txn = true ∧ (s.txn (worldOf a.path)).isOpen = true ∧ (s.txn (worldOf a.path)).commit = none ∧
      (s.txn (worldOf a.path)).items.length < 256) ∧
    (∃ (s : State) (h : Hdr), s.Signals ∧ s.Serves h ∧ h.operator = true) ∧
    (∃ (s : State) (h : Hdr), s.Signals ∧ s.Serves h) ∧
    (∃ (s : State) (i : Instr) (h : Hdr) (c : HostCmd), s.Signals ∧ hostOf i = some (h, c) ∧ h.badOperand = true ∧
      s.Serves { h with badOperand := false } ∧ h.operator = true ∧ (∀ o, c ≠ .bad o)) :=
  ⟨⟨(srv : State), (accH HRT_IRQ_MASK : Acc), (1 : Word), (row0 (accH HRT_IRQ_MASK : Acc).off : RegRow), (.hearth : PageKind),
      (0 : Nat), (0 : Nat), (by unfold State.Signals; decide), (by unfold State.Takes State.Opens; decide), (by decide), (by decide),
      (by decide), (by decide)⟩,
   ⟨(srvTxn : State), (accH HRT_WDOG_TILE : Acc), (1 : Word), (row0 (accH HRT_WDOG_TILE : Acc).off : RegRow), (.hearth : PageKind),
      (0 : Nat), (0 : Nat), (by unfold State.Signals; decide), (by unfold State.Takes State.Opens; decide), (by decide), (by decide),
      (by decide), (by decide)⟩,
   ⟨(srv : State), (hw : Hdr), (by unfold State.Signals; decide), ⟨rfl, rfl, rfl, by decide, by decide, by decide⟩, (by decide)⟩,
   ⟨(srv : State), (hc : Hdr), (by unfold State.Signals; decide), ⟨rfl, rfl, trivial⟩⟩,
   ⟨(srv : State), (Instr.fnEnable { hw with badOperand := true } 0 : Instr), ({ hw with badOperand := true } : Hdr),
      (.fnEnable 0 : HostCmd), (by unfold State.Signals; decide), (by decide), (by decide),
      ⟨rfl, rfl, rfl, by decide, by decide, by decide⟩, (by decide), (fun o h => by cases h)⟩⟩

theorem witness_ActingWrites :
    (∃ (s : State) (a : Acc) (v : Word) (r : RegRow), s.Signals ∧ s.Takes (Acc.to a HRT_CMD_CTRL) v r .hearth 0 0) ∧
    (∃ (s : State) (a : Acc) (v : Word) (r : RegRow), s.Signals ∧ s.Takes (Acc.to a HRT_NTC_CONS) v r .hearth 0 0 ∧
      (v - s.reg HRT_NTC_CONS).toNat ≤ (s.reg HRT_NTC_PROD - s.reg HRT_NTC_CONS).toNat ∧ s.host.heldNotices = [] ∧
      s.host.lostEpisode = 0) ∧
    (∃ (s : State) (a : Acc) (v : Word), s.Signals ∧ s.pw.standby = true ∧ a.aligned = true ∧ v.toNat < 2 ^ 16) ∧
    (∃ (s : State) (a : Acc) (v : Word) (r : RegRow), s.Signals ∧ s.Takes (Acc.to a HRT_TB_CAPTURE) v r .hearth 0 0 ∧ v = 1) ∧
    (∃ (x : ConsRow) (s : State) (a : Acc) (v : Word) (r : RegRow), s.Signals ∧ s.Takes (Acc.to a HRT_CONS_SEL) v r .hearth 0 0 ∧
      s.ofd.cons[v.toNat]? = some x) ∧
    (∃ (s : State) (a : Acc) (v : Word) (tl : TileIx) (r : RegRow) (e : JEntry), s.Signals ∧ tileIx (pageNo 0x100000 a.off) = tl ∧
      s.Takes (Acc.to a (tileReg tl TWD_JNL_SEL)) v r .tile tl.val (tileReg tl 0) ∧ v.getLsbD 6 = true ∧
      tget? (s.tile tl).jnl (v.toNat % 64) = some e) ∧
    (∃ (s : State) (a : Acc) (v : Word) (tl : TileIx) (r : RegRow), s.Signals ∧ tileIx (pageNo 0x100000 a.off) = tl ∧
      s.Takes (Acc.to a (tileReg tl TWD_CHECK_INJECT)) v r .tile tl.val (tileReg tl 0)) ∧
    (∃ (s : State) (a : Acc) (v : Word) (d : DieIx) (r : RegRow), s.Signals ∧ dieIx (pageNo 0x300000 a.off) = d ∧
      s.Takes (Acc.to a (dieReg d BLW_DEAD_CLEAR)) v r .die d.val (dieReg d 0)) ∧
    (∃ (s : State) (a : Acc) (v : Word) (r : RegRow), s.Signals ∧
      s.Takes (Acc.to a (dieReg s.anchor BLW_RSP_TIMEOUT)) v r .die s.anchor.val (dieReg s.anchor 0)) ∧
    (∃ (s : State) (a : Acc) (v : Word) (r : RegRow), s.Signals ∧ s.Takes (Acc.to a OBS_FULL_EN) v r .hearth 0 0) ∧
    (∃ (s : State) (a : Acc) (v : Word) (r : RegRow) (x : Sensor) (temp : Int) (m : Int), s.Signals ∧ s.sq.run = .running ∧
      s.Takes (Acc.to a HRT_SNS_REQ) v r .hearth 0 0 ∧ v = 1 ∧
      sensorAt ((s.own a.path HRT_SNS_SEL).toNat / 4096) ((s.own a.path HRT_SNS_SEL).toNat % 4096) = some x ∧
      s.sensorExists x = true ∧ s.thm.failed.contains (sensorNum x) = false ∧ (s.putReading x temp).sensorBad x temp = false ∧
      (s.putReading x temp).unitTemp (unitOfSensor x) = some m ∧ s.blind (unitOfSensor x) = false ∧ s.levelOf (unitOfSensor x) = {} ∧
      m < s.advise (unitOfSensor x) ∧ m < s.request (unitOfSensor x) ∧ m < s.quenchAt (unitOfSensor x)) :=
  ⟨⟨({ srv with regs := [] } : State), (accH 0 : Acc), (1 : Word), (row0 HRT_CMD_CTRL : RegRow), (by unfold State.Signals; decide),
      (by unfold State.Takes State.Opens; decide)⟩,
   ⟨({ srv with regs := [(HRT_CMD_CTRL, 1), (HRT_NTC_PROD, 5), (HRT_NTC_CONS, 3)] } : State), (accH 0 : Acc), (5 : Word),
      (row0 HRT_NTC_CONS : RegRow), (by unfold State.Signals; decide), (by unfold State.Takes State.Opens; decide), (by decide),
      (by decide), (by decide)⟩,
   ⟨({ srv with regs := [(HRT_IRQ_CAUSE, 7)] } : State), (accH 0 : Acc), (2 : Word), (by unfold State.Signals; decide), (by decide),
      (by decide), (by decide)⟩,
   ⟨(srv : State), (accH 0 : Acc), (1 : Word), (row0 HRT_TB_CAPTURE : RegRow), (by unfold State.Signals; decide),
      (by unfold State.Takes State.Opens; decide), (by decide)⟩,
   ⟨(⟨1, none, .localExpert, 5, 1, 2, 3, 4, none⟩ : ConsRow),
      ({ srv with ofd := { cons := [(⟨1, none, .localExpert, 5, 1, 2, 3, 4, none⟩ : ConsRow)] } } : State), (accH 0 : Acc),
      (0 : Word), (row0 HRT_CONS_SEL : RegRow), (by unfold State.Signals; decide), (by unfold State.Takes State.Opens; decide),
      (by decide)⟩,
   ⟨({ srvDone with pw := srvBus.pw } : State), (accH 0x100000 : Acc), (64 : Word), (0 : TileIx),
      (row0 (tileReg 0 TWD_JNL_SEL) : RegRow), (jDone : JEntry), (by unfold State.Signals; decide), (by decide),
      (by unfold State.Takes State.Opens; decide), (by decide), (by decide)⟩,
   ⟨(srvBus : State), (accC 0x100000 : Acc), (0x80002001 : Word), (0 : TileIx), (row0 (tileReg 0 TWD_CHECK_INJECT) : RegRow),
      (by unfold State.Signals; decide), (by decide), (by unfold State.Takes State.Opens; decide)⟩,
   ⟨({ srvBus with regs := [(portReg 3 BLW_PORT 2, 0x40000000)] } : State), (accC 0x303000 : Acc), (4 : Word), (3 : DieIx),
      (row0 (dieReg 3 BLW_DEAD_CLEAR) : RegRow), (by unfold State.Signals; decide), (by decide),
      (by unfold State.Takes State.Opens; decide)⟩,
   ⟨(srvBus : State), (accC 0 : Acc), (20 : Word), (row0 (dieReg srvBus.anchor BLW_RSP_TIMEOUT) : RegRow),
      (by unfold State.Signals; decide), (by unfold State.Takes State.Opens; decide)⟩,
   ⟨({ srv with regs := [(tileReg 0 TWD_FC_LO, 5)] } : State), (accH 0 : Acc), (15 : Word), (row0 OBS_FULL_EN : RegRow),
      (by unfold State.Signals; decide), (by unfold State.Takes State.Opens; decide)⟩,
   ⟨(srv : State), (accH 0 : Acc), (1 : Word), (row0 HRT_SNS_REQ : RegRow), (.tile 0 : Sensor), (200 : Int), (200 : Int),
      (by unfold State.Signals; decide), (by decide), (by unfold State.Takes State.Opens; decide), (by decide), (by decide),
      (by decide), (by decide), (by decide), (by decide), (by decide), (by decide), (by decide), (by decide), (by decide)⟩⟩

theorem witness_RecorderFlushes :
    (∃ (s : State), s.Signals ∧ s.flushDue = true ∧ s.recd.failed = false ∧ s.recd.pfLock = false ∧ s.recd.flush = none) ∧
    (∃ (s : State) (a : Acc) (v : Word) (r : RegRow), s.Signals ∧ s.Takes (Acc.to a REC_FLUSH_REQ) v r .hearth 0 0 ∧ v = 1 ∧
      s.recd.pfLock = false ∧ s.recd.flush = none) ∧
    (∃ (f : Flush) (s : State), s.Signals ∧ s.recd.flush = some f ∧ f.kind ≠ .powerFail ∧ s.recd.failed = false ∧
      s.recd.throttled = false ∧ s.recd.asked = none ∧ s.recd.erasePending = none ∧ s.recd.passOpen = true ∧ s.esc.trayDue = false ∧
      s.bu.removal ≠ .flushing) ∧
    (∃ (f : Flush) (s : State), s.Signals ∧ s.recd.flush = some f ∧ f.kind = .powerFail ∧ s.recd.failed = false ∧
      s.recd.throttled = false ∧ s.recd.asked = none ∧ s.recd.passOpen = true ∧ s.esc.trayDue = false ∧ s.bu.removal ≠ .flushing ∧
      (s.pw.pfWarn = true ∨ s.hl.tripLatch = true)) ∧
    (∃ (f : Flush) (s : State), s.Signals ∧ s.recd.flush = some f ∧ f.again = false ∧ s.recd.failed = false) ∧
    (∃ (f : Flush) (s : State), s.Signals ∧ s.recd.flush = some f ∧ f.again = true ∧ s.recd.failed = false ∧
      s.recd.throttled = false ∧ s.recd.asked = none ∧ s.recd.erasePending = none ∧ f.kind ≠ .powerFail ∧ s.esc.trayDue = false ∧
      s.bu.removal ≠ .flushing) ∧
    (∃ (s : State), s.Signals ∧ s.recd.pfLock = false ∧ s.recd.failed = false ∧ s.pw.standby = true) ∧
    (∃ (s : State), s.Signals ∧ s.recd.failed = true ∧ s.recd.pfLock = false ∧ s.recd.flush = none ∧ s.recd.asked = none ∧
      s.recd.erasePending = none ∧ s.recd.throttled = false ∧ s.recd.passOpen = true ∧ s.esc.trayDue = false ∧
      s.bu.removal ≠ .flushing) :=
  ⟨⟨({ srv with time := { srv.time with tb := 2000000000 }, recd := { srv.recd with dirty := [(recA, false)] } } : State),
      (by unfold State.Signals; decide), (by decide), (by decide), (by decide), (by decide)⟩,
   ⟨(srv : State), (accH 0 : Acc), (1 : Word), (row0 REC_FLUSH_REQ : RegRow), (by unfold State.Signals; decide),
      (by unfold State.Takes State.Opens; decide), (by decide), (by decide), (by decide)⟩,
   ⟨(⟨.forced, [(recA, false)], false⟩ : Flush),
      ({ srv with recd := { srv.recd with dirty := [(recA, false)], flush := some (⟨.forced, [(recA, false)], false⟩ : Flush), passOpen := true } } : State),
      (by unfold State.Signals; decide), (by decide), (by decide), (by decide), (by decide), (by decide), (by decide), (by decide),
      (by decide), (by decide)⟩,
   ⟨(⟨.powerFail, [(recA, false)], false⟩ : Flush),
      ({ srv with recd := { srv.recd with dirty := [(recA, false)], flush := some (⟨.powerFail, [(recA, false)], false⟩ : Flush), passOpen := true }, pw := { srv.pw with pfWarn := true } } : State),
      (by unfold State.Signals; decide), (by decide), (by decide), (by decide), (by decide), (by decide), (by decide), (by decide),
      (by decide), (by decide)⟩,
   ⟨(⟨.forced, [(recA, false)], false⟩ : Flush),
      ({ srv with recd := { srv.recd with dirty := [(recA, false)], flush := some (⟨.forced, [(recA, false)], false⟩ : Flush) } } : State),
      (by unfold State.Signals; decide), (by decide), (by decide), (by decide)⟩,
   ⟨(⟨.forced, [(recA, false)], true⟩ : Flush),
      ({ srv with recd := { srv.recd with dirty := [(recA, false)], flush := some (⟨.forced, [(recA, false)], true⟩ : Flush) } } : State),
      (by unfold State.Signals; decide), (by decide), (by decide), (by decide), (by decide), (by decide), (by decide), (by decide),
      (by decide), (by decide)⟩,
   ⟨(srv : State), (by unfold State.Signals; decide), (by decide), (by decide), (by decide)⟩,
   ⟨({ srv with recd := { srv.recd with failed := true, passOpen := true } } : State), (by unfold State.Signals; decide), (by decide),
      (by decide), (by decide), (by decide), (by decide), (by decide), (by decide), (by decide), (by decide)⟩⟩

theorem witness_RecorderFreezeErase :
    (∃ (s : State) (a : Acc) (v : Word) (r : RegRow), s.Signals ∧ s.Takes (Acc.to a REC_FREEZE) v r .hearth 0 0 ∧ v = 1 ∧
      s.recd.freeze = none) ∧
    (∃ (f : Freeze) (s : State) (a : Acc) (v : Word) (r : RegRow), s.Signals ∧ s.Takes (Acc.to a REC_FREEZE) v r .hearth 0 0 ∧
      v = 0 ∧ s.recd.freeze = some f ∧ s.recd.hold = [] ∧ s.recd.throttled = false ∧ f.dropped + f.fatal = 0) ∧
    (∃ (f : Freeze) (s : State), s.Signals ∧ s.recd.freeze = some f ∧ s.recd.hold = [] ∧ s.recd.throttled = false ∧
      f.dropped + f.fatal = 0) ∧
    (∃ (s : State) (a : Acc) (v : Word) (r : RegRow), s.Signals ∧ s.Takes (Acc.to a REC_ERASE) v r .hearth 0 0 ∧
      v.toNat / 2 ^ 16 = 0x5EA1 ∧ v.toNat % 4 ≠ 0 ∧ s.recd.pfLock = false ∧ s.recd.flush = none ∧ s.recd.erase = none) ∧
    (∃ (s : State) (a : Bool) (b : Bool), s.Signals ∧ s.recd.erase = some (a, b) ∧ s.recd.pfLock = false) :=
  ⟨⟨(srv : State), (accH 0 : Acc), (1 : Word), (row0 REC_FREEZE : RegRow), (by unfold State.Signals; decide),
      (by unfold State.Takes State.Opens; decide), (by decide), (by decide)⟩,
   ⟨(⟨5, 6, 0, 0⟩ : Freeze), ({ srv with recd := { srv.recd with freeze := some (⟨5, 6, 0, 0⟩ : Freeze) } } : State), (accH 0 : Acc),
      (0 : Word), (row0 REC_FREEZE : RegRow), (by unfold State.Signals; decide), (by unfold State.Takes State.Opens; decide),
      (by decide), (by decide), (by decide), (by decide), (by decide)⟩,
   ⟨(⟨5, 6, 0, 0⟩ : Freeze), ({ srv with recd := { srv.recd with freeze := some (⟨5, 6, 0, 0⟩ : Freeze) } } : State),
      (by unfold State.Signals; decide), (by decide), (by decide), (by decide), (by decide)⟩,
   ⟨(srv : State), (accC 0 : Acc), (0x5EA10001 : Word), (row0 REC_ERASE : RegRow), (by unfold State.Signals; decide),
      (by unfold State.Takes State.Opens; decide), (by decide), (by decide), (by decide), (by decide), (by decide)⟩,
   ⟨({ srv with recd := { srv.recd with store := [(3, recA)], erase := some (true, false), hdr := { srv.recd.hdr with eraseStore := some 9 } } } : State),
      (true : Bool), (false : Bool), (by unfold State.Signals; decide), (by decide), (by decide)⟩⟩

theorem witness_CmpSessions :
    (∃ (s : State) (m : CmpHdr) (lo : BitVec 16) (hi : BitVec 16), s.fresh m = true ∧ s.cmp.sources.length = 8 ∧ lo.toNat / 256 ≤ 2 ∧
      2 ≤ hi.toNat / 256) ∧
    (∃ (s : State) (m : CmpHdr) (lo : BitVec 16) (hi : BitVec 16), s.fresh m = true ∧ (2 < lo.toNat / 256 ∨ hi.toNat / 256 < 2)) ∧
    (∃ (s : State) (m : CmpHdr) (k : Nat) (y : Source), s.Hears m (some 0) ∧ m.session = 0 ∧
      (s.cmp.sessions.findIdx? Option.isNone) = some k ∧ (s.taken m).cmp.sources.getD ((s.taken m).sourceOf m.addr) none = some y) ∧
    (∃ (s : State) (m : CmpHdr) (k : Nat), s.Signals ∧ s.Hears m none ∧ m.auth = true ∧ s.sessionOf m.session = some k) ∧
    (∃ (s : State) (k : Fin 4), s.Signals ∧ (s.cmp.sessions.getD k.val none).isSome = true) ∧
    (∃ (s : State) (m : CmpHdr), s.Signals ∧ s.fresh m = true) ∧
    (∃ (s : State) (m : CmpHdr) (a : Nat) (p : Nat), s.Signals ∧ s.Hears m (some 3) ∧
      (s.subs.any fun u => u.addr == a && u.port == p) = false ∧ s.subs.length < 2) ∧
    (∃ (s : State) (m : CmpHdr), s.Signals ∧ s.pw.standby = true ∧ m.good = true) ∧
    (∃ (s : State), s.Signals ∧ s.pw.standby = true ∧ (s.subs.all fun u => u.queue.all fun e => decide (e.2.2 < 8)) = true) :=
  ⟨⟨(srvCmp : State), (mU : CmpHdr), (0x200 : BitVec 16), (0x202 : BitVec 16), (by decide), (by decide), (by decide), (by decide)⟩,
   ⟨(srvCmp : State), (mU : CmpHdr), (0x100 : BitVec 16), (0x1FF : BitVec 16), (by decide), (by decide)⟩,
   ⟨(srvCmp : State), (mU : CmpHdr), (1 : Nat),
      ({ addr := 6, last := 2000000, seq := some 3, features := some 0x3F, nonce := some [1] } : Source),
      (by unfold State.Hears; decide), (by decide), (by decide), (by decide)⟩,
   ⟨(srvCmp : State), (mA : CmpHdr), (0 : Nat), (by unfold State.Signals; decide), (by unfold State.Hears; decide), (by decide),
      (by decide)⟩,
   ⟨(srvCmp : State), (0 : Fin 4), (by unfold State.Signals; decide), (by decide)⟩,
   ⟨(srvCmp : State), (mA : CmpHdr), (by unfold State.Signals; decide), (by decide)⟩,
   ⟨(srvCmp : State), (mU : CmpHdr), (9 : Nat), (0 : Nat), (by unfold State.Signals; decide), (by unfold State.Hears; decide),
      (by decide), (by decide)⟩,
   ⟨({ srvCmp with subs := [⟨6, 0, 7, 1, [(0, .epoch 3, 2)], false⟩] } : State), (mU : CmpHdr), (by unfold State.Signals; decide),
      (by decide), (by decide)⟩,
   ⟨({ srvCmp with subs := [⟨6, 0, 7, 1, [(0, .epoch 3, 7)], false⟩] } : State), (by unfold State.Signals; decide), (by decide),
      (by decide)⟩⟩

theorem witness_CmpRequests :
    (∃ (s : State) (m : CmpHdr) (n : Nat), s.Signals ∧ s.fresh m = true ∧ 1 ≤ n ∧ n ≤ 32) ∧
    (∃ (s : State) (m : CmpHdr) (l : List Nat), s.Hears m (some 5) ∧ l.length ≤ 64) ∧
    (∃ (s : State) (m : CmpHdr) (l : List (Nat × Word)), s.Hears m (some 5) ∧ l.length ≤ 32) ∧
    (∃ (s : State) (m : CmpHdr) (b : Fin 2) (c : Nat), s.Signals ∧ s.Hears m (some 2) ∧ (s.snap b.val).st = 2 ∧ c < 128) ∧
    (∃ (s : State) (m : CmpHdr), s.Hears m none) ∧
    (∃ (s : State) (m : CmpHdr) (c : Word), s.Hears m none ∧ m.auth = true ∧ c.toNat % 256 ≤ (if s.fused.grade = .d then 7 else 15) ∧
      s.admittedTags = []) ∧
    (∃ (s : State) (m : CmpHdr) (l : List WireExp), s.Hears m none ∧ m.auth = true ∧ l.length ≤ 48 ∧ s.cmp.parts = none) ∧
    (∃ (s : State) (m : CmpHdr) (p : Nat) (n : Nat) (l : List WireExp), s.Signals ∧ s.Hears m none ∧ m.auth = true ∧ p < n ∧ 1 < n ∧
      l.length ≤ 48 ∧ s.cmp.parts = none) ∧
    (∃ (s : State) (m : CmpHdr) (l : List Word) (k : Fin 16) (n : Nat), s.Signals ∧ s.Hears m (some 1) ∧ m.auth = true ∧
      2 ≤ l.length ∧ l.length ≤ 16 ∧ k.val < l.length ∧ 60 ≤ n ∧ n ≤ 86400) ∧
    (∃ (s : State) (m : CmpHdr), s.Hears m none ∧ m.auth = true ∧ s.pw.trayPc = false ∧ s.bu.removal = .none ∧ s.bu.complete = true ∧
      s.thm.quenching = false ∧ s.esc.reset = none) ∧
    (∃ (s : State) (m : CmpHdr), s.Signals ∧ s.Hears m none ∧ m.auth = true ∧ s.bu.removal = .removable) ∧
    (∃ (s : State) (m : CmpHdr), s.Hears m none ∧ m.auth = false) :=
  ⟨⟨(srvCmp : State), (mU : CmpHdr), (32 : Nat), (by unfold State.Signals; decide), (by decide), (by decide), (by decide)⟩,
   ⟨(srvCmp : State), (mA : CmpHdr), ([HRT_CMD_CTRL] : List Nat), (by unfold State.Hears; decide), (by decide)⟩,
   ⟨(srvCmp : State), (mU : CmpHdr), ([(HRT_IRQ_MASK, (5 : Word))] : List (Nat × Word)), (by unfold State.Hears; decide), (by decide)⟩,
   ⟨({ srvCmp with esc := { snaps := [{ st := 2 }, {}] } } : State), (mA : CmpHdr), (0 : Fin 2), (127 : Nat),
      (by unfold State.Signals; decide), (by unfold State.Hears; decide), (by decide), (by decide)⟩,
   ⟨(srvCmp : State), (mU : CmpHdr), (by unfold State.Hears; decide)⟩,
   ⟨(srvCmp : State), (mA : CmpHdr), (0x010F : Word), (by unfold State.Hears; decide), (by decide), (by decide), (by decide)⟩,
   ⟨(srvCmp : State), (mA : CmpHdr), ([] : List WireExp), (by unfold State.Hears; decide), (by decide), (by decide), (by decide)⟩,
   ⟨(srvCmp : State), (mA : CmpHdr), (1 : Nat), (2 : Nat), ([] : List WireExp), (by unfold State.Signals; decide),
      (by unfold State.Hears; decide), (by decide), (by decide), (by decide), (by decide), (by decide)⟩,
   ⟨(srvCmp : State), (mA : CmpHdr), ([1, 2] : List Word), (1 : Fin 16), (60 : Nat), (by unfold State.Signals; decide),
      (by unfold State.Hears; decide), (by decide), (by decide), (by decide), (by decide), (by decide), (by decide)⟩,
   ⟨(srvCmp : State), (mA : CmpHdr), (by unfold State.Hears; decide), (by decide), (by decide), (by decide), (by decide), (by decide),
      (by decide)⟩,
   ⟨({ srvCmp with bu := { removal := .removable } } : State), (mA : CmpHdr), (by unfold State.Signals; decide),
      (by unfold State.Hears; decide), (by decide), (by decide)⟩,
   ⟨(srvCmp : State), (mU : CmpHdr), (by unfold State.Hears; decide), (by decide)⟩⟩

theorem witness_CmpImage :
    (∃ (s : State) (m : CmpHdr) (off : Nat) (data : List Byte) (n : Fin 2), s.Signals ∧ s.Hears m (some 4) ∧ m.auth = true ∧
      s.bu.slot = some n ∧ s.recd.pfLock = false ∧ off % 256 = 0 ∧ data.length % 256 = 0 ∧ 256 ≤ data.length ∧ data.length ≤ 1024 ∧
      off + data.length ≤ slotLength) ∧
    (∃ (s : State) (m : CmpHdr) (n : Fin 2), s.Signals ∧ s.Hears m (some 4) ∧ m.auth = true ∧ s.bu.slot = some n ∧
      s.recd.pfLock = false) ∧
    (∃ (s : State) (m : CmpHdr) (n : Fin 2), s.Signals ∧ s.Hears m (some 4) ∧ m.auth = true ∧ s.onTrial = true ∧ s.dir.trial = 2 ∧
      s.bu.slot = some n ∧ s.recd.pfLock = false) ∧
    (∃ (s : State) (m : CmpHdr), s.Signals ∧ s.Hears m (some 4) ∧ m.auth = true ∧ s.confirmed = true ∧ s.fused.secver < s.bu.secver) ∧
    (∃ (s : State) (m : CmpHdr) (k : Fin 4), s.Signals ∧ s.Hears m (some 4) ∧ m.auth = true ∧
      s.fused.keyHash.getD k.val 0 ≠ s.fused.keyHash.getD s.bu.keySlot 0) :=
  ⟨⟨(srvImg : State), (mA : CmpHdr), (0x1DFFF00 : Nat), (List.replicate 256 (7 : Byte) : List Byte), (0 : Fin 2),
      (by unfold State.Signals; decide +kernel), (by unfold State.Hears; decide +kernel), (by decide +kernel), (by decide +kernel), (by decide +kernel), (by decide +kernel),
      (by decide +kernel), (by decide +kernel), (by decide +kernel), (by decide +kernel)⟩,
   ⟨(srvImg : State), (mA : CmpHdr), (0 : Fin 2), (by unfold State.Signals; decide +kernel), (by unfold State.Hears; decide +kernel), (by decide +kernel),
      (by decide +kernel), (by decide +kernel)⟩,
   ⟨({ srvImg with nor := { srvImg.nor with dir := { c0 := some (4, ⟨1, 2, false, 9⟩) } } } : State), (mA : CmpHdr), (0 : Fin 2),
      (by unfold State.Signals; decide +kernel), (by unfold State.Hears; decide +kernel), (by decide +kernel), (by decide +kernel), (by decide +kernel), (by decide +kernel),
      (by decide +kernel)⟩,
   ⟨({ srvImg with bu := { srvImg.bu with secver := 1 } } : State), (mA : CmpHdr), (by unfold State.Signals; decide +kernel),
      (by unfold State.Hears; decide +kernel), (by decide +kernel), (by decide +kernel), (by decide +kernel)⟩,
   ⟨({ srvImg with fused := { srvImg.fused with keyHash := [5, 6, 0, 0] } } : State), (mA : CmpHdr), (1 : Fin 4),
      (by unfold State.Signals; decide +kernel), (by unfold State.Hears; decide +kernel), (by decide +kernel), (by decide +kernel)⟩⟩

theorem witness_I3cTarget :
    (∃ (s : State), s.Signals) ∧
    (∃ (s : State), s.Signals ∧ s.pw.standby = true) ∧
    (∃ (s : State), s.Signals ∧ s.pw.standby = true ∧ s.i3c.addr = none) ∧
    (∃ (s : State), s.Signals) ∧
    (∃ (s : State), s.Signals ∧ s.pw.standby = true) ∧
    (∃ (s : State) (m : Nat) (p : Word) (n : Nat) (r : List (Nat × Word × Nat)), s.Signals ∧ s.i3c.pend = (m, p, n) :: r) :=
  ⟨⟨(srv : State), (by unfold State.Signals; decide)⟩,
   ⟨(srv : State), (by unfold State.Signals; decide), (by decide)⟩,
   ⟨(srv : State), (by unfold State.Signals; decide), (by decide), (by decide)⟩,
   ⟨(srv : State), (by unfold State.Signals; decide)⟩,
   ⟨(srv : State), (by unfold State.Signals; decide), (by decide)⟩,
   ⟨({ srv with i3c := { srv.i3c with ibiOn := true, pend := [(2, 5, 7)] } } : State), (2 : Nat), (5 : Word), (7 : Nat),
      ([] : List (Nat × Word × Nat)), (by unfold State.Signals; decide), (by decide)⟩⟩

theorem witness_SignalsKept :
    (∃ (s : State) (t : State), s.Signals ∧ step s = .next t) :=
  ⟨(srvRun : State), ((match step srvRun with | .next t => t | _ => srvRun) : State), (by unfold State.Signals; decide), rfl⟩

theorem witness_TransactionBegin :
    (∃ (s : State) (h : Hdr), s.Serves h ∧ h.operator = true ∧ (s.txn (Pend.world ⟨h, 0x10⟩)).isOpen = false) ∧
    (∃ (s : State) (h : Hdr), s.Serves h ∧ h.operator = true ∧ (s.txn (Pend.world ⟨h, 0x10⟩)).isOpen = true) :=
  ⟨⟨(srv : State), (ha : Hdr), ⟨rfl, rfl, trivial⟩, (by decide), (by decide)⟩,
   ⟨(srvTxn : State), (hw : Hdr), ⟨rfl, rfl, rfl, by decide, by decide, by decide⟩, (by decide), (by decide)⟩⟩

theorem witness_MisalignedAccess :
    (∃ (s : State) (a : Acc), s.Signals ∧ s.pw.standby = true ∧ (a.aligned = false ∨ a.off % 4 ≠ 0)) ∧
    (∃ (s : State) (a : Acc), s.Signals ∧ s.pw.standby = true ∧ (a.aligned = false ∨ a.off % 4 ≠ 0)) :=
  ⟨⟨(srv : State), (⟨.host, HRT_CMD_CTRL + 2, true⟩ : Acc), (by unfold State.Signals; decide), (by decide), (by decide)⟩,
   ⟨(srv : State), (⟨.core, HRT_CMD_CTRL, false⟩ : Acc), (by unfold State.Signals; decide), (by decide), (by decide)⟩⟩

theorem witness_CommandPrivilege :
    (∃ (s : State) (i : Instr) (h : Hdr) (c : HostCmd), s.Signals ∧ hostOf i = some (h, c) ∧ s.Serves h ∧ h.operator = false ∧
      (needsOperator c = true ∨ (s.contextNamed c).any (fun x => x != h.ctx) = true)) :=
  ⟨(srvTxn : State), (Instr.txnItemRoute { hw with operator := false, ctx := 2 } 0 (some ⟨9, 3, 5, none⟩) : Instr),
      ({ hw with operator := false, ctx := 2 } : Hdr), (.itemRoute 0 (some ⟨9, 3, 5, none⟩) : HostCmd),
      (by unfold State.Signals; decide), (by decide), ⟨rfl, rfl, rfl, by decide, by decide, by decide⟩, (by decide), (by decide)⟩

end Sys2Proof.Machine
end

section
/-! PROOFS. What the work of the package leaves alone: the fuses, the time base, power, bring-up, the thermal watch, the ports and the NOR device. One
lemma per operation that the start of a removal (R319) is made of, and what that start does to bring-up. -/
namespace Sys2Proof.Machine

-- One theorem at a time: with the joint text's other threads, parallel ones would pass the memory that the check gives.
set_option Elab.async false

/-- The parts of the state that commands of tiles, tests, traces and answers never move. -/
def State.grounds (s : State) : Fused × TimeBase × Power × BringUp × Thermal × Tab Port × Nor :=
  (s.fused, s.time, s.pw, s.bu, s.thm, s.ports, s.nor)

theorem State.grounds_eta (s : State) : (s.fused, s.time, s.pw, s.bu, s.thm, s.ports, s.nor) = s.grounds := rfl

theorem bu_of_grounds {s t : State} (h : t.grounds = s.grounds) : t.bu = s.bu := congrArg (·.2.2.2.1) h
theorem ports_of_grounds {s t : State} (h : t.grounds = s.grounds) : t.ports = s.ports := congrArg (·.2.2.2.2.2.1) h
theorem fused_of_grounds {s t : State} (h : t.grounds = s.grounds) : t.fused = s.fused := congrArg (·.1) h

/-- A frame that names none of these parts leaves the grounds. -/
theorem Frame.grounds {l : List Part} {s t : State} (h : Frame l s t)
    (hl : ∀ p ∈ ([.fused, .time, .pw, .bu, .thm, .ports, .nor] : List Part), p ∉ l) : t.grounds = s.grounds := by
  have e1 : t.fused = s.fused := h .fused (hl _ (by decide))
  have e2 : t.time = s.time := h .time (hl _ (by decide))
  have e3 : t.pw = s.pw := h .pw (hl _ (by decide))
  have e4 : t.bu = s.bu := h .bu (hl _ (by decide))
  have e5 : t.thm = s.thm := h .thm (hl _ (by decide))
  have e6 : t.ports = s.ports := h .ports (hl _ (by decide))
  have e7 : t.nor = s.nor := h .nor (hl _ (by decide))
  simp [State.grounds, e1, e2, e3, e4, e5, e6, e7]

@[simp] theorem ite_grounds {c : Prop} [Decidable c] (a b : State) : (if c then a else b).grounds = if c then a.grounds else b.grounds :=
  apply_ite State.grounds c a b

@[simp] theorem foldl_grounds {α : Type} {f : State → α → State} (h : ∀ s x, (f s x).grounds = s.grounds) (l : List α) (s : State) :
    (l.foldl f s).grounds = s.grounds := by
  induction l generalizing s with
  | nil => rfl
  | cons x l ih => exact (ih _).trans (h s x)

@[simp] theorem each_grounds {α : Type} {f : State → α → State} (h : ∀ s x, (f s x).grounds = s.grounds) (l : List α) (s : State) :
    (s.each l f).grounds = s.grounds := foldl_grounds h l s

@[simp] theorem when_grounds {f : State → State} (h : ∀ s, (f s).grounds = s.grounds) (s : State) (b : Bool) : (s.when b f).grounds = s.grounds := by
  cases b
  · rfl
  · exact h s

/-! ### Updates of other parts -/

@[simp] theorem setReg_grounds (s : State) (k : Nat) (v : Word) : (s.setReg k v).grounds = s.grounds := (setReg_frame s k v).grounds (by decide)
@[simp] theorem setNat_grounds (s : State) (k v : Nat) : (s.setNat k v).grounds = s.grounds := (setNat_frame s k v).grounds (by decide)
@[simp] theorem setFld_grounds (s : State) (k hi lo x : Nat) : (s.setFld k hi lo x).grounds = s.grounds := (setFld_frame s k hi lo x).grounds (by decide)
@[simp] theorem bump_grounds (s : State) (k n : Nat) : (s.bump k n).grounds = s.grounds := (bump_frame s k n).grounds (by decide)
@[simp] theorem bumpFld_grounds (s : State) (k hi lo n : Nat) : (s.bumpFld k hi lo n).grounds = s.grounds := (bumpFld_frame s k hi lo n).grounds (by decide)
@[simp] theorem add64_grounds (s : State) (lo hi n w : Nat) : (s.add64 lo hi n w).grounds = s.grounds := (add64_frame s lo hi n w).grounds (by decide)
@[simp] theorem setTile_grounds (s : State) (t : TileIx) (x : Tile) : (s.setTile t x).grounds = s.grounds := (setTile_frame s t x).grounds (by decide)
@[simp] theorem modTile_grounds (s : State) (t : TileIx) (f : Tile → Tile) : (s.modTile t f).grounds = s.grounds := (modTile_frame s t f).grounds (by decide)
@[simp] theorem setRole_grounds (s : State) (t : TileIx) (r : PoolRole) : (s.setRole t r).grounds = s.grounds := rfl
@[simp] theorem modCtx_grounds (s : State) (c : CtxIx) (f : Ctx → Ctx) : (s.modCtx c f).grounds = s.grounds := (modCtx_frame s c f).grounds (by decide)
@[simp] theorem setFp_grounds (s : State) (t : TileIx) (x : Fp) : (s.setFp t x).grounds = s.grounds := rfl
@[simp] theorem setAgent_grounds (s : State) (a : AgentIx) (x : Agent) : (s.setAgent a x).grounds = s.grounds := (setAgent_frame s a x).grounds (by decide)
@[simp] theorem modAgent_grounds (s : State) (a : AgentIx) (f : Agent → Agent) : (s.modAgent a f).grounds = s.grounds := (modAgent_frame s a f).grounds (by decide)
@[simp] theorem modPlan_grounds (s : State) (f : Plan → Plan) : (s.modPlan f).grounds = s.grounds := (modPlan_frame s f).grounds (by decide)
@[simp] theorem modRec_grounds (s : State) (f : Recorder → Recorder) : (s.modRec f).grounds = s.grounds := (modRec_frame s f).grounds (by decide)
@[simp] theorem modShadow_grounds (s : State) (f : Shadow → Shadow) : (s.modShadow f).grounds = s.grounds := (modShadow_frame s f).grounds (by decide)
@[simp] theorem modHl_grounds (s : State) (f : HardLines → HardLines) : (s.modHl f).grounds = s.grounds := (modHl_frame s f).grounds (by decide)
@[simp] theorem modSq_grounds (s : State) (f : Sequencer → Sequencer) : (s.modSq f).grounds = s.grounds := (modSq_frame s f).grounds (by decide)
@[simp] theorem modHost_grounds (s : State) (f : HostIf → HostIf) : (s.modHost f).grounds = s.grounds := (modHost_frame s f).grounds (by decide)
@[simp] theorem modEsc_grounds (s : State) (f : Escalation → Escalation) : (s.modEsc f).grounds = s.grounds := (modEsc_frame s f).grounds (by decide)
@[simp] theorem modTest_grounds (s : State) (f : SelfTest → SelfTest) : (s.modTest f).grounds = s.grounds := (modTest_frame s f).grounds (by decide)
@[simp] theorem modOfd_grounds (s : State) (f : Digests → Digests) : (s.modOfd f).grounds = s.grounds := (modOfd_frame s f).grounds (by decide)
@[simp] theorem modTxn_grounds (s : State) (w : World) (f : Txn → Txn) : (s.modTxn w f).grounds = s.grounds := (modTxn_frame s w f).grounds (by decide)
@[simp] theorem modFn_grounds (s : State) (k : Nat) (f : Fn → Fn) : (s.modFn k f).grounds = s.grounds := (modFn_frame s k f).grounds (by decide)
@[simp] theorem setWriter_grounds (s : State) (p w : Nat) (x : TraceWriter) : (s.setWriter p w x).grounds = s.grounds := (setWriter_frame s p w x).grounds (by decide)
@[simp] theorem setWatch_grounds (s : State) (k : Nat) (x : Watch) : (s.setWatch k x).grounds = s.grounds := rfl
@[simp] theorem emitOut_grounds (s : State) (o : Out) : (s.emitOut o).grounds = s.grounds := (emitOut_frame s o).grounds (by decide)
@[simp] theorem rewriteRecord_grounds (s : State) : s.rewriteRecord.grounds = s.grounds := rfl
@[simp] theorem abandonSnaps_grounds (s : State) : s.abandonSnaps.grounds = s.grounds := rfl
@[simp] theorem voidHalves_grounds (s : State) (c : Capture) : (s.voidHalves c).grounds = s.grounds := rfl
@[simp] theorem endPass_grounds (s : State) : s.endPass.grounds = s.grounds := rfl
@[simp] theorem irq_grounds (s : State) (v : Nat) : (s.irq v).grounds = s.grounds := (irq_frame s v).grounds (by decide)
@[simp] theorem emit_grounds (s : State) (e : Event) : (s.emit e).grounds = s.grounds := (emit_frame s e).grounds (by decide)
@[simp] theorem emitSq_grounds (s : State) (e : Event) : (s.emitSq e).grounds = s.grounds := (emitSq_frame s e).grounds (by decide)
@[simp] theorem event_grounds (s : State) (b : EvBody) : (s.event b).grounds = s.grounds := (event_frame s b).grounds (by decide)
@[simp] theorem traceDrain_grounds (s : State) (p w : Nat) : (s.traceDrain p w).grounds = s.grounds := (traceDrain_frame s p w).grounds (by decide)
@[simp] theorem traceRec_grounds (s : State) (p w : Nat) (r : List Word) : (s.traceRec p w r).grounds = s.grounds := (traceRec_frame s p w r).grounds (by decide)
@[simp] theorem finish_grounds (s : State) (p : Pend) (st : Status) (d : Word) (r : List Word) : (s.finish p st d r).grounds = s.grounds := (finish_frame s p st d r).grounds (by decide)
@[simp] theorem notify_grounds (s : State) (n : Notice) : (s.notify n).grounds = s.grounds := (notify_frame s n).grounds (by decide)
@[simp] theorem endFreeze_grounds (s : State) : s.endFreeze.grounds = s.grounds := (endFreeze_frame s).grounds (by decide)

/-! ### Agents, wardens and messages -/

@[simp] theorem latchLost_grounds (s : State) (r : Rep) : (s.latchLost r).grounds = s.grounds := by cases r <;> rfl

@[simp] theorem dropReport_grounds (s : State) (a : AgentIx) (r : Rep) : (s.dropReport a r).grounds = s.grounds := by simp [State.dropReport]

@[simp] theorem wardenReport_grounds (s : State) (a : AgentIx) (r : Rep) : (s.wardenReport a r).grounds = s.grounds := by
  simp [State.wardenReport]

@[simp] theorem transmit_grounds (s : State) (a : AgentIx) (m : Sent) : (s.transmit a m).grounds = s.grounds := by
  unfold State.transmit; split <;> rfl

@[simp] theorem send_grounds (s : State) (a : AgentIx) (b : Bell) (n : Nat) : (s.send a b n).grounds = s.grounds := by
  unfold State.send
  simp only [ite_grounds, transmit_grounds]
  exact ite_self _

@[simp] theorem unitCommand_grounds (s : State) (a : AgentIx) (b : Bell) : (s.unitCommand a b).grounds = s.grounds := send_grounds s a b _

/-! ### The shadow pool and covers -/

@[simp] theorem modEntry_grounds (s : State) (t : TileIx) (q : Word) (f : JEntry → JEntry) : (s.modEntry t q f).grounds = s.grounds := by
  unfold State.modEntry; split <;> rfl

@[simp] theorem startShadow_grounds (s : State) (p sh : TileIx) (k : Cmd) (n : Nat) : (s.startShadow p sh k n).grounds = s.grounds := by
  unfold State.startShadow; split <;> simp

@[simp] theorem reportHeld_grounds (s : State) (t : TileIx) (q : Word) : (s.reportHeld t q).grounds = s.grounds := by
  unfold State.reportHeld
  split
  · rfl
  · split
    · rfl
    · split <;> simp

@[simp] theorem startHeld_grounds (s : State) (p sh : TileIx) (k : Cmd) (n : Nat) : (s.startHeld p sh k n).grounds = s.grounds := by
  simp [State.startHeld]

@[simp] theorem freeCapture_grounds (s : State) (t p : TileIx) (q : Word) (n : Nat) : (s.freeCapture t p q n).grounds = s.grounds := by simp [State.freeCapture]

@[simp] theorem dropPreempted_grounds (s : State) (t : TileIx) (c : Capture) : (s.dropPreempted t c).grounds = s.grounds := by simp [State.dropPreempted]

@[simp] theorem claimCover_grounds (s : State) (u : TileIx) : (s.claimCover u).grounds = s.grounds := by simp [State.claimCover]

@[simp] theorem freeTest_grounds (s : State) (t : TileIx) : (s.freeTest t).grounds = s.grounds := by simp [State.freeTest]

@[simp] theorem startTest_grounds (s : State) (t : TileIx) : (s.startTest t).grounds = s.grounds := by simp [State.startTest]

@[simp] theorem spareSlot_grounds (s : State) (t : TileIx) : (s.spareSlot t).grounds = s.grounds := by simp [State.spareSlot]

@[simp] theorem spareOrSkip_grounds (s : State) : s.spareOrSkip.grounds = s.grounds := by
  unfold State.spareOrSkip; split <;> simp

@[simp] theorem loseCover_grounds (s : State) (u : TileIx) : (s.loseCover u).grounds = s.grounds := by
  unfold State.loseCover
  refine (each_grounds (fun s i => ?_) _ _).trans ?_
  · split
    · rfl
    · split <;> simp
  · split
    · rfl
    · split <;> simp

@[simp] theorem seekHold_grounds (s : State) (p : TileIx) (k : Cmd) (n : Nat) (o : Option TileIx) : (s.seekHold p k n o).grounds = s.grounds := by
  unfold State.seekHold
  split
  · rfl
  · split
    · simp
    · split
      · simp
      · split <;> simp

/-! ### Gates and commits -/

@[simp] theorem sample_grounds (s : State) (t : TileIx) (l : LogIx) (k : Cmd) (n : Nat) : (s.sample t l k n).grounds = s.grounds := by
  unfold State.sample
  simp only [ite_grounds, bump_grounds, seekHold_grounds, modCtx_grounds]
  split
  · rfl
  · split
    · rfl
    · split
      · rfl
      · split <;> simp

@[simp] theorem accept_grounds (s : State) (t : TileIx) (l : LogIx) (k : Cmd) : (s.accept t l k).grounds = s.grounds := by simp [State.accept]

@[simp] theorem drainGate_grounds (s : State) (t : TileIx) (l : LogIx) : (s.drainGate t l).grounds = s.grounds := by simp [State.drainGate]

@[simp] theorem drainGateOf_grounds (s : State) (t : TileIx) : (s.drainGateOf t).grounds = s.grounds := by
  unfold State.drainGateOf; split <;> simp

@[simp] theorem drainGates_grounds (s : State) : s.drainGates.grounds = s.grounds := by simp [State.drainGates]

@[simp] theorem drainFreed_grounds (s : State) : s.drainFreed.grounds = s.grounds := by simp [State.drainFreed]

@[simp] theorem countConsumed_grounds (s : State) (t : TileIx) (k : Cmd) : (s.countConsumed t k).grounds = s.grounds :=
  each_grounds (fun s o => by cases o <;> simp) _ _

@[simp] theorem traceEnd_grounds (s : State) (t : TileIx) (e : JEntry) : (s.traceEnd t e).grounds = s.grounds := by simp [State.traceEnd]

@[simp] theorem commit_grounds (s : State) (t : TileIx) (k : Nat) (e : JEntry) : (s.commit t k e).grounds = s.grounds := by simp [State.commit]

@[simp] theorem releaseHold1_grounds (s : State) (t : TileIx) (q : Word) : (s.releaseHold1 t q).grounds = s.grounds := by
  unfold State.releaseHold1; split <;> simp

/-! ### Disputes and tests that end -/

@[simp] theorem freeArb_grounds (s : State) (a : Arb) (n : Nat) : (s.freeArb a n).grounds = s.grounds := by simp [State.freeArb]

@[simp] theorem releaseArb_grounds (s : State) (a : Arb) : (s.releaseArb a).grounds = s.grounds := by simp [State.releaseArb]

@[simp] theorem shadowNotice_grounds (s : State) (a : Arb) (o m : Nat) (c : Word) : (s.shadowNotice a o m c).grounds = s.grounds := by
  simp [State.shadowNotice]

@[simp] theorem markStep_grounds (s : State) (c : CtxIx) (w : Word) (m : Nat) : (s.markStep c w m).grounds = s.grounds := by simp [State.markStep]

@[simp] theorem doubt_grounds (s : State) (a : Arb) (o m : Nat) (c : Word) : (s.doubt a o m c).grounds = s.grounds := by simp [State.doubt]

@[simp] theorem abandonCase_grounds (s : State) (a : Arb) : (s.abandonCase a).grounds = s.grounds := by
  simp [State.abandonCase, State.undecided]

@[simp] theorem requestAnvil_grounds (s : State) (t : TileIx) (w : AnvilWhy) (l : List Nat) : (s.requestAnvil t w l).grounds = s.grounds := by
  unfold State.requestAnvil; split <;> rfl

@[simp] theorem reqDone_grounds (s : State) (n : Nat) (j : AnvilJob) : (s.reqDone n j).grounds = s.grounds := by
  unfold State.reqDone; split <;> simp

@[simp] theorem anvilRegs_grounds (s : State) (j : AnvilJob) (b : Bool) : (s.anvilRegs j b).grounds = s.grounds := by simp [State.anvilRegs]

@[simp] theorem abortJob_grounds (s : State) (j : AnvilJob) : (s.abortJob j).grounds = s.grounds := by
  unfold State.abortJob; split <;> simp

@[simp] theorem endTests_grounds (s : State) (l : List TileIx) : (s.endTests l).grounds = s.grounds := by simp [State.endTests]

/-! ### Stops, functions, transactions -/

@[simp] theorem releaseStop_grounds (s : State) (m : BitVec 41) : (s.releaseStop m).grounds = s.grounds := by
  simp [State.releaseStop, State.drainWriters]

@[simp] theorem endBstop_grounds (s : State) : s.endBstop.grounds = s.grounds := by
  unfold State.endBstop; split <;> simp

@[simp] theorem abandonQuiesce_grounds (s : State) : s.abandonQuiesce.grounds = s.grounds := by
  unfold State.abandonQuiesce
  split
  · split
    · dsimp only
      split <;> simp
    · rfl
  · rfl

@[simp] theorem closeWatch_grounds (s : State) (k n : Nat) : (s.closeWatch k n).grounds = s.grounds := by
  unfold State.closeWatch
  dsimp only
  split
  · rfl
  · simp

@[simp] theorem abandonWatches_grounds (s : State) (f : WatchDecl → Bool) : (s.abandonWatches f).grounds = s.grounds := by
  simp [State.abandonWatches]

@[simp] theorem scrubFails_grounds (s : State) (r : Scrub) (st : Status) (n : Nat) : (s.scrubFails r st n).grounds = s.grounds := by
  unfold State.scrubFails; split <;> simp

@[simp] theorem abandonScrubs_grounds (s : State) (b : Bool) : (s.abandonScrubs b).grounds = s.grounds := by simp [State.abandonScrubs]

@[simp] theorem setFn_grounds (s : State) (f : Nat) (st : FnState) : (s.setFn f st).grounds = s.grounds := by simp [State.setFn]

@[simp] theorem clearedWatches_grounds (s : State) : ({ s with obs := { s.obs with watches := [] } } : State).grounds = s.grounds := rfl

@[simp] theorem fnForceOff_grounds (s : State) : s.fnForceOff.grounds = s.grounds := by
  unfold State.fnForceOff
  dsimp only
  refine (each_grounds (fun s f => by simp) _ _).trans ((each_grounds (fun s k => by simp) _ _).trans ?_)
  exact (clearedWatches_grounds _).trans (by simp)

@[simp] theorem rollback_grounds (s : State) (w : World) : (s.rollback w).grounds = s.grounds := by simp [State.rollback]

@[simp] theorem dropCommands_grounds (s : State) : s.dropCommands.grounds = s.grounds := by simp [State.dropCommands, State.discardTxns]

/-! ### The start of a removal -/

/-- The start of a removal (R319, R322): work that leaves the grounds, then the mark of the removal and its boundary stop. -/
theorem removalStop_eq (s : State) : ∃ u : State, u.grounds = s.grounds ∧
    s.removalStop = (u.modBu fun b => { b with removal := .stopping }).modEsc
      fun e => { e with bstop := some ⟨0xF, false, .removal, false, false, []⟩ } := by
  refine ⟨_, ?_, rfl⟩
  rw [endFreeze_grounds, abandonSnaps_grounds, when_grounds rewriteRecord_grounds]
  simp

/-- It changes of bring-up only where the removal stands. -/
theorem removalStop_bu (s : State) : s.removalStop.bu = { s.bu with removal := .stopping } := by
  obtain ⟨u, hu, h⟩ := removalStop_eq s
  rw [h, State.modEsc_bu, State.modBu_bu, bu_of_grounds hu]

theorem removalStop_ports (s : State) : s.removalStop.ports = s.ports := by
  obtain ⟨u, hu, h⟩ := removalStop_eq s
  rw [h, State.modEsc_ports, State.modBu_ports, ports_of_grounds hu]

theorem removalStop_fused (s : State) : s.removalStop.fused = s.fused := by
  obtain ⟨u, hu, h⟩ := removalStop_eq s
  rw [h, State.modEsc_fused, State.modBu_fused, fused_of_grounds hu]

/-- A boundary stop of the whole package stands afterwards. -/
theorem removalStop_bstop (s : State) : s.removalStop.esc.bstop = some ⟨0xF, false, .removal, false, false, []⟩ := by
  obtain ⟨u, -, h⟩ := removalStop_eq s
  rw [h, State.modEsc_esc]

end Sys2Proof.Machine
end

section
/-! PROOFS. The ends of bring-up stages: what the end and the failure of a stage do to bring-up (R289, R290), and that the tests of stage 4 and the
training of stage 5 leave the stage where it is. -/
namespace Sys2Proof.Machine

-- One theorem at a time: with the joint text's other threads, parallel ones would pass the memory that the check gives.
set_option Elab.async false

/-! ### The boundary of a stage -/

/-- Bring-up after a stage's boundary: a removal that waited for it goes to its stop (R320). -/
def BringUp.afterBoundary (b : BringUp) : BringUp := if b.removal = .boundary then { b with removal := .stopping } else b

@[simp] theorem afterBoundary_stage (b : BringUp) : b.afterBoundary.stage = b.stage := by unfold BringUp.afterBoundary; split <;> rfl
@[simp] theorem afterBoundary_failed (b : BringUp) : b.afterBoundary.failed = b.failed := by unfold BringUp.afterBoundary; split <;> rfl
@[simp] theorem afterBoundary_failCode (b : BringUp) : b.afterBoundary.failCode = b.failCode := by unfold BringUp.afterBoundary; split <;> rfl
@[simp] theorem afterBoundary_good (b : BringUp) : b.afterBoundary.good = b.good := by unfold BringUp.afterBoundary; split <;> rfl
@[simp] theorem afterBoundary_retries (b : BringUp) : b.afterBoundary.retries = b.retries := by unfold BringUp.afterBoundary; split <;> rfl
@[simp] theorem afterBoundary_linkWaits (b : BringUp) : b.afterBoundary.linkWaits = b.linkWaits := by unfold BringUp.afterBoundary; split <;> rfl

theorem boundaryRemoval_bu (s : State) : s.boundaryRemoval.bu = s.bu.afterBoundary := by
  unfold State.boundaryRemoval BringUp.afterBoundary
  split
  · rw [removalStop_bu, bu_of_grounds (endPass_grounds s)]
  · rfl

theorem boundaryRemoval_ports (s : State) : s.boundaryRemoval.ports = s.ports := by
  unfold State.boundaryRemoval
  split
  · rw [removalStop_ports, ports_of_grounds (endPass_grounds s)]
  · rfl

theorem boundaryRemoval_fused (s : State) : s.boundaryRemoval.fused = s.fused := by
  unfold State.boundaryRemoval
  split
  · rw [removalStop_fused, fused_of_grounds (endPass_grounds s)]
  · rfl

/-! ### The end and the failure of a stage -/

@[simp] theorem stageRegs_grounds (s : State) (n code count : Nat) (b : Bool) : (s.stageRegs n code count b).grounds = s.grounds := by
  simp [State.stageRegs]

theorem stageDone_bu (s : State) (n count : Nat) :
    (s.stageDone n count).bu = BringUp.afterBoundary { s.bu with stage := min 9 (n + 1) } := by
  unfold State.stageDone
  rw [boundaryRemoval_bu, State.modBu_bu, bu_of_grounds (s := s) (by simp)]

theorem stageDone_ports (s : State) (n count : Nat) : (s.stageDone n count).ports = s.ports := by
  unfold State.stageDone
  rw [boundaryRemoval_ports, State.modBu_ports, ports_of_grounds (s := s) (by simp)]

theorem setPkg_bu (s : State) (p : PkgState) : (s.setPkg p).bu = { s.bu with pkg := p } := by
  unfold State.setPkg
  split
  · next h => rw [← h]
  · dsimp only
    split
    · rw [failTags_frame _ _ _ _ _ _ .bu (by decide)]; simp
    · simp

theorem setPkg_fused (s : State) (p : PkgState) : (s.setPkg p).fused = s.fused := setPkg_frame s p .fused (by decide)

@[simp] theorem assertKill_bu (s : State) (m : BitVec 41) : (s.assertKill m).bu = s.bu := rfl
@[simp] theorem assertKill_fused (s : State) (m : BitVec 41) : (s.assertKill m).fused = s.fused := rfl

/-- A failed stage keeps its number, or that of stage 3 in a chip-reset pass whose census fails (R247, R290). -/
theorem stageFail_bu (s : State) (e : Event) :
    (s.stageFail e).bu = BringUp.afterBoundary { s.bu with
      stage := if s.bu.chipPass then max 3 s.bu.stage else s.bu.stage, failed := true, failCode := e.code, pkg := .safe } := by
  unfold State.stageFail
  dsimp only
  rw [boundaryRemoval_bu, State.modEsc_bu, assertKill_bu, setPkg_bu, State.modBu_bu,
    bu_of_grounds (s := s) (by simp)]

theorem stageFail_fused (s : State) (e : Event) : (s.stageFail e).fused = s.fused := by
  unfold State.stageFail
  dsimp only
  rw [boundaryRemoval_fused, State.modEsc_fused, assertKill_fused, setPkg_fused,
    State.modBu_fused, fused_of_grounds (s := s) (by simp)]

/-- The failure code stands in place of STAGE_DONE (R290). -/
theorem stageFail_failed (s : State) (e : Event) : (s.stageFail e).bu.failed = true ∧ (s.stageFail e).bu.failCode = e.code := by
  simp only [stageFail_bu, afterBoundary_failed, afterBoundary_failCode, and_self]

/-- What an open stage says: it is the current one and nothing has failed. -/
theorem stageOpen_current {s : State} {n : Nat} (h : s.stageOpen n = true) : s.bu.stage = n ∧ s.bu.failed = false := by
  simp only [State.stageOpen, Bool.and_eq_true, beq_iff_eq, Bool.not_eq_true'] at h
  tauto

/-! ### Work that stays in its stage -/

/-- From stage 3 on the work leaves the stage where it is, a failure included, and the fuses. -/
def SameStage (s t : State) : Prop := 3 ≤ s.bu.stage → t.bu.stage = s.bu.stage ∧ t.fused = s.fused

theorem SameStage.refl (s : State) : SameStage s s := fun _ => ⟨rfl, rfl⟩

theorem SameStage.trans {s t u : State} (h : SameStage s t) (k : SameStage t u) : SameStage s u := fun hs =>
  have ⟨h1, h2⟩ := h hs
  have ⟨k1, k2⟩ := k (h1 ▸ hs)
  ⟨k1.trans h1, k2.trans h2⟩

theorem SameStage.of_eq {s t : State} (hb : t.bu.stage = s.bu.stage) (hf : t.fused = s.fused) : SameStage s t := fun _ => ⟨hb, hf⟩

theorem SameStage.of_grounds {s t : State} (h : t.grounds = s.grounds) : SameStage s t :=
  .of_eq (by rw [bu_of_grounds h]) (fused_of_grounds h)

/-- A further step that leaves the grounds. -/
theorem SameStage.step {s t u : State} (h : SameStage s t) (k : u.grounds = t.grounds) : SameStage s u := h.trans (.of_grounds k)

theorem SameStage.modBu {s t : State} {f : BringUp → BringUp} (h : SameStage s t) (hf : ∀ b, (f b).stage = b.stage := by intro b; rfl) :
    SameStage s (t.modBu f) := h.trans (.of_eq (hf _) rfl)

theorem SameStage.ite {s a b : State} {c : Prop} [Decidable c] (h : SameStage s a) (k : SameStage s b) : SameStage s (if c then a else b) := by
  split <;> assumption

theorem SameStage.each {α : Type} {f : State → α → State} (h : ∀ s x, SameStage s (f s x)) (l : List α) (s : State) : SameStage s (s.each l f) := by
  unfold State.each
  induction l generalizing s with
  | nil => exact .refl s
  | cons x l ih => exact (h s x).trans (ih _)

theorem stageFail_sameStage (s : State) (e : Event) : SameStage s (s.stageFail e) := fun hs => by
  refine ⟨?_, stageFail_fused s e⟩
  simp only [stageFail_bu, afterBoundary_stage]
  split <;> omega

theorem excludeUnit_sameStage (s : State) (ut ix : Nat) (e : Event) : SameStage s (s.excludeUnit ut ix e) := by
  unfold State.excludeUnit
  exact .ite (.of_grounds (emit_grounds s _)) (.ite (SameStage.of_grounds (emit_grounds s _)).modBu (stageFail_sameStage s _))

/-- What DEFECT changes of bring-up is the list of good tiles (R192). -/
theorem makeDefect_bu (s : State) (t : TileIx) (cause : Nat) : (s.makeDefect t cause).bu = { s.bu with good := s.bu.good.erase t } := by
  unfold State.makeDefect State.epochUp
  simp [State.setRole]

theorem makeDefect_fused (s : State) (t : TileIx) (cause : Nat) : (s.makeDefect t cause).fused = s.fused := by
  unfold State.makeDefect State.epochUp
  simp [State.setRole]

theorem makeDefect_sameStage (s : State) (t : TileIx) (cause : Nat) : SameStage s (s.makeDefect t cause) :=
  .of_eq (by rw [makeDefect_bu]) (makeDefect_fused s t cause)

/-! ### Stage 4 -/

theorem invalidStart_sameStage (s : State) (k : TestKind) (u die : Nat) (data : List (List Byte)) :
    SameStage s (s.invalidStart k u die data) := by
  have hb : SameStage s (s.bump HRT_BIST_INVALID) := .of_grounds (by simp)
  unfold State.invalidStart
  dsimp only
  split
  · exact hb.modBu
  · exact .ite hb.modBu (hb.trans (stageFail_sameStage _ _))

@[simp] theorem set64_grounds (s : State) (lo hi v : Nat) : (s.set64 lo hi v).grounds = s.grounds := (set64_frame s lo hi v).grounds (by decide)

@[simp] theorem bistRegs_grounds (s : State) (t : TileIx) (r : BistRun) (v : BistVerdict) : (s.bistRegs t r v).grounds = s.grounds := by
  unfold State.bistRegs
  dsimp only
  rw [setNat_grounds]
  split <;> split <;> simp

@[simp] theorem applyImage_grounds (s : State) (u : TileIx ⊕ ArrayUnit) : (s.applyImage u).grounds = s.grounds := by simp [State.applyImage]

@[simp] theorem noteRepaired_grounds (s : State) (u : TileIx ⊕ ArrayUnit) (ut ix : Nat) (l : List ArrayFail) (w : EnvWindow) :
    (s.noteRepaired u ut ix l w).grounds = s.grounds := by simp [State.noteRepaired]

@[simp] theorem noteRepair_grounds (s : State) (t : TileIx) (r : BistRun) : (s.noteRepair t r).grounds = s.grounds := by
  simp [State.noteRepair]

theorem startRun_sameStage (s : State) (t : TileIx) (r : BistRun) : SameStage s (s.startRun t r) := by
  unfold State.startRun
  refine .ite (.refl s) ?_
  have hr : SameStage s ((s.bumpFld (tileReg t TWD_BIST_STATUS) 15 0).bistRegs t r (s.judgeBist t r)) := .of_grounds (by simp)
  dsimp only
  split
  · exact hr.trans (invalidStart_sameStage _ _ _ _ _)
  · exact hr.trans (invalidStart_sameStage _ _ _ _ _)
  · exact (((hr.step (noteRepair_grounds _ _ _)).step (emit_grounds _ _)).trans (makeDefect_sameStage _ _ _)).modBu
  · exact (hr.step (noteRepair_grounds _ _ _)).modBu

theorem arrayLost_sameStage (s : State) (u : ArrayUnit) (data : List (List Byte)) : SameStage s (s.arrayLost u data) := by
  unfold State.arrayLost
  refine .ite (.refl s) ?_
  cases u
  · exact stageFail_sameStage s _
  · exact excludeUnit_sameStage s _ _ _
  · exact excludeUnit_sameStage s _ _ _

theorem startArray_sameStage (s : State) (x : ArrayRes) : SameStage s (s.startArray x) := by
  unfold State.startArray
  refine .ite (.refl s) (.ite (invalidStart_sameStage _ _ _ _ _) (SameStage.modBu ?_))
  exact (SameStage.of_grounds (noteRepaired_grounds _ _ _ _ _ _)).trans (.each (fun s a => arrayLost_sameStage s _ _) _ _)

/-- A change of the repair log touches the NOR device alone. -/
theorem modLog_sameStage (s : State) (f : RepairLog → RepairLog) : SameStage s (s.modLog f) := by
  unfold State.modLog
  exact .ite (.refl s) (.of_eq rfl rfl)

theorem repairRow_sameStage (s : State) (n : StackIx) (row col dq : Nat) (w : EnvWindow) : SameStage s (s.repairRow n row col dq w) := by
  unfold State.repairRow
  dsimp only
  exact ((SameStage.of_grounds (bumpFld_grounds _ _ _ _ _)).trans (modLog_sameStage _ _)).step (emit_grounds _ _)

@[simp] theorem stackTestRegs_grounds (s : State) (x : StackTest) (m r : Nat) : (s.stackTestRegs x m r).grounds = s.grounds := by
  unfold State.stackTestRegs
  dsimp only
  split <;> simp

theorem startStack_sameStage (s : State) (x : StackTest) : SameStage s (s.startStack x) := by
  have hr : ∀ m r, SameStage s (s.stackTestRegs x m r) := fun m r => .of_grounds (by simp)
  unfold State.startStack
  refine .ite (.refl s) (.ite ((hr _ _).trans (invalidStart_sameStage _ _ _ _ _)) (SameStage.modBu ?_))
  have h1 := (hr (if s.quickTest x.stack then 1 else 2) (if (!x.answers || (x.rows.filter fun r => !r.2.1) != []) = true then 3 else if x.rows = [] then 1 else 2)).trans
    (.each (fun s (r : Nat × Bool × Nat × Nat) => repairRow_sameStage s x.stack r.1 r.2.2.1 r.2.2.2 x.window) (x.rows.filter fun r => r.2.1) _)
  exact .ite (h1.trans (excludeUnit_sameStage _ _ _ _)) h1

/-- Stage 4 ends only with no test to repeat and with enough good tiles (R5, R270, R289). -/
theorem endStage4_bu {u : State} (h : u.bu.stage = 4) :
    (u.endStage4.bu.failed = true ∨ u.endStage4.bu.retries ≠ [] → u.endStage4.bu.stage = 4) ∧
      (u.endStage4.bu.failed = false → u.endStage4.bu.retries = [] →
        u.endStage4.bu.stage = 5 ∧ u.logicals + 4 ≤ u.endStage4.bu.good.length) := by
  unfold State.endStage4
  split
  · next hw =>
    refine ⟨fun _ => h, fun hf hr => ?_⟩
    simp [hf, hr] at hw
  · next hw =>
    obtain ⟨hf, hr⟩ := not_or.mp hw
    split
    · simp [State.countShort, stageFail_bu, h]
    · next hc => simp_all [stageDone_bu, State.countOk]

/-- The end of stage 4 keeps the good tiles and the repeats due. -/
theorem endStage4_keeps (u : State) : u.endStage4.bu.good = u.bu.good ∧ u.endStage4.bu.retries = u.bu.retries := by
  unfold State.endStage4
  split
  · exact ⟨rfl, rfl⟩
  · split
    · simp [State.countShort, stageFail_bu]
    · simp [stageDone_bu]

/-- The tests of stage 4 run in the stage, then it ends or waits for its repeats. -/
theorem doStage4_runs {s : State} {i : Stage4In} (ho : s.stageOpen 4 = true) (hr : s.bu.retries = []) (hf : s.fetchOk 5 = true) :
    ∃ u, SameStage s u ∧ doStage4 i s = u.endStage4 := by
  unfold doStage4
  simp only [ho, hr, hf, Bool.not_true, Bool.false_or, ne_eq, not_true_eq_false, decide_false, Bool.false_eq_true, if_false]
  refine ⟨_, ?_, rfl⟩
  have h0 : SameStage s (s.loadSigs.modLog fun l => { l with passes := l.passes + 1 }) :=
    (SameStage.refl s).modBu.trans (modLog_sameStage _ _)
  exact ((h0.trans (.each (fun s x => startRun_sameStage s _ _) _ _)).trans (.each startArray_sameStage _ _)).trans (.each startStack_sameStage _ _)

/-- A run that passes drops its tile's repeat and changes nothing else of bring-up (R262). -/
theorem startRun_pass_bu {s : State} {t : TileIx} {r : BistRun} (hf : s.bu.failed = false) (hg : s.bu.good.contains t = true)
    (hp : s.judgeBist t r = .pass) : (s.startRun t r).bu = (s.dropRetry .tile t.val).bu := by
  unfold State.startRun
  rw [if_neg (by simpa [hf] using hg)]
  simp only [hp, State.dropRetry, State.modBu_bu]
  rw [bu_of_grounds (s := s) (by simp)]

/-- The fourth invalid result of a tile fails the pass (R262, R284). -/
theorem startRun_fourth_invalid {s : State} {t : TileIx} {r : BistRun} {x : StartRetry} (hf : s.bu.failed = false)
    (hg : s.bu.good.contains t = true) (hx : s.retryOf .tile t.val = some x) (h3 : x.tries = 3) (hv : s.judgeBist t r = .invalid) :
    (s.startRun t r).bu.failed = true ∧ (s.startRun t r).bu.failCode = 0x0604 := by
  unfold State.startRun
  rw [if_neg (by simpa [hf] using hg)]
  simp only [hv]
  generalize hu : (s.bumpFld (tileReg t TWD_BIST_STATUS) 15 0).bistRegs t r .invalid = u
  have hb : u.bu = s.bu := bu_of_grounds (by simp [← hu])
  have hx' : u.retryOf .tile t.val = some x := by rw [← hx, State.retryOf, State.retryOf, hb]
  unfold State.invalidStart
  simp only [hx', h3, lt_irrefl, if_false]
  exact stageFail_failed _ _

theorem retryOf_dropRetry (s : State) (k : TestKind) (n : Nat) : (s.dropRetry k n).retryOf k n = none := by
  simp only [State.retryOf, State.dropRetry, State.modBu_bu, List.find?_eq_none, List.mem_filter]
  rintro r ⟨-, hr⟩
  simpa [imp_iff_not_or] using hr

/-! ### Stage 5 -/

theorem trained_sameStage (s : State) (ut ix : Nat) (b : Bool) (hi lo : Nat) : SameStage s (s.trained ut ix b hi lo) := by
  unfold State.trained
  exact .ite (.of_grounds (by simp)) (SameStage.of_grounds (bumpFld_grounds _ _ _ _ _)).modBu

@[simp] theorem trainReject_grounds (s : State) (ut ix : Nat) (b : Bool) : (s.trainReject ut ix b).grounds = s.grounds := by
  simp [State.trainReject]

theorem trainReject_sameStage (s : State) (ut ix : Nat) (b : Bool) : SameStage s (s.trainReject ut ix b) := .of_grounds (by simp)

theorem modPort_sameStage (s : State) (p : PortIx) (f : Port → Port) : SameStage s (s.modPort p f) := .of_eq rfl rfl

theorem linkUp_sameStage (s : State) (p : PortIx) (l : List Nat) : SameStage s (s.linkUp p l) := by
  unfold State.linkUp State.sendIdentity
  refine .ite (.step ?_ (emitOut_grounds _ _)) ?_ <;>
    exact (((modPort_sameStage s p _).step (setNat_grounds _ _ _)).step (setNat_grounds _ _ _)).step (setFld_grounds _ _ _ _ _)

theorem trainStack_sameStage (s : State) (n : StackIx) (r : TrainRes) : SameStage s (s.trainStack n r) := by
  unfold State.trainStack
  refine .ite (.refl s) ?_
  have hrej := trainReject_sameStage s 2 n.val (s.savedOk fun x => tget? x.hbm n.val)
  cases r
  case savedRejectedThenFull => exact hrej.trans (trained_sameStage _ _ _ _ _ _)
  case savedRejectedThenFailed => exact hrej.trans (excludeUnit_sameStage _ _ _ _)
  case failed => exact excludeUnit_sameStage _ _ _ _
  all_goals exact trained_sameStage _ _ _ _ _ _

theorem trainPort_sameStage (s : State) (p : PortIx) (r : TrainRes) (l : List Nat) : SameStage s (s.trainPort p r l) := by
  have hup : ∀ (u : State) b l, SameStage u ((u.trained 3 p.val b 15 8).linkUp p l) :=
    fun u b l => (trained_sameStage u _ _ _ _ _).trans (linkUp_sameStage _ _ _)
  have hrej := trainReject_sameStage s 3 p.val (s.savedOk fun x => (tget? x.links p.val).map Prod.fst)
  unfold State.trainPort
  refine .ite (.refl s) ?_
  cases r
  case saved => exact .ite (hup s _ _) (hup s _ _)
  case full => exact hup s _ _
  case savedRejectedThenFull => exact hrej.trans (hup _ _ _)
  case failed => exact excludeUnit_sameStage _ _ _ _
  case savedRejectedThenFailed => exact hrej.trans (excludeUnit_sameStage _ _ _ _)
  case noPeer => exact (SameStage.refl s).modBu

/-- Stage 5 ends only with no port waiting for its far end (R307, R308). -/
theorem endStage5_bu {u : State} (h : u.bu.stage = 5) :
    (u.endStage5.bu.failed = true ∨ u.endStage5.bu.linkWaits ≠ [] → u.endStage5.bu.stage = 5) ∧
      (u.endStage5.bu.failed = false → u.endStage5.bu.linkWaits = [] → u.endStage5.bu.stage = 6) := by
  unfold State.endStage5
  split
  · next hw =>
    refine ⟨fun _ => h, fun hf hl => ?_⟩
    simp [hf, hl] at hw
  · next hw => simp_all [stageDone_bu]

theorem endStage5_ports (u : State) : u.endStage5.ports = u.ports := by
  unfold State.endStage5
  split
  · rfl
  · exact stageDone_ports _ _ _

/-- Training runs in stage 5, then the stage ends or waits for its ports. -/
theorem doStage5_runs {s : State} {hs : List (StackIx × TrainRes)} {ps : List (PortIx × TrainRes × List Nat)} (ho : s.stageOpen 5 = true)
    (hl : s.bu.linkWaits = []) (hf : s.fetchOk 6 = true) : ∃ u, SameStage s u ∧ doStage5 hs ps s = u.endStage5 := by
  unfold doStage5
  simp only [ho, hl, hf, Bool.not_true, Bool.false_or, ne_eq, not_true_eq_false, decide_false, Bool.false_eq_true, if_false]
  refine ⟨_, ?_, rfl⟩
  exact ((SameStage.of_grounds (setNat_grounds _ _ _)).trans (.each (fun s x => trainStack_sameStage s _ _) _ _)).trans
    (.each (fun s x => trainPort_sameStage s _ _ _) _ _)

end Sys2Proof.Machine
end

section
/-! PROOFS. Stages 4 and 5 (R262, R270, R289, R290, R307 to R309): what ends each stage and what fails it, the tests repeated, the wait for far ends and
the training record. -/
namespace Sys2Proof.Machine

-- One theorem at a time: with the joint text's other threads, parallel ones would pass the memory that the check gives.
set_option Elab.async false

/-- Between commands the TRIP latch holds TRAY_PC_N (R339). -/
theorem State.Signals.latch {s : State} (h : s.Signals) : s.hl.tripLatch = true → s.pw.trayPc = true := h.2.2.2

/-- A payload section that fails its digest fails stage 4 (R290, R300). -/
theorem stage4_bad_payload {s : State} {i : Stage4In} (ho : s.stageOpen 4 = true) (hr : s.bu.retries = []) (hf : s.fetchOk 5 = false) :
    doStage4 i s = s.fetchFail 5 := by
  unfold doStage4
  rw [if_neg (by simp [ho, hr]), if_pos (by simp [hf])]

theorem stage5_bad_payload {s : State} {hs : List (StackIx × TrainRes)} {ps : List (PortIx × TrainRes × List Nat)}
    (ho : s.stageOpen 5 = true) (hl : s.bu.linkWaits = []) (hf : s.fetchOk 6 = false) : doStage5 hs ps s = s.fetchFail 6 := by
  unfold doStage5
  rw [if_neg (by simp [ho, hl]), if_pos (by simp [hf])]

/-- A repeated run of stage 4 is a start-up run again, after which the stage may end (R262). -/
theorem doBistInvalidRetry_tile {s : State} {tl : TileIx} {r : BistRun} (ho : s.stageOpen 4 = true)
    (hr : (s.retryOf .tile tl.val).isSome = true) : doBistInvalidRetry (.tile tl r) s = (s.startRun tl r).endStage4 := by
  simp [doBistInvalidRetry, ho, hr]

/-- Once failed, stage 4 does not end. -/
theorem endStage4_of_failed {u : State} (h : u.bu.failed = true) : u.endStage4 = u := by simp [State.endStage4, h]

/-- A port whose wait expires has no peer, and stage 5 ends with the last of them (R308). -/
theorem doLinkWaitExpiry_bu {s : State} {p : PortIx} (ho : s.stageOpen 5 = true) (hp : s.bu.linkWaits.contains p = true) :
    ((doLinkWaitExpiry p s).port p).noPeer = true ∧ (doLinkWaitExpiry p s).bu.linkWaits = s.bu.linkWaits.erase p ∧
      (doLinkWaitExpiry p s).bu.failed = false ∧
      (doLinkWaitExpiry p s).bu.stage = (if s.bu.linkWaits.erase p = [] then 6 else 5) := by
  obtain ⟨hs, hf⟩ := stageOpen_current ho
  unfold doLinkWaitExpiry
  rw [if_pos (by simpa [ho] using hp)]
  generalize hu : ((s.modBu fun b => { b with linkWaits := b.linkWaits.erase p }).modPort p fun x => { x with noPeer := true }).emit
    ⟨0, 3, p.val, 0x0711, []⟩ = u
  have hb : u.bu = { s.bu with linkWaits := s.bu.linkWaits.erase p } := by rw [← hu]; simp
  have hport : (u.endStage5.port p).noPeer = true := by
    rw [State.port, endStage5_ports, ← hu]; simp
  refine ⟨hport, ?_⟩
  unfold State.endStage5
  split
  · next hw => simp_all
  · next hw => simp_all [stageDone_bu]

/-- The training record as a whole is written (R309). -/
theorem doTrainingRecordDone_true {s : State} (hp : s.bu.trainPending = true) (hl : s.recd.pfLock = false) (hr : s.bu.trainRetries ≤ 8) :
    doTrainingRecordDone true s = { s with nor := { s.nor with train := s.nor.train.put s.trainRecord } }.modBu
      fun b => { b with trainPending := false, fullUnits := [] } := by
  simp [doTrainingRecordDone, hp, hl, hr]

/-- A failed write is counted and recorded (R309). -/
theorem doTrainingRecordDone_false {s : State} (hp : s.bu.trainPending = true) (hl : s.recd.pfLock = false) (hr : s.bu.trainRetries ≤ 8) :
    doTrainingRecordDone false s = (s.modBu fun b => { b with trainRetries := b.trainRetries + 1 }).emit ⟨1, 0, 0, 0x040C, []⟩ := by
  simp [doTrainingRecordDone, hp, hl, hr]

/-- Settles O41: stages 4 and 5 change bring-up only as their parts do, and each part stays in its stage. -/
theorem testsAndTraining : Obligations.TestsAndTraining := by
  unfold Obligations.TestsAndTraining
  refine ⟨fun s i ho hr hf => ?_, fun s hs ps ho hl hf => ?_, fun s i ho hr hf => ?_, fun s tl r ho hg hr hp => ?_,
    fun s tl r x ho hg hx h3 hv => ?_, fun s hs ps ho hl hf => ?_, fun s p ho hp => ?_, fun s hsig hp hl hr => ⟨?_, ?_⟩⟩
  · refine ⟨_, rfl, ?_⟩
    rw [settle_bu, stage4_bad_payload ho hr hf]
    exact stageFail_failed _ _
  · refine ⟨_, rfl, ?_⟩
    rw [settle_bu, stage5_bad_payload ho hl hf]
    exact stageFail_failed _ _
  · obtain ⟨hs, -⟩ := stageOpen_current ho
    obtain ⟨u, hu, he⟩ := doStage4_runs (i := i) ho hr hf
    obtain ⟨hstage, hfused⟩ := hu (by omega)
    have hlog : u.logicals = s.logicals := by simp only [State.logicals, hfused]
    refine ⟨_, rfl, ?_⟩
    rw [settle_bu, he, ← hlog]
    exact endStage4_bu (hstage.trans hs)
  · obtain ⟨-, hf⟩ := stageOpen_current ho
    obtain ⟨hgood, hret⟩ := endStage4_keeps (s.startRun tl r)
    have hb := startRun_pass_bu hf hg hp
    refine ⟨_, rfl, ?_, ?_⟩
    · rw [State.retryOf, settle_bu, doBistInvalidRetry_tile ho hr, hret, hb]
      exact Option.isSome_eq_false_iff.mpr (by rw [← State.retryOf, retryOf_dropRetry]; rfl)
    · rw [settle_bu, doBistInvalidRetry_tile ho hr, hgood, hb]
      rfl
  · obtain ⟨-, hf⟩ := stageOpen_current ho
    have hfail := startRun_fourth_invalid hf hg hx h3 hv
    refine ⟨_, rfl, ?_⟩
    rw [settle_bu, doBistInvalidRetry_tile ho (by simp [hx]), endStage4_of_failed hfail.1]
    exact hfail
  · obtain ⟨hs', -⟩ := stageOpen_current ho
    obtain ⟨u, hu, he⟩ := doStage5_runs (hs := hs) (ps := ps) ho hl hf
    obtain ⟨hstage, -⟩ := hu (by omega)
    refine ⟨_, rfl, ?_⟩
    rw [settle_bu, he]
    exact endStage5_bu (hstage.trans hs')
  · exact ⟨_, rfl, doLinkWaitExpiry_bu ho hp⟩
  · refine ⟨_, rfl, ?_⟩
    rw [doTrainingRecordDone_true hp hl hr]
    refine ⟨rfl, rfl, Frame.settle ?_ hsig.latch (by decide) (by decide) (by decide) (by decide)⟩
    exact fun p hq => by cases p <;> first | rfl | exact absurd (by decide) hq
  · refine ⟨_, rfl, ?_⟩
    rw [doTrainingRecordDone_false hp hl hr]
    refine ⟨by simp, Frame.settle ?_ hsig.latch (by decide) (by decide) (by decide) (by decide)⟩
    exact ((modBu_frame s _).mono).emit (by decide)

end Sys2Proof.Machine
end

section
/-! PROOFS. What the reset state shows, and where stage 7 ends into a removal. -/
namespace Sys2Proof.Machine

-- One theorem at a time: with the joint text's other threads, parallel ones would pass the memory that the check gives.
set_option Elab.async false

/-- Nothing is pending, held or latched at reset (R489, R514). -/
theorem reset_signals : State.reset.Signals := by unfold State.Signals; decide

/-- Settles O56: the reset state's own fields, and the catalogue's reset values where no register is listed. -/
theorem signalsAtReset : Obligations.SignalsAtReset :=
  ⟨reset_signals, reset_memory_wf, rfl, rfl, rfl, by decide, by decide, by decide, by decide, by decide⟩

/-- The end of a stage with a removal waiting for it begins the boundary stop of the whole package (R320). -/
theorem stageDone_bstop {s : State} (h : s.bu.removal = .boundary) (n count : Nat) :
    (s.stageDone n count).esc.bstop = some ⟨0xF, false, .removal, false, false, []⟩ := by
  unfold State.stageDone State.boundaryRemoval
  rw [if_pos]
  · exact removalStop_bstop _
  · rw [State.modBu_bu, bu_of_grounds (s := s) (by simp), h]

/-- Stage 7 waits for its wiring table, and a removal waits for the end of the stage. -/
def waitingBoundary : State :=
  { State.reset with
    pw := { State.reset.pw with standby := true }
    sq := { State.reset.sq with run := .running }
    bu := { stage := 7, wiringWait := true, removal := .boundary } }

theorem waitingBoundary_signals : waitingBoundary.Signals := by unfold State.Signals; decide

theorem wiringWaitExpiry_boundary_bstop :
    (doWiringWaitExpiry waitingBoundary).esc.bstop = some ⟨0xF, false, .removal, false, false, []⟩ := by
  unfold doWiringWaitExpiry
  rw [if_pos (by decide)]
  refine stageDone_bstop ?_ _ _
  rw [State.modBu_bu, State.emit_bu]
  rfl

/-- Refutes O42: with a removal that waits for the end of stage 7, the expiry of the wiring wait ends the stage, and the removal's boundary stop begins
(R320), which the frame of that clause leaves no room for. -/
theorem not_payloadAndReady : ¬ Obligations.PayloadAndReady := by
  unfold Obligations.PayloadAndReady
  rintro ⟨-, -, -, -, -, -, hwait, -, -, -⟩
  obtain ⟨t, ht, -, -, -, hframe⟩ := hwait waitingBoundary waitingBoundary_signals (by decide) rfl
  obtain rfl : settle (doWiringWaitExpiry waitingBoundary) = t := Host.Outcome.next.inj ht
  have hesc : (settle (doWiringWaitExpiry waitingBoundary)).esc = waitingBoundary.esc := hframe .esc (by decide)
  rw [settle_esc] at hesc
  have hstop := wiringWaitExpiry_boundary_bstop
  rw [hesc] at hstop
  exact absurd hstop (by decide)

end Sys2Proof.Machine
end

section
/-! PROOFS. The writes that a block takes: what they reach, and what a plain register and a transactional one do with them. -/
namespace Sys2Proof.Machine

-- One theorem at a time: with the joint text's other threads, parallel ones would pass the memory that the check gives.
set_option Elab.async false

/-! ### Pages and rows -/

/-- A page lies below the windows, or is the sequencer's. -/
theorem pageOf_bounds {off : Nat} {x : PageKind × Nat × Nat} (h : pageOf off = some x) :
    off < 0x400000 ∨ (0x800000 ≤ off ∧ off < 0x801000) := by
  unfold pageOf at h
  grind

/-- The row of an offset is found in the catalogue of its page. -/
theorem findRow_of_rowAt {off page n : Nat} {r : RegRow} {k : PageKind} (hr : rowAt off = some (r, page))
    (hp : pageOf off = some (k, n, off - page)) : findRow (rowsOf k) (off - page) = some r := by
  unfold rowAt at hr
  rw [hp] at hr
  obtain ⟨x, hx, he⟩ := Option.map_eq_some_iff.mp hr
  rw [hx, (Prod.mk.inj he).1]

/-- The registers of the Hearth page that act on a write, beside the five that the statement leaves out, are write-only or a path's own. -/
theorem hearthActing_not_plain : ∀ o ∈ [HRT_TB_CAPTURE, HRT_CONS_SEL, REC_FLUSH_REQ, REC_ERASE, HRT_SNS_REQ],
    ∀ r, findRow hearthRows o = some r → r.code = .rw → r.perPath = true := by
  have h : ∀ o ∈ [HRT_TB_CAPTURE, HRT_CONS_SEL, REC_FLUSH_REQ, REC_ERASE, HRT_SNS_REQ],
      (findRow hearthRows o).all (fun r => r.code != .rw || r.perPath) = true := by decide
  intro o ho r hr hc
  simpa [hr, hc] using h o ho

/-- TWD_JNL_SEL is a path's own. -/
theorem journalSelect_perPath {r : RegRow} (h : findRow tileRows TWD_JNL_SEL = some r) : r.perPath = true := by
  have hall : (findRow tileRows TWD_JNL_SEL).all RegRow.perPath = true := by decide
  simpa [h] using hall

/-! ### The path of a write that the block takes -/

/-- Such a write reaches its row: none of the windows holds it, its page answers, and neither the row nor the core holds it back. -/
theorem regWriteAt_takes {s : State} {a : Acc} {v : Word} {r : RegRow} {k : PageKind} {n page : Nat} (h : s.Takes a v r k n page)
    (temp : Option Int) : regWriteAt a v temp s = s.writeRow a.path r k n page a.off v temp := by
  obtain ⟨⟨hup, hal, hoff, hrow, hpage, hseqr, hwin, hmsix, hpop, hsec, herr⟩, hcode, -, -, -, howner, hcore⟩ := h
  have hb := pageOf_bounds hpage
  have hro : ¬ (r.code = .ro ∨ r.code = .rc) := by rcases hcode with e | e <;> simp [e]
  have hworld : ¬ (0x800000 ≤ a.off ∧ a.off < 0x1000000 ∧ worldOf a.path = .nonSecure) := fun ⟨h1, _, h2⟩ => by
    rw [hseqr h1] at h2; exact absurd h2 (by decide)
  have hsecure : (r.sec && worldOf a.path == .nonSecure) = false := by rcases hsec with e | e <;> simp [e]
  have howns : (isWarden k && worldOf a.path == .nonSecure && s.classSecure k) = false := by
    cases hk : isWarden k
    · rfl
    · rcases howner hk with e | e <;> simp [e]
  have hheld : ¬ (k = .hearth ∧ r.code = .rw ∧ (s.sq.run = .restarting ∨ s.sq.run = .halted)) := fun ⟨hk, _, hr⟩ => by
    simp [hcore hk] at hr
  have hro' : ¬ ((0xC00000 ≤ a.off ∧ a.off < 0x1000000) ∨ (0x400000 ≤ a.off ∧ a.off < 0x500000)) := by omega
  have hcmd : ¬ (0x1000 ≤ a.off ∧ a.off < 0x2000) := by omega
  simp only [regWriteAt, State.writeWord, hup, hal, hoff, hworld, hro', hcmd, hmsix, hpage, hrow, hpop, hsecure, herr, hro, howns, hheld, bne_self_eq_false,
    Bool.not_true, Bool.or_self, Bool.false_eq_true, if_false]

/-- A value without reserved bits is its own defined part. -/
theorem and_mask_of_reserved {v m : Word} (h : v &&& ~~~ m = 0) : v &&& m = v :=
  calc v &&& m = (v &&& m) ||| (v &&& ~~~ m) := by rw [h]; simp
    _ = v := by rw [← BitVec.and_or_distrib_left, BitVec.or_not_self, BitVec.and_allOnes]

/-- A write that the block takes is staged where the register is transactional. -/
theorem writeRow_takes_txn {s : State} {a : Acc} {v : Word} {r : RegRow} {k : PageKind} {n page : Nat} (h : s.Takes a v r k n page)
    (hx : r.txn = true) (temp : Option Int) :
    s.writeRow a.path r k n page a.off v temp = s.stageWrite a.path a.off (s.itemOf a.path r page) v := by
  obtain ⟨-, hcode, hres, hrange, hstate, -, -⟩ := h
  have hv : v &&& r.mask = v := and_mask_of_reserved hres
  have hw1c : r.code ≠ .w1c := by rcases hcode with e | e <;> simp [e]
  simp [State.writeRow, hres, hv, hw1c, hrange, hstate, hx]

/-- A plain register: of the Hearth page but for those whose write acts, or of a tile page. -/
def plainPage (k : PageKind) (o : Nat) : Prop :=
  k = .hearth ∧ [HRT_CMD_CTRL, HRT_NTC_CONS, REC_FREEZE, OBS_FULL_EN, HRT_SQ_HEARTBEAT].contains o = false ∨ k = .tile

/-- A write to a plain register of the Hearth page only sets it. -/
theorem hearthAct_plain {o : Nat} {r : RegRow} (hrow : findRow hearthRows o = some r) (hc : r.code = .rw) (hp : r.perPath = false)
    (ho : [HRT_CMD_CTRL, HRT_NTC_CONS, REC_FREEZE, OBS_FULL_EN, HRT_SQ_HEARTBEAT].contains o = false) (s : State) (p : Path) (v : Word)
    (temp : Option Int) : s.hearthAct p o v temp = (s, true) := by
  have hacts : ∀ x ∈ [HRT_TB_CAPTURE, HRT_CONS_SEL, REC_FLUSH_REQ, REC_ERASE, HRT_SNS_REQ], o ≠ x := fun x hx e => by
    have := hearthActing_not_plain x hx r (e ▸ hrow) hc
    rw [hp] at this; cases this
  simp only [List.mem_cons, List.not_mem_nil, or_false, forall_eq_or_imp, forall_eq] at hacts
  simp only [List.contains_eq_mem, List.mem_cons, List.not_mem_nil, or_false, decide_eq_false_iff_not, not_or] at ho
  obtain ⟨ho1, ho2, ho3, ho4, ho5⟩ := ho
  obtain ⟨ha1, ha2, ha3, ha4, ha5⟩ := hacts
  simp only [State.hearthAct, if_neg, ho1, ho2, ho3, ho4, ho5, ha1, ha2, ha3, ha4, ha5, not_false_eq_true]

/-- A write to a tile page's register that no path has its own copy of only sets it. -/
theorem wardenAct_tile_plain {o : Nat} {r : RegRow} (hrow : findRow tileRows o = some r) (hp : r.perPath = false) (s : State) (p : Path)
    (n : Nat) (v : Word) : s.wardenAct p .tile n o v = (s, v, true) := by
  have ho : o ≠ TWD_JNL_SEL := fun e => by
    have := journalSelect_perPath (e ▸ hrow)
    rw [hp] at this; cases this
  simp only [State.wardenAct, if_neg ho]

/-- A write sets the writable bits of a register that no path has its own copy of. -/
theorem putReg_shared {r : RegRow} (hp : r.perPath = false) (s : State) (p : Path) (page off : Nat) (v : Word) :
    s.putReg p r page off v = s.setReg (itemKey off (s.itemOf p r page)) (written r (s.reg (itemKey off (s.itemOf p r page))) v) := by
  simp [State.putReg, State.getReg, written, hp]

/-- A write that the block takes sets a plain register. -/
theorem writeRow_takes_plain {s : State} {a : Acc} {v : Word} {r : RegRow} {k : PageKind} {n page : Nat} (h : s.Takes a v r k n page)
    (hc : r.code = .rw) (hx : r.txn = false) (hp : r.perPath = false) (hk : plainPage k (a.off - page)) (temp : Option Int) :
    s.writeRow a.path r k n page a.off v temp = s.setReg (itemKey a.off (s.itemOf a.path r page))
      (written r (s.reg (itemKey a.off (s.itemOf a.path r page))) v) := by
  obtain ⟨⟨-, -, -, hrow, hpage, -⟩, -, hres, hrange, hstate, -, -⟩ := h
  have hv : v &&& r.mask = v := and_mask_of_reserved hres
  have hfind := findRow_of_rowAt hrow hpage
  rw [← putReg_shared hp]
  rcases hk with ⟨rfl, ho⟩ | rfl
  · simp [State.writeRow, hres, hv, hc, hrange, hstate, hx, isWarden, hearthAct_plain hfind hc hp ho]
  · simp [State.writeRow, hres, hv, hc, hrange, hstate, hx, isWarden, wardenAct_tile_plain hfind hp]

/-! ### Staging -/

@[simp] theorem State.txn_modTxn_self (s : State) (w : World) (f : Txn → Txn) : (s.modTxn w f).txn w = f (s.txn w) := by
  simp [State.txn, State.modTxn]

/-- A bank with an item: at its end, or in place of the write to the same register. -/
def staged (l : List TxnItem) (it : TxnItem) : List TxnItem :=
  if l.any (sameReg it) = true then l.map (fun y => if sameReg it y then it else y) else l ++ [it]

/-- An open transaction without a commit and with room takes the write. -/
theorem stageWrite_open {s : State} {p : Path} (ho : (s.txn (worldOf p)).isOpen = true) (hcm : (s.txn (worldOf p)).commit = none)
    (hl : (s.txn (worldOf p)).items.length < 256) (off item : Nat) (v : Word) :
    s.stageWrite p off item v = s.modTxn (worldOf p) fun x => { x with items := staged x.items (.reg off item v) } := by
  by_cases hs : (s.txn (worldOf p)).items.any (sameReg (.reg off item v)) = true
  · simp [State.stageWrite, State.stage, State.modTxn, staged, ho, hcm, hs]
  · simp [State.stageWrite, State.stage, State.modTxn, staged, ho, hcm, hs, hl]

/-! ### The two clauses -/

@[simp] theorem drawn_pathUp (s : State) (p : Path) : s.drawn.pathUp p = s.pathUp p := rfl
@[simp] theorem drawn_unpopulated (s : State) (k : PageKind) (n o : Nat) : s.drawn.unpopulated k n o = s.unpopulated k n o := rfl
@[simp] theorem drawn_pageError (s : State) (k : PageKind) (n o : Nat) : s.drawn.pageError k n o = s.pageError k n o := rfl
@[simp] theorem drawn_stateRefuses (s : State) (off : Nat) : s.drawn.stateRefuses off = s.stateRefuses off := rfl
@[simp] theorem drawn_itemOf (s : State) (p : Path) (r : RegRow) (page : Nat) : s.drawn.itemOf p r page = s.itemOf p r page := rfl
@[simp] theorem drawn_classSecure (s : State) (k : PageKind) : s.drawn.classSecure k = s.classSecure k := rfl
@[simp] theorem drawn_outOfRange (s : State) (k : PageKind) (o item : Nat) (v : Word) : s.drawn.outOfRange k o item v = s.outOfRange k o item v := rfl
@[simp] theorem drawn_reg (s : State) (k : Nat) : s.drawn.reg k = s.reg k := rfl
@[simp] theorem drawn_txn (s : State) (w : World) : s.drawn.txn w = s.txn w := rfl

/-- A value drawn leaves what a write meets. -/
theorem State.Takes.drawn {s : State} {a : Acc} {v : Word} {r : RegRow} {k : PageKind} {n page : Nat} (h : s.Takes a v r k n page) :
    s.drawn.Takes a v r k n page := by
  simpa only [State.Takes, State.Opens, drawn_pathUp, drawn_unpopulated, drawn_pageError, drawn_stateRefuses, drawn_itemOf, drawn_classSecure,
    drawn_outOfRange, State.drawn_sq] using h

theorem drawn_frame (s : State) : Frame [.free] s s.drawn := fun p hp => by cases p <;> first | rfl | exact absurd (by decide) hp

/-- A write to a plain register sets it. -/
theorem doRegisterWrite_plain {s : State} {a : Acc} {v : Word} {r : RegRow} {k : PageKind} {n page : Nat}
    (h : s.Takes a v r k n page) (hc : r.code = .rw) (hx : r.txn = false) (hp : r.perPath = false) (hk : plainPage k (a.off - page)) :
    doRegisterWrite a v s = s.drawn.setReg (itemKey a.off (s.itemOf a.path r page))
      (written r (s.reg (itemKey a.off (s.itemOf a.path r page))) v) := by
  rw [doRegisterWrite, regWriteAt_takes h.drawn, writeRow_takes_plain h.drawn hc hx hp hk, drawn_itemOf, drawn_reg]

/-- A step that sets one register, after a value was drawn. -/
theorem settle_drawn_setReg {s : State} (hsig : s.Signals) (key : Nat) (x : Word) :
    (settle (s.drawn.setReg key x)).reg key = x ∧ Frame [.regs, .free, .msix, .out] s (settle (s.drawn.setReg key x)) ∧
      RegsBut (fun k => k == key) s (settle (s.drawn.setReg key x)) := by
  refine ⟨by rw [settle_reg, State.reg_setReg_self], ?_, ?_⟩
  · exact Frame.settle (((drawn_frame s).mono).setReg (by decide)) hsig.latch (by decide) (by decide) (by decide) (by decide)
  · have hset : RegsBut (fun k => k == key) s (s.drawn.setReg key x) :=
      (RegsBut.of_regs (State.drawn_regs s)).setReg (f := fun k => k == key) (beq_self_eq_true key)
    exact hset.trans (.of_regs rfl)

theorem registerWrite_sets {s : State} {a : Acc} {v : Word} {r : RegRow} {k : PageKind} {n page : Nat} (hsig : s.Signals)
    (h : s.Takes a v r k n page) (hc : r.code = .rw) (hx : r.txn = false) (hp : r.perPath = false) (hk : plainPage k (a.off - page)) :
    ∃ t, exec (.registerWrite a v) s = .next t ∧
      t.reg (itemKey a.off (s.itemOf a.path r page)) = written r (s.reg (itemKey a.off (s.itemOf a.path r page))) v ∧
      Frame [.regs, .free, .msix, .out] s t ∧ RegsBut (fun k => k == itemKey a.off (s.itemOf a.path r page)) s t := by
  have hexec : exec (.registerWrite a v) s = done (doRegisterWrite a v s) := rfl
  exact ⟨_, hexec.trans (congrArg done (doRegisterWrite_plain h hc hx hp hk)), settle_drawn_setReg hsig _ _⟩

theorem transactionalRegisterWrite_stages {s : State} {a : Acc} {v : Word} {r : RegRow} {k : PageKind} {n page : Nat} (hsig : s.Signals)
    (h : s.Takes a v r k n page) (hx : r.txn = true) (ho : (s.txn (worldOf a.path)).isOpen = true)
    (hcm : (s.txn (worldOf a.path)).commit = none) (hl : (s.txn (worldOf a.path)).items.length < 256) :
    ∃ t, exec (.transactionalRegisterWrite a v) s = .next t ∧
      (t.txn (worldOf a.path)).items = staged (s.txn (worldOf a.path)).items (.reg a.off (s.itemOf a.path r page) v) ∧
      Frame [.txns, .free, .msix, .out] s t := by
  have hw : doRegisterWrite a v s = s.drawn.modTxn (worldOf a.path) fun x =>
      { x with items := staged x.items (.reg a.off (s.itemOf a.path r page) v) } := by
    rw [doRegisterWrite, regWriteAt_takes h.drawn, writeRow_takes_txn h.drawn hx, drawn_itemOf, stageWrite_open (s := s.drawn) ho hcm hl]
  refine ⟨settle (doRegisterWrite a v s), rfl, ?_, Frame.settle ?_ hsig.latch (by decide) (by decide) (by decide) (by decide)⟩
  · change ((doRegisterWrite a v s).txn (worldOf a.path)).items = _
    rw [hw, State.txn_modTxn_self]
    rfl
  · rw [hw]
    exact ((drawn_frame s).mono).modTxn (by decide)

end Sys2Proof.Machine
end

section
/-! PROOFS. Served commands: NOP, an opcode that is none, and operands out of range (R419, R420); register writes settled. -/
namespace Sys2Proof.Machine

-- One theorem at a time: with the joint text's other threads, parallel ones would pass the memory that the check gives.
set_option Elab.async false

/-- A command that reads as served reaches its own chapter in the accepted state: the intake does not look at its operands. -/
theorem intake_served {s : State} {h : Hdr} (hs : s.Serves { h with badOperand := false }) (op : Nat) (i : Instr) (f : Pend → State → State) :
    s.intake h op i f = f ⟨h, op⟩ (s.accepted h) :=
  intake_serves (i := i) (f := fun _ t => f ⟨h, op⟩ t) hs op

/-- A row that carries a host command runs what serves the command in the accepted state, whatever its operands. -/
theorem exec_host_served {s : State} {i : Instr} {h : Hdr} {c : HostCmd} (hi : hostOf i = some (h, c))
    (hs : s.Serves { h with badOperand := false }) : exec i s = done (serveHost c ⟨h, hostOpcode c⟩ (s.accepted h)) := by
  cases i <;> simp only [hostOf, Option.some.injEq, Prod.mk.injEq, reduceCtorEq] at hi
  all_goals
    obtain ⟨rfl, rfl⟩ := hi
    refine congrArg done ((intake_served hs _ _ _).trans ?_)
  case txnItemPortRole | txnItemSliceFilter => simp only [serveHost, accepted_portCount]; rfl
  all_goals rfl

/-- With operator privilege, operands outside their ranges are answered before the command is served (R420). -/
theorem serveAs_badOperand {s : State} {p : Pend} (ho : p.h.operator = true) (hb : p.h.badOperand = true) (b : Bool) (n : Option CtxIx)
    (k : State → State) : s.serveAs p b n k = s.answer p .badOperand 0 [] := by
  simp [State.serveAs, privileged, ho, hb]

/-- So does every command of R419. -/
theorem serveHost_badOperand {c : HostCmd} (hc : ∀ o, c ≠ .bad o) {p : Pend} (ho : p.h.operator = true) (hb : p.h.badOperand = true) (s : State) :
    serveHost c p s = s.answer p .badOperand 0 [] := by
  cases c
  case bad o => exact absurd rfl (hc o)
  all_goals simp only [serveHost, serveNop, serveTxnBegin, serveItem, serveCommit, serveTxnAbort, serveFnEnable, serveFnDisable, serveContextKill,
    serveRemoveAck, serveReset, serveResetChip, serveBoundaryStop, serveBoundaryResume, serveEscRelease, serveSnapshot, serveSnapCopy, serveSnapRelease,
    serveOfdRegister, serveOfdRelease, serveOfdRead, serveScrubDigest, serveOfdVerify, State.requestScrub, serveAnvilRun, serveObsCtxRead, serveWatchSet,
    serveWatchRelease, serveAs_badOperand ho hb]
  case ofdRelease | ofdRead => split <;> rfl

/-! ### The three answers -/

/-- NOP is answered OK (R419). -/
theorem serveHost_nop {p : Pend} (ho : p.h.operator = true) (hb : p.h.badOperand = false) (s : State) :
    serveHost .nop p s = s.answer p .ok 0 [] :=
  serveAs_operator ho hb false none fun t => t.answer p .ok 0 []

/-- An opcode that is no command is answered BAD_OPCODE (R420). -/
theorem serveHost_bad (o : BitVec 16) (p : Pend) (s : State) : serveHost (.bad o) p s = s.answer p .badOpcode 0 [] := rfl

/-- A command that its chapter only answers completes so, and does nothing else. -/
theorem exec_answered {s : State} {i : Instr} {h : Hdr} {c : HostCmd} {st : Status} (hsig : s.Signals) (hi : hostOf i = some (h, c))
    (hs : s.Serves { h with badOperand := false })
    (hc : serveHost c ⟨h, hostOpcode c⟩ (s.accepted h) = (s.accepted h).answer ⟨h, hostOpcode c⟩ st 0 []) :
    ∃ t, exec i s = .next t ∧ Answered s t h (hostOpcode c) st [] ∧ Frame [.regs, .msix, .cmp, .out] s t ∧ RegsBut commandReg s t :=
  ⟨_, (exec_host_served hi hs).trans (congrArg done hc), command_completes (.refl _ _) (accepted_regs s h) (fun _ hp => hp)
    (congrArg HostIf.epoch (accepted_frame s h .host (by decide))) hsig (by decide) (by decide)⟩

theorem State.Serves.operandsGood {s : State} {h : Hdr} (hs : s.Serves h) : h.badOperand = false := hs.2.1

/-- Operands in range change nothing in how a command is served. -/
theorem State.Serves.inRange {s : State} {h : Hdr} (hs : s.Serves h) : s.Serves { h with badOperand := false } := ⟨hs.1, rfl, hs.2.2⟩

/-- Settles O47: a write that the block takes reaches its row, and the three answers leave the accepted state. -/
theorem registerWrites : Obligations.RegisterWrites := by
  refine ⟨fun s a v r k n page => registerWrite_sets, fun s a v r k n page => transactionalRegisterWrite_stages, ?nop, ?opcode, ?operand⟩
  case nop =>
    intro s h hsig hs ho
    exact exec_answered hsig rfl hs.inRange (serveHost_nop ho hs.operandsGood _)
  case opcode =>
    intro s h o hsig hs
    exact exec_answered hsig rfl hs.inRange (serveHost_bad _ _ _)
  case operand =>
    intro s i h c hsig hi hb hs ho hc
    exact exec_answered hsig hi hs (serveHost_badOperand hc ho hb _)

end Sys2Proof.Machine
end

section
/-! PROOFS. Steps and the core's watchdog: what a step executes (R411, R414), and the lines that a halt of the core asserts (R30, R73). -/
namespace Sys2Proof.Machine

-- One theorem at a time: with the joint text's other threads, parallel ones would pass the memory that the check gives.
set_option Elab.async false

/-! ### Steps -/

/-- The meaning of every command ends with `settle`. -/
theorem exec_settles (c : Instr) (s : State) : ∃ u, exec c s = .next (settle u) := by
  cases c <;> exact ⟨_, rfl⟩

theorem step_front {c : Instr} {rest : List Instr} {s : State} (h : s.pending = c :: rest) : step s = exec c { s with pending := rest } := by
  rw [step, h]

/-- Settles O55: a step unfolds to the front of the queue, and every row of the dispatch is settled into a next state. -/
theorem stepServesTheFront : Obligations.StepServesTheFront := by
  refine ⟨fun c rest s h => step_front h, fun c s => ?_⟩
  obtain ⟨u, hu⟩ := exec_settles c s
  exact ⟨settle u, hu⟩

/-! ### Lines asserted -/

/-- Latching stop instants moves them and HRT_SMEAR, and draws the free values of the arrivals. -/
theorem latchStops_frame (s : State) (n : BitVec 41) : Frame [.free, .hl, .regs] s (s.latchStops n) := by
  unfold State.latchStops
  refine .ite (.refl _ s) (Frame.setNat ?_ (by decide))
  exact fun p hp => by cases p <;> first | rfl | exact absurd (by decide) hp

theorem latchStops_lines (s : State) (n : BitVec 41) : (s.latchStops n).hl.stop = s.hl.stop ∧ (s.latchStops n).hl.trip = s.hl.trip := by
  unfold State.latchStops
  split <;> exact ⟨rfl, rfl⟩

theorem assertStop_frame (s : State) (m : BitVec 41) : Frame [.test, .free, .hl, .regs] s (s.assertStop m) :=
  ((modTest_frame s _).mono.trans (latchStops_frame _ _).mono).modHl (by decide)

theorem assertKill_frame (s : State) (m : BitVec 41) : Frame [.hl] s (s.assertKill m) := modHl_frame s _

/-- A line asserted wherever neither it nor a second one stands leaves nothing of its reach without both. -/
theorem reach_covered (r a b : BitVec 41) : r &&& ~~~ (a ||| r &&& r &&& ~~~ (a ||| b) ||| b) = 0 := by
  have h : ∀ x y z : Bool, (x && !(y || x && x && !(y || z) || z)) = false := by decide
  ext i hi
  simpa only [BitVec.getElem_and, BitVec.getElem_or, BitVec.getElem_not, BitVec.ofNat_eq_ofNat, BitVec.getElem_zero] using h _ _ _

theorem mask_covered (k m : BitVec 41) : (k ||| m &&& m) &&& m = m := by
  have h : ∀ x y : Bool, ((x || y && y) && y) = y := by decide
  ext i hi
  simpa only [BitVec.getElem_and, BitVec.getElem_or] using h _ _

/-- STOP asserted on every domain that it reaches misses only those that TRIP holds (R73). -/
theorem assertStop_covers (s : State) :
    s.stopReach &&& ~~~ ((s.assertStop s.stopReach).hl.stop ||| (s.assertStop s.stopReach).hl.trip) = 0 := by
  obtain ⟨hs, ht⟩ := latchStops_lines (s.stopTests (s.stopReach &&& s.stopReach &&& ~~~ (s.hl.stop ||| s.hl.trip)))
    (s.stopReach &&& s.stopReach &&& ~~~ (s.hl.stop ||| s.hl.trip))
  simp only [State.assertStop, State.modHl_hl, hs, ht]
  exact reach_covered s.stopReach s.hl.stop s.hl.trip

theorem assertKill_covers (s : State) : (s.assertKill computeDomains).hl.kill &&& computeDomains = computeDomains :=
  mask_covered s.hl.kill computeDomains

/-! ### The halt of the core (R30) -/

/-- The state in which a halt asserts its lines: the core is halted, and that is recorded. -/
def State.halting (s : State) (cause : Nat) : State :=
  (s.modSq fun q => { q with run := .halted, haltSecond := decide (cause = 1) }).emitSq ⟨5, 0, cause, 0x0002, []⟩

theorem halt_eq (s : State) (cause : Nat) : s.halt cause =
    (((((s.halting cause).assertStop (s.halting cause).stopReach).assertKill computeDomains).askFlush .forced).setPkg .safe).endPass := rfl

theorem halting_frame (s : State) (cause : Nat) : Frame [.regs, .msix, .recd, .subs, .i3c, .obs, .out, .sq] s (s.halting cause) :=
  (modSq_frame s _).mono.emitSq (by decide)

theorem halting_stopReach (s : State) (cause : Nat) : (s.halting cause).stopReach = s.stopReach := by
  have hf : (s.halting cause).fused = s.fused := halting_frame s cause .fused (by decide)
  simp only [State.stopReach, State.allDomains, hf]

/-- What a halt does once the core is halted leaves the sequencer. -/
theorem halt_after (s : State) (cause : Nat) :
    Frame [.regs, .msix, .recd, .subs, .i3c, .out, .test, .free, .hl, .bu] (s.halting cause) (s.halt cause) :=
  ((((assertStop_frame _ _).mono.trans (assertKill_frame _ _).mono).askFlush (by decide)).setPkg (by decide)).modRec (by decide)

theorem halt_frame (s : State) (cause : Nat) :
    Frame [.regs, .msix, .recd, .subs, .i3c, .obs, .out, .sq, .test, .free, .hl, .bu] s (s.halt cause) :=
  (halting_frame s cause).mono.trans (halt_after s cause).mono

theorem halt_run (s : State) (cause : Nat) : (s.halt cause).sq.run = .halted := by
  have hs : (s.halt cause).sq = (s.halting cause).sq := halt_after s cause .sq (by decide)
  rw [hs, State.halting, State.emitSq_sq, State.modSq_sq]

theorem halt_pkg (s : State) (cause : Nat) : (s.halt cause).bu.pkg = .safe := by
  rw [halt_eq, State.endPass, State.modRec_bu, setPkg_bu]

theorem halt_hl (s : State) (cause : Nat) :
    (s.halt cause).hl = (((s.halting cause).assertStop (s.halting cause).stopReach).assertKill computeDomains).hl := by
  rw [halt_eq, State.endPass, State.modRec_hl, State.setPkg_hl, State.askFlush_hl]

/-- A halt holds every compute region under KILL and every domain that STOP reaches under STOP or TRIP. -/
theorem halt_lines (s : State) (cause : Nat) : (s.halt cause).hl.kill &&& computeDomains = computeDomains ∧
    s.stopReach &&& ~~~ ((s.halt cause).hl.stop ||| (s.halt cause).hl.trip) = 0 := by
  rw [halt_hl, ← halting_stopReach s cause]
  exact ⟨assertKill_covers _, assertStop_covers _⟩

/-- A second expiry within 60 s, or a bad image digest, halts a running core. -/
theorem doCoreWatchdogExpiry_halts {s : State} {ok : Bool} (hr : s.sq.run = .running) (h : s.secondExpiry = true ∨ ok = false) :
    ∃ cause, doCoreWatchdogExpiry ok s = s.halt cause := by
  unfold doCoreWatchdogExpiry
  rw [if_neg (by simp [hr])]
  split
  · exact ⟨1, rfl⟩
  · next hs => exact ⟨0, by simp [h.resolve_left hs]⟩

theorem doCoreWatchdogExpiry_idle {s : State} {ok : Bool} (hr : s.sq.run ≠ .running) : doCoreWatchdogExpiry ok s = s := if_pos hr

/-- Settles O9: the expiry is a halt, whose lines cover their reach and whose frame holds the floor plan, the functions and the transactions. -/
theorem coreHalt : Obligations.CoreHalt := by
  refine ⟨fun s ok hr h => ?_, fun s ok hr => congrArg done (doCoreWatchdogExpiry_idle hr)⟩
  obtain ⟨cause, hc⟩ := doCoreWatchdogExpiry_halts hr h
  have hexec : exec (.coreWatchdogExpiry ok) s = .next (settle (s.halt cause)) := congrArg done hc
  have hframe := halt_frame s cause
  obtain ⟨hkill, hstop⟩ := halt_lines s cause
  exact ⟨_, hexec, halt_run s cause, halt_pkg s cause, hkill, hstop, hframe .plan (by decide), hframe .fns (by decide),
    hframe .txns (by decide)⟩

end Sys2Proof.Machine
end

section
/-! PROOFS. Where four statements leave no room for what the model does: an apply that a restarted core finishes (R439), the stage that the loss of REFCLK
fails (R27, R288), the header of the recorder at the loss of standby power (R354), and a latch report that a full queue displaces (R29). -/
namespace Sys2Proof.Machine

-- One theorem at a time: with the joint text's other threads, parallel ones would pass the memory that the check gives.
set_option Elab.async false

/-! ### The end of a core restart (R439) -/

/-- The core restarts in the midst of an apply, no transaction being open. -/
def applyBegun : State :=
  { State.reset with
    pw := { State.reset.pw with standby := true, mainGood := true }
    sq := { State.reset.sq with run := .restarting }
    txns := [(World.num .nonSecure, { State.reset.txn .nonSecure with ident := 1, applying := true })] }

theorem applyBegun_signals : applyBegun.Signals := by unfold State.Signals; decide

theorem applyBegun_closed (w : World) : (applyBegun.txn w).isOpen = false := by cases w <;> decide

/-- No agent of it has a queue, or dropped a report. -/
theorem applyBegun_noDrops (a : AgentIx) : (applyBegun.agent a).dropsInRestart = 0 := rfl

theorem hearthRestartComplete_endsApply : ((doHearthRestartComplete applyBegun).txn .nonSecure).applying = false := by decide

/-- Refutes O8: a restarted core finishes an apply that it finds begun before anything else, which moves transactions; the frame of the second clause
leaves no room for it, and no premise of that clause rules it out. -/
theorem not_coreRestart : ¬ Obligations.CoreRestart := by
  rintro ⟨-, hcomplete, -⟩
  obtain ⟨t, ht, -, -, -, hframe⟩ :=
    hcomplete applyBegun applyBegun_signals rfl rfl rfl rfl rfl applyBegun_closed applyBegun_noDrops rfl
  obtain rfl : settle (doHearthRestartComplete applyBegun) = t := Host.Outcome.next.inj ht
  have htxns : (doHearthRestartComplete applyBegun).txns = applyBegun.txns := hframe .txns (by decide)
  have hended := hearthRestartComplete_endsApply
  rw [State.txn, htxns] at hended
  exact absurd hended (by decide)

/-! ### The loss of REFCLK (R27, R288) -/

/-- Whether a stage is open depends on power, bring-up, the lines, the thermal watch and the core. -/
theorem stageOpen_of_frame {l : List Part} {s t : State} (h : Frame l s t)
    (hl : ∀ p ∈ ([.pw, .bu, .hl, .thm, .sq] : List Part), p ∉ l) (n : Nat) : t.stageOpen n = s.stageOpen n := by
  have hpw : t.pw = s.pw := h .pw (hl _ (by decide))
  have hbu : t.bu = s.bu := h .bu (hl _ (by decide))
  have hhl : t.hl = s.hl := h .hl (hl _ (by decide))
  have hthm : t.thm = s.thm := h .thm (hl _ (by decide))
  have hsq : t.sq = s.sq := h .sq (hl _ (by decide))
  simp only [State.stageOpen, State.stageAllowed, hpw, hbu, hhl, hthm, hsq]

/-- The loss of REFCLK, counted and reported. -/
def State.refclkLost (s : State) : State :=
  ({ s with time := { s.time with refclk := false, losses := satAdd 16 s.time.losses 1 } }.ibi 3 0).event (.state s.bu.pkg s.bu.stage)

theorem refclkLost_frame (s : State) : Frame [.time, .regs, .msix, .recd, .subs, .i3c, .out] s s.refclkLost := by
  refine Frame.event (Frame.ibi ?_ (by decide)) (by decide)
  exact fun p hp => by cases p <;> first | rfl | exact absurd (by decide) hp

theorem doRefclkLoss_eq {s : State} (h : s.time.refclk = true) : doRefclkLoss s =
    if s.refclkLost.stageOpen 3 && s.refclkLost.pw.domOn != 0 then s.refclkLost.stageFail ⟨5, 0, 0, 0x070C, []⟩ else s.refclkLost := if_pos h

/-- It fails a stage 3 that has begun to power domains. -/
theorem doRefclkLoss_fails_stage3 {s : State} (h : s.time.refclk = true) (ho : s.stageOpen 3 = true) (hd : (s.pw.domOn != 0) = true) :
    (doRefclkLoss s).bu.failed = true := by
  have hpw : s.refclkLost.pw = s.pw := refclkLost_frame s .pw (by decide)
  rw [doRefclkLoss_eq h, if_pos]
  · exact (stageFail_failed _ _).1
  · rw [stageOpen_of_frame (refclkLost_frame s) (by decide), hpw, ho, hd]
    rfl

/-- Stage 3 has started the anchor main domain. -/
def poweringDomains : State :=
  { State.reset with
    pw := { State.reset.pw with standby := true, mainGood := true, domOn := domMask [40] }
    sq := { State.reset.sq with run := .running }
    bu := { stage := 3 } }

theorem poweringDomains_signals : poweringDomains.Signals := by unfold State.Signals; decide

theorem refclkLoss_fails_poweringDomains : (doRefclkLoss poweringDomains).bu.failed = true :=
  doRefclkLoss_fails_stage3 rfl (by decide) (by decide)

/-- Refutes O10: without REFCLK bring-up does not pass stage 3, so the loss fails a stage 3 under way, which the frame of the first clause leaves no
room for. -/
theorem not_timeBaseAndHeartbeat : ¬ Obligations.TimeBaseAndHeartbeat := by
  rintro ⟨hloss, -⟩
  obtain ⟨t, ht, -, -, -, hframe⟩ := hloss poweringDomains poweringDomains_signals rfl
  obtain rfl : settle (doRefclkLoss poweringDomains) = t := Host.Outcome.next.inj ht
  have hbu : (doRefclkLoss poweringDomains).bu = poweringDomains.bu := hframe .bu (by decide)
  have hfailed := refclkLoss_fails_poweringDomains
  rw [hbu] at hfailed
  exact absurd hfailed (by decide)

/-! ### The loss of standby power (R43, R354) -/

/-- The header as the recorder works with it is lost; what the MRAM holds of it are its two copies. -/
theorem powerOff_hdr (s : State) : s.powerOff.recd.hdr = State.reset.recd.hdr := by
  change s.recorderOff.hdr = _
  unfold State.recorderOff
  dsimp only
  split <;> rfl

/-- Standby power is good for the first time: the header counts one power cycle. -/
def firstCycle : State :=
  { State.reset with
    pw := { State.reset.pw with standby := true }
    recd := { State.reset.recd with hdr := { State.reset.recd.hdr with cycles := 1 }, cycles := 1, passOpen := true } }

/-- Refutes O39: the loss of standby power brings the recorder's working header back to its reset value, where the third clause has it stand. -/
theorem not_standbyAndBoot : ¬ Obligations.StandbyAndBoot := by
  rintro ⟨-, -, hloss, -⟩
  obtain ⟨t, ht, -, -, -, -, -, hhdr, -⟩ := hloss firstCycle
  obtain rfl : settle firstCycle.powerOff = t := Host.Outcome.next.inj ht
  rw [settle_recd, powerOff_hdr] at hhdr
  exact absurd hhdr (by decide)

/-! ### A full report queue (R29) -/

/-- The warden of stack 0. -/
def queueAgent : AgentIx := State.reset.stackAgent 0

/-- Stack 0 reports one latch of handle 1, which context 0 waits for, and a path parity fault fifteen times; nothing is sent yet. -/
def fullQueue : State :=
  { State.reset with
    agents := [(agentKey queueAgent,
      { queue := ⟨.latch 0 1 7 ⟨0, 0⟩ 0 0 0, 0, .unsent, 0⟩ :: List.replicate 15 ⟨.pathParity 0 0, 0, .unsent, 0⟩ })]
    ofd := { handles := [(1, { d := ⟨0, ⟨0, 0⟩, 0, 0, 0⟩ })], latches := [⟨0, 7, [], [(1, 1)]⟩] } }

theorem fullQueue_signals : fullQueue.Signals := by unfold State.Signals; decide

/-- One more fault displaces the latch report, and the context no longer waits for it. -/
theorem reportDropped_latch_due :
    (doReportDropped queueAgent (.pathParity 0 0) fullQueue).ofd.latches = [⟨0, 7, [], [(1, 0)]⟩] := by decide

/-- Refutes O44: a report that meets a full queue may displace a latch report, which is then not waited for; the frame of the second clause leaves the
digests no room to move. -/
theorem not_bellowsReports : ¬ Obligations.BellowsReports := by
  rintro ⟨-, hdropped, -⟩
  obtain ⟨t, ht, -, hframe, -⟩ := hdropped fullQueue queueAgent (.pathParity 0 0) fullQueue_signals (by decide)
  obtain rfl : settle (doReportDropped queueAgent (.pathParity 0 0) fullQueue) = t := Host.Outcome.next.inj ht
  have hofd : (doReportDropped queueAgent (.pathParity 0 0) fullQueue).ofd = fullQueue.ofd := hframe .ofd (by decide)
  have hdue := reportDropped_latch_due
  rw [hofd] at hdue
  exact absurd hdue (by decide)

end Sys2Proof.Machine
end

section
/-! PROOFS. One period of the grid on an empty queue (R27, R76, R376): what each tile counts, and that nothing else moves. -/
namespace Sys2Proof.Machine

-- One theorem at a time: with the joint text's other threads, parallel ones would pass the memory that the check gives.
set_option Elab.async false

theorem Frame.when {l : List Part} {f : State → State} {s : State} {b : Bool} (h : Frame l s (f s)) : Frame l s (s.when b f) := by
  cases b
  · exact .refl l s
  · exact h

/-! ### What a tile counts in a period -/

theorem count48_frame (s : State) (lo hi n : Nat) : Frame [.regs, .tiles] s (s.count48 lo hi n) := by
  unfold State.count48
  exact .ite (.refl _ s) (add64_frame s lo hi n 48).mono

theorem countCtx_frame (s : State) (t : TileIx) (c : CtxIx) (k n : Nat) : Frame [.regs, .tiles] s (s.countCtx t c k n) :=
  count48_frame s _ _ n

theorem countWdog_frame (s : State) (t : TileIx) (n : Nat) : Frame [.regs, .tiles] s (s.countWdog t n) := by
  unfold State.countWdog
  exact (modTile_frame s t _).mono.setFld (by decide)

theorem countCycles_frame (s : State) (t : TileIx) (full : Bool) (stalls : Tab Nat) :
    Frame [.regs, .tiles] s (s.countCycles t full stalls) := by
  unfold State.countCycles
  exact ((count48_frame s _ _ _).trans (count48_frame _ _ _ _)).trans (.when (.each (fun s _ => count48_frame s _ _ _) _ _))

theorem countCtxStalls_frame (s : State) (t : TileIx) (c : CtxIx) (full : Bool) (stalls : Tab Nat) :
    Frame [.regs, .tiles] s (s.when full fun s => s.each stalls fun s x => s.countCtx t c (2 + x.1) x.2) :=
  .when (.each (fun s _ => countCtx_frame s _ _ _ _) _ _)

theorem countWork_frame (s : State) (t : TileIx) (e : JEntry) (stalls : Tab Nat) : Frame [.regs, .tiles] s (s.countWork t e stalls) := by
  unfold State.countWork
  refine (countCycles_frame s t e.full stalls).trans (.when ?_)
  exact ((countCtx_frame _ t _ 0 _).trans (countCtx_frame _ t _ 1 _)).trans (countCtxStalls_frame _ t _ _ _)

theorem countRunning_frame (s : State) (t : TileIx) (e : JEntry) (stalls : Tab Nat) : Frame [.regs, .tiles] s (s.countRunning t e stalls) :=
  (countWork_frame s t e stalls).trans (countWdog_frame _ t _)

theorem countHold_frame (s : State) (t : TileIx) (c : CtxIx) (stalls : Tab Nat) : Frame [.regs, .tiles] s (s.countHold t c stalls) :=
  ((countCycles_frame s t _ stalls).trans (countCtx_frame _ t c 1 _)).trans (countCtxStalls_frame _ t c _ _)

theorem countObsWait_frame (s : State) (t : TileIx) : Frame [.regs, .tiles] s (s.countObsWait t) :=
  .when (bump_frame s _ _).mono

theorem countTile_frame (s : State) (t : TileIx) : Frame [.regs, .tiles] s (s.countTile t) := by
  have hpaid : Frame [.regs, .tiles] s (s.when ((s.tile t).retryOwed != 0) fun s => s.modTile t fun x => { x with retryOwed := 0 }) :=
    .when (modTile_frame s t _).mono
  unfold State.countTile
  refine .ite (.refl _ s) ?_
  dsimp only
  split
  · exact (hpaid.trans (countRunning_frame _ t _ _)).trans (countObsWait_frame _ t)
  · exact (hpaid.trans (countCycles_frame _ t _ _)).trans (countObsWait_frame _ t)
  · exact hpaid.trans (countWork_frame _ t _ _)
  · exact hpaid.trans (countHold_frame _ t _ _)
  · exact hpaid.trans (count48_frame _ _ _ _)

/-! ### The period -/

/-- A period with standby power and REFCLK advances the time base; beside it the tiles count, and the swallowed cycles. -/
theorem doGridPeriod_frame (s : State) : Frame [.regs, .time, .thm, .tiles, .free] s (doGridPeriod s) := by
  unfold doGridPeriod
  refine .ite (.refl _ s) ?_
  refine Frame.trans ?_ (((Frame.each countTile_frame _ _).mono).trans (drawn_frame _).mono)
  exact fun p hp => by cases p <;> first | rfl | exact absurd (by decide) hp

theorem doGridPeriod_tb {s : State} (hs : s.pw.standby = true) (hr : s.time.refclk = true) :
    (doGridPeriod s).time.tb = s.time.tb + 640 := by
  unfold doGridPeriod
  rw [if_neg (by simp [hs, hr])]
  have hcount : ∀ u : State, (u.each (List.finRange 144) State.countTile).drawn.time = u.time := fun u =>
    (drawn_frame _ .time (by decide)).trans (Frame.each countTile_frame _ u .time (by decide))
  rw [hcount]

theorem step_idle {s : State} (h : s.pending = []) : step s = .next (settle (doGridPeriod s)) := by rw [step, h]; rfl

/-- Settles O11: the period's frame, and the guard that lets no period pass without standby power or REFCLK. -/
theorem idlePeriod : Obligations.IdlePeriod := by
  refine ⟨fun s hsig hp hs hr => ⟨_, step_idle hp, doGridPeriod_tb hs hr, ?_, ?_⟩, fun s hp hoff => ?_⟩
  · exact (doGridPeriod_frame s .pending (by decide)).trans hp
  · exact Frame.settle (doGridPeriod_frame s).mono hsig.latch (by decide) (by decide) (by decide) (by decide)
  · have hidle : doGridPeriod s = s := if_pos (by rcases hoff with h | h <;> simp [h])
    rw [step_idle hp, hidle]

end Sys2Proof.Machine
end

section
/-! PROOFS. A write that a warden takes with reserved bits set (R18): it writes the defined bits, and it is an access error besides. -/
namespace Sys2Proof.Machine

-- One theorem at a time: with the joint text's other threads, parallel ones would pass the memory that the check gives.
set_option Elab.async false

/-- The row of TWD_QSEL in the page of tile 0. -/
def queueSelect : RegRow × PageKind × Nat × Nat :=
  (⟨TWD_QSEL, 1, 4, .rw, false, 0, 0xFF, 0, false, none, false, .none⟩, .tile, 0, 0x100000)

/-- The Hearth writes 3 to TWD_QSEL of tile 0 under its own path, with a reserved bit set. -/
def reservedWrite : Env := envFor (tileAgent 0) 3 0x02 ((TWD_QSEL % 4096 + 2 ^ 12) :: flits 2 0x103) 2

theorem srvBus_signals : srvBus.Signals := by unfold State.Signals; decide

theorem reservedWrite_reaches :
    srvBus.Reaches reservedWrite 3 (srvBus.levelAt reservedWrite.dst) 0x02 ((TWD_QSEL % 4096 + (1 : Fin 4).val * 2 ^ 12) :: flits 2 (0x103 : Word).toNat) := by
  unfold State.Reaches; decide +kernel

theorem reservedWrite_row : srvBus.agentRow reservedWrite.dst TWD_QSEL = some queueSelect := by decide +kernel

/-- The write with a reserved bit is counted as an access error. -/
theorem reservedWrite_accessError : (doRegWrite reservedWrite TWD_QSEL 1 0x103 srvBus).reg HRT_ACCESS_ERR = 1 := by decide +kernel

/-- HRT_ACCESS_ERR is not the register written. -/
theorem reservedWrite_elsewhere :
    (HRT_ACCESS_ERR == itemKey (0x100000 + TWD_QSEL) (srvBus.itemOf .core queueSelect.1 0x100000)) = false := by decide

/-- Refutes O43: a write to reserved bits is an access error, which HRT_ACCESS_ERR counts (R18, R480); the second clause leaves every register but the
written one as it was, and no premise of it keeps reserved bits clear. -/
theorem not_bellowsRequests : ¬ Obligations.BellowsRequests := by
  rintro ⟨-, hwrite, -⟩
  obtain ⟨t, ht, -, -, -, hregs⟩ := hwrite srvBus reservedWrite TWD_QSEL 1 0x103 queueSelect.1 0 0x100000 .core srvBus_signals reservedWrite_reaches
    reservedWrite_row rfl rfl rfl (by decide) (by decide)
  obtain rfl : settle (doRegWrite reservedWrite TWD_QSEL 1 0x103 srvBus) = t := Host.Outcome.next.inj ht
  have hcount := hregs HRT_ACCESS_ERR reservedWrite_elsewhere
  rw [settle_reg, reservedWrite_accessError] at hcount
  exact absurd hcount (by decide)

end Sys2Proof.Machine
end

section
/-! PROOFS. Reads after writes: agents by their keys, counters of 64 bits, fields, and what one of many updates does to what it alone moves. -/
namespace Sys2Proof.Machine

-- One theorem at a time: with the joint text's other threads, parallel ones would pass the memory that the check gives.
set_option Elab.async false

/-! ### Agents -/

theorem agentKey_injective {a b : AgentIx} (h : agentKey a = agentKey b) : a = b := by
  obtain ⟨⟨d, hd⟩, ⟨k, hk⟩⟩ := a
  obtain ⟨⟨e, he⟩, ⟨j, hj⟩⟩ := b
  simp only [agentKey] at h
  obtain rfl : d = e := by omega
  obtain rfl : k = j := by omega
  rfl

@[simp] theorem agent_setAgent_self (s : State) (a : AgentIx) (x : Agent) : (s.setAgent a x).agent a = x := tget_tput_self _ _ _ _

theorem agent_setAgent_ne (s : State) {a b : AgentIx} (x : Agent) (h : b ≠ a) : (s.setAgent a x).agent b = s.agent b :=
  tget_tput_ne _ _ _ fun e => h (agentKey_injective e)

@[simp] theorem agent_modAgent_self (s : State) (a : AgentIx) (f : Agent → Agent) : (s.modAgent a f).agent a = f (s.agent a) :=
  agent_setAgent_self s a _

theorem agent_modAgent_ne (s : State) {a b : AgentIx} (f : Agent → Agent) (h : b ≠ a) : (s.modAgent a f).agent b = s.agent b :=
  agent_setAgent_ne s _ h

/-- An agent depends on the agents alone. -/
theorem agent_congr {s t : State} (h : t.agents = s.agents) (a : AgentIx) : t.agent a = s.agent a := by rw [State.agent, State.agent, h]

@[simp] theorem agent_setReg (s : State) (k : Nat) (v : Word) (a : AgentIx) : (s.setReg k v).agent a = s.agent a :=
  agent_congr (s.setReg_agents k v) a
@[simp] theorem agent_setFld (s : State) (k hi lo x : Nat) (a : AgentIx) : (s.setFld k hi lo x).agent a = s.agent a :=
  agent_congr (s.setFld_agents k hi lo x) a
@[simp] theorem agent_bump (s : State) (k n : Nat) (a : AgentIx) : (s.bump k n).agent a = s.agent a :=
  agent_congr (s.bump_agents k n) a
@[simp] theorem agent_bumpFld (s : State) (k hi lo n : Nat) (a : AgentIx) : (s.bumpFld k hi lo n).agent a = s.agent a :=
  agent_congr (s.bumpFld_agents k hi lo n) a
@[simp] theorem settle_agent (s : State) (a : AgentIx) : (settle s).agent a = s.agent a := agent_congr (settle_agents s) a

/-- A queue with room takes a report at its end (R29). -/
theorem wardenReport_room {s : State} {a : AgentIx} (h : (s.agent a).queue.length < 16) (r : Rep) :
    s.wardenReport a r = s.modAgent a fun x => { x with queue := x.queue ++ [⟨r, 0, .unsent, 0⟩] } := if_pos h

/-! ### Registers and counters -/

/-- Fields and counters depend on the registers alone. -/
theorem fld_congr {s t : State} (h : t.regs = s.regs) (k hi lo : Nat) : t.fld k hi lo = s.fld k hi lo := by rw [State.fld, State.fld, State.reg_congr h]

theorem reg64_congr {s t : State} (h : t.regs = s.regs) (lo hi : Nat) : t.reg64 lo hi = s.reg64 lo hi := by
  rw [State.reg64, State.reg64, State.reg_congr h, State.reg_congr h]

@[simp] theorem modAgent_reg (s : State) (a : AgentIx) (f : Agent → Agent) (k : Nat) : (s.modAgent a f).reg k = s.reg k :=
  State.reg_congr (s.modAgent_regs a f) k

@[simp] theorem reg_bump_self (s : State) (k n : Nat) : (s.bump k n).reg k = BitVec.ofNat 32 (satAdd 32 (s.reg k).toNat n) :=
  s.reg_setNat_self k _

/-- A 64-bit counter advances and wraps (R20). -/
theorem reg64_add64 (s : State) {lo hi : Nat} (h : lo ≠ hi) (n : Nat) : (s.add64 lo hi n).reg64 lo hi = (s.reg64 lo hi + n) % 2 ^ 64 := by
  simp only [State.add64, State.set64, State.reg64, State.reg_setNat_self, State.reg_setNat_ne _ _ h, BitVec.toNat_ofNat]
  omega

@[simp] theorem modAgent_fld (s : State) (a : AgentIx) (f : Agent → Agent) (k hi lo : Nat) : (s.modAgent a f).fld k hi lo = s.fld k hi lo :=
  fld_congr (s.modAgent_regs a f) k hi lo
@[simp] theorem settle_fld (s : State) (k hi lo : Nat) : (settle s).fld k hi lo = s.fld k hi lo := fld_congr (settle_regs s) k hi lo
@[simp] theorem emitOut_reg64 (s : State) (o : Out) (lo hi : Nat) : (s.emitOut o).reg64 lo hi = s.reg64 lo hi := reg64_congr (s.emitOut_regs o) lo hi
@[simp] theorem settle_reg64 (s : State) (lo hi : Nat) : (settle s).reg64 lo hi = s.reg64 lo hi := reg64_congr (settle_regs s) lo hi

/-! ### One of many updates -/

/-- Of updates in turn, that at `x` alone moves what `view` shows. -/
theorem each_view_once {α β : Type} {view : State → β} {f : State → α → State} {g : β → β} {x : α} (hself : ∀ s, view (f s x) = g (view s))
    (l : List α) : (∀ y ∈ l, y ≠ x → ∀ s, view (f s y) = view s) → l.Nodup → x ∈ l → ∀ s : State, view (s.each l f) = g (view s) := by
  have hnone : ∀ l : List α, (∀ y ∈ l, y ≠ x → ∀ s, view (f s y) = view s) → x ∉ l → ∀ s : State, view (s.each l f) = view s := fun l => by
    induction l with
    | nil => exact fun _ _ s => rfl
    | cons y l ih =>
      intro hl hx s
      obtain ⟨hy, hx'⟩ := not_or.mp fun h => hx (List.mem_cons.mpr h)
      exact (ih (fun z hz => hl z (List.mem_cons_of_mem y hz)) hx' _).trans (hl y List.mem_cons_self (fun e => hy e.symm) s)
  induction l with
  | nil => exact fun _ _ hx => absurd hx List.not_mem_nil
  | cons y l ih =>
    intro hl hnd hx s
    obtain ⟨hy, hnd'⟩ := List.nodup_cons.mp hnd
    have hl' : ∀ z ∈ l, z ≠ x → ∀ s, view (f s z) = view s := fun z hz => hl z (List.mem_cons_of_mem y hz)
    by_cases e : x = y
    · subst e
      exact (hnone l hl' hy _).trans (hself s)
    · exact (ih hl' hnd' ((List.mem_cons.mp hx).resolve_left e) _).trans (by rw [hl y List.mem_cons_self (fun h => e h.symm) s])

end Sys2Proof.Machine
end

section
/-! PROOFS. Routers and warden ports (R52, R64 to R69, R80): messages on their way, ties, dead ports, flit-error samples, resynchronisation. -/
namespace Sys2Proof.Machine

-- One theorem at a time: with the joint text's other threads, parallel ones would pass the memory that the check gives.
set_option Elab.async false

/-! ### The registers of a router -/

theorem portReg_injective {d : DieIx} {o p q : Nat} (h : portReg d o p = portReg d o q) : p = q := by
  unfold portReg itemKey at h; omega

/-- The offset in the page of a router register. -/
theorem portReg_page (d : DieIx) {o : Nat} (ho : o < 0x1000) (p : Nat) : portReg d o p % 0x1000 = o := by
  unfold portReg itemKey dieReg; omega

theorem dieReg_page (d : DieIx) {o : Nat} (ho : o < 0x1000) : dieReg d o % 0x1000 = o := by unfold dieReg; omega

/-- A register of a router's ports is none that recording an event moves. -/
theorem eventReg_portReg (d : DieIx) {o : Nat} (hr : 0x800 ≤ o ∧ o < 0x1000)
    (ho : [TWD_TRACE_DROP, TWD_LC_ERR_LO, TWD_LC_ERR_HI, LWD_TS_DROP].contains o = false) (p : Nat) : eventReg (portReg d o p) = false := by
  have hpage : portReg d o p % 0x1000 = o := portReg_page d hr.2 p
  have hlow : 0x300000 ≤ portReg d o p := by unfold portReg itemKey dieReg; omega
  have hitem : 0x300000 ≤ portReg d o p % 0x1000000 := by
    have := d.isLt
    unfold portReg itemKey dieReg; omega
  have hearth : ∀ {l : List Nat} {k : Nat}, l.all (fun j => decide (j < 0x300000)) = true → 0x300000 ≤ k → l.contains k = false := fun hl hk => by
    simp only [List.contains_eq_mem, decide_eq_false_iff_not]
    exact fun h => by have := decide_eq_true_eq.mp (List.all_eq_true.mp hl _ h); omega
  rw [eventReg, hpage, ho, hearth (by decide) hlow, hearth (by decide) hitem, Bool.and_false, Bool.or_self, Bool.or_self]

/-! ### A message at a router -/

/-- What a router lets by: it works, and the port that the message came on is not in sink mode. -/
def State.admits (s : State) (d : DieIx) (h : Head) : Prop :=
  s.routerUp d = true ∧ (h.port.map fun p => s.portDead d p.val).getD false = false

/-- A whole message for an agent of the die is delivered. -/
theorem forwardOne_here {s : State} {d : DieIx} {h : Head} (ha : s.admits d h) (he : h.error = none) (hb : 2 ≤ h.bodyCount.val)
    (hd : h.destDie.val = d.val) (hx : s.agentExists ⟨d, h.destAgent⟩ = true) :
    s.forwardOne d h = s.emitOut (.deliver ⟨d, h.destAgent⟩ false) := by
  obtain ⟨hup, hport⟩ := ha
  have hbody : ¬ h.bodyCount.val < 2 := by omega
  simp [State.forwardOne, hup, hport, he, hbody, hd, hx]

/-- A whole message for another die goes on. -/
theorem forwardOne_on {s : State} {d : DieIx} {h : Head} (ha : s.admits d h) (he : h.error = none) (hb : 2 ≤ h.bodyCount.val)
    (hlt : h.destDie.val < 25) (hd : h.destDie.val ≠ d.val) : s.forwardOne d h = s.routeOn d h := by
  obtain ⟨hup, hport⟩ := ha
  have hdie : ¬ 25 ≤ h.destDie.val := by omega
  have hbody : ¬ h.bodyCount.val < 2 := by omega
  simp [State.forwardOne, hup, hport, he, hbody, hdie, hd]

/-- The primary entry gives the way of a message marked primary whose port there is live (R66). -/
theorem wayOn_primary {s : State} {d : DieIx} {h : Head} {n p : Nat} (hm : h.alternate = none)
    (hn : s.primaryHop d.val h.destDie.val = some n) (hp : s.portTo d.val n = some p) (hl : s.portDead d p = false) :
    s.wayOn d h = some (p, false) := by
  have hlive : (some p).filter (fun p => !s.portDead d p) = some p := by simp [Option.filter, hl]
  simp [State.wayOn, hm, hn, hp, hlive]

theorem forwardOn_primary (s : State) (d : DieIx) (p : Nat) (aborted : Bool) : s.forwardOn d p false aborted =
    (s.add64 (portReg d BLW_PORT_MSGS_LO p) (portReg d BLW_PORT_MSGS_HI p) 1).emitOut (.forward d (Fin.ofNat 4 p) false aborted) := by
  simp only [State.forwardOn, Bool.false_eq_true, if_false]

theorem routeOn_primary {s : State} {d : DieIx} {h : Head} {n p : Nat} (hm : h.alternate = none)
    (hn : s.primaryHop d.val h.destDie.val = some n) (hp : s.portTo d.val n = some p) (hl : s.portDead d p = false) :
    s.routeOn d h = (s.add64 (portReg d BLW_PORT_MSGS_LO p) (portReg d BLW_PORT_MSGS_HI p) 1).emitOut (.forward d (Fin.ofNat 4 p) false h.error.isSome) := by
  rw [State.routeOn, wayOn_primary hm hn hp hl]
  exact forwardOn_primary s d p _

theorem forwardOn_frame (s : State) (d : DieIx) (p : Nat) (alt aborted : Bool) : Frame [.regs, .out] s (s.forwardOn d p alt aborted) := by
  unfold State.forwardOn
  have h := (add64_frame s (portReg d BLW_PORT_MSGS_LO p) (portReg d BLW_PORT_MSGS_HI p) 1 64).mono (m := [.regs, .out])
  exact Frame.emitOut (.ite (h.bump (by decide)) h) (by decide)

theorem badAgent_frame (s : State) (d : DieIx) (src : AgentIx) : Frame [.regs, .out] s (s.badAgent d src) := (emitOut_frame s _).mono

theorem routeOn_frame (s : State) (d : DieIx) (h : Head) : Frame [.regs, .out] s (s.routeOn d h) := by
  unfold State.routeOn
  split
  · exact forwardOn_frame s d _ _ _
  · exact badAgent_frame s d _

theorem flitError_frame (s : State) (d : DieIx) (p : Option RPort) : Frame [.regs, .out] s (s.flitError d p) := (bump_frame s _ _).mono

theorem forwardOne_frame (s : State) (d : DieIx) (h : Head) : Frame [.regs, .out] s (s.forwardOne d h) := by
  have herr : Frame [.regs, .out] s (if h.error.isSome = true then s.flitError d h.port else s) := .ite (flitError_frame s d _) (.refl _ s)
  unfold State.forwardOne
  refine .ite (.refl _ s) (.ite (bump_frame s _ _).mono (.ite (flitError_frame s d _) (.ite (.ite ?_ ?_) ?_)))
  · exact herr.trans (badAgent_frame _ d _)
  · exact herr.emitOut (by decide)
  · exact herr.trans (routeOn_frame _ d h)

/-! ### Ties (R68) -/

/-- Every register but a router's tie counts. -/
def noTies (k : Nat) : Bool := k % 0x1000 != BLW_PORT_TIES

theorem noTies_portReg (d : DieIx) {o : Nat} (ho : o < 0x1000) (hne : o ≠ BLW_PORT_TIES) (p : Nat) : noTies (portReg d o p) = true := by
  simpa [noTies, portReg_page d ho p] using hne

theorem noTies_ties (d : DieIx) (p : Nat) : noTies (portReg d BLW_PORT_TIES p) = false := by
  simp [noTies, portReg_page d (o := BLW_PORT_TIES) (by decide) p]

theorem forwardOn_regs (s : State) (d : DieIx) (p : Nat) (alt aborted : Bool) : RegsBut noTies s (s.forwardOn d p alt aborted) := by
  unfold State.forwardOn
  have h : RegsBut noTies s (s.add64 (portReg d BLW_PORT_MSGS_LO p) (portReg d BLW_PORT_MSGS_HI p) 1) :=
    (RegsBut.refl _ s).add64 (noTies_portReg d (by decide) (by decide) p) (noTies_portReg d (by decide) (by decide) p)
  have halt : noTies (dieReg d BLW_ROUTE_ALT) = true := by simp [noTies, dieReg_page d (o := BLW_ROUTE_ALT) (by decide)]
  exact RegsBut.trans (.ite (h.bump halt) h) (.of_regs rfl)

theorem routeOn_regs (s : State) (d : DieIx) (h : Head) : RegsBut noTies s (s.routeOn d h) := by
  unfold State.routeOn
  split
  · exact forwardOn_regs s d _ _ _
  · exact .of_regs rfl

theorem flitError_regs (s : State) (d : DieIx) (p : Option RPort) : RegsBut noTies s (s.flitError d p) :=
  (RegsBut.refl _ s).bump (noTies_portReg d (by decide) (by decide) _)

/-- A message passed on leaves the tie counts. -/
theorem forwardOne_regs (s : State) (d : DieIx) (h : Head) : RegsBut noTies s (s.forwardOne d h) := by
  have herr : RegsBut noTies s (if h.error.isSome = true then s.flitError d h.port else s) := .ite (flitError_regs s d _) (.refl _ s)
  unfold State.forwardOne
  refine .ite (.refl _ s) (.ite ((RegsBut.refl _ s).bump (noTies_portReg d (by decide) (by decide) _))
    (.ite (flitError_regs s d _) (.ite (.ite ?_ ?_) ?_)))
  · exact herr.trans (.of_regs rfl)
  · exact herr.trans (.of_regs rfl)
  · exact herr.trans (routeOn_regs _ d h)

theorem countTies_frame (s : State) (d : DieIx) (hs : List Head) : Frame [.regs, .out] s (s.countTies d hs) :=
  .each (fun s _ => .ite (bump_frame s _ _).mono (.refl _ s)) _ _

/-- Of two requests for one output the first grant decides one tie. -/
theorem countTies_pair {s : State} {d : DieIx} {h g : Head} {p : Nat} (hp : p < 5) (hh : s.outputOf d h = some p) (hg : s.outputOf d g = some p) :
    (s.countTies d [h, g]).reg (portReg d BLW_PORT_TIES p) = BitVec.ofNat 32 (satAdd 32 (s.reg (portReg d BLW_PORT_TIES p)).toNat 1) := by
  unfold State.countTies
  refine each_view_once (view := fun u : State => u.reg (portReg d BLW_PORT_TIES p)) (x := p) (g := fun v => BitVec.ofNat 32 (satAdd 32 v.toNat 1))
    (fun u => ?_) _ (fun q _ hq u => ?_) List.nodup_range (List.mem_range.mpr hp) s
  · simp [hh, hg]
  · dsimp only
    split
    · exact u.reg_setNat_ne _ fun e => hq (portReg_injective e).symm
    · rfl

/-- Requests together: their ties are counted, then each is passed on. -/
theorem doRouterForward_pair {s : State} {d : DieIx} (h g : Head) (hup : s.routerUp d = true) :
    doRouterForward d h [g] s =
      ((s.countTies d [h, g]).each (grantRounds s.free 2 [h, g]) fun s h => s.forwardOne d h).drawn := by
  simp [doRouterForward, hup]

theorem doRouterForward_single (s : State) (d : DieIx) (h : Head) : doRouterForward d h [] s = s.forwardOne d h := by simp [doRouterForward]

/-! ### Dead ports (R67) -/

@[simp] theorem settle_portDead (s : State) (d : DieIx) (p : Nat) : (settle s).portDead d p = s.portDead d p := by
  rw [State.portDead, State.portDead, settle_fld]

theorem declareDead_eq {s : State} {d : DieIx} {p : RPort} (hup : s.routerUp d = true) (hw : (s.neighbours d.val)[p.val]? ≠ none)
    (hd : s.portDead d p.val = false) (timeout : Bool) :
    s.declareDead d p timeout = ((s.setFld (portReg d BLW_PORT p.val) 30 29 (2 + bit timeout 0)).bumpFld (portReg d BLW_PORT p.val) 15 0).wardenReport
      (routerAgent d) (.portDead d p timeout) := by
  have hw' : ((s.neighbours d.val)[p.val]? == none) = false := by simpa using hw
  simp only [State.declareDead, hup, hw', hd, Bool.not_true, Bool.or_self, Bool.false_eq_true, if_false]

/-- Setting bits 30 and 29 to 2 or 3 sets bit 30 of a word. -/
theorem field_setSink {v x : Nat} (hv : v < 4294967296) (hx : x = 2 ∨ x = 3) :
    withField v 30 29 x < 4294967296 ∧ field (withField v 30 29 x) 30 30 = 1 := by
  simp only [field, withField, Nat.reduceAdd, Nat.reduceSub, Nat.reducePow]
  omega

/-- Setting the low half of a word leaves bit 30. -/
theorem field_setLow {w : Nat} (hw : w < 4294967296) (c : Nat) : field (withField w 15 0 c % 4294967296) 30 30 = field w 30 30 := by
  simp only [field, withField, Nat.reduceAdd, Nat.reduceSub, Nat.reducePow]
  omega

/-- The sink bit of a port's state stands however its handshakes are counted. -/
theorem sinkBit_stands (s : State) (k x : Nat) (hx : x = 2 ∨ x = 3) : ((s.setFld k 30 29 x).bumpFld k 15 0).fld k 30 30 = 1 := by
  obtain ⟨hlt, hset⟩ := field_setSink (s.reg k).isLt hx
  simp only [State.fld, State.bumpFld, State.setFld, State.reg_setNat_self, BitVec.toNat_ofNat, Nat.reducePow]
  rw [Nat.mod_eq_of_lt hlt, field_setLow hlt, hset]

theorem declareDead_dead {s : State} {d : DieIx} {p : RPort} (hup : s.routerUp d = true) (hw : (s.neighbours d.val)[p.val]? ≠ none)
    (hd : s.portDead d p.val = false) (hq : (s.agent (routerAgent d)).queue.length < 16) (timeout : Bool) :
    (s.declareDead d p timeout).portDead d p.val = true ∧ ((s.declareDead d p timeout).agent (routerAgent d)).queue =
      (s.agent (routerAgent d)).queue ++ [⟨.portDead d p timeout, 0, .unsent, 0⟩] ∧ Frame [.regs, .agents] s (s.declareDead d p timeout) := by
  have hx : 2 + bit timeout 0 = 2 ∨ 2 + bit timeout 0 = 3 := by cases timeout <;> decide
  rw [declareDead_eq hup hw hd, wardenReport_room (by simpa using hq)]
  refine ⟨?_, by simp, (((setFld_frame s _ _ _ _).mono).bumpFld (by decide)).modAgent (by decide)⟩
  rw [State.portDead, modAgent_fld, sinkBit_stands s (portReg d BLW_PORT p.val) _ hx, beq_self_eq_true]

/-! ### Flit-error samples (R64) -/

/-- The ports that are sampled: of every die of the grade, those that R65 wires. -/
def State.sampledPorts (s : State) : List (DieIx × Nat) :=
  ((List.finRange 25).filter s.dieExists).flatMap fun d => (List.range (s.neighbours d.val).length).map fun p => (d, p)

/-- How far a port's count has risen since the last sample. -/
def State.flitRise (s : State) (e : DieIx × Nat) : Nat :=
  let was := tget s.bus.fliterr (e.1.val * 4 + e.2) 0
  let now := (s.reg (portReg e.1 BLW_PORT_FLITERR e.2)).toNat
  if was ≤ now then now - was else now

/-- The Hearth keeps the count of one port. -/
def State.keepSample (s : State) (e : DieIx × Nat) : State :=
  { s with bus := { s.bus with fliterr := tput s.bus.fliterr (e.1.val * 4 + e.2) (s.reg (portReg e.1 BLW_PORT_FLITERR e.2)).toNat } }

/-- The Hearth samples one port, and records a rise above the threshold. -/
def State.samplePort (threshold : Nat) (s : State) (e : DieIx × Nat) : State :=
  if threshold < s.flitRise e then (s.keepSample e).emit ⟨1, 5, e.1.val, 0x0004, [i1 e.2, i4 (s.flitRise e)]⟩ else s.keepSample e

theorem doPortErrorSample_eq {s : State} (hr : s.sq.run = .running) :
    doPortErrorSample s = s.each s.sampledPorts (State.samplePort (s.fld (dieReg s.anchor BLW_PORT_ERR_THRESH) 15 0)) := if_neg (by simp [hr])

theorem keepSample_frame (s : State) (e : DieIx × Nat) : Frame [.bus] s (s.keepSample e) := fun p hp => by
  cases p <;> first | rfl | exact absurd (by decide) hp

theorem samplePort_frame (threshold : Nat) (s : State) (e : DieIx × Nat) :
    Frame [.regs, .msix, .recd, .subs, .i3c, .obs, .out, .bus] s (s.samplePort threshold e) :=
  .ite ((keepSample_frame s e).mono.emit (by decide)) (keepSample_frame s e).mono

/-- A sample moves no count. -/
theorem samplePort_reg (threshold : Nat) (s : State) (e : DieIx × Nat) (d : DieIx) (p : Nat) :
    (s.samplePort threshold e).reg (portReg d BLW_PORT_FLITERR p) = s.reg (portReg d BLW_PORT_FLITERR p) := by
  unfold State.samplePort
  split
  · exact emit_regs _ _ _ (eventReg_portReg d (by decide) (by decide) p)
  · rfl

theorem samplePort_bus (threshold : Nat) (s : State) (e : DieIx × Nat) : (s.samplePort threshold e).bus = (s.keepSample e).bus := by
  unfold State.samplePort
  split
  · exact State.emit_bus _ _
  · rfl

/-- No die has more than four ports (R65). -/
theorem neighbours_length (s : State) (d : DieIx) : (s.neighbours d.val).length ≤ 4 := by
  have hall : ∀ g : Grade, ∀ d : DieIx, (State.neighbours { State.reset with fused := { State.reset.fused with grade := g } } d.val).length ≤ 4 := by
    intro g; cases g <;> decide +kernel
  have hgrade : s.neighbours d.val = State.neighbours { State.reset with fused := { State.reset.fused with grade := s.fused.grade } } d.val := by
    simp only [State.neighbours, State.dieLinks, State.ioDie, State.ioDies, State.anchor]
  rw [hgrade]
  exact hall _ d

theorem mem_sampledPorts {s : State} {d : DieIx} {p : Nat} : (d, p) ∈ s.sampledPorts ↔ s.dieExists d = true ∧ p < (s.neighbours d.val).length := by
  simp [State.sampledPorts]

theorem sampledPorts_nodup (s : State) : s.sampledPorts.Nodup := by
  refine List.nodup_flatMap.mpr ⟨fun d _ => ?_, ?_⟩
  · exact List.nodup_range.map fun p q h => (Prod.mk.inj h).2
  · refine ((List.nodup_finRange 25).filter _).imp fun {d e} hne => ?_
    simp only [Function.onFun, List.disjoint_left, List.mem_map, not_exists, not_and]
    rintro _ ⟨p, -, rfl⟩ q - h
    exact hne (Prod.mk.inj h).1.symm

/-- What a sample keeps of a port, and its count. -/
def State.flitErrors (s : State) (d : DieIx) (p : Nat) : Nat × Nat :=
  (tget s.bus.fliterr (d.val * 4 + p) 0, (s.reg (portReg d BLW_PORT_FLITERR p)).toNat)

/-- After the sample every port's count is the one it showed. -/
theorem doPortErrorSample_takes {s : State} (hr : s.sq.run = .running) {d : DieIx} {p : Nat} (hd : s.dieExists d = true)
    (hp : p < (s.neighbours d.val).length) :
    tget (doPortErrorSample s).bus.fliterr (d.val * 4 + p) 0 = (s.reg (portReg d BLW_PORT_FLITERR p)).toNat := by
  rw [doPortErrorSample_eq hr]
  generalize s.fld (dieReg s.anchor BLW_PORT_ERR_THRESH) 15 0 = thr
  have hview := each_view_once (view := fun u : State => u.flitErrors d p) (f := State.samplePort thr) (x := (d, p)) (g := fun v => (v.2, v.2))
    (fun u => ?_) s.sampledPorts (fun e he hne u => ?_) (sampledPorts_nodup s) (mem_sampledPorts.mpr ⟨hd, hp⟩) s
  · exact congrArg Prod.fst hview
  · simp only [State.flitErrors, samplePort_bus, samplePort_reg, State.keepSample, tget_tput_self]
  · obtain ⟨d', p'⟩ := e
    have hp4 := neighbours_length s d
    have hp4' := neighbours_length s d'
    have hp' := (mem_sampledPorts.mp he).2
    have hkey : d.val * 4 + p ≠ d'.val * 4 + p' := fun h => hne (by
      obtain rfl : d' = d := Fin.ext (by omega)
      rw [show p' = p by omega])
    simp only [State.flitErrors, samplePort_bus, samplePort_reg, State.keepSample, tget_tput_ne _ _ _ hkey]

/-! ### Warden ports (R80) -/

theorem doPortResetSeen_eq {s : State} {a : AgentIx} (hx : s.agentExists a = true) (hh : a ≠ s.hearthAgent) (unread : Nat) :
    doPortResetSeen a unread s =
      (s.modAgent a fun x => { x with resync := true, discard := x.discard + unread, unitQ := 0, unitHeld := none }).bump
        (s.pageBase a + TWD_PORT_DISCARD) unread := by
  have hh' : (a == s.hearthAgent) = false := by simpa using hh
  simp [doPortResetSeen, hx, hh']

/-- A port that resynchronises opens with its counts cleared, and is reported. -/
theorem openPort_eq {s : State} {a : AgentIx} (hx : s.agentExists a = true) (hh : a ≠ s.hearthAgent) (hr : (s.agent a).resync = true)
    (hq : (s.agent a).queue.length < 16) :
    s.openPort a = (((s.modAgent a fun x => { x with resync := false, discard := 0, unitQ := x.unitQ + x.unitWait, unitWait := 0 }).bumpFld
      (s.pageBase a + TWD_PORT_STATE) 15 0).modAgent a fun x =>
        { x with queue := x.queue ++ [⟨.portResync (s.unitOf a).1 (s.unitOf a).2 (s.agent a).discard, 0, .unsent, 0⟩] }) := by
  have hh' : (a == s.hearthAgent) = false := by simpa using hh
  simp only [State.openPort, hx, hh', hr, Bool.not_true, Bool.or_self, Bool.false_eq_true, if_false]
  exact wardenReport_room (by simpa using hq) _

theorem openPort_opens {s : State} {a : AgentIx} (hx : s.agentExists a = true) (hh : a ≠ s.hearthAgent) (hr : (s.agent a).resync = true)
    (hq : (s.agent a).queue.length < 16) : ((s.openPort a).agent a).resync = false ∧ ((s.openPort a).agent a).discard = 0 ∧
      ((s.openPort a).agent a).queue = (s.agent a).queue ++ [⟨.portResync (s.unitOf a).1 (s.unitOf a).2 (s.agent a).discard, 0, .unsent, 0⟩] ∧
      Frame [.regs, .agents] s (s.openPort a) := by
  rw [openPort_eq hx hh hr hq]
  exact ⟨by simp, by simp, by simp, (((modAgent_frame s a _).mono).bumpFld (by decide)).modAgent (by decide)⟩

/-- A lost tile warden that opens its port answers again; what the port has queued and discarded stands (R240). -/
theorem doPortOpen_eq (a : AgentIx) (s : State) : ∃ u : State, doPortOpen a s = u.openPort a ∧ Frame [.agents] s u ∧
    (u.agent a).resync = (s.agent a).resync ∧ (u.agent a).queue = (s.agent a).queue ∧ (u.agent a).discard = (s.agent a).discard := by
  refine ⟨_, rfl, .ite (modAgent_frame s a _) (.refl _ s), ?_⟩
  split <;> simp

/-- The names of agents and of their units depend on the fuses alone. -/
theorem unitNames_of_fused {s t : State} (hf : t.fused = s.fused) (a : AgentIx) :
    t.unitOf a = s.unitOf a ∧ t.agentExists a = s.agentExists a ∧ t.hearthAgent = s.hearthAgent := by
  have names : ∀ u : State, (u.unitOf a, u.agentExists a, u.hearthAgent) =
      (State.unitOf { State.reset with fused := u.fused } a, State.agentExists { State.reset with fused := u.fused } a,
        State.hearthAgent { State.reset with fused := u.fused }) := fun u => rfl
  have := (names t).trans ((hf ▸ rfl : _ = _).trans (names s).symm)
  simpa only [Prod.mk.injEq] using this

theorem Frame.unitNames {l : List Part} {s t : State} (h : Frame l s t) (hl : Part.fused ∉ l) (a : AgentIx) :
    t.unitOf a = s.unitOf a ∧ t.agentExists a = s.agentExists a ∧ t.hearthAgent = s.hearthAgent := unitNames_of_fused (h .fused hl) a

/-! ### The statement -/

/-- Settles O45: each clause from the equation of its operation, whose frame `settle` keeps. -/
theorem bellowsRouters : Obligations.BellowsRouters := by
  have close : ∀ {s t : State} {l : List Part}, s.Signals → Frame l s t → Part.hl ∉ l → Part.pw ∉ l → Part.msix ∈ l → Part.out ∈ l →
      Frame l s (settle t) := fun hsig hf => hf.settle hsig.latch
  refine ⟨fun s d h hsig hup hport he hb hd hx => ?_, fun s d h n p hsig hup hport he hb hlt hd hm hn hp hl => ?_,
    fun s d h g p hsig hup hh hg hp => ?_, fun s d p hsig hup hw hd hq => ⟨?_, fun hr => ?_⟩, fun s hsig hr => ?_,
    fun s a unread hsig hx hh => ?_, fun s a hsig hx hh hr hq => ?_⟩
  case refine_1 =>
    refine ⟨_, rfl, ?_⟩
    rw [doRouterForward_single, forwardOne_here ⟨hup, hport⟩ he hb hd hx]
    exact ⟨settle_out_mem List.mem_cons_self, close hsig (emitOut_frame s _).mono (by decide) (by decide) (by decide) (by decide)⟩
  case refine_2 =>
    refine ⟨_, rfl, ?_⟩
    have hne : portReg d BLW_PORT_MSGS_LO p ≠ portReg d BLW_PORT_MSGS_HI p := by unfold portReg itemKey dieReg; simp
    rw [doRouterForward_single, forwardOne_on ⟨hup, hport⟩ he hb hlt hd, routeOn_primary hm hn hp hl, he]
    refine ⟨settle_out_mem List.mem_cons_self, ?_, close hsig ?_ (by decide) (by decide) (by decide) (by decide)⟩
    · rw [settle_reg64, emitOut_reg64, reg64_add64 s hne]
    · exact (add64_frame s _ _ 1 64).mono.emitOut (by decide)
  case refine_3 =>
    have hpass := Frame.each (fun u h => forwardOne_frame u d h) (grantRounds s.free 2 [h, g]) (s.countTies d [h, g])
    have hregs := RegsBut.foldl (fun u h => forwardOne_regs u d h) (grantRounds s.free 2 [h, g]) (s.countTies d [h, g])
    refine ⟨_, rfl, ?_⟩
    rw [doRouterForward_pair h g hup]
    refine ⟨(hregs _ (noTies_ties d p)).trans (countTies_pair hp hh hg), ?_⟩
    exact close hsig (((countTies_frame s d _).trans hpass).mono.trans (drawn_frame _).mono) (by decide) (by decide) (by decide) (by decide)
  case refine_4 =>
    obtain ⟨hdead, hqueue, hframe⟩ := declareDead_dead hup hw hd hq false
    exact ⟨_, rfl, (settle_portDead _ d p.val).trans hdead, hqueue, close hsig hframe.mono (by decide) (by decide) (by decide) (by decide)⟩
  case refine_5 =>
    obtain ⟨hdead, hqueue, hframe⟩ := declareDead_dead hup hw hd hq true
    have htimed : doHandshakeTimeout d p s = s.declareDead d p true := if_pos hr
    refine ⟨_, rfl, ?_⟩
    rw [htimed]
    exact ⟨(settle_portDead _ d p.val).trans hdead, hqueue, close hsig hframe.mono (by decide) (by decide) (by decide) (by decide)⟩
  case refine_6 =>
    refine ⟨_, rfl, close hsig ?_ (by decide) (by decide) (by decide) (by decide), fun d p hp hd => doPortErrorSample_takes hr hd hp⟩
    rw [doPortErrorSample_eq hr]
    exact .each (samplePort_frame _) _ _
  case refine_7 =>
    refine ⟨_, rfl, ?_⟩
    rw [doPortResetSeen_eq hx hh]
    refine ⟨by simp, by simp, by simp, close hsig (((modAgent_frame s a _).mono).bump (by decide)) (by decide) (by decide) (by decide) (by decide), ?_⟩
    exact ((RegsBut.of_regs rfl).bump (f := fun k => k == s.pageBase a + TWD_PORT_DISCARD) (beq_self_eq_true _)).trans (.of_regs rfl)
  case refine_8 =>
    obtain ⟨u, hu, hframe, hres, hque, hdis⟩ := doPortOpen_eq a s
    obtain ⟨hunit, hexists, hhearth⟩ := hframe.unitNames (by decide) a
    obtain ⟨h1, h2, h3, h4⟩ := openPort_opens (hexists.trans hx) (hhearth ▸ hh) (hres.trans hr) (by rw [hque]; exact hq)
    refine ⟨_, rfl, ?_⟩
    rw [hu]
    refine ⟨h1, h2, ?_, close hsig (hframe.mono.trans h4.mono) (by decide) (by decide) (by decide) (by decide)⟩
    rw [settle_agent, h3, hunit, hque, hdis]

end Sys2Proof.Machine
end

section
/-! PROOFS. Answers stay answered (R416, R424): whatever is recorded, announced or answered afterwards, nothing that has left is taken back and no
cause falls. -/
namespace Sys2Proof.Machine

-- One theorem at a time: with the joint text's other threads, parallel ones would pass the memory that the check gives.
set_option Elab.async false

/-! ### What has been answered -/

/-- Nothing that has left is taken back, the cause of vector 0 stays raised, and the recorder's lock stands. -/
structure Told (s t : State) : Prop where
  out : ∀ o ∈ s.out, o ∈ t.out
  cause : s.causes.getLsbD 0 = true → t.causes.getLsbD 0 = true
  pfLock : t.recd.pfLock = s.recd.pfLock

theorem Told.refl (s : State) : Told s s := ⟨fun _ => id, id, rfl⟩

theorem Told.trans {s t u : State} (h : Told s t) (k : Told t u) : Told s u :=
  ⟨fun o ho => k.out o (h.out o ho), fun hc => k.cause (h.cause hc), k.pfLock.trans h.pfLock⟩

theorem Told.ite {s a b : State} {c : Prop} [Decidable c] (h : Told s a) (k : Told s b) : Told s (if c then a else b) := by split <;> assumption

theorem Told.foldl {α : Type} {f : State → α → State} (h : ∀ s x, Told s (f s x)) (l : List α) (s : State) : Told s (l.foldl f s) := by
  induction l generalizing s with
  | nil => exact .refl s
  | cons x l ih => exact (h s x).trans (ih _)

/-- The causes depend on the registers alone. -/
theorem causes_congr {s t : State} (h : t.regs = s.regs) : t.causes = s.causes := by rw [State.causes, State.causes, State.reg_congr h]

theorem Told.of_frame {l : List Part} {s t : State} (h : Frame l s t) (hl : ∀ p ∈ ([.regs, .out, .recd] : List Part), p ∉ l) : Told s t := by
  have e1 : t.out = s.out := h .out (hl _ (by decide))
  have e2 : t.regs = s.regs := h .regs (hl _ (by decide))
  have e3 : t.recd = s.recd := h .recd (hl _ (by decide))
  exact ⟨fun o ho => e1 ▸ ho, fun hc => causes_congr e2 ▸ hc, by rw [e3]⟩

theorem setReg_told (s : State) {k : Nat} (v : Word) (hk : k ≠ HRT_IRQ_CAUSE) : Told s (s.setReg k v) :=
  ⟨fun _ => id, fun hc => by rwa [State.causes, State.reg_setReg_ne s v (Ne.symm hk)], rfl⟩

/-- The cause register lies in the first page of the Hearth. -/
theorem ne_cause {k : Nat} (h : 0x1000 ≤ k) : k ≠ HRT_IRQ_CAUSE := Nat.ne_of_gt (Nat.lt_of_lt_of_le (by decide) h)

theorem setNat_told (s : State) {k : Nat} (v : Nat) (hk : k ≠ HRT_IRQ_CAUSE) : Told s (s.setNat k v) := setReg_told s _ hk
theorem setFld_told (s : State) {k : Nat} (hi lo x : Nat) (hk : k ≠ HRT_IRQ_CAUSE) : Told s (s.setFld k hi lo x) := setNat_told s _ hk
theorem bump_told (s : State) {k : Nat} (n : Nat) (hk : k ≠ HRT_IRQ_CAUSE) : Told s (s.bump k n) := setNat_told s _ hk
theorem bumpFld_told (s : State) {k : Nat} (hi lo n : Nat) (hk : k ≠ HRT_IRQ_CAUSE) : Told s (s.bumpFld k hi lo n) := setFld_told s hi lo _ hk
theorem set64_told (s : State) {lo hi : Nat} (v : Nat) (hl : lo ≠ HRT_IRQ_CAUSE) (hh : hi ≠ HRT_IRQ_CAUSE) : Told s (s.set64 lo hi v) :=
  (setNat_told s _ hl).trans (setNat_told _ _ hh)
theorem add64_told (s : State) {lo hi : Nat} (n w : Nat) (hl : lo ≠ HRT_IRQ_CAUSE) (hh : hi ≠ HRT_IRQ_CAUSE) : Told s (s.add64 lo hi n w) :=
  set64_told s _ hl hh

theorem modRec_told (s : State) {f : Recorder → Recorder} (hf : (f s.recd).pfLock = s.recd.pfLock) : Told s (s.modRec f) := ⟨fun _ => id, id, hf⟩
theorem emitOut_told (s : State) (o : Out) : Told s (s.emitOut o) := ⟨fun _ => List.mem_cons_of_mem _, id, rfl⟩

/-- A raised cause joins those that stand (R424). -/
theorem irq_told (s : State) (v : Nat) : Told s (s.irq v) := by
  have hraise : s.causes.getLsbD 0 = true →
      (s.setReg HRT_IRQ_CAUSE (s.reg HRT_IRQ_CAUSE ||| BitVec.ofNat 32 (2 ^ v))).causes.getLsbD 0 = true := fun hc => by
    simp only [State.causes, BitVec.getLsbD_setWidth, State.reg_setReg_self, BitVec.getLsbD_or, Bool.and_eq_true, Bool.or_eq_true] at hc ⊢
    exact ⟨hc.1, .inl hc.2⟩
  unfold State.irq
  dsimp only
  split
  · exact .refl s
  · split
    · exact ⟨fun _ => id, hraise, rfl⟩
    · split
      · exact ⟨fun _ => id, hraise, rfl⟩
      · split
        · exact ⟨fun _ => id, hraise, rfl⟩
        · exact ⟨fun _ => List.mem_cons_of_mem _, hraise, rfl⟩

/-! ### Recording an event -/

theorem pushEvent_told (s : State) (b : EvBody) : Told s (s.pushEvent b).1 := by
  unfold State.pushEvent
  refine Told.trans ?_ (bumpFld_told _ _ _ _ (by decide))
  exact ⟨fun _ => List.mem_append_right _, id, rfl⟩

theorem ibi_told (s : State) (m : Nat) (w : Word) : Told s (s.ibi m w) := by
  unfold State.ibi
  exact .ite ⟨fun _ => List.mem_cons_of_mem _, id, rfl⟩ (.refl s)

theorem ringPut_told (s : State) (r : Record × Bool) : Told s (s.ringPut r) := by
  unfold State.ringPut
  exact .ite ((modRec_told s rfl).trans (bump_told _ _ (by decide))) (modRec_told s rfl)

theorem askFlush_told (s : State) (k : FlushKind) : Told s (s.askFlush k) := by
  unfold State.askFlush
  split
  · exact .refl s
  · split
    · exact .ite (.refl s) (modRec_told s rfl)
    · exact modRec_told s rfl

theorem announce_told (s : State) (c : Nat) (rs : List Record) : Told s (s.announce c rs).1 := by
  unfold State.announce
  split
  · have hloop : ∀ (l : List Record) (a : State × List Nat), Told s a.1 →
        Told s (l.foldl (fun (a : State × List Nat) r =>
          let x := ((a.1.irq 5).ibi 1 r.code).pushEvent (.record r); (x.1, a.2 ++ x.2)) a).1 := fun l => by
      induction l with
      | nil => exact fun a h => h
      | cons r l ih => exact fun a h => ih _ (((h.trans (irq_told _ _)).trans (ibi_told _ _ _)).trans (pushEvent_told _ _))
    exact hloop rs (s, []) (.refl s)
  · exact .refl s

/-- The end of an event's records: announced, and from class 3 flushed (R361, R362). -/
theorem announceFlush_told {s t : State} (h : Told s t) (c : Nat) (rs : List Record) (p : Prop) [Decidable p] (k : FlushKind) :
    Told s (if p then (t.announce c rs).1.askFlush k else (t.announce c rs).1) :=
  have ha := h.trans (announce_told t c rs)
  .ite (ha.trans (askFlush_told _ k)) ha

theorem emitCore_told (s : State) (e : Event) (sq : Bool) : Told s (s.emitCore e sq).1 := by
  unfold State.emitCore
  dsimp only
  split
  · split
    · split
      · exact announceFlush_told (modRec_told s rfl) _ _ _ _
      · exact (modRec_told s rfl).trans (bumpFld_told _ _ _ _ (by decide))
    · exact (modRec_told s rfl).trans (bump_told _ _ (by decide))
  · split
    · split
      · split
        · exact announceFlush_told ((modRec_told s rfl).trans (modRec_told _ rfl)) _ _ _ _
        · exact (modRec_told s rfl).trans (bumpFld_told _ _ _ _ (by decide))
      · exact ((modRec_told s rfl).trans (modRec_told _ rfl)).trans (bump_told _ _ (by decide))
    · exact announceFlush_told (((modRec_told s rfl).trans (.foldl ringPut_told _ _)).trans (modRec_told _ rfl)) _ _ _ _

theorem lostEvents_told (s : State) (l : List Nat) : Told s (s.lostEvents l) := .foldl (fun _ _ => emitCore_told _ _ _) _ _

theorem emitBase_told (s : State) (e : Event) (q : Bool) : Told s (s.emitBase e q) := (emitCore_told s e q).trans (lostEvents_told _ _)

theorem event_told (s : State) (b : EvBody) : Told s (s.event b) := (pushEvent_told s b).trans (lostEvents_told _ _)

theorem traceLost_told (s : State) (p w n : Nat) : Told s (s.traceLost p w n) := by
  have hcount : Told s (s.add64 (itemKey OBS_TRACE_LOST_LO p) (itemKey OBS_TRACE_LOST_HI p) n) :=
    add64_told s _ _ (ne_cause (Nat.le_add_right_of_le (by decide))) (ne_cause (Nat.le_add_right_of_le (by decide)))
  unfold State.traceLost
  dsimp only
  have hunit : ∀ t, Told s t → Told s (if w < 144 then t.bump (0x100000 + 0x1000 * w + TWD_TRACE_DROP) n
      else if w < 192 then t.bump (0x280000 + 0x1000 * (w - 144) + LWD_TS_DROP) n else t) := fun t h =>
    .ite (h.trans (bump_told _ _ (ne_cause (by omega)))) (.ite (h.trans (bump_told _ _ (ne_cause (by omega)))) h)
  refine .ite ?_ (hunit _ hcount)
  refine Told.trans ?_ (irq_told _ _)
  refine Told.trans ?_ (emitBase_told _ _ _)
  exact (hunit _ hcount).trans (.of_frame (l := [.obs]) (fun q hq => by cases q <;> first | rfl | exact absurd (by decide) hq) (by decide))

theorem traceDrain_told (s : State) (p w : Nat) : Told s (s.traceDrain p w) := by
  unfold State.traceDrain
  dsimp only
  split
  · exact .refl s
  · exact ⟨fun _ => List.mem_append_right _, id, rfl⟩

theorem traceRec_told (s : State) (p w : Nat) (r : List Word) : Told s (s.traceRec p w r) := by
  have hw : ∀ x, Told s (s.setWriter p w x) := fun x => .of_frame (setWriter_frame s p w x) (by decide)
  unfold State.traceRec
  exact .ite (.refl s) (.ite ((hw _).trans (traceDrain_told _ p w)) ((hw _).trans (traceLost_told _ p w 1)))

theorem traceEvent_told (s : State) (e : Event) (q : Word) : Told s (s.traceEvent e q) := by
  unfold State.traceEvent
  split
  · split
    · exact .foldl (fun _ _ => traceRec_told _ _ _ _) _ _
    · exact .refl s
  · exact .refl s

theorem countError_told (s : State) (e : Event) : Told s (s.countError e) := by
  unfold State.countError
  exact .ite (add64_told s _ _ (ne_cause (by omega)) (ne_cause (by omega))) (.refl s)

theorem emit_told (s : State) (e : Event) : Told s (s.emit e) :=
  ((countError_told s e).trans (emitCore_told _ e false)).trans ((traceEvent_told _ _ _).trans (lostEvents_told _ _))

theorem emitSq_told (s : State) (e : Event) : Told s (s.emitSq e) :=
  ((countError_told s e).trans (emitCore_told _ e true)).trans ((traceEvent_told _ _ _).trans (lostEvents_told _ _))

/-! ### Answers and notices -/

theorem writeSlot_told (s : State) (a : Nat) (b : List Byte) : Told s (s.writeSlot a b) := (emitOut_told s _).trans (emitOut_told _ _)

theorem answer_told (s : State) (p : Pend) (st : Status) (d : Word) (r : List Word) : Told s (s.answer p st d r) := by
  unfold State.answer
  split
  · exact ⟨fun _ => List.mem_cons_of_mem _, id, rfl⟩
  · have h := (writeSlot_told s (s.reg64 HRT_CMD_RSP_BASE_LO HRT_CMD_RSP_BASE_HI + p.h.seq.toNat % 256 * 64)
      (responseSlot p.h.seq p.opcode st s.host.epoch d r)).trans (emitOut_told _ (.response p.h.seq p.opcode st s.host.epoch d r))
    exact .ite h (h.trans (irq_told _ _))

theorem finish_told (s : State) (p : Pend) (st : Status) (d : Word) (r : List Word) : Told s (s.finish p st d r) := by
  unfold State.finish
  exact .ite ((Told.of_frame (modHost_frame s _) (by decide)).trans (answer_told _ _ _ _ _)) (.refl s)

theorem releaseHold_told (s : State) : Told s s.releaseHold := (modRec_told s rfl).trans (.foldl ringPut_told _ _)

theorem failJobs_told (s : State) (cs : List CtxIx) (cause : Nat) (code : Word) (scope : Nat) (coords : Word) :
    Told s (s.failJobs cs cause code scope coords) :=
  .foldl (fun s c => by unfold State.jobFailed; exact .ite (event_told s _) (.refl s)) _ _

theorem failTags_told (s : State) (l : List (BitVec 16 × Word)) (cause : Nat) (code : Word) (scope : Nat) (coords : Word) :
    Told s (s.failTags l cause code scope coords) := .foldl (fun s _ => event_told s _) _ _

end Sys2Proof.Machine
end

section
/-! PROOFS. What the work of the package keeps (R44, R82, R241, R250): the standing facts that no operation short of a reset's own steps moves, and what
has been answered. `Keeps` is a preorder; `Kept` is a fact about an operation as a rewrite rule that peels the operation off, as the
`grounds` lemmas do for the parts that are kept whole. -/
namespace Sys2Proof.Machine

-- One theorem at a time: with the joint text's other threads, parallel ones would pass the memory that the check gives.
set_option Elab.async false

/-! ### The relation -/

/-- The registers that the work of the package leaves: the hold and repeat times of resets and the router's agent masks (R82, R241, R250). -/
def heldReg (k : Nat) : Bool := k == HRT_ESC_HOLD || k == HRT_ESC_REPEAT || (decide (0x300000 ≤ k) && decide (k < 0x1000000) && k % 0x1000 == BLW_AGENTS)

/-- All the others. -/
def looseReg (k : Nat) : Bool := !heldReg k

/-- What of an agent the census decides (R82). -/
def Agent.roll (x : Agent) : (Bool × Bool × Bool × Bool) × Nat × Nat × Nat :=
  ((x.present, x.failed, x.excluded, x.probing), x.stepping, x.minLevel, x.maxLevel)

/-- What of the reset ladder stands (R241, R249). -/
def Escalation.ladder (e : Escalation) : Option Reset × Tab Nat × Option Nat × Option Nat := (e.reset, e.lastPart, e.lastCp, e.lastChip)

/-- Bring-up, the package state apart. -/
def BringUp.course (b : BringUp) : BringUp := { b with pkg := .safe }

/-- What stands throughout. -/
def State.standing (s : State) : (Fused × TimeBase × Power × Thermal) × Run × BringUp × (Option Reset × Tab Nat × Option Nat × Option Nat) × BitVec 41 × Bool :=
  ((s.fused, s.time, s.pw, s.thm), s.sq.run, s.bu.course, s.esc.ladder, s.hl.fault, s.hl.tripLatch)

/-- What only a fence, a re-placement or a reset moves. -/
def State.firm (s : State) : Tab Fp × BitVec 41 × PkgState := (s.plan.fp, s.hl.kill, s.bu.pkg)

/-- The work of the package from `s` to `t`: standing facts stand, no fence begins, the census stands, what was answered stays answered; in the
strict sense no tile changes its place in the floor plan, KILL stands and the package keeps its state. -/
structure Keeps (strict : Bool) (s t : State) : Prop where
  standing : t.standing = s.standing
  firm : strict = true → t.firm = s.firm
  fencing : ∀ k, tget? s.plan.fencing k = none → tget? t.plan.fencing k = none
  roll : ∀ a, (t.agent a).roll = (s.agent a).roll
  regs : RegsBut looseReg s t
  told : Told s t

@[simp] theorem Keeps.refl (b : Bool) (s : State) : Keeps b s s := ⟨rfl, fun _ => rfl, fun _ => id, fun _ => rfl, .refl _ s, .refl s⟩

theorem Keeps.trans {b : Bool} {s t u : State} (h : Keeps b s t) (k : Keeps b t u) : Keeps b s u where
  standing := k.standing.trans h.standing
  firm hb := (k.firm hb).trans (h.firm hb)
  fencing n hn := k.fencing n (h.fencing n hn)
  roll a := (k.roll a).trans (h.roll a)
  regs := h.regs.trans k.regs
  told := h.told.trans k.told

/-- What an operation keeps though what came before it may not. -/
def Regained (b : Bool) (r s t : State) : Prop := ¬ Keeps b r s ∧ Keeps b r t

/-- The step from `s` to `t` keeps everything, as a rewrite rule: whatever base `r` one keeps from, the step is peeled off. -/
abbrev Kept (b : Bool) (s t : State) : Prop := ∀ r, Keeps b r t ↔ Keeps b r s ∨ Regained b r s t

theorem Keeps.kept {b : Bool} {s t : State} (h : Keeps b s t) : Kept b s t := fun r => by
  refine ⟨fun k => or_iff_not_imp_left.mpr fun n => ⟨n, k⟩, ?_⟩
  rintro (k | ⟨-, k⟩)
  · exact k.trans h
  · exact k

theorem Kept.keeps {b : Bool} {s t : State} (h : Kept b s t) : Keeps b s t := (h s).mpr (.inl (.refl b s))

@[simp] theorem ite_keeps (b : Bool) (r : State) (c : Prop) [Decidable c] (s t : State) :
    Keeps b r (if c then s else t) ↔ if c then Keeps b r s else Keeps b r t := by split <;> rfl

theorem Keeps.ite {b : Bool} {r s t : State} {c : Prop} [Decidable c] (h : Keeps b r s) (k : Keeps b r t) : Keeps b r (if c then s else t) := by
  split <;> assumption

theorem Keeps.foldl {α : Type} {b : Bool} {f : State → α → State} (h : ∀ s x, Keeps b s (f s x)) (l : List α) (s : State) : Keeps b s (l.foldl f s) := by
  induction l generalizing s with
  | nil => exact .refl b s
  | cons x l ih => exact (h s x).trans (ih _)

theorem Keeps.each {α : Type} {b : Bool} {f : State → α → State} (h : ∀ s x, Keeps b s (f s x)) (l : List α) (s : State) : Keeps b s (s.each l f) :=
  .foldl h l s

@[simp] theorem each_kept {α : Type} {b : Bool} {f : State → α → State} (h : ∀ s x, Keeps b s (f s x)) (l : List α) (s : State) :
    Kept b s (s.each l f) := (Keeps.each h l s).kept

@[simp] theorem when_kept {b : Bool} {f : State → State} (h : ∀ s, Keeps b s (f s)) (s : State) (c : Bool) :
    Kept b s (s.when c f) := by
  refine Keeps.kept ?_
  cases c
  · exact .refl b s
  · exact h s

/-! ### How single updates keep it -/

/-- What records an event keeps everything. -/
theorem Keeps.of_event {b : Bool} {l : List Part} {s t : State} (h : Frame l s t) (hr : RegsBut looseReg s t) (ht : Told s t)
    (hl : ∀ p ∈ ([.fused, .time, .pw, .thm, .sq, .bu, .esc, .hl, .plan, .agents] : List Part), p ∉ l) : Keeps b s t := by
  have e : ∀ p ∈ ([.fused, .time, .pw, .thm, .sq, .bu, .esc, .hl, .plan, .agents] : List Part), p.same s t := fun p hp => h p (hl p hp)
  have e1 : t.fused = s.fused := e .fused (by decide)
  have e2 : t.time = s.time := e .time (by decide)
  have e3 : t.pw = s.pw := e .pw (by decide)
  have e4 : t.thm = s.thm := e .thm (by decide)
  have e5 : t.sq = s.sq := e .sq (by decide)
  have e6 : t.bu = s.bu := e .bu (by decide)
  have e7 : t.esc = s.esc := e .esc (by decide)
  have e8 : t.hl = s.hl := e .hl (by decide)
  have e9 : t.plan = s.plan := e .plan (by decide)
  have e10 : t.agents = s.agents := e .agents (by decide)
  exact ⟨by simp only [State.standing, e1, e2, e3, e4, e5, e6, e7, e8], fun _ => by simp only [State.firm, e6, e8, e9],
    fun k => by rw [e9]; exact id, fun a => by rw [agent_congr e10], hr, ht⟩

/-- A frame that names none of the parts concerned keeps everything. -/
theorem Keeps.of_frame {b : Bool} {l : List Part} {s t : State} (h : Frame l s t)
    (hl : ∀ p ∈ ([.regs, .out, .recd, .fused, .time, .pw, .thm, .sq, .bu, .esc, .hl, .plan, .agents] : List Part), p ∉ l) : Keeps b s t :=
  have hmem : ∀ {q : List Part}, (∀ p ∈ q, p ∈ ([.regs, .out, .recd, .fused, .time, .pw, .thm, .sq, .bu, .esc, .hl, .plan, .agents] : List Part)) →
    ∀ p ∈ q, p ∉ l := fun hq p hp => hl p (hq p hp)
  .of_event h (.of_frame h (hl _ (by decide))) (.of_frame h (hmem (by decide))) (hmem (by decide))

end Sys2Proof.Machine
end

section
/-! PROOFS. What the single updates of the state, an event, an answer and a message of the Hearth keep. -/
namespace Sys2Proof.Machine

-- One theorem at a time: with the joint text's other threads, parallel ones would pass the memory that the check gives.
set_option Elab.async false

/-! ### Registers -/

/-- A register that the work of the package writes freely. -/
def quietReg (k : Nat) : Bool := looseReg k && k != HRT_IRQ_CAUSE

theorem quietReg_iff {k : Nat} : quietReg k = true ↔ looseReg k = true ∧ k ≠ HRT_IRQ_CAUSE := by simp [quietReg]

/-- The registers of tile, stack and link pages are quiet. -/
theorem quietReg_page {k : Nat} (hl : 0x10000 ≤ k) (hh : k < 0x300000) : quietReg k = true := by
  have h1 : k ≠ HRT_ESC_HOLD := Nat.ne_of_gt (Nat.lt_of_lt_of_le (by decide) hl)
  have h2 : k ≠ HRT_ESC_REPEAT := Nat.ne_of_gt (Nat.lt_of_lt_of_le (by decide) hl)
  have h3 : ¬ 0x300000 ≤ k := by omega
  refine quietReg_iff.mpr ⟨?_, ne_cause (by omega)⟩
  simp [looseReg, heldReg, h1, h2, h3]

@[simp] theorem quietReg_tileReg (t : TileIx) {o : Nat} (ho : o < 0x1000) : quietReg (tileReg t o) = true := by
  have := t.isLt
  exact quietReg_page (by unfold tileReg; omega) (by unfold tileReg; omega)

@[simp] theorem quietReg_linkReg (p : PortIx) {o : Nat} (ho : o < 0x1000) : quietReg (linkReg p o) = true := by
  have := p.isLt
  exact quietReg_page (by unfold linkReg; omega) (by unfold linkReg; omega)

/-- The items behind a selector are quiet where the register is. -/
@[simp] theorem quietReg_itemKey {o : Nat} (ho : quietReg o = true) (i : Nat) : quietReg (itemKey o i) = true := by
  cases i with
  | zero => simpa [itemKey] using ho
  | succ i =>
    have hbig : 0x1000000 ≤ itemKey o (i + 1) := by unfold itemKey; omega
    have h1 : itemKey o (i + 1) ≠ HRT_ESC_HOLD := Nat.ne_of_gt (Nat.lt_of_lt_of_le (by decide) hbig)
    have h2 : itemKey o (i + 1) ≠ HRT_ESC_REPEAT := Nat.ne_of_gt (Nat.lt_of_lt_of_le (by decide) hbig)
    have h3 : ¬ itemKey o (i + 1) < 0x1000000 := by omega
    refine quietReg_iff.mpr ⟨?_, ne_cause (by omega)⟩
    simp [looseReg, heldReg, h1, h2, h3]

/-- The offsets in a page that the standing registers have. -/
def standingOffsets : List Nat := [HRT_ESC_HOLD, HRT_ESC_REPEAT, BLW_AGENTS, HRT_IRQ_CAUSE].map (· % 0x1000)

/-- A register at another offset of its page is quiet. -/
theorem quietReg_offset {k o : Nat} (hk : k % 0x1000 = o) (ho : standingOffsets.contains o = false) : quietReg k = true := by
  have hne : ∀ j ∈ [HRT_ESC_HOLD, HRT_ESC_REPEAT, BLW_AGENTS, HRT_IRQ_CAUSE], k % 0x1000 ≠ j % 0x1000 := fun j hj e => by
    have hmem : o ∈ standingOffsets := List.mem_map.mpr ⟨j, hj, e.symm.trans hk⟩
    rw [List.contains_eq_mem, decide_eq_false_iff_not] at ho
    exact ho hmem
  have h1 : k ≠ HRT_ESC_HOLD := fun e => hne HRT_ESC_HOLD (by decide) (by rw [e])
  have h2 : k ≠ HRT_ESC_REPEAT := fun e => hne HRT_ESC_REPEAT (by decide) (by rw [e])
  have h3 : k % 0x1000 ≠ BLW_AGENTS := hne BLW_AGENTS (by decide)
  have h4 : k ≠ HRT_IRQ_CAUSE := fun e => hne HRT_IRQ_CAUSE (by decide) (by rw [e])
  refine quietReg_iff.mpr ⟨?_, h4⟩
  simp [looseReg, heldReg, h1, h2, h3]

/-- The warden's registers are quiet, whatever its page. -/
theorem quietReg_pageBase (s : State) (a : AgentIx) {o : Nat} (ho : o < 0x1000) (hs : standingOffsets.contains o = false) :
    quietReg (s.pageBase a + o) = true := by
  refine quietReg_offset ?_ hs
  unfold State.pageBase
  split <;> omega

@[simp] theorem setReg_kept (b : Bool) (s : State) {k : Nat} (hk : quietReg k = true) (v : Word) : Kept b s (s.setReg k v) :=
  have ⟨hl, hc⟩ := quietReg_iff.mp hk
  (Keeps.of_event (setReg_frame s k v) ((RegsBut.refl _ s).setReg hl) (setReg_told s v hc) (by decide)).kept

@[simp] theorem setNat_kept (b : Bool) (s : State) {k : Nat} (hk : quietReg k = true) (v : Nat) : Kept b s (s.setNat k v) := setReg_kept b s hk _
@[simp] theorem setFld_kept (b : Bool) (s : State) {k : Nat} (hk : quietReg k = true) (hi lo x : Nat) : Kept b s (s.setFld k hi lo x) :=
  setNat_kept b s hk _
@[simp] theorem bump_kept (b : Bool) (s : State) {k : Nat} (hk : quietReg k = true) (n : Nat) : Kept b s (s.bump k n) := setNat_kept b s hk _
@[simp] theorem bumpFld_kept (b : Bool) (s : State) {k : Nat} (hk : quietReg k = true) (hi lo n : Nat) : Kept b s (s.bumpFld k hi lo n) :=
  setFld_kept b s hk hi lo _

/-! ### The parts of the state -/

@[simp] theorem modTile_kept (b : Bool) (s : State) (t : TileIx) (f : Tile → Tile) : Kept b s (s.modTile t f) := (Keeps.of_frame (modTile_frame s t f) (by decide)).kept
@[simp] theorem setRole_kept (b : Bool) (s : State) (t : TileIx) (r : PoolRole) : Kept b s (s.setRole t r) := modTile_kept b s t _
@[simp] theorem modCtx_kept (b : Bool) (s : State) (c : CtxIx) (f : Ctx → Ctx) : Kept b s (s.modCtx c f) := (Keeps.of_frame (modCtx_frame s c f) (by decide)).kept
@[simp] theorem modShadow_kept (b : Bool) (s : State) (f : Shadow → Shadow) : Kept b s (s.modShadow f) := (Keeps.of_frame (modShadow_frame s f) (by decide)).kept
@[simp] theorem modHost_kept (b : Bool) (s : State) (f : HostIf → HostIf) : Kept b s (s.modHost f) := (Keeps.of_frame (modHost_frame s f) (by decide)).kept
@[simp] theorem modTest_kept (b : Bool) (s : State) (f : SelfTest → SelfTest) : Kept b s (s.modTest f) := (Keeps.of_frame (modTest_frame s f) (by decide)).kept
@[simp] theorem modOfd_kept (b : Bool) (s : State) (f : Digests → Digests) : Kept b s (s.modOfd f) := (Keeps.of_frame (modOfd_frame s f) (by decide)).kept
@[simp] theorem modTxn_kept (b : Bool) (s : State) (w : World) (f : Txn → Txn) : Kept b s (s.modTxn w f) := (Keeps.of_frame (modTxn_frame s w f) (by decide)).kept
@[simp] theorem modFn_kept (b : Bool) (s : State) (k : Nat) (f : Fn → Fn) : Kept b s (s.modFn k f) := (Keeps.of_frame (modFn_frame s k f) (by decide)).kept
@[simp] theorem setWriter_kept (b : Bool) (s : State) (p w : Nat) (x : TraceWriter) : Kept b s (s.setWriter p w x) := (Keeps.of_frame (setWriter_frame s p w x) (by decide)).kept
@[simp] theorem drawn_kept (b : Bool) (s : State) : Kept b s s.drawn := (Keeps.of_frame (drawn_frame s) (by decide)).kept

@[simp] theorem modHl_kept (b : Bool) (s : State) {f : HardLines → HardLines}
    (hf : ∀ h, (f h).fault = h.fault ∧ (f h).tripLatch = h.tripLatch ∧ (f h).kill = h.kill) : Kept b s (s.modHl f) := by
  obtain ⟨h1, h2, h3⟩ := hf s.hl
  exact Keeps.kept ⟨by simp [State.standing, h1, h2], fun _ => by simp [State.firm, h3], fun _ => id, fun _ => rfl, .of_regs rfl,
    .of_frame (modHl_frame s f) (by decide)⟩

@[simp] theorem modEsc_kept (b : Bool) (s : State) {f : Escalation → Escalation}
    (hf : ∀ e, (f e).reset = e.reset ∧ (f e).lastPart = e.lastPart ∧ (f e).lastCp = e.lastCp ∧ (f e).lastChip = e.lastChip) : Kept b s (s.modEsc f) := by
  obtain ⟨h1, h2, h3, h4⟩ := hf s.esc
  exact Keeps.kept ⟨by simp [State.standing, Escalation.ladder, h1, h2, h3, h4], fun _ => rfl, fun _ => id, fun _ => rfl, .of_regs rfl,
    .of_frame (modEsc_frame s f) (by decide)⟩

@[simp] theorem modPlan_kept (b : Bool) (s : State) {f : Plan → Plan} (hf : ∀ p, (f p).fp = p.fp ∧ (f p).fencing = p.fencing) :
    Kept b s (s.modPlan f) := by
  obtain ⟨h1, h2⟩ := hf s.plan
  exact Keeps.kept ⟨rfl, fun _ => by simp [State.firm, h1], fun k => by simp [h2], fun _ => rfl, .of_regs rfl,
    .of_frame (modPlan_frame s f) (by decide)⟩

@[simp] theorem modRec_kept (b : Bool) (s : State) {f : Recorder → Recorder} (hf : ∀ c, (f c).pfLock = c.pfLock) : Kept b s (s.modRec f) :=
  Keeps.kept (.of_event (modRec_frame s f) (.of_regs rfl) (modRec_told s (hf _)) (by decide))

@[simp] theorem modSq_kept (b : Bool) (s : State) {f : Sequencer → Sequencer} (hf : ∀ q, (f q).run = q.run) : Kept b s (s.modSq f) :=
  Keeps.kept ⟨by simp [State.standing, hf], fun _ => rfl, fun _ => id, fun _ => rfl, .of_regs rfl, .of_frame (modSq_frame s f) (by decide)⟩

/-- A change of one agent that leaves its roll leaves every roll. -/
theorem Keeps.setAgent (b : Bool) {s : State} {a : AgentIx} {x : Agent} (hx : x.roll = (s.agent a).roll) : Keeps b s (s.setAgent a x) := by
  refine ⟨rfl, fun _ => rfl, fun _ => id, fun e => ?_, .of_regs rfl, .of_frame (setAgent_frame s a x) (by decide)⟩
  by_cases h : e = a
  · subst h; rw [agent_setAgent_self, hx]
  · rw [agent_setAgent_ne s x h]

/-- The fields that make up the roll. -/
theorem roll_eq {x y : Agent} (h : x.present = y.present ∧ x.failed = y.failed ∧ x.excluded = y.excluded ∧ x.probing = y.probing ∧
    x.stepping = y.stepping ∧ x.minLevel = y.minLevel ∧ x.maxLevel = y.maxLevel) : x.roll = y.roll := by
  obtain ⟨h1, h2, h3, h4, h5, h6, h7⟩ := h
  simp only [Agent.roll, h1, h2, h3, h4, h5, h6, h7]

@[simp] theorem modAgent_kept (b : Bool) (s : State) (a : AgentIx) {f : Agent → Agent}
    (hf : ∀ x, (f x).present = x.present ∧ (f x).failed = x.failed ∧ (f x).excluded = x.excluded ∧ (f x).probing = x.probing ∧
      (f x).stepping = x.stepping ∧ (f x).minLevel = x.minLevel ∧ (f x).maxLevel = x.maxLevel) : Kept b s (s.modAgent a f) :=
  (Keeps.setAgent b (roll_eq (hf _))).kept

@[simp] theorem rewriteRecord_kept (b : Bool) (s : State) : Kept b s s.rewriteRecord := modPlan_kept b s fun _ => ⟨rfl, rfl⟩
@[simp] theorem endPass_kept (b : Bool) (s : State) : Kept b s s.endPass := modRec_kept b s fun _ => rfl
@[simp] theorem abandonSnaps_kept (b : Bool) (s : State) : Kept b s s.abandonSnaps :=
  modEsc_kept b s (f := fun e => { e with snaps := e.snaps.map fun (x : Snap) => if x.st = 1 then {} else x }) fun _ => ⟨rfl, rfl, rfl, rfl⟩
@[simp] theorem voidHalves_kept (b : Bool) (s : State) (c : Capture) : Kept b s (s.voidHalves c) :=
  modShadow_kept b s fun x => { x with halves := x.halves.filter fun (h : HalfCmp) =>
    !(h.primary == c.primary && h.items.seq == c.seq && (h.role == DigestRole.shadow || !c.hold)) }

/-! ### Events, answers, notices -/

/-- The registers that an event moves are none of the standing ones. -/
theorem looseReg_of_event {k : Nat} (h : looseReg k = false) : eventReg k = false := by
  simp only [looseReg, Bool.not_eq_false', heldReg, Bool.or_eq_true, beq_iff_eq, Bool.and_eq_true, decide_eq_true_eq] at h
  rcases h with (rfl | rfl) | ⟨⟨hl, hh⟩, hp⟩
  · decide
  · decide
  · have hhearth : ∀ l : List Nat, l.all (fun j => decide (j < 0x300000)) = true → l.contains k = false := fun l hall => by
      rw [List.contains_eq_mem, decide_eq_false_iff_not]
      exact fun hmem => by have := decide_eq_true_eq.mp (List.all_eq_true.mp hall _ hmem); omega
    rw [eventReg, hp, Nat.mod_eq_of_lt hh, hhearth _ (by decide), hhearth _ (by decide)]
    simp

theorem Keeps.event {b : Bool} {l : List Part} {s t : State} (h : Frame l s t) (hr : RegsBut eventReg s t) (ht : Told s t)
    (hl : ∀ p ∈ ([.fused, .time, .pw, .thm, .sq, .bu, .esc, .hl, .plan, .agents] : List Part), p ∉ l) : Keeps b s t :=
  .of_event h (hr.mono fun _ => looseReg_of_event) ht hl

@[simp] theorem emitOut_kept (b : Bool) (s : State) (o : Out) : Kept b s (s.emitOut o) :=
  (Keeps.of_event (emitOut_frame s o) (.of_regs rfl) (emitOut_told s o) (by decide)).kept
@[simp] theorem irq_kept (b : Bool) (s : State) (v : Nat) : Kept b s (s.irq v) := (Keeps.event (irq_frame s v) (irq_regs s v) (irq_told s v) (by decide)).kept
@[simp] theorem askFlush_kept (b : Bool) (s : State) (k : FlushKind) : Kept b s (s.askFlush k) :=
  (Keeps.event (askFlush_frame s k) (.of_frame (askFlush_frame s k) (by decide)) (askFlush_told s k) (by decide)).kept
@[simp] theorem event_kept (b : Bool) (s : State) (e : EvBody) : Kept b s (s.event e) := (Keeps.event (event_frame s e) (event_regs s e) (event_told s e) (by decide)).kept
@[simp] theorem emit_kept (b : Bool) (s : State) (e : Event) : Kept b s (s.emit e) := (Keeps.event (emit_frame s e) (emit_regs s e) (emit_told s e) (by decide)).kept
@[simp] theorem emitSq_kept (b : Bool) (s : State) (e : Event) : Kept b s (s.emitSq e) := (Keeps.event (emitSq_frame s e) (emitSq_regs s e) (emitSq_told s e) (by decide)).kept
@[simp] theorem traceLost_kept (b : Bool) (s : State) (p w n : Nat) : Kept b s (s.traceLost p w n) :=
  (Keeps.event (traceLost_frame s p w n) ((RegsBut.refl _ s).traceLost) (traceLost_told s p w n) (by decide)).kept
@[simp] theorem traceDrain_kept (b : Bool) (s : State) (p w : Nat) : Kept b s (s.traceDrain p w) :=
  (Keeps.event (traceDrain_frame s p w) (.of_frame (traceDrain_frame s p w) (by decide)) (traceDrain_told s p w) (by decide)).kept
@[simp] theorem traceRec_kept (b : Bool) (s : State) (p w : Nat) (r : List Word) : Kept b s (s.traceRec p w r) :=
  (Keeps.event (traceRec_frame s p w r) (traceRec_regs s p w r) (traceRec_told s p w r) (by decide)).kept
@[simp] theorem answer_kept (b : Bool) (s : State) (p : Pend) (st : Status) (d : Word) (r : List Word) : Kept b s (s.answer p st d r) :=
  (Keeps.event (answer_frame s p st d r) (answer_regs s p st d r) (answer_told s p st d r) (by decide)).kept
@[simp] theorem finish_kept (b : Bool) (s : State) (p : Pend) (st : Status) (d : Word) (r : List Word) : Kept b s (s.finish p st d r) :=
  (Keeps.event (finish_frame s p st d r) (finish_regs s p st d r) (finish_told s p st d r) (by decide)).kept
@[simp] theorem failJobs_kept (b : Bool) (s : State) (cs : List CtxIx) (cause : Nat) (code : Word) (scope : Nat) (coords : Word) :
    Kept b s (s.failJobs cs cause code scope coords) :=
  (Keeps.event (failJobs_frame s cs cause code scope coords) (failJobs_regs s cs cause code scope coords) (failJobs_told s cs cause code scope coords) (by decide)).kept

@[simp] theorem ringNotice_kept (b : Bool) (s : State) (n : Notice) : Kept b s (s.ringNotice n) := by
  refine Keeps.kept ?_
  simp [State.ringNotice, State.writeSlot, show quietReg HRT_NTC_PROD = true by decide]

@[simp] theorem notify_kept (b : Bool) (s : State) (n : Notice) : Kept b s (s.notify n) := by
  refine Keeps.kept ?_
  simp [State.notify, show quietReg HRT_NTC_LOST = true by decide]

theorem releaseHold_regs (s : State) : RegsBut eventReg s s.releaseHold := (RegsBut.of_regs rfl).trans (.foldl ringPut_regs _ _)

@[simp] theorem releaseHold_kept (b : Bool) (s : State) : Kept b s s.releaseHold :=
  (Keeps.event (releaseHold_frame s) (releaseHold_regs s) (releaseHold_told s) (by decide)).kept

@[simp] theorem endFreeze_kept (b : Bool) (s : State) : Kept b s s.endFreeze := by
  refine Keeps.kept ?_
  unfold State.endFreeze
  split
  · exact .refl b s
  · simp [show quietReg REC_FREEZE = true by decide]

@[simp] theorem ibi_kept (b : Bool) (s : State) (m : Nat) (w : Word) : Kept b s (s.ibi m w) :=
  (Keeps.event (ibi_frame s m w) (.of_frame (ibi_frame s m w) (by decide)) (ibi_told s m w) (by decide)).kept
@[simp] theorem failTags_kept (b : Bool) (s : State) (l : List (BitVec 16 × Word)) (cause : Nat) (code : Word) (scope : Nat) (coords : Word) :
    Kept b s (s.failTags l cause code scope coords) :=
  (Keeps.event (failTags_frame s l cause code scope coords) (failTags_regs s l cause code scope coords) (failTags_told s l cause code scope coords)
    (by decide)).kept

/-- A change of the package state alone. -/
theorem modPkg_keeps (s : State) (p : PkgState) : Keeps false s (s.modBu fun b => { b with pkg := p }) :=
  ⟨rfl, fun h => Bool.noConfusion h, fun _ => id, fun _ => rfl, .of_regs rfl, .of_frame (modBu_frame s _) (by decide)⟩

@[simp] theorem setPkg_kept (s : State) (p : PkgState) : Kept false s (s.setPkg p) := by
  refine Keeps.kept ?_
  simp [State.setPkg, (modPkg_keeps s p).kept]

/-! ### Agents, wardens and messages -/

@[simp] theorem latchLost_kept (b : Bool) (s : State) (r : Rep) : Kept b s (s.latchLost r) := by
  unfold State.latchLost
  split
  · next n h step _ _ _ _ =>
    let mine := fun (r : LatchRun) => r.step == step && (tget? s.ofd.handles h.val).any fun x => x.d.ctx == r.ctx
    exact modOfd_kept b s fun o => { o with latches := s.ofd.latches.map fun r => if mine r then { r with due := tmod r.due h.val 0 fun n => n - 1 } else r }
  · exact Keeps.kept (.refl b s)

@[simp] theorem dropReport_kept (b : Bool) (s : State) (a : AgentIx) (r : Rep) : Kept b s (s.dropReport a r) := by
  have hquiet : quietReg (s.pageBase a + TWD_REPORT_DROP) = true := quietReg_pageBase s a (by decide) (by decide)
  unfold State.dropReport
  dsimp only
  refine Keeps.kept (Keeps.trans ?_ (.each (fun s r => (latchLost_kept b s r).keeps) _ _))
  refine Keeps.trans (Keeps.setAgent b ?_) (bump_kept b _ hquiet 1).keeps
  rfl

@[simp] theorem wardenReport_kept (b : Bool) (s : State) (a : AgentIx) (r : Rep) : Kept b s (s.wardenReport a r) := by
  unfold State.wardenReport
  exact Keeps.kept (.ite (Keeps.setAgent b rfl) (dropReport_kept b s a r).keeps)

theorem toUnit_roll (x : Agent) (seq n now : Nat) : (x.toUnit seq n now).roll = x.roll := by
  unfold Agent.toUnit
  split
  · rfl
  · split <;> rfl

@[simp] theorem transmit_kept (b : Bool) (s : State) (a : AgentIx) (m : Sent) : Kept b s (s.transmit a m) := by
  have hout : Keeps b s (s.emitOut (.bellows s.hearthAgent a m.bell)) := (emitOut_kept b s _).keeps
  unfold State.transmit
  refine Keeps.kept (.ite (hout.trans ?_) hout)
  exact (Keeps.setAgent b (toUnit_roll _ m.seq _ s.time.tb)).trans (drawn_kept b _).keeps

@[simp] theorem send_kept (b : Bool) (s : State) (a : AgentIx) (m : Bell) (n : Nat) : Kept b s (s.send a m n) := by
  have hbus : ∀ x : HearthBus, Keeps b s { s with bus := x } := fun x =>
    .of_frame (l := [.bus]) (fun p hp => by cases p <;> first | rfl | exact absurd (by decide) hp) (by decide)
  unfold State.send
  exact Keeps.kept (.ite ((hbus _).trans (transmit_kept b _ a _).keeps) (hbus _))

@[simp] theorem unitCommand_kept (b : Bool) (s : State) (a : AgentIx) (m : Bell) : Kept b s (s.unitCommand a m) := send_kept b s a m _
@[simp] theorem command_kept (b : Bool) (s : State) (a : AgentIx) (m : Bell) : Kept b s (s.command a m) := send_kept b s a m _

end Sys2Proof.Machine
end

section
/-! PROOFS. What the work that a removal or a reset ends leaves standing: shadow duties and covers, gates and commits, disputes and tests, stops,
watches, functions, transactions. One rule per operation, in the order of the model. -/
namespace Sys2Proof.Machine

-- One theorem at a time: with the joint text's other threads, parallel ones would pass the memory that the check gives.
set_option Elab.async false

/-- The counters and marks of the Hearth page that this work moves. -/
@[simp] theorem quietReg_counters : quietReg HRT_SHD_PREEMPTED = true ∧ quietReg HRT_BIST_NEXT = true ∧ quietReg HRT_BIST_SKIPPED = true ∧
    quietReg HRT_SHD_TOO_LARGE = true ∧ quietReg HRT_SHD_MISSED_BUSY = true ∧ quietReg HRT_SMEAR = true ∧ quietReg TXN_ROLLBACKS = true ∧
    quietReg HRT_CMD_CTRL = true := by decide

/-- The registers of a tile's page that it moves. -/
@[simp] theorem quietReg_tile (t : TileIx) : quietReg (tileReg t TWD_SHD_ABANDONED) = true ∧ quietReg (tileReg t TWD_BIST_STATUS) = true ∧
    quietReg (tileReg t TWD_SHD_ORDINAL) = true ∧ quietReg (tileReg t TWD_QPOS) = true ∧ quietReg (tileReg t TWD_ANVIL_STATUS) = true :=
  have h : ∀ o, o < 0x1000 → quietReg (tileReg t o) = true := fun _ => quietReg_tileReg t
  ⟨h _ (by decide), h _ (by decide), h _ (by decide), h _ (by decide), h _ (by decide)⟩

/-! ### The shadow pool and covers -/

@[simp] theorem modEntry_kept (b : Bool) (s : State) (t : TileIx) (q : Word) (f : JEntry → JEntry) : Kept b s (s.modEntry t q f) := by
  refine Keeps.kept ?_
  unfold State.modEntry
  split <;> simp

@[simp] theorem startShadow_kept (b : Bool) (s : State) (p sh : TileIx) (k : Cmd) (n : Nat) : Kept b s (s.startShadow p sh k n) := by
  refine Keeps.kept ?_
  unfold State.startShadow
  split <;> simp

@[simp] theorem reportHeld_kept (b : Bool) (s : State) (t : TileIx) (q : Word) : Kept b s (s.reportHeld t q) := by
  refine Keeps.kept ?_
  unfold State.reportHeld
  split
  · simp
  · split
    · simp
    · split <;> simp

@[simp] theorem startHeld_kept (b : Bool) (s : State) (p sh : TileIx) (k : Cmd) (n : Nat) : Kept b s (s.startHeld p sh k n) :=
  Keeps.kept (by simp [State.startHeld])

@[simp] theorem freeCapture_kept (b : Bool) (s : State) (t p : TileIx) (q : Word) (n : Nat) : Kept b s (s.freeCapture t p q n) := modTile_kept b s t _

@[simp] theorem dropPreempted_kept (b : Bool) (s : State) (t : TileIx) (c : Capture) : Kept b s (s.dropPreempted t c) :=
  Keeps.kept (by simp [State.dropPreempted])

@[simp] theorem claimCover_kept (b : Bool) (s : State) (u : TileIx) : Kept b s (s.claimCover u) := Keeps.kept (by simp [State.claimCover])

@[simp] theorem freeTest_kept (b : Bool) (s : State) (t : TileIx) : Kept b s (s.freeTest t) := Keeps.kept (by simp [State.freeTest])

@[simp] theorem startTest_kept (b : Bool) (s : State) (t : TileIx) : Kept b s (s.startTest t) := Keeps.kept (by simp [State.startTest])

@[simp] theorem spareSlot_kept (b : Bool) (s : State) (t : TileIx) : Kept b s (s.spareSlot t) := Keeps.kept (by simp [State.spareSlot])

@[simp] theorem spareOrSkip_kept (b : Bool) (s : State) : Kept b s s.spareOrSkip := by
  refine Keeps.kept ?_
  unfold State.spareOrSkip
  split <;> simp

/-- A cover that a slot of the tests loses. -/
theorem loseSlotCover_keeps (b : Bool) (s : State) (u : TileIx) (i : Nat) :
    Keeps b s (match (s.test.slots.getD i none).filter fun j => j.cover == some u && j.phase == .handOver with
      | none => s
      | some j => match s.chooseCover j.tile with
        | some c => (s.claimCover c).modTest fun x => { x with slots := x.slots.set i (some { j with cover := some c }) }
        | none => (s.modTest fun x => { x with slots := x.slots.set i none
                                               queue := { j with cover := none, phase := .waiting } :: x.queue }).freeTest j.tile) := by
  split
  · simp
  · split <;> simp

@[simp] theorem loseCover_kept (b : Bool) (s : State) (u : TileIx) : Kept b s (s.loseCover u) := by
  unfold State.loseCover
  refine Keeps.kept (Keeps.trans ?_ (.each (fun s i => loseSlotCover_keeps b s u i) _ _))
  split
  · simp
  · split <;> simp

@[simp] theorem seekHold_kept (b : Bool) (s : State) (p : TileIx) (k : Cmd) (n : Nat) (o : Option TileIx) : Kept b s (s.seekHold p k n o) := by
  refine Keeps.kept ?_
  unfold State.seekHold
  split
  · simp
  · split
    · simp
    · split
      · simp
      · split <;> simp

@[simp] theorem reseek_kept (b : Bool) (s : State) (p : TileIx) (q : Word) (o : Option TileIx) : Kept b s (s.reseek p q o) := by
  refine Keeps.kept ?_
  unfold State.reseek
  split <;> simp

@[simp] theorem unpaired_kept (b : Bool) (s : State) (t : TileIx) (c : Capture) : Kept b s (s.unpaired t c) := Keeps.kept (by simp [State.unpaired])

@[simp] theorem loseDuty_kept (b : Bool) (s : State) (t : TileIx) (c : Capture) : Kept b s (s.loseDuty t c) := Keeps.kept (by simp [State.loseDuty])

@[simp] theorem preemptShadow_kept (b : Bool) (s : State) (t : TileIx) : Kept b s (s.preemptShadow t) := Keeps.kept (by simp [State.preemptShadow])

/-! ### Gates and commits -/

@[simp] theorem sample_kept (b : Bool) (s : State) (t : TileIx) (l : LogIx) (k : Cmd) (n : Nat) : Kept b s (s.sample t l k n) := by
  refine Keeps.kept ?_
  unfold State.sample
  simp only [ite_keeps]
  split
  · simp
  · split
    · simp
    · split
      · simp
      · split
        · simp
        · simp

@[simp] theorem accept_kept (b : Bool) (s : State) (t : TileIx) (l : LogIx) (k : Cmd) : Kept b s (s.accept t l k) := Keeps.kept (by simp [State.accept])

@[simp] theorem drainGate_kept (b : Bool) (s : State) (t : TileIx) (l : LogIx) : Kept b s (s.drainGate t l) := Keeps.kept (by simp [State.drainGate])

@[simp] theorem drainGateOf_kept (b : Bool) (s : State) (t : TileIx) : Kept b s (s.drainGateOf t) := by
  refine Keeps.kept ?_
  unfold State.drainGateOf
  split <;> simp

@[simp] theorem drainGates_kept (b : Bool) (s : State) : Kept b s s.drainGates := Keeps.kept (by simp [State.drainGates])

@[simp] theorem drainFreed_kept (b : Bool) (s : State) : Kept b s s.drainFreed := Keeps.kept (by simp [State.drainFreed])

@[simp] theorem seekWaiting_kept (b : Bool) (s : State) : Kept b s s.seekWaiting := Keeps.kept (by simp [State.seekWaiting, State.seekAll])

@[simp] theorem countConsumed_kept (b : Bool) (s : State) (t : TileIx) (k : Cmd) : Kept b s (s.countConsumed t k) := by
  refine each_kept (fun s o => ?_) _ _
  split <;> simp

@[simp] theorem traceEnd_kept (b : Bool) (s : State) (t : TileIx) (e : JEntry) : Kept b s (s.traceEnd t e) := Keeps.kept (by simp [State.traceEnd])

@[simp] theorem commit_kept (b : Bool) (s : State) (t : TileIx) (k : Nat) (e : JEntry) : Kept b s (s.commit t k e) := Keeps.kept (by simp [State.commit])

@[simp] theorem releaseHold1_kept (b : Bool) (s : State) (t : TileIx) (q : Word) : Kept b s (s.releaseHold1 t q) := by
  refine Keeps.kept ?_
  unfold State.releaseHold1
  split <;> simp

/-! ### Disputes and tests that end -/

@[simp] theorem freeArb_kept (b : Bool) (s : State) (a : Arb) (n : Nat) : Kept b s (s.freeArb a n) := Keeps.kept (by simp [State.freeArb])

@[simp] theorem releaseArb_kept (b : Bool) (s : State) (a : Arb) : Kept b s (s.releaseArb a) := Keeps.kept (by simp [State.releaseArb])

@[simp] theorem shadowNotice_kept (b : Bool) (s : State) (a : Arb) (o m : Nat) (c : Word) : Kept b s (s.shadowNotice a o m c) :=
  Keeps.kept (by simp [State.shadowNotice])

@[simp] theorem markStep_kept (b : Bool) (s : State) (c : CtxIx) (w : Word) (m : Nat) : Kept b s (s.markStep c w m) := modCtx_kept b s c _

@[simp] theorem doubt_kept (b : Bool) (s : State) (a : Arb) (o m : Nat) (c : Word) : Kept b s (s.doubt a o m c) := Keeps.kept (by simp [State.doubt])

@[simp] theorem undecided_kept (b : Bool) (s : State) (a : Arb) : Kept b s (s.undecided a) := Keeps.kept (by simp [State.undecided])

@[simp] theorem abandonCase_kept (b : Bool) (s : State) (a : Arb) : Kept b s (s.abandonCase a) := Keeps.kept (by simp [State.abandonCase])

@[simp] theorem requestAnvil_kept (b : Bool) (s : State) (t : TileIx) (w : AnvilWhy) (l : List Nat) : Kept b s (s.requestAnvil t w l) := by
  refine Keeps.kept ?_
  unfold State.requestAnvil
  exact .ite (.refl b s) (modTest_kept b s fun x => { x with queue := x.queue ++ [_] }).keeps

@[simp] theorem reqDone_kept (b : Bool) (s : State) (n : Nat) (j : AnvilJob) : Kept b s (s.reqDone n j) := by
  refine Keeps.kept ?_
  unfold State.reqDone
  split <;> simp

@[simp] theorem anvilRegs_kept (b : Bool) (s : State) (j : AnvilJob) (r : Bool) : Kept b s (s.anvilRegs j r) := Keeps.kept (by simp [State.anvilRegs])

@[simp] theorem abortJob_kept (b : Bool) (s : State) (j : AnvilJob) : Kept b s (s.abortJob j) := by
  refine Keeps.kept ?_
  unfold State.abortJob
  split <;> simp

@[simp] theorem endTests_kept (b : Bool) (s : State) (l : List TileIx) : Kept b s (s.endTests l) := Keeps.kept (by simp [State.endTests])

@[simp] theorem epochUp_kept (b : Bool) (s : State) : Kept b s s.epochUp := Keeps.kept (by simp [State.epochUp])

/-! ### Stops, watches, functions, transactions -/

@[simp] theorem releaseStop_kept (b : Bool) (s : State) (m : BitVec 41) : Kept b s (s.releaseStop m) :=
  Keeps.kept (by simp [State.releaseStop, State.drainWriters])

@[simp] theorem endBstop_kept (b : Bool) (s : State) : Kept b s s.endBstop := by
  refine Keeps.kept ?_
  unfold State.endBstop
  split <;> simp

@[simp] theorem abandonQuiesce_kept (b : Bool) (s : State) : Kept b s s.abandonQuiesce := by
  refine Keeps.kept ?_
  unfold State.abandonQuiesce
  split
  · split
    · dsimp only
      split <;> simp
    · simp
  · simp

@[simp] theorem setWatch_kept (b : Bool) (s : State) (k : Nat) (x : Watch) : Kept b s (s.setWatch k x) :=
  Keeps.kept (.of_frame (l := [.obs]) (fun p hp => by cases p <;> first | rfl | exact absurd (by decide) hp) (by decide))

@[simp] theorem closeWatch_kept (b : Bool) (s : State) (k n : Nat) : Kept b s (s.closeWatch k n) := by
  refine Keeps.kept ?_
  unfold State.closeWatch
  dsimp only
  split
  · simp
  · simp

@[simp] theorem abandonWatches_kept (b : Bool) (s : State) (f : WatchDecl → Bool) : Kept b s (s.abandonWatches f) :=
  Keeps.kept (by simp [State.abandonWatches])

@[simp] theorem scrubFails_kept (b : Bool) (s : State) (r : Scrub) (st : Status) (n : Nat) : Kept b s (s.scrubFails r st n) := by
  refine Keeps.kept ?_
  unfold State.scrubFails
  split <;> simp

@[simp] theorem abandonScrubs_kept (b : Bool) (s : State) (c : Bool) : Kept b s (s.abandonScrubs c) := Keeps.kept (by simp [State.abandonScrubs])

@[simp] theorem setFn_kept (b : Bool) (s : State) (f : Nat) (st : FnState) : Kept b s (s.setFn f st) := Keeps.kept (by simp [State.setFn])

theorem clearedWatches_keeps (b : Bool) (s : State) : Keeps b s { s with obs := { s.obs with watches := [] } } :=
  .of_frame (l := [.obs]) (fun p hp => by cases p <;> first | rfl | exact absurd (by decide) hp) (by decide)

@[simp] theorem fnForceOff_kept (b : Bool) (s : State) : Kept b s s.fnForceOff := by
  have h0 : Keeps b s ((s.abandonWatches fun _ => true).abandonScrubs true) := by simp
  unfold State.fnForceOff
  refine Keeps.kept ((h0.trans (clearedWatches_keeps b _)).trans (Keeps.trans (.each (fun s k => ?_) _ _) (.each (fun s f => ?_) _ _)))
  · simp
  · simp

@[simp] theorem rollback_kept (b : Bool) (s : State) (w : World) : Kept b s (s.rollback w) := Keeps.kept (by simp [State.rollback])

@[simp] theorem dropCommands_kept (b : Bool) (s : State) : Kept b s s.dropCommands := Keeps.kept (by simp [State.dropCommands, State.discardTxns])

end Sys2Proof.Machine
end

section
/-! PROOFS. What a stage's end, a part that is missing and a removal at the boundary leave (R82, R192, R289, R290, R320): the figures that the census has
taken, the floor plan, the router's masks, KILL, the time base. -/
namespace Sys2Proof.Machine

-- One theorem at a time: with the joint text's other threads, parallel ones would pass the memory that the check gives.
set_option Elab.async false

/-! ### Masks of clock domains -/

theorem single_getLsbD (k d : Nat) (hd : d < 41) : (BitVec.ofNat 41 (2 ^ k)).getLsbD d = decide (k = d) := by
  rw [BitVec.getLsbD_ofNat, Nat.testBit_two_pow, decide_eq_true hd, Bool.true_and]

/-- A mask has the bits of the domains named. -/
theorem domMask_getLsbD (l : List Nat) {d : Nat} (hd : d < 41) : (domMask l).getLsbD d = decide (d ∈ l) := by
  have hfold : ∀ (l : List Nat) (m : BitVec 41),
      (l.foldl (fun m d => m ||| BitVec.ofNat 41 (2 ^ d)) m).getLsbD d = (m.getLsbD d || decide (d ∈ l)) := fun l => by
    induction l with
    | nil => simp
    | cons k l ih =>
      intro m
      rw [List.foldl_cons, ih, BitVec.getLsbD_or, single_getLsbD k d hd, Bool.or_assoc]
      congr 1
      rw [← Bool.decide_or]
      simp [eq_comm]
  rw [domMask, hfold]
  simp

/-! ### The boundary of a stage -/

/-- The work that a removal ends keeps everything but the reset, which is abandoned (R319). -/
theorem removalStop_keeps (s : State) : ∃ u : State, Keeps true (s.modEsc fun e => { e with reset := none }) u ∧
    s.removalStop = (u.modBu fun b => { b with removal := .stopping }).modEsc
      fun e => { e with bstop := some ⟨0xF, false, .removal, false, false, []⟩ } :=
  ⟨_, by simp, rfl⟩

/-- What the census has taken down: the rolls of the agents, the routers' masks, the floor plan. -/
def State.tally (s : State) : (AgentIx → (Bool × Bool × Bool × Bool) × Nat × Nat × Nat) × (DieIx → Word) × Tab Fp :=
  (fun a => (s.agent a).roll, fun d => s.reg (dieReg d BLW_AGENTS), s.plan.fp)

theorem looseReg_agents (d : DieIx) : looseReg (dieReg d BLW_AGENTS) = false := by
  have := d.isLt
  have hl : 0x300000 ≤ dieReg d BLW_AGENTS := by unfold dieReg; omega
  have hh : dieReg d BLW_AGENTS < 0x1000000 := by unfold dieReg BLW_AGENTS; omega
  have hp : dieReg d BLW_AGENTS % 0x1000 = BLW_AGENTS := dieReg_page d (by decide)
  simp [looseReg, heldReg, hl, hh, hp]

/-- The floor plan apart, every kept step leaves the tally. -/
theorem Keeps.tally_of {b : Bool} {s t : State} (h : Keeps b s t) (hfp : t.plan.fp = s.plan.fp) : t.tally = s.tally := by
  simp only [State.tally, h.roll, fun d => h.regs _ (looseReg_agents d), hfp]

theorem Keeps.fp {s t : State} (h : Keeps true s t) : t.plan.fp = s.plan.fp := congrArg Prod.fst (h.firm rfl)
theorem Keeps.kill {s t : State} (h : Keeps true s t) : t.hl.kill = s.hl.kill := congrArg (fun x => x.2.1) (h.firm rfl)
theorem Keeps.pkg {s t : State} (h : Keeps true s t) : t.bu.pkg = s.bu.pkg := congrArg (fun x => x.2.2) (h.firm rfl)
theorem Keeps.time {b : Bool} {s t : State} (h : Keeps b s t) : t.time = s.time := congrArg (fun x => x.1.2.1) h.standing

theorem Keeps.tally {s t : State} (h : Keeps true s t) : t.tally = s.tally := h.tally_of h.fp

theorem removalStop_tally (s : State) : s.removalStop.tally = s.tally := by
  obtain ⟨u, hu, h⟩ := removalStop_keeps s
  rw [h]
  exact hu.tally

theorem removalStop_kill (s : State) : s.removalStop.hl.kill = s.hl.kill ∧ s.removalStop.time = s.time := by
  obtain ⟨u, hu, h⟩ := removalStop_keeps s
  rw [h]
  exact ⟨hu.kill, hu.time⟩

theorem boundaryRemoval_tally (s : State) : s.boundaryRemoval.tally = s.tally := by
  unfold State.boundaryRemoval
  split
  · exact (removalStop_tally _).trans rfl
  · rfl

theorem boundaryRemoval_kill (s : State) : s.boundaryRemoval.hl.kill = s.hl.kill ∧ s.boundaryRemoval.time = s.time := by
  unfold State.boundaryRemoval
  split
  · exact removalStop_kill s.endPass
  · exact ⟨rfl, rfl⟩

@[simp] theorem stageRegs_kept (b : Bool) (s : State) {n : Nat} (hn : n ≤ 9) (code count : Nat) (r : Bool) : Kept b s (s.stageRegs n code count r) := by
  have hend : quietReg (HRT_BU_STAGE_END + 8 * n) = true := by interval_cases n <;> decide
  have hdetail : quietReg (HRT_BU_STAGE_DETAIL + 8 * n) = true := by interval_cases n <;> decide
  refine Keeps.kept ?_
  simp [State.stageRegs, hend, hdetail]

/-- The record of a stage's end and its report registers. -/
theorem stageReport_keeps (b : Bool) (s : State) {n : Nat} (hn : n ≤ 9) (e : Event) (code count : Nat) (r : Bool) :
    Keeps b s ((if n < 2 then s.emitSq e else s.emit e).stageRegs n code count r) := by simp [hn]

theorem stageDone_tally (s : State) {n : Nat} (hn : n ≤ 9) (count : Nat) : (s.stageDone n count).tally = s.tally := by
  unfold State.stageDone
  rw [boundaryRemoval_tally]
  exact (stageReport_keeps true s hn _ _ _ _).tally

theorem stageDone_kill (s : State) {n : Nat} (hn : n ≤ 9) (count : Nat) :
    (s.stageDone n count).hl.kill = s.hl.kill ∧ (s.stageDone n count).time = s.time := by
  have h := stageReport_keeps true s hn ⟨0, 0, n, 0x0701, []⟩ 0x0701 count true
  unfold State.stageDone
  rw [(boundaryRemoval_kill _).1, (boundaryRemoval_kill _).2]
  exact ⟨h.kill, h.time⟩

theorem stageFail_tally {s : State} (hs : s.bu.stage ≤ 9) (e : Event) : (s.stageFail e).tally = s.tally := by
  have hn : (if s.bu.chipPass then max 3 s.bu.stage else s.bu.stage) ≤ 9 := by split <;> omega
  unfold State.stageFail
  dsimp only
  rw [boundaryRemoval_tally]
  generalize (if s.bu.chipPass then max 3 s.bu.stage else s.bu.stage) = n at hn ⊢
  have h1 : Keeps true s ((if n < 2 then s.emitSq e else s.emit e).endPass.stageRegs n e.code 0 false) := by simp [hn]
  have h2 := fun (u : State) => (setPkg_kept u .safe).keeps.tally_of (congrArg Plan.fp (setPkg_frame u .safe .plan (by decide)))
  exact (h2 _).trans h1.tally

theorem excludeUnit_tally {s : State} (hs : s.bu.stage ≤ 9) (ut ix : Nat) (e : Event) : (s.excludeUnit ut ix e).tally = s.tally := by
  have hemit : (s.emit { e with cls := 4 }).tally = s.tally := (emit_kept true s _).keeps.tally
  unfold State.excludeUnit
  split
  · exact hemit
  · split
    · exact hemit
    · exact stageFail_tally hs _

theorem loseDie_tally {s : State} (hs : s.bu.stage ≤ 9) (d : DieIx) (e : Event) : (s.loseDie d e).tally = s.tally := by
  unfold State.loseDie
  split
  · exact excludeUnit_tally hs _ _ _
  · exact stageFail_tally hs _

/-! ### The bounds of the stage -/

theorem stageFail_bound {s : State} (hs : s.bu.stage ≤ 9) (e : Event) : (s.stageFail e).bu.stage ≤ 9 := by
  simp only [stageFail_bu, afterBoundary_stage]
  split <;> omega

theorem excludeUnit_bound {s : State} (hs : s.bu.stage ≤ 9) (ut ix : Nat) (e : Event) : (s.excludeUnit ut ix e).bu.stage ≤ 9 := by
  unfold State.excludeUnit
  split
  · rwa [State.emit_bu]
  · split
    · rw [State.modBu_bu, State.emit_bu]; exact hs
    · exact stageFail_bound hs _

theorem loseDie_bound {s : State} (hs : s.bu.stage ≤ 9) (d : DieIx) (e : Event) : (s.loseDie d e).bu.stage ≤ 9 := by
  unfold State.loseDie
  split
  · exact excludeUnit_bound hs _ _ _
  · exact stageFail_bound hs _

/-! ### The course of the census (R82, R305) -/

/-- The census goes on from `s` to `t` behind the judgement of agent `a`: it is not probed anew, its figures and its exclusion stand, a tile found
missing stays DEFECT, and the routers' masks stand. -/
structure Counted (a : AgentIx) (s t : State) : Prop where
  bound : t.bu.stage ≤ 9
  probing : (s.agent a).probing = false → (t.agent a).probing = false
  present : (s.agent a).present = false → (t.agent a).present = false
  excluded : (s.agent a).excluded = true → (t.agent a).excluded = true
  figures : (t.agent a).stepping = (s.agent a).stepping ∧ (t.agent a).minLevel = (s.agent a).minLevel ∧ (t.agent a).maxLevel = (s.agent a).maxLevel ∧
    (t.agent a).failed = (s.agent a).failed
  defect : ∀ tl, (s.fpOf tl).st = .defect ∧ (s.fpOf tl).reason = 3 → (t.fpOf tl).st = .defect ∧ (t.fpOf tl).reason = 3
  masks : ∀ d, t.reg (dieReg d BLW_AGENTS) = s.reg (dieReg d BLW_AGENTS)

theorem Counted.refl (a : AgentIx) {s : State} (hs : s.bu.stage ≤ 9) : Counted a s s :=
  ⟨hs, id, id, id, ⟨rfl, rfl, rfl, rfl⟩, fun _ => id, fun _ => rfl⟩

theorem Counted.trans {a : AgentIx} {s t u : State} (h : Counted a s t) (k : Counted a t u) : Counted a s u where
  bound := k.bound
  probing hp := k.probing (h.probing hp)
  present hp := k.present (h.present hp)
  excluded hx := k.excluded (h.excluded hx)
  figures := by
    obtain ⟨h1, h2, h3, h4⟩ := h.figures
    obtain ⟨k1, k2, k3, k4⟩ := k.figures
    exact ⟨k1.trans h1, k2.trans h2, k3.trans h3, k4.trans h4⟩
  defect tl hd := k.defect tl (h.defect tl hd)
  masks d := (k.masks d).trans (h.masks d)

theorem Counted.of_tally {a : AgentIx} {s t : State} (h : t.tally = s.tally) (hb : t.bu.stage ≤ 9) : Counted a s t := by
  simp only [State.tally, Prod.mk.injEq, funext_iff, Agent.roll] at h
  obtain ⟨hroll, hmask, hfp⟩ := h
  obtain ⟨⟨h1, h2, h3, h4⟩, h5, h6, h7⟩ := hroll a
  have hfp' : ∀ tl, t.fpOf tl = s.fpOf tl := fun tl => by rw [State.fpOf, State.fpOf, hfp]
  exact ⟨hb, fun h => h4.trans h, fun h => h1.trans h, fun h => h3.trans h, ⟨h5, h6, h7, h2⟩, fun tl h => hfp' tl ▸ h, hmask⟩

/-- Steps in turn, while bring-up has its stages. -/
theorem Counted.eachMem {α : Type} {a : AgentIx} {f : State → α → State} {l : List α} (h : ∀ s, ∀ x ∈ l, s.bu.stage ≤ 9 → Counted a s (f s x)) (s : State)
    (hs : s.bu.stage ≤ 9) : Counted a s (s.each l f) := by
  unfold State.each
  induction l generalizing s with
  | nil => exact .refl a hs
  | cons x l ih =>
    have hx := h s x List.mem_cons_self hs
    exact hx.trans (ih (fun s y hy => h s y (List.mem_cons_of_mem x hy)) _ hx.bound)

theorem Counted.each {α : Type} {a : AgentIx} {f : State → α → State} (h : ∀ s x, s.bu.stage ≤ 9 → Counted a s (f s x)) (l : List α) (s : State)
    (hs : s.bu.stage ≤ 9) : Counted a s (s.each l f) := .eachMem (fun s x _ => h s x) s hs

theorem Keeps.bound {b : Bool} {s t : State} (h : Keeps b s t) (hs : s.bu.stage ≤ 9) : t.bu.stage ≤ 9 := by
  have hbu : t.bu.course = s.bu.course := congrArg (fun x => x.2.2.1) h.standing
  have hstage : t.bu.course.stage = s.bu.course.stage := by rw [hbu]
  exact hstage.trans_le hs

theorem Keeps.counted {a : AgentIx} {s t : State} (h : Keeps true s t) (hs : s.bu.stage ≤ 9) : Counted a s t := .of_tally h.tally (h.bound hs)

/-- An agent that is given up is not probed, not present and excluded; its figures stand. -/
theorem Counted.giveUp (a : AgentIx) {s : State} (hs : s.bu.stage ≤ 9) (e : AgentIx) :
    Counted a s (s.modAgent e fun x => { x with probing := false, present := false, excluded := true }) := by
  by_cases h : a = e
  · subst h
    exact ⟨hs, fun _ => by simp, fun _ => by simp, fun _ => by simp, by simp, fun _ => id, fun _ => rfl⟩
  · refine ⟨hs, ?_, ?_, ?_, ?_, fun _ => id, fun _ => rfl⟩ <;> rw [agent_modAgent_ne s _ h]
    · exact id
    · exact id
    · exact id
    · exact ⟨rfl, rfl, rfl, rfl⟩

theorem fpOf_setFp_self (s : State) (tl : TileIx) (x : Fp) : (s.setFp tl x).fpOf tl = x := tget_tput_self _ _ _ _
theorem fpOf_setFp_ne (s : State) {tl u : TileIx} (x : Fp) (h : u ≠ tl) : (s.setFp tl x).fpOf u = s.fpOf u :=
  tget_tput_ne _ _ _ fun e => h (Fin.ext e)

/-- A tile made DEFECT for cause 3 is so, and stays so (R192). -/
theorem makeDefect_counted (a : AgentIx) {s : State} (hs : s.bu.stage ≤ 9) (tl : TileIx) :
    Counted a s (s.makeDefect tl 3) ∧ ((s.makeDefect tl 3).fpOf tl).st = .defect ∧ ((s.makeDefect tl 3).fpOf tl).reason = 3 := by
  have hset : Counted a s (s.setFp tl { st := .defect, reason := 3, retired := 3 == 5 }) := by
    refine ⟨hs, id, id, id, ⟨rfl, rfl, rfl, rfl⟩, fun u hu => ?_, fun _ => rfl⟩
    by_cases h : u = tl
    · subst h; rw [fpOf_setFp_self]; exact ⟨rfl, rfl⟩
    · rwa [fpOf_setFp_ne s _ h]
  have hrest : ∀ u : State, u.bu.stage ≤ 9 → Counted a u
      ((((u.setRole tl .out).modBu fun b => { b with good := b.good.erase tl }).epochUp).modPlan fun p => { p with rewriteDue := true }) := fun u hu => by
    have h1 : Counted a u ((u.setRole tl .out).modBu fun b => { b with good := b.good.erase tl }) := .of_tally rfl hu
    exact h1.trans (Keeps.counted (by simp) h1.bound)
  have hall := hrest _ hset.bound
  exact ⟨hset.trans hall, hall.defect tl (by rw [fpOf_setFp_self]; exact ⟨rfl, rfl⟩)⟩

/-- The record of a failed self-test (R269). -/
theorem selfTestRecord_keeps (s : State) (c : Bool) (e : Event) : Keeps true s (if c then s.emit e else s) := by simp

/-- A part found missing: the agent is given up, and for a tile its tile is DEFECT (R82, R192). -/
theorem missingPart_counted (a : AgentIx) {s : State} (hs : s.bu.stage ≤ 9) (e : AgentIx) (selfTest : Bool) :
    Counted a s (s.missingPart e selfTest) ∧
      (a = e → ((s.missingPart e selfTest).agent e).probing = false ∧ ((s.missingPart e selfTest).agent e).present = false ∧
        ((s.missingPart e selfTest).agent e).excluded = true) ∧
      ((s.unitOf e).1 = 1 → ((s.missingPart e selfTest).fpOf (tileIx (s.unitOf e).2)).st = .defect ∧
        ((s.missingPart e selfTest).fpOf (tileIx (s.unitOf e).2)).reason = 3) := by
  have hgive := Counted.giveUp a hs e
  have hself : ∀ {t : State}, Counted a (s.modAgent e fun x => { x with probing := false, present := false, excluded := true }) t →
      a = e → (t.agent e).probing = false ∧ (t.agent e).present = false ∧ (t.agent e).excluded = true := fun {t} h hae => by
    subst hae
    exact ⟨h.probing (by simp), h.present (by simp), h.excluded (by simp)⟩
  unfold State.missingPart
  dsimp only
  generalize s.modAgent e (fun x => { x with probing := false, present := false, excluded := true }) = u at hgive hself ⊢
  have hrec := fun c (ev : Event) => (selfTestRecord_keeps u c ev).counted (a := a) hgive.bound
  split
  · have hemit := fun c (ev w : Event) => (hrec c ev).trans ((emit_kept true (if c then u.emit ev else u) w).keeps.counted (hrec c ev).bound)
    have hdef := fun c (ev w : Event) => makeDefect_counted a (hemit c ev w).bound (tileIx (s.unitOf e).2)
    have hall := fun c (ev w : Event) => (hemit c ev w).trans (hdef c ev w).1
    exact ⟨hgive.trans (hall _ _ _), hself (hall _ _ _), fun _ => (hdef _ _ _).2⟩
  · next hne =>
    refine have hall : Counted a u _ := ?_; ⟨hgive.trans hall, hself hall, fun h => absurd h hne⟩
    split
    · exact (hrec _ _).trans (.of_tally (excludeUnit_tally (hrec _ _).bound _ _ _) (excludeUnit_bound (hrec _ _).bound _ _ _))
    · exact (hrec _ _).trans (.of_tally (loseDie_tally (hrec _ _).bound _ _) (loseDie_bound (hrec _ _).bound _ _))

end Sys2Proof.Machine
end

section
/-! PROOFS. The census, domain power and the first ALIGN (R77, R82, R192, R269, R305, R306). -/
namespace Sys2Proof.Machine

-- One theorem at a time: with the joint text's other threads, parallel ones would pass the memory that the check gives.
set_option Elab.async false

/-! ### The steps of the census -/

theorem setBus_keeps (b : Bool) (s : State) (x : HearthBus) : Keeps b s { s with bus := x } :=
  .of_frame (l := [.bus]) (fun p hp => by cases p <;> first | rfl | exact absurd (by decide) hp) (by decide)

@[simp] theorem answered_kept (b : Bool) (s : State) (a : AgentIx) (cls : Nat) : Kept b s (s.answered a cls) := by
  refine Keeps.kept ?_
  unfold State.answered
  dsimp only
  split
  · exact (setBus_keeps b s _).trans (transmit_kept b _ a _).keeps
  · exact setBus_keeps b s _

/-- The probe of another agent. -/
theorem probe_counted {a e : AgentIx} (hne : a ≠ e) (s : State) (hs : s.bu.stage ≤ 9) : Counted a s (s.probe e) := by
  have hmark : Counted a s (s.modAgent e fun x => { x with probing := true }) := by
    refine ⟨hs, ?_, ?_, ?_, ?_, fun _ => id, fun _ => rfl⟩ <;> rw [agent_modAgent_ne s _ hne]
    · exact id
    · exact id
    · exact id
    · exact ⟨rfl, rfl, rfl, rfl⟩
  exact hmark.trans ((send_kept true _ e .censusProbe 100).keeps.counted hmark.bound)

theorem missing_counted (a e : AgentIx) (b : Bool) (s : State) (hs : s.bu.stage ≤ 9) : Counted a s (s.missingPart e b) :=
  (missingPart_counted a hs e b).1

/-- The level is set at every agent, and the census hands over to stage 3 (R83). -/
theorem censusClose_counted (a : AgentIx) {s t : State} (h : Keeps true s t) (hs : s.bu.stage ≤ 9) (n : Nat) :
    Counted a s (if t.bu.chipPass then t.modBu fun b => { b with stage := 3 } else t.stageDone 2 n) := by
  have ht := h.counted (a := a) hs
  refine ht.trans ?_
  split
  · exact .of_tally rfl (by simp)
  · refine .of_tally (stageDone_tally t (by decide) n) ?_
    rw [stageDone_bu, afterBoundary_stage]
    exact min_le_left 9 _

theorem censusEnd_counted (a : AgentIx) {s : State} (hs : s.bu.stage ≤ 9) : Counted a s s.censusEnd := by
  unfold State.censusEnd
  extract_lets here level u
  have hmiss : Counted a s u := .each (fun u e hu => missing_counted a e false u hu) _ s hs
  clear_value u
  split
  · exact hmiss
  · next there wardens routers low maxL _ s2 s3 s4 _ =>
    have hgrade : quietReg HRT_GRADE = true ∧ quietReg HRT_LEVEL = true := by decide
    have h2 : Keeps true u s2 := setBus_keeps true u _
    have h4 : Keeps true s2 s4 := by simp [s4, s3, hgrade]
    exact hmiss.trans (censusClose_counted a (h2.trans h4) hmiss.bound _)

/-- A part that no probe could reach, unless bring-up has failed (R305). -/
theorem unreached_counted (a e : AgentIx) (s : State) (hs : s.bu.stage ≤ 9) : Counted a s (if s.bu.failed then s else s.missingPart e false) := by
  split
  · exact .refl a hs
  · exact missing_counted a e false s hs

theorem censusNext_counted (a : AgentIx) {s : State} (hs : s.bu.stage ≤ 9) : Counted a s s.censusNext := by
  unfold State.censusNext
  split
  · exact .refl a hs
  · extract_lets u
    have hrest : Counted a s u := .each (fun u e hu => unreached_counted a e u hu) _ s hs
    split
    · exact hrest
    · exact hrest.trans (censusEnd_counted a hrest.bound)

/-- A neighbour that disagrees moves nothing of what the census has taken down. -/
theorem wiringBad_tally {s : State} (hs : s.bu.stage ≤ 9) (d : DieIx) (p : Nat) : (s.wiringBad d p).tally = s.tally ∧ (s.wiringBad d p).bu.stage ≤ 9 := by
  have h1 := fun e => loseDie_tally hs d e
  have h2 := fun e => loseDie_bound hs d e
  unfold State.wiringBad
  dsimp only
  split
  · split
    · exact ⟨h1 _, h2 _⟩
    · exact ⟨(loseDie_tally (h2 _) _ _).trans (h1 _), loseDie_bound (h2 _) _ _⟩
  · exact ⟨h1 _, h2 _⟩

/-- The wiring is compared port by port. -/
theorem wiring_tally (d : DieIx) (l : List Nat) {s : State} (hs : s.bu.stage ≤ 9) :
    (s.each l fun s p => if s.bu.failed then s else s.wiringBad d p).tally = s.tally ∧
      (s.each l fun s p => if s.bu.failed then s else s.wiringBad d p).bu.stage ≤ 9 := by
  unfold State.each
  induction l generalizing s with
  | nil => exact ⟨rfl, hs⟩
  | cons p l ih =>
    have hstep : (if s.bu.failed then s else s.wiringBad d p).tally = s.tally ∧ (if s.bu.failed then s else s.wiringBad d p).bu.stage ≤ 9 := by
      split
      · exact ⟨rfl, hs⟩
      · exact wiringBad_tally hs d p
    obtain ⟨h1, h2⟩ := ih hstep.2
    exact ⟨h1.trans hstep.1, h2⟩

/-- A router that is present is not probed anew by what its own reply shows. -/
theorem censusRouter_counted {a : AgentIx} {s : State} (hs : s.bu.stage ≤ 9) (ha : (s.agent a).present = true) (d : DieIx) (m : BitVec 32)
    (ports : List (Option (DieIx × Bool))) : Counted a s (s.censusRouter d m ports) := by
  unfold State.censusRouter
  extract_lets got agrees u unseen here far
  obtain ⟨htally, hbound⟩ : u.tally = s.tally ∧ u.bu.stage ≤ 9 := wiring_tally d _ hs
  have hstart : Counted a s u := .of_tally htally hbound
  have hunseen : unseen a = false := by
    simp only [State.tally, Prod.mk.injEq, funext_iff, Agent.roll] at htally
    have hpresent : (u.agent a).present = true := (htally.1 a).1.1.trans ha
    simp [unseen, hpresent]
  split
  · exact hstart
  · refine hstart.trans ?_
    have hnot : ∀ e ∈ (here ++ far).filter unseen, a ≠ e := fun e he hae => by
      subst hae
      exact absurd (List.mem_filter.mp he).2 (by simp [hunseen])
    exact Counted.eachMem (fun v e he hv => probe_counted (hnot e he) v hv) u hbound

/-! ### The answers of the census -/

theorem Keeps.unitOf {b : Bool} {s t : State} (h : Keeps b s t) (a : AgentIx) : t.unitOf a = s.unitOf a :=
  (unitNames_of_fused (congrArg (fun x => x.1.1) h.standing) a).1

theorem censusOpen_bound {s : State} (h : s.censusOpen = true) : s.bu.stage ≤ 9 := by
  simp only [State.censusOpen, Bool.and_eq_true] at h
  have := (stageOpen_current h.1).1
  omega

/-- An agent that does not answer is given up (R82, R305). -/
theorem agentTimeout_counted {s : State} {a : AgentIx} (ho : s.censusOpen = true) (hx : s.agentExists a = true) (hp : (s.agent a).probing = true) :
    ((doCensusAgentTimeout a s).agent a).probing = false ∧ ((doCensusAgentTimeout a s).agent a).present = false ∧
      ((doCensusAgentTimeout a s).agent a).excluded = true ∧ ((s.unitOf a).1 = 1 → ((doCensusAgentTimeout a s).fpOf (tileIx (s.unitOf a).2)).st = .defect ∧
        ((doCensusAgentTimeout a s).fpOf (tileIx (s.unitOf a).2)).reason = 3) := by
  have heq : doCensusAgentTimeout a s = ((s.answered a 1).missingPart a (s.agent a).failed).censusNext := by simp [doCensusAgentTimeout, ho, hx, hp]
  have hans := (answered_kept true s a 1).keeps
  obtain ⟨hmiss, hgone, hdefect⟩ := missingPart_counted a (hans.bound (censusOpen_bound ho)) a (s.agent a).failed
  have hnext := censusNext_counted a hmiss.bound
  obtain ⟨h1, h2, h3⟩ := hgone rfl
  rw [hans.unitOf a] at hdefect
  rw [heq]
  exact ⟨hnext.probing h1, hnext.present h2, hnext.excluded h3, fun hu => hnext.defect _ (hdefect hu)⟩

/-- The Hearth has a reply: the agent is present and no longer probed. -/
def State.heard (s : State) (a : AgentIx) : State := (s.answered a 1).modAgent a fun x => { x with probing := false, present := true }

theorem heard_bound {s : State} (a : AgentIx) (hs : s.bu.stage ≤ 9) : (s.heard a).bu.stage ≤ 9 := (answered_kept true s a 1).keeps.bound hs

theorem heard_agent (s : State) (a : AgentIx) :
    ((s.heard a).agent a).probing = false ∧ ((s.heard a).agent a).present = true ∧ ((s.heard a).agent a).failed = (s.agent a).failed := by
  have hroll := (answered_kept true s a 1).keeps.roll a
  simp only [Agent.roll, Prod.mk.injEq] at hroll
  simp [State.heard, hroll.1.2.1]

theorem agentReply_eq {s : State} {a : AgentIx} {b : CensusBody} (ho : s.censusOpen = true) (hx : s.agentExists a = true) (hp : (s.agent a).probing = true) :
    doCensusReply a b s = (match b with
      | .agent st mn mx bad =>
        if bad then ((s.heard a).modAgent a fun x => { x with stepping := st, minLevel := mn, maxLevel := mx, failed := x.failed || bad }).missingPart a true
        else (s.heard a).modAgent a fun x => { x with stepping := st, minLevel := mn, maxLevel := mx, failed := x.failed || bad }
      | .router m ps => if a.agent = 31 then ((s.heard a).setReg (dieReg a.die BLW_AGENTS) m).censusRouter a.die m ps else s.heard a).censusNext := by
  simp only [doCensusReply, ho, hx, hp, Bool.and_self, Bool.not_true, Bool.false_eq_true, if_false]
  rfl

/-- What an agent answers is taken down (R82, R269). -/
theorem agentReply_counted {s : State} {a : AgentIx} (ho : s.censusOpen = true) (hx : s.agentExists a = true) (hp : (s.agent a).probing = true)
    (st mn mx : Nat) (bad : Bool) : ((doCensusReply a (.agent st mn mx bad) s).agent a).probing = false ∧
      ((doCensusReply a (.agent st mn mx bad) s).agent a).stepping = st ∧ ((doCensusReply a (.agent st mn mx bad) s).agent a).minLevel = mn ∧
      ((doCensusReply a (.agent st mn mx bad) s).agent a).maxLevel = mx ∧
      ((doCensusReply a (.agent st mn mx bad) s).agent a).failed = ((s.agent a).failed || bad) ∧
      (bad = true → ((doCensusReply a (.agent st mn mx bad) s).agent a).excluded = true) := by
  rw [agentReply_eq ho hx hp]
  dsimp only
  obtain ⟨hprobe, -, hfail⟩ := heard_agent s a
  have hbound : ((s.heard a).modAgent a fun x => { x with stepping := st, minLevel := mn, maxLevel := mx, failed := x.failed || bad }).bu.stage ≤ 9 :=
    heard_bound a (censusOpen_bound ho)
  have hself : ((s.heard a).modAgent a fun x => { x with stepping := st, minLevel := mn, maxLevel := mx, failed := x.failed || bad }).agent a =
      { (s.heard a).agent a with stepping := st, minLevel := mn, maxLevel := mx, failed := ((s.heard a).agent a).failed || bad } := agent_modAgent_self _ _ _
  generalize ((s.heard a).modAgent a fun x => { x with stepping := st, minLevel := mn, maxLevel := mx, failed := x.failed || bad }) = u at hbound hself ⊢
  have hdone : ∀ {v : State}, Counted a u v → (bad = true → (v.agent a).excluded = true) → (v.censusNext.agent a).probing = false ∧
      (v.censusNext.agent a).stepping = st ∧ (v.censusNext.agent a).minLevel = mn ∧ (v.censusNext.agent a).maxLevel = mx ∧
      (v.censusNext.agent a).failed = ((s.agent a).failed || bad) ∧ (bad = true → (v.censusNext.agent a).excluded = true) := fun {v} hv hex => by
    have hn := censusNext_counted a hv.bound
    obtain ⟨h1, h2, h3, h4⟩ := (hv.trans hn).figures
    rw [hself] at h1 h2 h3 h4
    exact ⟨(hv.trans hn).probing (by rw [hself]; exact hprobe), h1, h2, h3, h4.trans (by rw [hfail]), fun hb => hn.excluded (hex hb)⟩
  cases bad with
  | true =>
    obtain ⟨hmiss, hgone, -⟩ := missingPart_counted a hbound a true
    exact hdone hmiss fun _ => (hgone rfl).2.2
  | false => exact hdone (.refl a hbound) fun h => Bool.noConfusion h

/-- A router's mask is shown (R82). -/
theorem routerReply_counted {s : State} {a : AgentIx} (ho : s.censusOpen = true) (hx : s.agentExists a = true) (hp : (s.agent a).probing = true)
    (ha : a.agent = 31) (m : BitVec 32) (ps : List (Option (DieIx × Bool))) : ((doCensusReply a (.router m ps) s).agent a).probing = false ∧
      (doCensusReply a (.router m ps) s).reg (dieReg a.die BLW_AGENTS) = m := by
  rw [agentReply_eq ho hx hp]
  dsimp only
  rw [if_pos ha]
  obtain ⟨hprobe, hpresent, -⟩ := heard_agent s a
  have hbound : ((s.heard a).setReg (dieReg a.die BLW_AGENTS) m).bu.stage ≤ 9 := by
    rw [State.setReg_bu]; exact heard_bound a (censusOpen_bound ho)
  have hrouter := censusRouter_counted hbound (a := a) (by rw [agent_setReg]; exact hpresent) a.die m ps
  have hall := hrouter.trans (censusNext_counted a hrouter.bound)
  exact ⟨hall.probing (by rw [agent_setReg]; exact hprobe), by rw [hall.masks a.die, State.reg_setReg_self]⟩

end Sys2Proof.Machine
end

section
/-! PROOFS. Stage 3 (R76, R77, R192, R306): the first domain under KILL, the next domains of a good or a bad one, the ALIGN that ends the stage; and what
the census and stage 3 come to. -/
namespace Sys2Proof.Machine

-- One theorem at a time: with the joint text's other threads, parallel ones would pass the memory that the check gives.
set_option Elab.async false

/-! ### The first domain (R306) -/

theorem setFp_frame (s : State) (t : TileIx) (x : Fp) : Frame [.plan] s (s.setFp t x) := fun p hp => by
  cases p <;> first | rfl | exact absurd (by decide) hp

theorem epochUp_frame (s : State) : Frame [.plan, .regs, .msix, .recd, .subs, .i3c, .out] s s.epochUp :=
  (((modPlan_frame s _).mono).irq (by decide)).event (by decide)

theorem makeDefect_frame (s : State) (t : TileIx) (cause : Nat) :
    Frame [.plan, .tiles, .bu, .regs, .msix, .recd, .subs, .i3c, .out] s (s.makeDefect t cause) :=
  ((((setFp_frame s t _).mono.trans (modTile_frame _ t _).mono).modBu (by decide)).trans (epochUp_frame _).mono).modPlan (by decide)

theorem retireAtStart_frame (s : State) : Frame [.plan, .tiles, .bu, .regs, .msix, .recd, .subs, .i3c, .out] s s.retireAtStart :=
  .ite (.refl _ s) (.each (fun s t => makeDefect_frame s t 5) _ _)

theorem retireAtStart_sameStage (s : State) : SameStage s s.retireAtStart := .ite (.refl s) (.each (fun s t => makeDefect_sameStage s t 5) _ _)

/-- Stage 3 starts the anchor main domain, with KILL on every compute region. -/
theorem doStage3_starts {s : State} (ho : s.stageOpen 3 = true) (hd : s.pw.domOn = 0) (hr : s.time.refclk = true) :
    (doStage3 s).bu.stage = 3 ∧ (doStage3 s).hl.kill &&& computeDomains = computeDomains ∧ (doStage3 s).pw.domOn = domMask [40] ∧
      (doStage3 s).bu.linkWaits = [] ∧ (doStage3 s).bu.retries = [] ∧ (doStage3 s).bu.cast = none := by
  have hstage : s.bu.stage = 3 := (stageOpen_current ho).1
  have heq : doStage3 s = (((s.assertKill computeDomains).modPw fun p => { p with domOn := domMask [40] }).retireAtStart).modBu fun b =>
      { b with good := (((s.assertKill computeDomains).modPw fun p => { p with domOn := domMask [40] }).retireAtStart).candidates
               retries := [], linkWaits := [], fullUnits := [], cast := none } := by
    simp [doStage3, ho, hd, hr]
  have hkill := assertKill_covers s
  have hsame := retireAtStart_sameStage ((s.assertKill computeDomains).modPw fun p => { p with domOn := domMask [40] })
  have hframe := retireAtStart_frame ((s.assertKill computeDomains).modPw fun p => { p with domOn := domMask [40] })
  have hhl := hframe .hl (by decide)
  have hpw := hframe .pw (by decide)
  rw [heq]
  refine ⟨(hsame (Nat.le_of_eq hstage.symm)).1.trans hstage, ?_, ?_, rfl, rfl, rfl⟩
  · rw [State.modBu_hl, show _ = _ from hhl]; exact hkill
  · rw [State.modBu_pw, show _ = _ from hpw]; rfl

theorem doStage3_fails {s : State} (ho : s.stageOpen 3 = true) (hd : s.pw.domOn = 0) (hr : s.time.refclk = false) :
    (doStage3 s).bu.failed = true ∧ (doStage3 s).bu.failCode = 0x070C := by
  have heq : doStage3 s = s.stageFail ⟨5, 0, 0, 0x070C, []⟩ := by simp [doStage3, ho, hd, hr]
  rw [heq]
  exact stageFail_failed s _

/-! ### The next domains (R306) -/

theorem firstDomains_nodup (s : State) : s.firstDomains.Nodup := by
  have hio : s.ioDies ≤ 16 := by unfold State.ioDies; split <;> omega
  have hmem : ∀ k ∈ (List.range 8).map memDomain, 16 ≤ k ∧ k < 24 := by decide
  have hlink : ∀ k ∈ s.linkDomains, 24 ≤ k ∧ k < 40 := fun k hk => by
    obtain ⟨j, hj, rfl⟩ := List.mem_map.mp hk
    have := List.mem_range.mp (List.mem_filter.mp hj).1
    omega
  have hlinks : s.linkDomains.Nodup := (List.nodup_range.filter _).map fun i j h => by omega
  refine List.nodup_cons.mpr ⟨fun h => ?_, List.nodup_append.mpr ⟨by decide, hlinks, fun i hi j hj => ?_⟩⟩
  · rcases List.mem_append.mp h with h | h
    · have := hmem _ h; omega
    · have := hlink _ h; omega
  · have := hmem i hi
    have := hlink j hj
    omega

/-- What follows an element of a list without repetition is another one. -/
theorem not_mem_after {l : List Nat} (hl : l.Nodup) (d n : Nat) : d ∉ ((l.dropWhile fun k => k != d).drop 1).take n := fun h => by
  induction l with
  | nil => simp at h
  | cons k l ih =>
    obtain ⟨hk, hl'⟩ := List.nodup_cons.mp hl
    by_cases e : k = d
    · subst e
      simp only [List.dropWhile_cons, bne_self_eq_false, Bool.false_eq_true, if_false, List.drop_one, List.tail_cons] at h
      exact hk (List.mem_of_mem_take h)
    · have hne : (k != d) = true := by simpa using e
      rw [List.dropWhile_cons, if_pos hne] at h
      exact ih hl' h

/-- A bad domain is not among those that follow it. -/
theorem nextDomains_self (s : State) (d : DomainIx) : (s.nextDomains d false).getLsbD d.val = false := by
  rw [State.nextDomains, domMask_getLsbD _ d.isLt, decide_eq_false_iff_not, List.mem_append, not_or]
  exact ⟨not_mem_after (firstDomains_nodup s) d.val 1, by simp⟩

/-- A good memory domain is followed by the two regions of its compute die. -/
theorem nextDomains_regions (s : State) {d : DomainIx} (hl : 16 ≤ d.val) (hh : d.val < 24) {k : Nat}
    (hk : k = 2 * (d.val - 16) ∨ k = 2 * (d.val - 16) + 1) : (s.nextDomains d true).getLsbD k = true := by
  rw [State.nextDomains, domMask_getLsbD _ (by omega), decide_eq_true_eq, List.mem_append]
  exact .inr (by simpa [hl, hh] using hk)

/-- The try of an ALIGN moves the lines, the time base and the reset. -/
theorem advance_frame (s : State) (m : BitVec 41) (p : Nat) :
    Frame [.regs, .msix, .recd, .subs, .i3c, .obs, .out, .esc, .hl, .time] s (s.advance m p).1 := by
  have hgrid : ∀ (u : State) (x : TimeBase), Frame [.regs, .msix, .recd, .subs, .i3c, .obs, .out, .esc, .hl, .time] u { u with time := x } := fun u x q hq => by
    cases q <;> first | rfl | exact absurd (by decide) hq
  have hgen : ∀ (c : Prop) [Decidable c] (f : Escalation → Escalation),
      Frame [.regs, .msix, .recd, .subs, .i3c, .obs, .out, .esc, .hl, .time] s (if c then s else s.modEsc f) := fun c _ f =>
    .ite (.refl _ s) (modEsc_frame s f).mono
  unfold State.advance
  extract_lets a share wait
  clear_value a share wait
  split
  · exact (emit_frame s _).mono
  · exact ((hgen _ _).modHl (by decide)).trans (hgrid _ _)

theorem goAlign_frame (s : State) (r : Reset) : Frame [.regs, .msix, .recd, .subs, .i3c, .obs, .out, .esc, .hl, .time] s (s.goAlign r) :=
  (advance_frame s _ _).modEsc (by decide)

theorem tryAlign_frame (s : State) : Frame [.regs, .msix, .recd, .subs, .i3c, .obs, .out, .esc, .hl, .time] s s.tryAlign := by
  unfold State.tryAlign
  dsimp only
  split
  · exact .refl _ s
  · split
    · exact goAlign_frame s _
    · exact fun q hq => by cases q <;> first | rfl | exact absurd (by decide) hq

/-- A good domain, and what is started after it. -/
theorem domainGood {s : State} {d : DomainIx} (ho : s.stageOpen 3 = true) (hon : s.pw.domOn.getLsbD d.val = true) (hg : s.pw.gridOk.getLsbD d.val = false) :
    (doDomainPowerGood d .ok s).bu = s.bu ∧ (doDomainPowerGood d .ok s).pw = { s.pw with
      domOn := s.pw.domOn ||| s.nextDomains d true, domGood := s.pw.domGood ||| BitVec.ofNat 41 (2 ^ d.val)
      locked := s.pw.locked ||| BitVec.ofNat 41 (2 ^ d.val), gridOk := s.pw.gridOk ||| BitVec.ofNat 41 (2 ^ d.val) } := by
  have heq : doDomainPowerGood d .ok s = (s.modPw fun p => { p with
      domOn := p.domOn ||| s.nextDomains d true, domGood := p.domGood ||| BitVec.ofNat 41 (2 ^ d.val)
      locked := p.locked ||| BitVec.ofNat 41 (2 ^ d.val), gridOk := p.gridOk ||| BitVec.ofNat 41 (2 ^ d.val) }).tryAlign := by
    unfold doDomainPowerGood
    rw [if_neg (by rw [ho, hon, hg]; decide)]
  rw [heq]
  exact ⟨tryAlign_frame _ .bu (by decide), tryAlign_frame _ .pw (by decide)⟩

theorem mark_getLsbD (m : BitVec 41) (d : DomainIx) : (m ||| BitVec.ofNat 41 (2 ^ d.val)).getLsbD d.val = true := by
  rw [BitVec.getLsbD_or, single_getLsbD _ _ d.isLt]; simp

/-! ### A domain that is lost (R305) -/

/-- The state in which a bad domain has lost its die. -/
def State.domainLost (s : State) (d : DomainIx) (code why : Nat) : State :=
  (s.setNat (dieReg (s.dieOfDomain d) DWD_POWER_FAIL) (d.val * 2 ^ 8 + why)).loseDie (s.dieOfDomain d) ⟨5, 4, (s.dieOfDomain d).val, code, [i4 d.val]⟩

/-- What follows a bad domain. -/
theorem domainBad_eq {s : State} {d : DomainIx} {r : DomainRes} (ho : s.stageOpen 3 = true) (hon : s.pw.domOn.getLsbD d.val = true)
    (hg : s.pw.gridOk.getLsbD d.val = false) (hr : r ≠ .ok) : ∃ code why, doDomainPowerGood d r s = ((s.domainLost d code why).modPw fun p => { p with
      domOn := (p.domOn &&& ~~~ BitVec.ofNat 41 (2 ^ d.val)) ||| if (s.domainLost d code why).bu.failed then 0 else s.nextDomains d false }).tryAlign := by
  have hopen : (!s.stageOpen 3 || !s.pw.domOn.getLsbD d.val || s.pw.gridOk.getLsbD d.val) = false := by rw [ho, hon, hg]; rfl
  unfold doDomainPowerGood
  simp only [hopen, Bool.false_eq_true, if_false]
  cases r with
  | ok => exact absurd rfl hr
  | late => exact ⟨0x070A, 1, rfl⟩
  | notLocked => exact ⟨0x070B, 2, rfl⟩
  | gridFail => exact ⟨0x070D, 3, rfl⟩

theorem canExclude_congr {s t : State} (hb : t.bu = s.bu) (hf : t.fused = s.fused) (ut : Nat) : t.canExclude ut = s.canExclude ut := by
  have hio : t.ioDies = s.ioDies := by rw [State.ioDies, State.ioDies, hf]
  have hst : t.stackCount = s.stackCount := by rw [State.stackCount, State.stackCount, hf]
  rw [State.canExclude, State.canExclude, hb, hio, hst]

/-- An I/O die is lost as far as degraded service allows; any other loss ends the pass. -/
theorem loseDie_outcome {s : State} (d : DieIx) (e : Event) (hf : s.bu.failed = false) (hx : s.isExcluded 4 d.val = false) :
    (8 ≤ d.val → d ≠ s.anchor → s.canExclude 4 = true → (s.loseDie d e).isExcluded 4 d.val = true ∧ (s.loseDie d e).bu.failed = false) ∧
      (d.val < 8 ∨ d = s.anchor ∨ s.canExclude 4 = false → (s.loseDie d e).bu.failed = true) := by
  refine ⟨fun hio hanchor hcan => ?_, fun hlost => ?_⟩
  · have heq : s.loseDie d e = (s.emit { e with cls := 4 }).modBu fun b => { b with excluded := b.excluded ++ [(4, d.val)] } := by
      simp [State.loseDie, State.excludeUnit, hio, hanchor, hx, hcan]
    rw [heq]
    exact ⟨by simp [State.isExcluded], by rw [State.modBu_bu, State.emit_bu]; exact hf⟩
  · have heq : s.loseDie d e = s.stageFail { e with cls := 5 } := by
      unfold State.loseDie
      split
      · next h =>
        have hcan : s.canExclude 4 = false := by
          rcases hlost with h8 | ha | hc
          · omega
          · exact absurd ha h.2
          · exact hc
        simp [State.excludeUnit, hx, hcan]
      · rfl
    rw [heq]
    exact (stageFail_failed s _).1

/-- A bad domain is off, and its die is lost. -/
theorem domainBad {s : State} {d : DomainIx} {r : DomainRes} (ho : s.stageOpen 3 = true) (hon : s.pw.domOn.getLsbD d.val = true)
    (hg : s.pw.gridOk.getLsbD d.val = false) (hr : r ≠ .ok) (hx : s.isExcluded 4 (s.dieOfDomain d).val = false) :
    (doDomainPowerGood d r s).pw.domOn.getLsbD d.val = false ∧
      (8 ≤ (s.dieOfDomain d).val → s.dieOfDomain d ≠ s.anchor → s.canExclude 4 = true →
        (doDomainPowerGood d r s).isExcluded 4 (s.dieOfDomain d).val = true ∧ (doDomainPowerGood d r s).bu.failed = false) ∧
      ((s.dieOfDomain d).val < 8 ∨ s.dieOfDomain d = s.anchor ∨ s.canExclude 4 = false → (doDomainPowerGood d r s).bu.failed = true) := by
  obtain ⟨code, why, heq⟩ := domainBad_eq ho hon hg hr
  have hreg := setNat_frame s (dieReg (s.dieOfDomain d) DWD_POWER_FAIL) (d.val * 2 ^ 8 + why)
  have hbu : (s.setNat (dieReg (s.dieOfDomain d) DWD_POWER_FAIL) (d.val * 2 ^ 8 + why)).bu = s.bu := hreg .bu (by decide)
  have hfused : (s.setNat (dieReg (s.dieOfDomain d) DWD_POWER_FAIL) (d.val * 2 ^ 8 + why)).fused = s.fused := hreg .fused (by decide)
  have hcan := canExclude_congr hbu hfused 4
  have hanchor : (s.setNat (dieReg (s.dieOfDomain d) DWD_POWER_FAIL) (d.val * 2 ^ 8 + why)).anchor = s.anchor := by rw [State.anchor, State.anchor, hfused]
  obtain ⟨hkeep, hlose⟩ := loseDie_outcome (s := s.setNat (dieReg (s.dieOfDomain d) DWD_POWER_FAIL) (d.val * 2 ^ 8 + why)) (s.dieOfDomain d)
    ⟨5, 4, (s.dieOfDomain d).val, code, [i4 d.val]⟩ (by rw [hbu]; exact (stageOpen_current ho).2) (by rw [State.isExcluded, hbu]; exact hx)
  rw [hcan, hanchor] at hkeep hlose
  have hend : (doDomainPowerGood d r s).bu = (s.domainLost d code why).bu := by rw [heq]; exact tryAlign_frame _ .bu (by decide)
  have hpw : (doDomainPowerGood d r s).pw = { (s.domainLost d code why).pw with
      domOn := ((s.domainLost d code why).pw.domOn &&& ~~~ BitVec.ofNat 41 (2 ^ d.val)) |||
        if (s.domainLost d code why).bu.failed then 0 else s.nextDomains d false } := by rw [heq]; exact tryAlign_frame _ .pw (by decide)
  refine ⟨?_, ?_, ?_⟩
  · have hnext : (if (s.domainLost d code why).bu.failed then 0 else s.nextDomains d false).getLsbD d.val = false := by
      split
      · simp
      · exact nextDomains_self s d
    rw [hpw, BitVec.getLsbD_or, hnext, BitVec.getLsbD_and, BitVec.getLsbD_not, single_getLsbD _ _ d.isLt]
    simp
  · rw [State.isExcluded, hend]; exact hkeep
  · rw [hend]; exact hlose

/-! ### The ALIGN (R76, R77) -/

theorem quietReg_dieReg (d : DieIx) {o : Nat} (ho : o < 0x1000) (hs : standingOffsets.contains o = false) : quietReg (dieReg d o) = true :=
  quietReg_offset (dieReg_page d ho) hs

@[simp] theorem applyImage_kept (b : Bool) (s : State) (u : TileIx ⊕ ArrayUnit) : Kept b s (s.applyImage u) := by
  have hquiet : quietReg (dieReg (s.memDie u) DWD_ISLAND) = true := quietReg_dieReg _ (by decide) (by decide)
  refine Keeps.kept ?_
  simp [State.applyImage, hquiet]

@[simp] theorem sendIdentity_kept (b : Bool) (s : State) (p : PortIx) : Kept b s (s.sendIdentity p) := emitOut_kept b s _

@[simp] theorem openPort_kept (b : Bool) (s : State) (a : AgentIx) : Kept b s (s.openPort a) := by
  have hquiet : quietReg (s.pageBase a + TWD_PORT_STATE) = true := quietReg_pageBase s a (by decide) (by decide)
  refine Keeps.kept ?_
  simp [State.openPort, hquiet]

/-- The regions that an ALIGN lets go (R77). -/
def State.going (s : State) (late : List DomainIx) : BitVec 41 := s.hl.armed &&& ~~~ (domMask (late.map Fin.val) &&& s.hl.armed)

/-- The state in which the regions have left reset at a grid point. -/
def State.aligned (s : State) (late : List DomainIx) (a : Nat) : State :=
  ({ s with time := { s.time with tb := max s.time.tb a, alignPt := a, alignAt := none } }).modHl fun h => { h with
    kill := h.kill &&& ~~~ s.going late, armed := 0, released := (domainsIn (s.going late)).foldl (fun t (d : DomainIx) => tput t d.val a) h.released }

/-- What else an ALIGN does keeps everything. -/
theorem alignRelease_keeps {s : State} {a : Nat} (h : s.time.alignAt = some a) (late : List DomainIx) :
    Keeps true (s.aligned late a) (s.alignRelease late) := by
  unfold State.alignRelease
  rw [h]
  dsimp only
  rw [← State.going, ← State.aligned]
  simp

/-- With no armed domain late, all the armed ones go. -/
theorem going_all {s : State} {late : List DomainIx} (h : (late.filter fun d => s.hl.armed.getLsbD d.val) = []) : s.going late = s.hl.armed := by
  have hnone : domMask (late.map Fin.val) &&& s.hl.armed = 0 := by
    refine BitVec.eq_of_getLsbD_eq fun d hd => ?_
    rw [BitVec.getLsbD_and, domMask_getLsbD _ hd]
    by_cases hmem : d ∈ late.map Fin.val
    · obtain ⟨e, he, rfl⟩ := List.mem_map.mp hmem
      have hnot := List.filter_eq_nil_iff.mp h e he
      rw [Bool.not_eq_true] at hnot
      rw [hnot, Bool.and_false]
      exact BitVec.getLsbD_zero.symm
    · rw [decide_eq_false hmem, Bool.false_and]
      exact BitVec.getLsbD_zero.symm
  refine BitVec.eq_of_getLsbD_eq fun d hd => ?_
  rw [State.going, hnone, BitVec.getLsbD_and, BitVec.getLsbD_not]
  simp [hd]

theorem released_killed (k m : BitVec 41) : k &&& ~~~ m &&& m = 0 := by
  have h : ∀ x y : Bool, (x && !y && y) = false := by decide
  refine BitVec.eq_of_getLsbD_eq fun d hd => ?_
  simp [hd, h]

/-- The ALIGN of stage 3 ends the stage and is the origin of the trace clock (R76). -/
theorem alignGridPoint_eq {s : State} {late : List DomainIx} {a : Nat} (hr : s.time.refclk = true) (ha : s.time.alignAt = some a)
    (ho : s.stageOpen 3 = true) (hl : (late.filter fun d => s.hl.armed.getLsbD d.val) = []) :
    doAlignGridPoint late s = ((({ s.alignRelease late with time := { (s.alignRelease late).time with origin := some a } }).each
      ((s.alignRelease late).allAgents.filter fun (a : AgentIx) => a.agent.val != 31) fun s a => s.openPort a).stageDone 3 0) := by
  have hpoint : (s.time.alignAt.filter fun _ => s.time.refclk) = some a := by rw [ha, hr]; rfl
  unfold doAlignGridPoint
  rw [hpoint]
  dsimp only
  rw [if_pos ho, if_neg (not_not.mpr hl)]

theorem alignGridPoint_ends {s : State} {late : List DomainIx} {a : Nat} (hr : s.time.refclk = true) (ha : s.time.alignAt = some a)
    (ho : s.stageOpen 3 = true) (hl : (late.filter fun d => s.hl.armed.getLsbD d.val) = []) :
    (doAlignGridPoint late s).bu.stage = 4 ∧ (doAlignGridPoint late s).time.origin = some a ∧ (doAlignGridPoint late s).time.alignAt = none ∧
      (doAlignGridPoint late s).hl.kill &&& s.hl.armed = 0 := by
  have hrel := alignRelease_keeps ha late
  rw [alignGridPoint_eq hr ha ho hl]
  generalize s.alignRelease late = u at hrel ⊢
  have hports : Keeps true { u with time := { u.time with origin := some a } } (({ u with time := { u.time with origin := some a } }).each
      (u.allAgents.filter fun (a : AgentIx) => a.agent.val != 31) fun s a => s.openPort a) := by simp
  obtain ⟨hkill, htime⟩ := stageDone_kill (({ u with time := { u.time with origin := some a } }).each
      (u.allAgents.filter fun (a : AgentIx) => a.agent.val != 31) fun s a => s.openPort a) (n := 3) (by decide) 0
  refine ⟨?_, ?_, ?_, ?_⟩
  · rw [stageDone_bu, afterBoundary_stage]; rfl
  · rw [htime, hports.time]
  · rw [htime, hports.time]; exact congrArg TimeBase.alignAt hrel.time
  · have hline : u.hl.kill = s.hl.kill &&& ~~~ s.hl.armed := by
      rw [hrel.kill, State.aligned, going_all hl]; rfl
    rw [hkill, hports.kill]
    exact (congrArg (· &&& s.hl.armed) hline).trans (released_killed _ _)

/-! ### The statement -/

/-- Settles O40: the census keeps what it has taken down of an agent, and stage 3 goes domain by domain. -/
theorem censusAndPower : Obligations.CensusAndPower := by
  refine ⟨fun s a ho hx hp => ⟨_, rfl, ?_⟩, fun s a st mn mx bad ho hx hp => ⟨_, rfl, ?_⟩, fun s a m ps ho hx hp ha => ⟨_, rfl, ?_⟩,
    fun s ho hd hr => ⟨_, rfl, ?_⟩, fun s ho hd hr => ⟨_, rfl, ?_⟩, fun s d ho hon hg _ => ⟨_, rfl, ?_⟩, fun s d r ho hon hg _ hr hx => ⟨_, rfl, ?_⟩,
    fun s late a hr ha ho hl => ⟨_, rfl, ?_⟩⟩
  · simp only [settle_agent]
    exact agentTimeout_counted ho hx hp
  · simp only [settle_agent]
    exact agentReply_counted ho hx hp st mn mx bad
  · rw [settle_agent, State.reg_congr (settle_regs _)]
    exact routerReply_counted ho hx hp ha m ps
  · exact doStage3_starts ho hd hr
  · exact doStage3_fails ho hd hr
  · obtain ⟨hbu, hpw⟩ := domainGood ho hon hg
    have hnow : ∀ k, (settle (doDomainPowerGood d .ok s)).pw.domOn.getLsbD k = (s.pw.domOn ||| s.nextDomains d true).getLsbD k := fun k => by
      show (doDomainPowerGood d .ok s).pw.domOn.getLsbD k = _
      rw [hpw]
    have hregion : ∀ k, 16 ≤ d.val → d.val < 24 → (k = 2 * (d.val - 16) ∨ k = 2 * (d.val - 16) + 1) →
        (settle (doDomainPowerGood d .ok s)).pw.domOn.getLsbD k = true := fun k h1 h2 hk => by
      rw [hnow, BitVec.getLsbD_or, nextDomains_regions s h1 h2 hk, Bool.or_true]
    refine ⟨?_, ?_, ?_, ?_, fun h1 h2 => ⟨hregion _ h1 h2 (.inl rfl), hregion _ h1 h2 (.inr rfl)⟩, hbu⟩
    · show (doDomainPowerGood d .ok s).pw.gridOk.getLsbD d.val = true
      rw [hpw]; exact mark_getLsbD _ d
    · show (doDomainPowerGood d .ok s).pw.domGood.getLsbD d.val = true
      rw [hpw]; exact mark_getLsbD _ d
    · show (doDomainPowerGood d .ok s).pw.locked.getLsbD d.val = true
      rw [hpw]; exact mark_getLsbD _ d
    · show (doDomainPowerGood d .ok s).pw.domOn = _
      rw [hpw]
  · exact domainBad ho hon hg hr hx
  · exact alignGridPoint_ends hr ha ho hl

end Sys2Proof.Machine
end

section
/-! PROOFS. What the operations of the reset ladder keep (R190 to R211, R238 to R250): fences and re-placements, kills, snapshots, STOP. One rule per
operation, in the order of the model. -/
namespace Sys2Proof.Machine

-- One theorem at a time: with the joint text's other threads, parallel ones would pass the memory that the check gives.
set_option Elab.async false

/-! ### Reports of resets and fences -/

/-- The registers of the Hearth page that the ladder moves. -/
@[simp] theorem quietReg_ladder : quietReg HRT_ESC_CAUSE = true ∧ quietReg HRT_ESC_COUNTS = true ∧ quietReg HRT_FENCE_LAST = true ∧
    quietReg HRT_FENCE_LATENCY = true := by decide

@[simp] theorem sendNotices_kept (b : Bool) (s : State) (ps : List PortIx) (scope : Fin 7) (after : Byte) (gens : List Byte) (cs : List CtxIx) :
    Kept b s (s.sendNotices ps scope after gens cs) := by
  have hquiet : ∀ p, quietReg (linkReg p LWD_NOTICE) = true := fun p => quietReg_linkReg p (by decide)
  refine Keeps.kept ?_
  simp [State.sendNotices, hquiet]

/-! ### Fences and re-placements (R190 to R211) -/

/-- A new place of a tile in the floor plan. -/
@[simp] theorem modFp_kept (s : State) (t : TileIx) (f : Fp → Fp) : Kept false s (s.modFp t f) :=
  Keeps.kept ⟨rfl, fun h => Bool.noConfusion h, fun _ => id, fun _ => rfl, .of_regs rfl, ⟨fun _ => id, id, rfl⟩⟩

/-- A fence that is over. -/
@[simp] theorem endFence_kept (b : Bool) (s : State) (k : Nat) : Kept b s (s.modPlan fun p => { p with fencing := tdel p.fencing k }) := by
  refine Keeps.kept ⟨rfl, fun _ => rfl, fun j hj => ?_, fun _ => rfl, .of_regs rfl, ⟨fun _ => id, id, rfl⟩⟩
  by_cases h : j = k
  · subst h; exact tget?_tdel_self _ _
  · exact (tget?_tdel_ne _ h).trans hj

@[simp] theorem askReturn_kept (b : Bool) (s : State) (t : TileIx) (n : Nat) (c : Option Event) : Kept b s (s.askReturn t n c) :=
  Keeps.kept (by simp [State.askReturn])

@[simp] theorem fencePlan_kept (s : State) (t : TileIx) (n : Nat) (c : Option Event) (p : Option TileIx) (at0 : Nat) :
    Kept false s (s.fencePlan t n c p at0) := by
  refine Keeps.kept ?_
  unfold State.fencePlan
  dsimp only
  split
  · split
    · simp
    · split <;> simp
  · split <;> simp

@[simp] theorem payNotices_kept (b : Bool) (s : State) (t : TileIx) : Kept b s (s.payNotices t) :=
  Keeps.kept ((modShadow_kept b s fun x => { x with owed := x.owed.filter fun o => o.a.p != t }).keeps.trans (.each (fun s o => by simp) _ _))

@[simp] theorem watchOn_kept (s : State) (t : TileIx) : Kept false s (s.watchOn t) := Keeps.kept (by simp [State.watchOn])

@[simp] theorem endArb_kept (b : Bool) (s : State) (i : Nat) (a : Arb) : Kept b s (s.endArb i a) := by
  refine Keeps.kept ?_
  unfold State.endArb
  dsimp only
  split <;> simp

@[simp] theorem abandonArb_kept (s : State) (a : Arb) : Kept false s (s.abandonArb a) := Keeps.kept (by simp [State.abandonArb])

@[simp] theorem abandonArbsOf_kept (s : State) (t : TileIx) : Kept false s (s.abandonArbsOf t) := by
  unfold State.abandonArbsOf
  refine Keeps.kept (Keeps.trans (.each (fun s i => ?_) _ _) (.each (fun s a => by simp) _ _))
  split <;> simp

@[simp] theorem abortTest_kept (b : Bool) (s : State) (t : TileIx) : Kept b s (s.abortTest t) := Keeps.kept (by simp [State.abortTest])

@[simp] theorem claimSpare_kept (s : State) (t : TileIx) (a : Bool) : Kept false s (s.claimSpare t a) := Keeps.kept (by simp [State.claimSpare])

@[simp] theorem moveLogical_kept (s : State) (l : LogIx) (u : TileIx) : Kept false s (s.moveLogical l u) := Keeps.kept (by simp [State.moveLogical])

@[simp] theorem stepTwo_kept (s : State) (r : Repl) (u : TileIx) : Kept false s (s.stepTwo r u) := by
  unfold State.stepTwo
  extract_lets s1 s2
  have h1 : Keeps false s s1 := by simp [s1]
  have h2 : Keeps false s1 s2 := by
    unfold s2
    split <;> simp
  exact Keeps.kept (.ite (h1.trans h2) ((h1.trans h2).trans (emit_kept false s2 _).keeps))

/-! ### Kills (R242, R243) -/

@[simp] theorem killDigests_kept (b : Bool) (s : State) (c : CtxIx) : Kept b s (s.killDigests c) := by
  have hstacks : ∀ l : Tab Stack, Keeps b s { s with hbm := l } := fun l =>
    .of_frame (l := [.hbm]) (fun p hp => by cases p <;> first | rfl | exact absurd (by decide) hp) (by decide)
  exact Keeps.kept (((hstacks _).trans (modOfd_kept b _ _).keeps).trans (.each (fun s r => by simp) _ _))

@[simp] theorem killOutside_kept (b : Bool) (s : State) (c : CtxIx) : Kept b s (s.killOutside c) := by
  have hends : ∀ u : State, Keeps b u { u with esc := { u.esc with
      spills := u.esc.spills.filter fun p => p.ctx != c, spilled := u.esc.spilled.filter fun p => p.1 != c
      starved := u.esc.starved.filter fun p => p.1 != c, graph := u.esc.graph.filter fun g => g.e.ctx != c } } := fun u =>
    (modEsc_kept b u (f := fun e => { e with
      spills := e.spills.filter fun p => p.ctx != c, spilled := e.spilled.filter fun p => p.1 != c
      starved := e.starved.filter fun p => p.1 != c, graph := e.graph.filter fun g => g.e.ctx != c }) fun _ => ⟨rfl, rfl, rfl, rfl⟩).keeps
  exact Keeps.kept (Keeps.trans (by simp) (hends ((s.killDigests c).abandonWatches fun w => w.ctx == c)))

@[simp] theorem endKill_kept (b : Bool) (s : State) (c : CtxIx) (p : Option Pend) : Kept b s (s.endKill c p) := by
  refine Keeps.kept ?_
  unfold State.endKill
  split <;> simp

@[simp] theorem sendKill_kept (b : Bool) (s : State) (c : CtxIx) (p : Option Pend) : Kept b s (s.sendKill c p) := Keeps.kept (by simp [State.sendKill])

@[simp] theorem startKill_kept (b : Bool) (s : State) (c : CtxIx) (p : Option Pend) : Kept b s (s.startKill c p) := Keeps.kept (by simp [State.startKill])

@[simp] theorem noSpare_kept (s : State) (r : Repl) : Kept false s (s.noSpare r) := by
  refine Keeps.kept ?_
  unfold State.noSpare
  dsimp only
  split <;> simp

@[simp] theorem settleRepl_kept (s : State) (ts : List TileIx) : Kept false s (s.settleRepl ts) := by
  unfold State.settleRepl
  extract_lets hit s0 s1 s2 mine
  have h1 : Keeps false s s1 := by simp [s1, s0]
  have h2 : Keeps false s1 s2 := by simp [s2]
  refine Keeps.kept ((h1.trans h2).trans (Keeps.trans (by simp) (.each (fun s r => ?_) mine _)))
  split <;> simp

/-! ### STOP, snapshots and what a reset ends -/

@[simp] theorem stopTests_kept (b : Bool) (s : State) (m : BitVec 41) : Kept b s (s.stopTests m) := Keeps.kept (by simp [State.stopTests])

@[simp] theorem latchStops_kept (b : Bool) (s : State) (m : BitVec 41) : Kept b s (s.latchStops m) := by
  unfold State.latchStops
  extract_lets at1 ns40 smear
  clear_value at1 ns40 smear
  refine Keeps.kept (.ite (.refl b s) (Keeps.trans ?_ (setNat_kept b _ (k := HRT_SMEAR) (by decide) smear).keeps))
  exact ⟨rfl, fun _ => rfl, fun _ => id, fun _ => rfl, .of_regs rfl, ⟨fun _ => id, id, rfl⟩⟩

@[simp] theorem assertStop_kept (b : Bool) (s : State) (m : BitVec 41) : Kept b s (s.assertStop m) := Keeps.kept (by simp [State.assertStop])

@[simp] theorem assertKill_kept (s : State) (m : BitVec 41) : Kept false s (s.assertKill m) :=
  Keeps.kept ⟨rfl, fun h => Bool.noConfusion h, fun _ => id, fun _ => rfl, .of_regs rfl, ⟨fun _ => id, id, rfl⟩⟩

@[simp] theorem countHeld_kept (b : Bool) (s : State) (a : AgentIx) : Kept b s (s.countHeld a) := by
  have hquiet : quietReg (s.pageBase a + TWD_PORT_WAIT) = true := quietReg_pageBase s a (by decide) (by decide)
  refine Keeps.kept ?_
  unfold State.countHeld
  split
  · simp [hquiet]
  · simp

@[simp] theorem dropRead_kept (b : Bool) (s : State) (a : AgentIx) : Kept b s (s.dropRead a) := by
  refine Keeps.kept ?_
  unfold State.dropRead
  split <;> simp

@[simp] theorem setSnap_kept (b : Bool) (s : State) (i : Nat) (x : Snap) : Kept b s (s.setSnap i x) :=
  modEsc_kept b s (f := fun e => { e with snaps := e.snaps.set i x }) fun _ => ⟨rfl, rfl, rfl, rfl⟩

@[simp] theorem countMissed_kept (b : Bool) (s : State) : Kept b s s.countMissed := by
  unfold State.countMissed
  split
  · next x _ => exact modEsc_kept b s (f := fun e => { e with snapMissed := x.noresp.length + x.lost.length }) fun _ => ⟨rfl, rfl, rfl, rfl⟩
  · exact Keeps.kept (.refl b s)

@[simp] theorem moveSnap_kept (b : Bool) (s : State) (i : Nat) (x : Snap) : Kept b s (s.moveSnap i x) :=
  Keeps.kept (by simp [State.moveSnap])

@[simp] theorem snapReset_kept (b : Bool) (s : State) (f : AgentIx → Bool) : Kept b s (s.snapReset f) := Keeps.kept (by simp [State.snapReset])

@[simp] theorem dropBlocks_kept (b : Bool) (s : State) (ts : List TileIx) : Kept b s (s.dropBlocks ts) := Keeps.kept (by simp [State.dropBlocks])

@[simp] theorem dropSpills_kept (b : Bool) (s : State) (p : BitVec 4) : Kept b s (s.dropSpills p) := Keeps.kept (by simp [State.dropSpills])

@[simp] theorem dropCaptures_kept (b : Bool) (s : State) (ts : List TileIx) : Kept b s (s.dropCaptures ts) := Keeps.kept (by simp [State.dropCaptures])

@[simp] theorem dropDuties_kept (b : Bool) (s : State) (ts : List TileIx) : Kept b s (s.dropDuties ts) := Keeps.kept (by simp [State.dropDuties])

@[simp] theorem releaseOutside_kept (b : Bool) (ts : List TileIx) (a : Arb) (s : State) : Kept b s (releaseOutside ts a s) :=
  Keeps.kept (by simp [releaseOutside])

@[simp] theorem resetCases_kept (b : Bool) (s : State) (ts : List TileIx) : Kept b s (s.resetCases ts) := by
  unfold State.resetCases
  extract_lets hit drop s1
  have h1 : Keeps b s s1 := by simp [s1]
  exact Keeps.kept (h1.trans (modTest_kept b s1 fun x => { x with queue := x.queue.map drop, slots := x.slots.map fun o => o.map drop }).keeps)

@[simp] theorem resetArbs_kept (b : Bool) (s : State) (ts : List TileIx) : Kept b s (s.resetArbs ts) := by
  unfold State.resetArbs
  extract_lets hit s1 s2
  have h1 : Keeps b s s1 := .each (fun s i => by split <;> simp) _ _
  have h2 : Keeps b s1 s2 := by simp [s2]
  exact Keeps.kept ((h1.trans h2).trans (modShadow_kept b s2 _).keeps)

end Sys2Proof.Machine
end

section
/-! PROOFS. How a reset begins (R238 to R250), and the faults and requests that begin one. -/
namespace Sys2Proof.Machine

-- One theorem at a time: with the joint text's other threads, parallel ones would pass the memory that the check gives.
set_option Elab.async false

/-! ### What a reset's own steps leave -/

/-- No fence begins and what was answered stays answered, from `s` to `t`: so far goes a partition or compute-part reset as well. -/
structure Eased (s t : State) : Prop where
  fencing : ∀ k, tget? s.plan.fencing k = none → tget? t.plan.fencing k = none
  told : Told s t

theorem Eased.trans {s t u : State} (h : Eased s t) (k : Eased t u) : Eased s u := ⟨fun n hn => k.fencing n (h.fencing n hn), h.told.trans k.told⟩

theorem Keeps.eased {b : Bool} {s t : State} (h : Keeps b s t) : Eased s t := ⟨h.fencing, h.told⟩

theorem modEsc_eased (s : State) (f : Escalation → Escalation) : Eased s (s.modEsc f) := ⟨fun _ => id, .of_frame (modEsc_frame s f) (by decide)⟩

/-- What stands until a reset runs or is held: of the facts that the work of the package keeps, all that it is decided by but the times of resets. -/
structure Readied (s t : State) : Prop where
  reset : t.esc.reset = s.esc.reset
  time : t.time = s.time
  fault : t.hl.fault = s.hl.fault
  hold : t.fld HRT_ESC_HOLD 10 0 = s.fld HRT_ESC_HOLD 10 0
  eased : Eased s t

theorem Readied.trans {s t u : State} (h : Readied s t) (k : Readied t u) : Readied s u :=
  ⟨k.reset.trans h.reset, k.time.trans h.time, k.fault.trans h.fault, k.hold.trans h.hold, h.eased.trans k.eased⟩

/-- The parts of the standing facts that the ladder asks for. -/
theorem Keeps.ladder {b : Bool} {s t : State} (h : Keeps b s t) :
    t.sq.run = s.sq.run ∧ t.bu.course = s.bu.course ∧ t.esc.ladder = s.esc.ladder ∧ t.hl.fault = s.hl.fault ∧ t.hl.tripLatch = s.hl.tripLatch := by
  have hs := h.standing
  simp only [State.standing, Prod.mk.injEq] at hs
  exact hs.2

theorem Keeps.powers {b : Bool} {s t : State} (h : Keeps b s t) : t.pw = s.pw ∧ t.thm = s.thm := by
  have hs := h.standing
  simp only [State.standing, Prod.mk.injEq] at hs
  exact hs.1.2.2

theorem Keeps.fld {b : Bool} {s t : State} (h : Keeps b s t) {k : Nat} (hk : looseReg k = false) (hi lo : Nat) : t.fld k hi lo = s.fld k hi lo := by
  rw [State.fld, State.fld, h.regs k hk]

theorem Keeps.readied {b : Bool} {s t : State} (h : Keeps b s t) : Readied s t := by
  obtain ⟨-, -, hesc, hfault, -⟩ := h.ladder
  exact ⟨congrArg Prod.fst hesc, h.time, hfault, h.fld (by decide) 10 0, h.eased⟩

/-- The times of the ladder's resets are taken down (R241). -/
theorem Readied.modEsc (s : State) {f : Escalation → Escalation} (hf : ∀ e, (f e).reset = e.reset) : Readied s (s.modEsc f) :=
  ⟨hf s.esc, rfl, rfl, rfl, modEsc_eased s f⟩

/-! ### A partition or compute-part reset runs (R244, R245) -/

theorem advance_told (s : State) (m : BitVec 41) (p : Nat) : Told s (s.advance m p).1 := by
  have hgen : ∀ (c : Prop) [Decidable c] (f : Escalation → Escalation), Told s (if c then s else s.modEsc f) := fun c _ f =>
    .ite (.refl s) (.of_frame (modEsc_frame s f) (by decide))
  unfold State.advance
  extract_lets a share wait
  clear_value a share wait
  split
  · exact emit_told s _
  · exact (hgen _ _).trans ⟨fun _ => id, id, rfl⟩

theorem goAlign_eased (s : State) (r : Reset) : Eased s (s.goAlign r) :=
  have hplan : (s.goAlign r).plan = s.plan := goAlign_frame s r .plan (by decide)
  ⟨fun k hk => by rw [hplan]; exact hk, (advance_told s _ _).trans (.of_frame (modEsc_frame _ _) (by decide))⟩

/-- The reset waits for its ALIGN or for the end of the holdoff. -/
theorem goAlign_reset (s : State) (r : Reset) : ∃ ph, ph ≠ .holding ∧ (s.goAlign r).esc.reset = some { r with phase := ph } :=
  ⟨if (s.advance (s.domsOfParts r.parts) (lowPart r.parts)).2 then .aligning else .holdoff, by split <;> decide, rfl⟩

/-- All that a partition or compute-part reset does before its regions go for ALIGN keeps what the work of the package keeps. -/
theorem runCompute_goes (s : State) (r : Reset) : ∃ u, Keeps false s u ∧ s.runCompute r = u.goAlign r := by
  unfold State.runCompute
  extract_lets ts ds cs s1 s2 s3 s4 s5 s6
  have h1 : Keeps false s s1 := by simp [s1]
  have h2 : Keeps false s1 s2 := by simp [s2]
  have h3 : Keeps false s2 s3 := by simp [s3]
  have h4 : Keeps false s3 s4 := by simp [s4]
  have h5 : Keeps false s4 s5 := by simp [s5]
  have h6 : Keeps false s5 s6 := by simp [s6]
  exact ⟨s6, ((((h1.trans h2).trans h3).trans h4).trans h5).trans h6, rfl⟩

theorem runCompute_outcome (s : State) (r : Reset) :
    Eased s (s.runCompute r) ∧ ∃ ph, ph ≠ .holding ∧ (s.runCompute r).esc.reset = some { r with phase := ph } := by
  obtain ⟨u, hu, h⟩ := runCompute_goes s r
  rw [h]
  exact ⟨hu.eased.trans (goAlign_eased u r), goAlign_reset u r⟩

/-! ### A chip reset runs (R247) -/

theorem send_frame (s : State) (a : AgentIx) (m : Bell) (n : Nat) : Frame [.agents, .bus, .free, .out] s (s.send a m n) := by
  have hbus : ∀ (u : State) (x : HearthBus), Frame [.agents, .bus, .free, .out] u { u with bus := x } := fun u x q hq => by
    cases q <;> first | rfl | exact absurd (by decide) hq
  have hout : ∀ (u : State) (m : Sent), Frame [.agents, .bus, .free, .out] u (u.transmit a m) := fun u m => by
    unfold State.transmit
    refine .ite (((emitOut_frame u _).mono).trans (((modAgent_frame _ a _).mono).trans ((drawn_frame _).mono))) (emitOut_frame u _).mono
  unfold State.send
  exact .ite ((hbus _ _).trans (hout _ _)) (hbus _ _)

theorem startCensus_frame (s : State) : Frame [.agents, .bus, .free, .out] s s.startCensus := by
  have hfresh : Frame [.agents, .bus, .free, .out] s s.freshAgents := fun q hq => by
    cases q <;> first | rfl | exact absurd (by decide) hq
  exact (hfresh.trans (modAgent_frame _ _ _).mono).trans (send_frame _ _ _ _)

theorem clearStages_frame (s : State) (n : Nat) : Frame [.regs] s (s.clearStages n) :=
  .each (fun s _ => (setNat_frame s _ _).trans (setNat_frame _ _ _)) _ _

theorem resetCommandBlock_frame (s : State) : Frame [.regs, .msix, .host] s s.resetCommandBlock := fun q hq => by
  cases q <;> first | rfl | exact absurd (by decide) hq

theorem resetWardenPages_frame (s : State) : Frame [.regs, .paths] s s.resetWardenPages := fun q hq => by
  cases q <;> first | rfl | exact absurd (by decide) hq

/-- The package after the steps of a chip reset: SAFE, off, at stage 2 of its bring-up, the faults of the hard lines as they were. -/
structure Rebooted (r : Reset) (s t : State) : Prop where
  reset : t.esc.reset = some { r with phase := .aligning }
  stage : t.bu.stage = 2
  pkg : t.bu.pkg = .safe
  domOn : t.pw.domOn = 0
  link : t.pw.pcieTrained = false
  tiles : t.tiles = []
  fault : t.hl.fault = s.hl.fault

theorem runChip_rebooted (s : State) (r : Reset) : Rebooted r s (s.runChip r) := by
  unfold State.runChip
  extract_lets cs s0 s1 s2 s3 s4 s5 now power plan ofd obs bu recd esc s6
  have hlate : Frame [.regs, .agents, .bus, .free, .out] s6 ((s6.clearStages 3).startCensus) :=
    (clearStages_frame s6 3).mono.trans (startCensus_frame _).mono
  have h5 : Frame [.regs, .paths, .msix, .host] s4 s5 :=
    (((resetCommandBlock_frame s4).mono.trans (resetWardenPages_frame _).mono).trans (setNat_frame _ _ _).mono).trans (setNat_frame _ _ _).mono
  have h1 : Keeps false s (s1.setPkg .safe) := by simp [s1, s0]
  have h3 : Keeps true (s1.setPkg .safe) (s3.assertStop s3.stopReach) := by simp [s3, s2]
  have hbu5 : s5.bu.pkg = .safe := by
    rw [show s5.bu = s4.bu from h5 .bu (by decide)]
    exact h3.pkg.trans (congrArg BringUp.pkg (setPkg_bu s1 .safe))
  have hfault5 : s5.hl.fault = s.hl.fault := by
    rw [show s5.hl = s4.hl from h5 .hl (by decide)]
    exact h3.readied.fault.trans h1.readied.fault
  have hesc : ((s6.clearStages 3).startCensus).esc = s6.esc := hlate .esc (by decide)
  have hbu : ((s6.clearStages 3).startCensus).bu = s6.bu := hlate .bu (by decide)
  have hpw : ((s6.clearStages 3).startCensus).pw = s6.pw := hlate .pw (by decide)
  have htiles : ((s6.clearStages 3).startCensus).tiles = s6.tiles := hlate .tiles (by decide)
  have hhl : ((s6.clearStages 3).startCensus).hl = s6.hl := hlate .hl (by decide)
  exact ⟨by rw [hesc], by rw [hbu], by rw [hbu]; exact hbu5, by rw [hpw], by rw [hpw], by rw [htiles], by rw [hhl]; exact hfault5⟩

/-! ### A reset begins (R244, R250) -/

/-- A reset that begins has first been announced, with the re-placements settled; it names the contexts that it and its trigger kill. -/
theorem beginReset_readied {s : State} (hr : s.esc.reset = none) (l : Level) (parts0 : BitVec 4) (code : Word) (holdable : Bool) (also : List CtxIx) :
    ∃ (u : State) (cs : List CtxIx), Readied s u ∧ (∀ c ∈ also, c ∈ cs) ∧
      s.beginReset l parts0 code holdable also =
        if holdable && u.fld HRT_ESC_HOLD 10 0 != 0 then
          ((u.assertStop (if l = .chip then u.stopReach else u.domsOfParts (levelParts l parts0))).modEsc fun e => { e with
            reset := some ⟨l, levelParts l parts0, code, .holding, s.time.tb, cs⟩ }).event (.state u.bu.pkg u.bu.stage)
        else u.runReset ⟨l, levelParts l parts0, code, .holding, s.time.tb, cs⟩ := by
  unfold State.beginReset
  extract_lets parts cs now s1 s2 s3 gens s4 s5 old all r
  have h1 : Keeps false s s1 := by simp [s1]
  have h2 : Keeps false s1 s2 := by
    unfold s2
    split <;> simp
  have h3 : Readied s2 s3 := .modEsc s2 fun e => by split <;> rfl
  have h5 : Keeps false s3 s5 := by simp [s5, s4]
  have hready : Readied s s5 := (h1.readied.trans h2.readied).trans (h3.trans h5.readied)
  have hold : old = none := by
    unfold old
    rw [hready.reset, hr]
    rfl
  have hall : all = parts := by
    unfold all
    rw [hold]
    exact BitVec.zero_or
  have hreset : r = ⟨l, parts, code, .holding, now, cs⟩ := by
    unfold r
    rw [hall, hold]
    rfl
  refine ⟨s5, cs, hready, fun c hc => ?_, ?_⟩
  · simp [cs, hc]
  · rw [hreset, hall]

end Sys2Proof.Machine
end

section
/-! PROOFS. The faults and requests that begin a reset (R74, R200, R238, R246, R249, R516). -/
namespace Sys2Proof.Machine

-- One theorem at a time: with the joint text's other threads, parallel ones would pass the memory that the check gives.
set_option Elab.async false

/-! ### Which reset a trigger begins -/

/-- From `s` to `t` a reset of the level has begun, and waits in a hold exactly where one is due; no fence has, and answers stand. -/
structure Begun (l : Level) (parts : BitVec 4) (code : Word) (held : Prop) (s t : State) (ph : Phase) (cs : List CtxIx) : Prop where
  reset : t.esc.reset = some ⟨l, parts, code, ph, s.time.tb, cs⟩
  hold : ph = .holding ↔ held
  eased : Eased s t

/-- A reset that a hold applies to stands under STOP. -/
theorem hold_outcome (s : State) (m : BitVec 41) (r : Reset) (x : EvBody) :
    Eased s (((s.assertStop m).modEsc fun e => { e with reset := some r }).event x) ∧
      (((s.assertStop m).modEsc fun e => { e with reset := some r }).event x).esc.reset = some r := by
  have hstop : Eased s (s.assertStop m) := (assertStop_kept false s m).keeps.eased
  generalize s.assertStop m = u at hstop
  refine ⟨(hstop.trans (modEsc_eased u _)).trans (event_kept false _ x).keeps.eased, ?_⟩
  have hend := event_frame (u.modEsc fun e => { e with reset := some r }) x .esc (by decide)
  exact congrArg Escalation.reset hend

/-- A reset of a partition or of the compute part is held exactly when a hold applies to it and is set (R250). -/
theorem beginReset_begun {s : State} (hr : s.esc.reset = none) {l : Level} (hl : l ≠ .chip) (parts0 : BitVec 4) (code : Word) (holdable : Bool)
    (also : List CtxIx) : ∃ ph cs, (∀ c ∈ also, c ∈ cs) ∧ Begun l (levelParts l parts0) code (holdable = true ∧ s.fld HRT_ESC_HOLD 10 0 ≠ 0) s
      (s.beginReset l parts0 code holdable also) ph cs := by
  obtain ⟨u, cs, hu, hcs, h⟩ := beginReset_readied hr l parts0 code holdable also
  have hset : ((holdable && u.fld HRT_ESC_HOLD 10 0 != 0) = true) ↔ (holdable = true ∧ s.fld HRT_ESC_HOLD 10 0 ≠ 0) := by
    rw [hu.hold]
    simp
  rw [h, if_neg hl]
  split
  · next hheld =>
    obtain ⟨heased, hreset⟩ := hold_outcome u (u.domsOfParts (levelParts l parts0)) ⟨l, levelParts l parts0, code, .holding, s.time.tb, cs⟩ (.state u.bu.pkg u.bu.stage)
    exact ⟨.holding, cs, hcs, hreset, ⟨fun _ => hset.mp hheld, fun _ => rfl⟩, hu.eased.trans heased⟩
  · next hfree =>
    rw [State.runReset, if_neg hl]
    obtain ⟨heased, ph, hph, hreset⟩ := runCompute_outcome u ⟨l, levelParts l parts0, code, .holding, s.time.tb, cs⟩
    exact ⟨ph, cs, hcs, hreset, ⟨fun e => absurd e hph, fun e => absurd (hset.mpr e) hfree⟩, hu.eased.trans heased⟩

/-- A chip reset that no hold applies to runs at once. -/
theorem beginReset_chip {s : State} (hr : s.esc.reset = none) (code : Word) :
    ∃ cs, Rebooted ⟨.chip, 0xF, code, .holding, s.time.tb, cs⟩ s (s.beginReset .chip 0xF code false) := by
  obtain ⟨u, cs, hu, -, h⟩ := beginReset_readied hr .chip 0xF code false []
  rw [h, Bool.false_and, if_neg Bool.false_ne_true, State.runReset, if_pos rfl]
  have hrun := runChip_rebooted u ⟨.chip, 0xF, code, .holding, s.time.tb, cs⟩
  exact ⟨cs, { hrun with fault := hrun.fault.trans hu.fault }⟩

/-! ### The ladder stays free -/

/-- No reset runs where the ladder is free. -/
theorem State.LadderFree.idle {s : State} {l : Level} {parts : BitVec 4} (hf : s.LadderFree l parts) : s.esc.reset = none := by
  obtain ⟨-, -, -, -, -, -, -, hreset, -⟩ := hf
  exact hreset

theorem Keeps.isRepeat {b : Bool} {s t : State} (h : Keeps b s t) (l : Level) (parts : BitVec 4) : t.isRepeat l parts = s.isRepeat l parts := by
  obtain ⟨-, -, hesc, -⟩ := h.ladder
  simp only [Escalation.ladder, Prod.mk.injEq] at hesc
  obtain ⟨-, hpart, hcp, hchip⟩ := hesc
  have hwithin : t.within = s.within := funext fun o => by simp only [State.within, h.time, h.fld (k := HRT_ESC_REPEAT) (by decide)]
  unfold State.isRepeat
  rw [hwithin, hpart, hcp, hchip]

/-- The work of the package leaves the ladder free. -/
theorem Keeps.ladderFree {b : Bool} {s t : State} (h : Keeps b s t) {l : Level} {parts : BitVec 4} (hf : s.LadderFree l parts) : t.LadderFree l parts := by
  obtain ⟨hrun, hrem, hmain, htrip, hq, hqd, hfail, hreset, hrep⟩ := hf
  obtain ⟨erun, ebu, -, -, etrip⟩ := h.ladder
  obtain ⟨epw, ethm⟩ := h.powers
  have erem : t.bu.removal = s.bu.removal := (congrArg BringUp.removal ebu :)
  have efail : t.bu.failed = s.bu.failed := (congrArg BringUp.failed ebu :)
  exact ⟨erun.trans hrun, erem.trans hrem, by rw [epw, hmain], etrip.trans htrip, by rw [ethm, hq], by rw [ethm, hqd], efail.trans hfail,
    h.readied.reset.trans hreset, (h.isRepeat l parts).trans hrep⟩

/-- On a free ladder a trigger begins its own reset. -/
theorem trigger_begins {s : State} {l : Level} {parts : BitVec 4} (hf : s.LadderFree l parts) (code : Word) (holdable : Bool) (also : List CtxIx) :
    s.trigger l parts code holdable also = s.beginReset l parts code holdable also := by
  obtain ⟨hrun, hrem, hmain, htrip, hq, hqd, hfail, hreset, hrep⟩ := hf
  simp [State.trigger, hrun, hrem, hmain, htrip, hq, hqd, hfail, hreset, hrep]

/-! ### Faults -/

/-- A chip reset that follows what keeps the package's standing facts. -/
theorem chip_after {b : Bool} {s u : State} (h : Keeps b s u) (hf : s.LadderFree .chip 0xF) (code : Word) :
    ∃ cs, Rebooted ⟨.chip, 0xF, code, .holding, s.time.tb, cs⟩ s (u.trigger .chip 0xF code false) := by
  have hfree := h.ladderFree hf
  obtain ⟨cs, hchip⟩ := beginReset_chip (s := u) hfree.idle code
  rw [h.time] at hchip
  rw [trigger_begins hfree]
  exact ⟨cs, { hchip with fault := hchip.fault.trans h.readied.fault }⟩

/-- A fault of a hard line (R74): it is latched before the chip reset begins. -/
theorem hardlineFault_resets {s : State} {d : DomainIx} (line : Fin 4) (hd : s.domExists d = true) (hf : s.LadderFree .chip 0xF) :
    ∃ u cs, u.hl.fault = s.hl.fault ||| BitVec.ofNat 41 (2 ^ d.val) ∧
      Rebooted ⟨.chip, 0xF, codeOf 5 0 d.val 0x0006, .holding, s.time.tb, cs⟩ u (doHardlineFault d line s) := by
  unfold doHardlineFault
  rw [if_neg (by simp [hd])]
  extract_lets e u
  have hu : u.LadderFree .chip 0xF := hf
  obtain ⟨cs, h⟩ := chip_after (emit_kept true u e).keeps hu e.word
  exact ⟨u, cs, rfl, h⟩

/-- A reset below the chip that follows what keeps the package's standing facts. -/
theorem trigger_after {b : Bool} {s u : State} (h : Keeps b s u) {l : Level} (hl : l ≠ .chip) {parts : BitVec 4} (hf : s.LadderFree l parts) (code : Word)
    (holdable : Bool) (also : List CtxIx) : ∃ ph cs, (∀ c ∈ also, c ∈ cs) ∧
      Begun l (levelParts l parts) code (holdable = true ∧ s.fld HRT_ESC_HOLD 10 0 ≠ 0) s (u.trigger l parts code holdable also) ph cs := by
  have hfree := h.ladderFree hf
  obtain ⟨ph, cs, hcs, hreset, hhold, heased⟩ := beginReset_begun (s := u) hfree.idle hl parts code holdable also
  rw [trigger_begins hfree]
  rw [h.time] at hreset
  rw [h.readied.hold] at hhold
  exact ⟨ph, cs, hcs, hreset, hhold, h.eased.trans heased⟩

/-! ### Requests of the operator and of the host -/

theorem accepted_keeps (b : Bool) (s : State) (h : Hdr) : Keeps b s (s.accepted h) := by
  unfold State.accepted
  split
  · exact .refl b s
  · exact (setReg_kept b s (k := HRT_CMD_NEXT_SEQ) (by decide) _).keeps

/-- An answer is no message signalled interrupt: what has been answered was so before the state settled. -/
theorem answered_of_settle {s u : State} {h : Hdr} {op : Nat} {st : Status} {data : List Word} (ha : Answered s (settle u) h op st data) :
    Answered s u h op st data := by
  have hout : ∀ o, (∀ v, o ≠ Out.msix v) → o ∈ (settle u).out → o ∈ u.out := fun o ho hm => by
    rcases List.mem_append.mp hm with hm | hm
    · obtain ⟨v, -, rfl⟩ := List.mem_map.mp hm
      exact absurd rfl (ho v)
    · exact hm
  unfold Answered at ha ⊢
  split
  · next m hv =>
    rw [hv] at ha
    exact hout _ (fun v => Out.noConfusion) ha
  · next a hv =>
    rw [hv] at ha
    obtain ⟨hresponse, hcause⟩ := ha
    exact ⟨hout _ (fun v => Out.noConfusion) hresponse, hcause⟩

/-- What has been answered stays answered. -/
theorem Told.answered {s u t : State} {h : Hdr} {op : Nat} {st : Status} {data : List Word} (ht : Told u t) (ha : Answered s u h op st data) :
    Answered s (settle t) h op st data := by
  unfold Answered at ha ⊢
  split
  · next m hv =>
    rw [hv] at ha
    exact settle_out_mem (ht.out _ ha)
  · next a hv =>
    rw [hv] at ha
    obtain ⟨hresponse, hcause⟩ := ha
    exact ⟨settle_out_mem (ht.out _ hresponse), fun hn => ht.cause (hcause hn)⟩

/-- The operator's request below the chip level is answered and begins that reset, which no hold applies to (R238, R250). -/
theorem serveReset_begins {s : State} {h : Hdr} (hs : s.Serves h) (ho : h.operator = true) (hpkg : s.bu.pkg ≠ .safe) {l : Level} (hl : l ≠ .chip)
    {parts : BitVec 4} (hf : s.LadderFree l parts) : ∃ ph cs,
      (serveReset l parts ⟨h, 0x32⟩ (s.accepted h)).esc.reset = some ⟨l, levelParts l parts, 0, ph, s.time.tb, cs⟩ ∧ ph ≠ .holding ∧
        Answered s (settle (serveReset l parts ⟨h, 0x32⟩ (s.accepted h))) h 0x32 .ok [] := by
  obtain ⟨hrun, hgood, hvia⟩ := hs
  have haccept := accepted_keeps true s h
  have hanswer : Keeps true s ((s.accepted h).answer ⟨h, 0x32⟩ .ok 0 []) := haccept.trans (answer_kept true _ _ _ _ _).keeps
  have hserve : serveReset l parts ⟨h, 0x32⟩ (s.accepted h) = ((s.accepted h).answer ⟨h, 0x32⟩ .ok 0 []).trigger l parts 0 false := by
    rw [serveReset, serveAs_operator ho hgood, haccept.pkg, if_neg hpkg]
    rfl
  have hhost : (s.accepted h).host = s.host := accepted_frame s h .host (by decide)
  have hready := hanswer.ladderFree hf
  obtain ⟨ph, cs, -, hreset, hhold, heased⟩ := trigger_after (.refl true ((s.accepted h).answer ⟨h, 0x32⟩ .ok 0 [])) hl hready 0 false []
  rw [hserve]
  refine ⟨ph, cs, ?_, fun e => Bool.false_ne_true (hhold.mp e).1, heased.told.answered (answered_of_settle (answered_settle (by rw [hhost])))⟩
  rw [hreset, hanswer.time]

/-- The marks that a chip request takes back are not set where the ladder is free. -/
theorem clearMarks_keeps {u : State} (hqd : u.thm.quenched = false) (hfail : u.bu.failed = false) :
    Keeps true u ((u.modThm fun m => { m with quenched := false }).modBu fun b => { b with failed := false }) := by
  have e1 : ({ u.thm with quenched := false } : Thermal) = u.thm := by rw [← hqd]
  have e2 : ({ u.bu with failed := false } : BringUp) = u.bu := by rw [← hfail]
  refine ⟨?_, fun _ => rfl, fun _ => id, fun _ => rfl, .of_regs rfl, ⟨fun _ => id, id, rfl⟩⟩
  simp [State.standing, State.modThm, State.modBu, e1, e2]

/-- The operator's request at chip level (R238): with nothing in its way it begins the reset at once. -/
theorem serveResetChip_begins {s : State} {h : Hdr} (hs : s.Serves h) (ho : h.operator = true) (hf : s.LadderFree .chip 0xF) :
    ∃ cs, Rebooted ⟨.chip, 0xF, 0, .holding, s.time.tb, cs⟩ s (serveResetChip ⟨h, 0x32⟩ (s.accepted h)) := by
  obtain ⟨hrun, hgood, hvia⟩ := hs
  have haccept := accepted_keeps true s h
  rw [serveResetChip, serveAs_operator ho hgood]
  generalize s.accepted h = v at haccept
  obtain ⟨_, hrem, hmain, htrip, hq, hqd, hfail, _, _⟩ := haccept.ladderFree hf
  have hopen : (!v.pw.mainGood || v.hl.tripLatch || v.thm.quenching || v.bu.removal != .none || (v.bu.failed && decide (v.bu.stage ≤ 2))) = false := by
    rw [hmain, htrip, hq, hrem, hfail]
    rfl
  have hcool : (v.thm.quenched && v.tooHot) = false := by rw [hqd, Bool.false_and]
  rw [hopen, hcool, if_neg Bool.false_ne_true, if_neg Bool.false_ne_true]
  have hanswer : Keeps true v (v.ok ⟨h, 0x32⟩ []) := (answer_kept true v _ _ _ _).keeps
  generalize v.ok ⟨h, 0x32⟩ [] = u at hanswer
  obtain ⟨_, _, _, _, _, huqd, hufail, _, _⟩ := (haccept.trans hanswer).ladderFree hf
  exact chip_after ((haccept.trans hanswer).trans (clearMarks_keeps huqd hufail)) hf 0

/-- A full reset of the host link (R516): where no power fails it begins a chip reset, by PERST_N only once the link has trained. -/
theorem hostFullReset_begins {s : State} {perst : Bool} (ht : perst = true → s.pw.pcieTrained = true) (hw : s.pw.pfWarn = false)
    (hl : s.recd.pfLock = false) (hf : s.LadderFree .chip 0xF) :
    ∃ u cs, Rebooted ⟨.chip, 0xF, codeOf 5 6 (if perst then 1 else 0) 0x0B07, .holding, s.time.tb, cs⟩ u (doHostFullReset perst s) := by
  have htrained : ¬ ((perst && !s.pw.pcieTrained) = true) := by
    cases perst
    · simp
    · simp [ht rfl]
  unfold doHostFullReset
  rw [if_neg htrained]
  extract_lets e u
  have hu : Keeps true (s.modPw fun p => { p with perstSeen := p.perstSeen || perst }) u := (emit_kept true _ e).keeps
  have hwarn : u.pw.pfWarn = false := (congrArg Power.pfWarn hu.powers.1).trans hw
  have hlock : u.recd.pfLock = false := hu.told.pfLock.trans hl
  have hfree : (s.modPw fun p => { p with perstSeen := p.perstSeen || perst }).LadderFree .chip 0xF := hf
  rw [hwarn, hlock, Bool.or_false, if_neg Bool.false_ne_true]
  obtain ⟨cs, h⟩ := chip_after hu hfree e.word
  exact ⟨_, cs, h⟩

/-! ### Failures -/

/-- A fence that its warden does not confirm is over, and its partition goes for a reset that takes the contexts of the tile with it (R200). -/
theorem fenceUnconfirmed_begins {s : State} {tl : TileIx} {x : Option Event × Nat × Option TileIx × Nat} (hx : tget? s.plan.fencing tl.val = some x)
    (hf : s.LadderFree .partition (BitVec.ofNat 4 (2 ^ (s.partOfTile tl).val))) :
    ∃ ph cs, (∀ c ∈ s.victims .partition (BitVec.ofNat 4 (2 ^ (s.partOfTile tl).val)), c ∈ cs) ∧
      Begun .partition (BitVec.ofNat 4 (2 ^ (s.partOfTile tl).val)) (codeOf 4 1 tl.val 0x0402) (s.fld HRT_ESC_HOLD 10 0 ≠ 0)
        (s.modPlan fun p => { p with fencing := tdel p.fencing tl.val }) (doFenceUnconfirmed tl s) ph cs := by
  obtain ⟨cause, at0, prefer, reason⟩ := x
  have hover : Keeps false s (s.modPlan fun p => { p with fencing := tdel p.fencing tl.val }) := (endFence_kept false s tl.val).keeps
  have hrun : doFenceUnconfirmed tl s = (((((s.modPlan fun p => { p with fencing := tdel p.fencing tl.val }).fencePlan tl reason cause prefer at0).payNotices
      tl).emit ⟨4, 1, tl.val, 0x0402, s.resetData (BitVec.ofNat 4 (2 ^ (s.partOfTile tl).val))⟩).settleRepl [tl]).trigger .partition
        (BitVec.ofNat 4 (2 ^ (s.partOfTile tl).val)) (codeOf 4 1 tl.val 0x0402) true (s.victims .partition (BitVec.ofNat 4 (2 ^ (s.partOfTile tl).val))) := by
    unfold doFenceUnconfirmed
    rw [hx]
    rfl
  have hfree := hover.ladderFree hf
  rw [hrun, ← hover.readied.hold]
  generalize (s.modPlan fun p => { p with fencing := tdel p.fencing tl.val }) = u at hfree ⊢
  generalize BitVec.ofNat 4 (2 ^ (s.partOfTile tl).val) = parts at hfree ⊢
  generalize hv : (((u.fencePlan tl reason cause prefer at0).payNotices tl).emit ⟨4, 1, tl.val, 0x0402, s.resetData parts⟩).settleRepl [tl] = v
  have hkeep : Keeps false u v := by
    rw [← hv]
    simp
  obtain ⟨ph, cs, hcs, hreset, hhold, heased⟩ := trigger_after hkeep (by decide) hfree (codeOf 4 1 tl.val 0x0402) true (s.victims .partition parts)
  exact ⟨ph, cs, hcs, hreset, hhold.trans (and_iff_right rfl), heased⟩

/-- A partition reset that exceeds its bound climbs to the compute part (R246). -/
theorem resetBoundExpiry_climbs {s : State} {r : Reset} (hr : s.esc.reset = some r) (hp : r.phase = .aligning) (hl : r.level = .partition) :
    ∃ ph cs, (doResetBoundExpiry s).esc.reset = some ⟨.computePart, 0xF, codeOf 5 0 2 0x050B, ph, s.time.tb, cs⟩ ∧
      (ph = .holding ↔ s.fld HRT_ESC_HOLD 10 0 ≠ 0) := by
  have hruns : (s.esc.reset.any fun r => r.phase == .aligning) = true := by rw [hr, Option.any_some, hp]; rfl
  have hrun : doResetBoundExpiry s = ((s.emit ⟨5, 0, 2, 0x050B, s.resetData r.parts⟩).modEsc fun e => { e with reset := none }).beginReset
      .computePart 0xF (codeOf 5 0 2 0x050B) true := by
    rw [doResetBoundExpiry, if_pos hruns, State.failReset, hr]
    dsimp only
    rw [hl]
    rfl
  have hemit : Keeps true s (s.emit ⟨5, 0, 2, 0x050B, s.resetData r.parts⟩) := (emit_kept true s _).keeps
  rw [hrun, ← hemit.time, ← hemit.readied.hold]
  generalize s.emit ⟨5, 0, 2, 0x050B, s.resetData r.parts⟩ = u
  obtain ⟨ph, cs, -, hreset, hhold, -⟩ := beginReset_begun (s := u.modEsc fun e => { e with reset := none }) (l := .computePart) rfl (by decide) 0xF
    (codeOf 5 0 2 0x050B) true []
  exact ⟨ph, cs, hreset, hhold.trans (and_iff_right rfl)⟩

/-! ### The statement -/

/-- Settles O20: on a free ladder each fault and request begins its own reset, and nothing that precedes the reset stands in its way. -/
theorem resetTriggers : Obligations.ResetTriggers := by
  refine ⟨fun s d line hd hf => ?_, fun s tl x hx hf => ?_, fun s r hr hp hl => ?_, fun s h p hs ho hpkg hf => ?_, fun s h hs ho hpkg hf => ?_,
    fun s h hs ho hf => ?_, fun s perst ht hw hl hf => ?_⟩
  · obtain ⟨u, cs, hfault, hchip⟩ := hardlineFault_resets line hd hf
    refine ⟨_, cs, rfl, hchip.reset, ?_, hchip.stage, hchip.pkg, hchip.domOn, hchip.tiles⟩
    rw [settle_hl, hchip.fault, hfault, BitVec.getLsbD_or, single_getLsbD _ _ d.isLt]
    simp
  · obtain ⟨ph, cs, hcs, hbegun⟩ := fenceUnconfirmed_begins hx hf
    exact ⟨_, ph, cs, rfl, hbegun.reset, hcs, hbegun.hold, hbegun.eased.fencing _ (tget?_tdel_self _ _)⟩
  · obtain ⟨ph, cs, hreset, hhold⟩ := resetBoundExpiry_climbs hr hp hl
    exact ⟨_, ph, cs, rfl, hreset, hhold⟩
  · obtain ⟨ph, cs, hreset, hhold, hanswer⟩ := serveReset_begins hs ho hpkg (by decide) hf
    exact ⟨_, ph, cs, exec_host rfl hs, hreset, hhold, hanswer⟩
  · obtain ⟨ph, cs, hreset, hhold, hanswer⟩ := serveReset_begins hs ho hpkg (by decide) hf
    exact ⟨_, ph, cs, exec_host rfl hs, hreset, hhold, hanswer⟩
  · obtain ⟨cs, hchip⟩ := serveResetChip_begins hs ho hf
    exact ⟨_, cs, exec_host rfl hs, hchip.reset, hchip.stage, hchip.pkg, hchip.domOn⟩
  · obtain ⟨u, cs, hchip⟩ := hostFullReset_begins ht hw hl hf
    exact ⟨_, cs, rfl, hchip.reset, hchip.stage, hchip.pkg, hchip.domOn, hchip.link⟩

end Sys2Proof.Machine
end

section
/-! PROOFS. Where three statements on commands, checks and barriers leave no room for what the model does: tiles that a test has freed issue with the next
command (R283), a journal slot that bears two entries (R202), and a key that some warden's bank had no room for (R110). -/
namespace Sys2Proof.Machine

-- One theorem at a time: with the joint text's other threads, parallel ones would pass the memory that the check gives.
set_option Elab.async false

@[simp] theorem settle_tile (s : State) (u : TileIx) : (settle s).tile u = s.tile u := rfl
@[simp] theorem settle_ctx (s : State) (c : CtxIx) : (settle s).ctx c = s.ctx c := rfl

/-- A command of context 1 for one pass of the matrix engine. -/
def passCmd : Cmd := ⟨1, 7, 3, .bi8, 0, true, false, false, [.external ⟨0x100000, 0x1000⟩], 64, false, [], 1, 1, 0⟩

/-- The package at reset, but with context 1 in use, in its step 3. -/
def oneContext : State := { State.reset with ctxs := [(1, { used := true, step := 3 })] }

/-! ### The issue of a command (R283) -/

/-- A test has given tile 1 up in its hand-over; the gate there holds a command that nothing has drained yet. -/
def freedTile : State :=
  { oneContext with
    plan := { fp := [(0, { st := .good }), (1, { st := .good })], map := [(0, 0), (1, 1)] }
    tiles := [(0, { role := .logical }), (1, { role := .logical, gate := [{ passCmd with seq := 8 }] })]
    test := { freed := [1] } }

theorem freedTile_signals : freedTile.Signals := by unfold State.Signals; decide

/-- A command issued to tile 0 lets tile 1 issue what its gate has held. -/
theorem commandIssue_drains_freedTile : (doCommandIssue 0 passCmd freedTile).test.freed = [] := by decide

/-- Refutes O24: an issue drains the gates of the tiles that tests have freed, which moves the self-test's list of them; the frame of the first clause has
the self-test stand where the command is no hold-commit command, and no premise says that no freed tile waits. -/
theorem not_commandPath : ¬ Obligations.CommandPath := by
  rintro ⟨hissue, -⟩
  obtain ⟨t, ht, -, -, -, -, hframe⟩ :=
    hissue freedTile 0 passCmd 0 freedTile_signals (by decide) (by decide) (by decide) (by decide) (by decide) (by decide) (by decide) (by decide)
      (by decide) (by decide)
  obtain rfl : settle (doCommandIssue 0 passCmd freedTile) = t := Host.Outcome.next.inj ht
  have htest : (doCommandIssue 0 passCmd freedTile).test = freedTile.test := hframe rfl .test (by decide)
  have hdrained := commandIssue_drains_freedTile
  rw [htest] at hdrained
  exact absurd hdrained (by decide)

/-! ### The re-execution of a shadow (R98, R101, R118, R202) -/

/-- A hold-commit command of context 1, which tile 0 has completed and tile 1 shadows. -/
def heldCmd : Cmd := { passCmd with hold := true }

/-- Its entry on tile 1, and that of an older duty of tile 1 for tile 2. -/
def heldDuty : JEntry := { cmd := heldCmd, state := .running, execs := 1, role := .shadow, primary := some 0, serial := 1 }
def sampledDuty : JEntry := { cmd := { passCmd with seq := 8 }, role := .shadow, primary := some 2 }

/-- Both duties of tile 1 stand in slot 0 of its journal. Tile 3 covers tile 2 for a test whose hand-over still waits; no other tile is a spare. -/
def sharedSlot : State :=
  { oneContext with
    fns := [(0, ⟨.on, 1, .nonSecure⟩)]
    plan := { fp := [(0, { st := .good }), (1, { st := .spare }), (2, { st := .good }), (3, { st := .spare })], map := [(0, 0), (1, 2)] }
    test := { bist := some { tile := 2, phase := .handOver, cover := some 3 } }
    tiles := [
      (0, { role := .logical, jnl := [(0, { cmd := heldCmd, state := .complete, execs := 1, judged := [0], cmpWait := true, sampled := true })] }),
      (1, { role := .shadow, jnl := [(0, heldDuty), (0, sampledDuty)],
            slots := [some ⟨0, 1, 7, true, false, ⟨0, 0⟩⟩, some ⟨2, 1, 8, false, false, ⟨0, 0⟩⟩] }),
      (2, { role := .logical }), (3, { role := .selfTest })] }

theorem sharedSlot_signals : sharedSlot.Signals := by unfold State.Signals; decide

/-- A pass of the command of one row and one column, whose accumulator is off by one. -/
def failingPass : PassIn := ⟨7, 0, 1, false, false, [[1]], [[0]], [[2]], [[0]], [[0]], [[3]], [], [], .proper, false⟩

/-- The pass fails on tile 1: its primary takes the cover, tile 3, for a new shadow, the test takes tile 1 for a new cover, and the older duty, preempted
there, is written back to the slot of the command that runs again. -/
theorem failingPass_loses_heldDuty :
    (tget? ((doPassCheckResult 1 failingPass sharedSlot).tile 1).jnl 0).map JEntry.state = some .issued := by decide

/-- Refutes O25: the second clause takes any list of entries for a journal, and no premise asks for a table, in which each slot stands once. Where a slot
bears two entries, the end of the one duty overwrites the re-execution of the other. -/
theorem not_checkFailures : ¬ Obligations.CheckFailures := by
  rintro ⟨-, hfails, -⟩
  obtain ⟨t, ht, -, -, -, hentry, -⟩ :=
    hfails sharedSlot 1 failingPass 0 heldDuty sharedSlot_signals (by decide) (by decide) (by decide) (by decide) (by decide) (by decide) (by decide)
      (by decide) (by decide) (by decide) (by decide) (by decide) (by decide) (by decide) (by decide) (by decide) (by decide) (by decide) (by decide)
  obtain rfl : settle (doPassCheckResult 1 failingPass sharedSlot) = t := Host.Outcome.next.inj ht
  rw [settle_tile] at hentry
  have hrunning := congrArg (Option.map Prod.fst) hentry
  rw [Option.map_map] at hrunning
  exact absurd (failingPass_loses_heldDuty.symm.trans hrunning) (by decide)

/-! ### The conservation check of a step (R108 to R112) -/

/-- Five tokens of one key are dispatched in the step. Four reach their expert and return on tile 0; the fifth does on tile 1, whose bank has no room
for the key, so that tile 1 counts it in its aggregate alone (R110). No token is lost. -/
def overflowedKey : State :=
  { oneContext with
    tiles := [
      (0, { role := .logical, cons := [⟨true, 1, some ⟨1, 2, 3⟩, .localExpert, 3, 5, 0, 4, 4⟩, ⟨true, 1, none, .localExpert, 3, 5, 0, 4, 4⟩] }),
      (1, { cons := [⟨true, 1, none, .localExpert, 3, 0, 0, 1, 1⟩], consOver := [(true, ⟨1, 2, 3⟩, .localExpert)] })] }

/-- The barrier of that step. -/
def endOfStep : Barrier := ⟨1, 3, 0, 100, 0, 0, 0, 0, false⟩

/-- The row of the key, as the banks hold it, is short of one token. -/
theorem overflowedKey_row : (⟨1, some ⟨1, 2, 3⟩, .localExpert, 3, 5, 0, 4, 4, none⟩ : ConsRow) ∈ overflowedKey.consRows 1 3 := by decide

/-- The check leaves the key out, the aggregates balance, and the context goes on. -/
theorem stepBarrier_overflowedKey : ((doStepBarrier endOfStep overflowedKey).ctx endOfStep.ctx).faulted = false := by decide +kernel

/-- Refutes O29: a key that found the bank of some warden full does not fit and is not checked singly (R110), so its row faults no context; the second
clause asks only that the rows fit the Hearth's table, and nothing of the wardens' banks. -/
theorem not_stepBarrier : ¬ Obligations.StepBarrier := by
  rintro ⟨-, hfaults, -⟩
  obtain ⟨t, ht, hfault⟩ :=
    hfaults overflowedKey endOfStep _ 0 (by decide) (by decide) (by decide) (by decide) overflowedKey_row rfl (by decide) (by decide) (by decide)
  obtain rfl : settle (doStepBarrier endOfStep overflowedKey) = t := Host.Outcome.next.inj ht
  rw [settle_ctx, stepBarrier_overflowedKey] at hfault
  exact Bool.noConfusion hfault

end Sys2Proof.Machine
end

section
/-! PROOFS. Where the statement on the shadow pool leaves no room for what the model does: an overrun (R128) has the tiles that tests have freed issue
(R283), and a command issued there may miss its own shadow (R124). -/
namespace Sys2Proof.Machine

-- One theorem at a time: with the joint text's other threads, parallel ones would pass the memory that the check gives.
set_option Elab.async false

/-- Tile 1 still captures the operands of the sampled command that tile 0 runs. A test has given tile 2 up in its hand-over; the gate there holds a
command that nothing has drained yet and that its sampler will select (seed 1, rate 1); the shadow assigned to it, tile 3, is under test itself. -/
def overrunBesideFreedTile : State :=
  { oneContext with
    fns := [(0, ⟨.on, 1, .nonSecure⟩)]
    plan := { fp := [(0, { st := .good }), (1, { st := .spare }), (2, { st := .good }), (3, { st := .spare })], map := [(0, 0), (1, 2)] }
    shadow := { assign := [(1 * 128 + 1, 3)] }
    test := { freed := [2] }
    tiles := [
      (0, { role := .logical, jnl := [(0, { cmd := passCmd, state := .running, execs := 1, sampled := true })], jhead := 0, pushed := 1 }),
      (1, { role := .shadow, jnl := [(0, { cmd := passCmd, state := .running, execs := 1, role := .shadow, primary := some 0 })], jhead := 0, pushed := 1,
            slots := [some ⟨0, 1, 7, false, false, ⟨0, 0⟩⟩, none] }),
      (2, { role := .logical, gate := [{ passCmd with seq := 8 }], sampler := [(1, (1, 1))] }),
      (3, { role := .selfTest })] }

theorem overrunBesideFreedTile_signals : overrunBesideFreedTile.Signals := by unfold State.Signals; decide

theorem overrunBesideFreedTile_fills : overrunBesideFreedTile.filling 1 = some ⟨0, 1, 7, false, false, ⟨0, 0⟩⟩ := by decide

/-- The overrun counts as missed, and so does the command that tile 2 then issues. -/
theorem multicastOverrun_countsTwoMissed :
    (doMulticastOverrun 1 overrunBesideFreedTile).reg HRT_SHD_MISSED_BUSY = 2 := by decide

/-- Refutes O26: the end of a capture lets the tiles that tests have freed issue what their gates have held, and the sampler of such a tile counts a
command whose assigned shadow is busy in the same register. The third clause has that register move by the overrun alone, and no premise says that no
freed tile waits. -/
theorem not_shadowPool : ¬ Obligations.ShadowPool := by
  rintro ⟨-, -, hoverrun, -⟩
  obtain ⟨t, ht, hmissed, -⟩ := hoverrun overrunBesideFreedTile 1 _ overrunBesideFreedTile_signals overrunBesideFreedTile_fills
  obtain rfl : settle (doMulticastOverrun 1 overrunBesideFreedTile) = t := Host.Outcome.next.inj ht
  rw [settle_reg, multicastOverrun_countsTwoMissed] at hmissed
  exact absurd hmissed (by decide)

end Sys2Proof.Machine
end

section
/-! PROOFS. Where the statement on scrubs leaves no room for what the model does: a scrub whose read met an uncorrectable error is answered, and the stack's
warden reports the error (R173, R213). -/
namespace Sys2Proof.Machine

-- One theorem at a time: with the joint text's other threads, parallel ones would pass the memory that the check gives.
set_option Elab.async false

/-- SCRUB_DIGEST of the operator over CMP, for a page of context 1 in 8-bit units. -/
def pageScrub : Scrub := { who := some ⟨⟨.cmp ⟨1, 0, false, true, 5⟩, 0, true, 0, false, false⟩, 0x43⟩, d := ⟨1, ⟨0x100000, 0x1000⟩, 1, 0, 0⟩ }

/-- What stack 3 has read of the page: four bytes, with an uncorrectable error on the first line. -/
def partWithError : ScrubPart := ⟨3, 0, [1, 2, 3, 4], [0x100000], 0⟩

/-- The package at reset, but with the scrub of the page running and its answer owed. -/
def scrubUnderWay : State :=
  { State.reset with
    host := { State.reset.host with unanswered := pageScrub.who.toList }
    ofd := { running := some pageScrub } }

theorem scrubUnderWay_signals : scrubUnderWay.Signals := by unfold State.Signals; decide

/-- The completion leaves a report in the queue of the stack's warden. -/
theorem scrubComplete_reports :
    ((doScrubComplete [partWithError] scrubUnderWay).agent (scrubUnderWay.stackAgent 3)).queue = [⟨.slagStack 3 1 0x100000, 0, .unsent, 0⟩] := by
  decide

/-- Refutes O31: an uncorrectable error that a scrub's read met is treated as patrol scrub treats it (R173, R213), so the stack's warden queues its report;
the fourth clause takes any parts, with or without such errors, and its frame has the agents stand. -/
theorem not_scrubsAndReplicas : ¬ Obligations.ScrubsAndReplicas := by
  rintro ⟨-, -, -, hcomplete, -⟩
  obtain ⟨t, ht, -, -, -, hframe⟩ :=
    hcomplete scrubUnderWay pageScrub _ [partWithError] _ scrubUnderWay_signals rfl rfl rfl rfl (List.forall_mem_singleton.mpr rfl) rfl
  obtain rfl : settle (doScrubComplete [partWithError] scrubUnderWay) = t := Host.Outcome.next.inj ht
  have hagents : (settle (doScrubComplete [partWithError] scrubUnderWay)).agents = scrubUnderWay.agents := hframe .agents (by simp)
  have hreport := scrubComplete_reports
  rw [agent_congr ((settle_agents _).symm.trans hagents)] at hreport
  exact absurd hreport (by decide)

end Sys2Proof.Machine
end

section
/-! PROOFS. Stacks and handles by number, and what the Hearth's work on digests moves (R163 to R179): traces, replicas, latches that end, reports. One rule
per operation, in the order of the model. -/
namespace Sys2Proof.Machine

-- One theorem at a time: with the joint text's other threads, parallel ones would pass the memory that the check gives.
set_option Elab.async false

/-! ### Stacks and handles -/

@[simp] theorem stack_setStack_self (s : State) (n : StackIx) (x : Stack) : (s.setStack n x).stack n = x := tget_tput_self _ _ _ _

theorem stack_setStack_ne (s : State) {n m : StackIx} (x : Stack) (h : m ≠ n) : (s.setStack n x).stack m = s.stack m :=
  tget_tput_ne _ _ _ fun e => h (Fin.ext e)

@[simp] theorem stack_modStack_self (s : State) (n : StackIx) (f : Stack → Stack) : (s.modStack n f).stack n = f (s.stack n) :=
  stack_setStack_self s n _

theorem stack_modStack_ne (s : State) {n m : StackIx} (f : Stack → Stack) (h : m ≠ n) : (s.modStack n f).stack m = s.stack m :=
  stack_setStack_ne s _ h

/-- A stack depends on the stacks alone, a handle on the digests alone. -/
theorem stack_congr {s t : State} (h : t.hbm = s.hbm) (n : StackIx) : t.stack n = s.stack n := by rw [State.stack, State.stack, h]
theorem handle_congr {s t : State} (h : t.ofd = s.ofd) (k : Nat) : t.handle? k = s.handle? k := by rw [State.handle?, State.handle?, h]

@[simp] theorem stack_bump (s : State) (k i : Nat) (n : StackIx) : (s.bump k i).stack n = s.stack n := stack_congr (s.bump_hbm k i) n
@[simp] theorem settle_stack (s : State) (n : StackIx) : (settle s).stack n = s.stack n := stack_congr (settle_hbm s) n

/-! ### What the Hearth's work on digests moves -/

/-- The registers that it moves: those of events, and the replica status (R179). -/
def digestReg (k : Nat) : Bool := eventReg k || k == HRT_REPLICA_STATUS

/-- The Hearth's work on digests from `s` to `t`: records, traces and messages leave, the digests move, and of the registers those of `digestReg`. -/
structure DigestWork (s t : State) : Prop where
  frame : Frame [.regs, .msix, .recd, .subs, .i3c, .obs, .out, .ofd] s t
  regs : RegsBut digestReg s t

theorem DigestWork.refl (s : State) : DigestWork s s := ⟨.refl _ s, .refl _ s⟩

theorem DigestWork.trans {s t u : State} (h : DigestWork s t) (k : DigestWork t u) : DigestWork s u :=
  ⟨h.frame.trans k.frame, h.regs.trans k.regs⟩

theorem DigestWork.ite {s a b : State} {c : Prop} [Decidable c] (h : DigestWork s a) (k : DigestWork s b) : DigestWork s (if c then a else b) := by
  split <;> assumption

theorem DigestWork.each {α : Type} {f : State → α → State} (h : ∀ s x, DigestWork s (f s x)) (l : List α) (s : State) : DigestWork s (s.each l f) :=
  ⟨.each (fun s x => (h s x).frame) l s, .foldl (fun s x => (h s x).regs) l s⟩

theorem DigestWork.of_event {s t : State} (h : Frame [.regs, .msix, .recd, .subs, .i3c, .obs, .out] s t) (k : RegsBut eventReg s t) : DigestWork s t :=
  ⟨h.mono, k.mono fun r hr => by
    cases he : eventReg r
    · rfl
    · simp [digestReg, he] at hr⟩

theorem DigestWork.stack {s t : State} (h : DigestWork s t) (n : StackIx) : t.stack n = s.stack n := stack_congr (h.frame .hbm (by decide)) n

theorem modOfd_work (s : State) (f : Digests → Digests) : DigestWork s (s.modOfd f) := ⟨(modOfd_frame s f).mono, .of_regs rfl⟩
theorem emit_work (s : State) (e : Event) : DigestWork s (s.emit e) := .of_event (emit_frame s e) (emit_regs s e)
theorem emitOut_work (s : State) (o : Out) : DigestWork s (s.emitOut o) := ⟨(emitOut_frame s o).mono, .of_regs rfl⟩
theorem traceRec_work (s : State) (p w : Nat) (r : List Word) : DigestWork s (s.traceRec p w r) := .of_event (traceRec_frame s p w r) (traceRec_regs s p w r)
theorem setStatus_work (s : State) (hi lo x : Nat) : DigestWork s (s.setFld HRT_REPLICA_STATUS hi lo x) :=
  ⟨(setFld_frame s _ hi lo x).mono, (RegsBut.refl _ s).setFld (by decide)⟩
theorem bumpStatus_work (s : State) (hi lo n : Nat) : DigestWork s (s.bumpFld HRT_REPLICA_STATUS hi lo n) := setStatus_work s hi lo _

/-! ### Replicas (R178, R179) -/

theorem putGroup_work (s : State) (g : Group) : DigestWork s (s.putGroup g) := modOfd_work s _

theorem compareReplicas_work (s : State) (g : Group) (v : Word) : DigestWork s (s.compareReplicas g v) := by
  have hout : ∀ n, DigestWork s ((s.putGroup { g with
      seen := g.seen.filter fun r => r.version != v, waits := g.waits.filter fun w => w.1 != v }).setFld HRT_REPLICA_STATUS 3 0 n) :=
    fun n => (putGroup_work s _).trans (setStatus_work _ 3 0 n)
  unfold State.compareReplicas
  dsimp only
  split
  · refine .ite (hout 5) (.ite ((hout 1).trans (bumpStatus_work _ 15 4 1)) ?_)
    split
    · exact .ite ((hout 2).trans (emit_work _ _)) ((hout 3).trans (emit_work _ _))
    · exact (hout 2).trans (emit_work _ _)
  · exact hout 5

theorem takeReplica_work (s : State) (g : Group) (r : Replica) : DigestWork s (s.takeReplica g r) := by
  unfold State.takeReplica
  have htaken : ∀ g1 n, DigestWork s ((s.putGroup g1).setFld HRT_REPLICA_STATUS 31 24 n) :=
    fun g1 n => (putGroup_work s g1).trans (setStatus_work _ 31 24 n)
  exact .ite ((htaken _ _).trans (compareReplicas_work _ _ _)) (htaken _ _)

theorem sendReplica_work (s : State) (g : Group) (r : Replica) : DigestWork s (s.sendReplica g r) := by
  unfold State.sendReplica
  exact ((putGroup_work s _).trans (.each (fun s m => emitOut_work s _) _ _)).trans (takeReplica_work _ _ r)

theorem sendStepped_work (s : State) (c : CtxIx) (step : Word) : DigestWork s (s.sendStepped c step) := by
  refine .each (fun s g => ?_) _ _
  split
  · split
    · split
      · exact sendReplica_work s _ _
      · exact .refl s
    · exact .refl s
  · exact .refl s

/-! ### The Hearth's side of a latch (R166, R168, R177) -/

theorem traceDigest_work (s : State) (h : Nat) (x : Handle) (step : Word) (b : Bank) : DigestWork s (s.traceDigest h x step b) := by
  unfold State.traceDigest
  exact .ite ((traceRec_work s _ _ _).trans (traceRec_work _ _ _ _)) (.refl s)

theorem endLatch_work (s : State) (r : LatchRun) : DigestWork s (s.endLatch r) := by
  have htrace : ∀ (s : State) (h : Nat), DigestWork s (match s.handle? h with
      | some x => match x.latched.find? fun l => l.1 == r.step with
        | some l => s.traceDigest h x r.step l.2
        | none => s
      | none => s) := fun s h => by
    split
    · split
      · exact traceDigest_work s _ _ _ _
      · exact .refl s
    · exact .refl s
  unfold State.endLatch
  exact .ite ((((modOfd_work s _).trans (.each htrace _ _)).trans (sendStepped_work _ _ _)).trans (modOfd_work _ _)) (.refl s)

theorem modLatch_work (s : State) (c : CtxIx) (step : Word) (f : LatchRun → LatchRun) : DigestWork s (s.modLatch c step f) := by
  unfold State.modLatch
  dsimp only
  split
  · exact (modOfd_work s _).trans (endLatch_work _ _)
  · exact modOfd_work s _

/-! ### Reports of wardens (R29) -/

theorem latchLost_frame (s : State) (r : Rep) : Frame [.ofd] s (s.latchLost r) := by
  unfold State.latchLost
  split
  · exact fun p hp => by cases p <;> first | rfl | exact absurd (by decide) hp
  · exact .refl _ s

theorem dropReport_frame (s : State) (a : AgentIx) (r : Rep) : Frame [.regs, .agents, .ofd] s (s.dropReport a r) := by
  unfold State.dropReport
  exact (((setAgent_frame s a _).mono).bump (by decide)).trans (.each (fun s r => (latchLost_frame s r).mono) _ _)

theorem wardenReport_frame (s : State) (a : AgentIx) (r : Rep) : Frame [.regs, .agents, .ofd] s (s.wardenReport a r) := by
  unfold State.wardenReport
  exact .ite (setAgent_frame s a _).mono (dropReport_frame s a r)

/-- Every page starts at a multiple of its length (R477). -/
theorem pageBase_mod (s : State) (a : AgentIx) : s.pageBase a % 0x1000 = 0 := by
  unfold State.pageBase
  split <;> omega

/-- A report moves at most the count of lost reports of a page. -/
theorem wardenReport_reg (s : State) (a : AgentIx) (r : Rep) {k : Nat} (hk : k % 0x1000 ≠ TWD_REPORT_DROP) : (s.wardenReport a r).reg k = s.reg k := by
  have hne : k ≠ s.pageBase a + TWD_REPORT_DROP := fun e => hk (by have := pageBase_mod s a; simp only [TWD_REPORT_DROP] at e ⊢; omega)
  unfold State.wardenReport
  dsimp only
  split
  · rfl
  · exact ((RegsBut.foldl (f := fun _ => false) (fun s r => .of_frame (latchLost_frame s r) (by decide)) _ _) k rfl).trans (State.reg_setNat_ne _ _ hne)

end Sys2Proof.Machine
end

section
/-! PROOFS. The latch of a stack's banks (R166, R175): the known-answer check, the banks copied and cleared one by one, the reports that leave. -/
namespace Sys2Proof.Machine

-- One theorem at a time: with the joint text's other threads, parallel ones would pass the memory that the check gives.
set_option Elab.async false

/-! ### The known-answer check (R175) -/

theorem digestReg_kat (n : StackIx) : digestReg (stackReg n SWD_OFD_KAT) = false := by
  revert n; decide

/-- Only the register of the check says whether a stack is faulty. -/
theorem katFault_congr {s t : State} {n : StackIx} (h : t.reg (stackReg n SWD_OFD_KAT) = s.reg (stackReg n SWD_OFD_KAT)) : t.katFault n = s.katFault n := by
  rw [State.katFault, State.katFault, State.fld, State.fld, h]

theorem DigestWork.katFault {s t : State} (h : DigestWork s t) (n : StackIx) : t.katFault n = s.katFault n := katFault_congr (h.regs _ (digestReg_kat n))

theorem field_top_withField_low (v x : Nat) : field (BitVec.ofNat 32 (withField v 30 0 x)).toNat 31 31 = field v 31 31 := by
  simp only [field, withField, BitVec.toNat_ofNat]
  omega

theorem field_top_withField_top (v : Nat) : field (BitVec.ofNat 32 (withField v 31 31 1)).toNat 31 31 = 1 := by
  simp only [field, withField, BitVec.toNat_ofNat]
  omega

/-- A passed check is counted below the fault bit. -/
theorem katFault_countPass (s : State) (n : StackIx) : (s.bumpFld (stackReg n SWD_OFD_KAT) 30 0).katFault n = s.katFault n := by
  unfold State.katFault State.bumpFld State.setFld
  rw [State.fld, State.reg_setNat_self, field_top_withField_low, State.fld]

theorem katFault_latched (s : State) (n : StackIx) : (s.setFld (stackReg n SWD_OFD_KAT) 31 31 1).katFault n = true := by
  unfold State.katFault State.setFld
  rw [State.fld, State.reg_setNat_self, field_top_withField_top]
  rfl

/-- A report leaves the fault bit. -/
theorem katFault_wardenReport (s : State) (n : StackIx) (a : AgentIx) (r : Rep) : (s.wardenReport a r).katFault n = s.katFault n :=
  katFault_congr (wardenReport_reg s a r (by simp only [stackReg, SWD_OFD_KAT, TWD_REPORT_DROP]; omega))

/-- After the check the stack is faulty where it was, or where it missed a known answer. -/
theorem katFault_katCheck (s : State) (n : StackIx) (step : Word) (kat : List Ofd) :
    (s.katCheck n step kat).katFault n = (s.katFault n || (s.katMissed kat).isSome) := by
  unfold State.katCheck
  split
  · next hpass => rw [katFault_countPass, hpass]; simp
  · next k hmiss =>
    have hset := katFault_latched s n
    rw [hmiss, Option.isSome_some, Bool.or_true]
    dsimp only
    split
    · exact hset
    · exact (katFault_wardenReport _ n _ _).trans hset

theorem katCheck_frame (s : State) (n : StackIx) (step : Word) (kat : List Ofd) : Frame [.regs, .agents, .ofd] s (s.katCheck n step kat) := by
  unfold State.katCheck
  split
  · exact (bumpFld_frame s _ 30 0 1).mono
  · exact .ite (setFld_frame s _ 31 31 1).mono ((setFld_frame s _ 31 31 1).mono.trans (wardenReport_frame _ _ _))

/-! ### One bank (R166) -/

theorem bankKey_injective {h k : Nat} {step : Word} (e : bankKey h step = bankKey k step) : h = k := by
  unfold bankKey at e; omega

/-- The bank of a handle as the latch copies it. -/
def State.latchedBank (s : State) (n : StackIx) (step : Word) (h : Nat) : Bank :=
  (tget (s.stack n).banks (bankKey h step) {}).flag flagFaulty (s.katFault n)

/-- A latch of one bank copies and clears it at its stack; the rest is the Hearth's work. -/
theorem latchHandle_work (s : State) (n : StackIx) (step : Word) (h : Nat) :
    ∃ r, DigestWork (s.modStack n fun x => { x with
      copies := tput x.copies h (s.latchedBank n step h), banks := tdel x.banks (bankKey h step), toReport := r }) (s.latchHandle n step h) := by
  unfold State.latchHandle State.latchedBank
  dsimp only
  split
  · split
    · exact ⟨_, .refl _⟩
    · exact ⟨_, modLatch_work _ _ _ _⟩
  · exact ⟨_, .refl _⟩

/-! ### The banks of several handles in turn -/

/-- What the latch of the banks of `hs` at stack `n` makes of a state. -/
structure BanksLatched (n : StackIx) (step : Word) (hs : List Nat) (s t : State) : Prop where
  frame : Frame [.regs, .msix, .recd, .subs, .i3c, .obs, .out, .hbm, .agents, .ofd] s t
  others : ∀ m, m ≠ n → t.stack m = s.stack m
  latch : (t.stack n).latch = (s.stack n).latch
  katFault : t.katFault n = s.katFault n
  taken : ∀ k ∈ hs, tget? (t.stack n).banks (bankKey k step) = none ∧ (tget? (t.stack n).copies k).isSome = true
  left : ∀ k, k ∉ hs → tget? (t.stack n).banks (bankKey k step) = tget? (s.stack n).banks (bankKey k step) ∧
    tget? (t.stack n).copies k = tget? (s.stack n).copies k
  copy : hs.Nodup → ∀ k ∈ hs, tget? (t.stack n).copies k = some (s.latchedBank n step k)

theorem BanksLatched.nil (n : StackIx) (step : Word) (s : State) : BanksLatched n step [] s s where
  frame := .refl _ s
  others _ _ := rfl
  latch := rfl
  katFault := rfl
  taken _ hk := absurd hk List.not_mem_nil
  left _ _ := ⟨rfl, rfl⟩
  copy _ _ hk := absurd hk List.not_mem_nil

theorem latchHandle_latched (s : State) (n : StackIx) (step : Word) (h : Nat) : BanksLatched n step [h] s (s.latchHandle n step h) := by
  obtain ⟨r, hwork⟩ := latchHandle_work s n step h
  have hstack := (hwork.stack n).trans (stack_modStack_self s n _)
  have hcopy : tget? ((s.latchHandle n step h).stack n).copies h = some (s.latchedBank n step h) := by rw [hstack]; exact tget?_tput_self _ _ _
  exact {
    frame := (modStack_frame s n _).mono.trans hwork.frame.mono
    others := fun m hm => (hwork.stack m).trans (stack_modStack_ne s _ hm)
    latch := by rw [hstack]
    katFault := (hwork.katFault n).trans (katFault_congr rfl)
    taken := List.forall_mem_singleton.mpr ⟨by rw [hstack]; exact tget?_tdel_self _ _, by rw [hcopy, Option.isSome_some]⟩
    left := fun k hk => by
      have hne : k ≠ h := fun e => hk (List.mem_singleton.mpr e)
      rw [hstack]
      exact ⟨tget?_tdel_ne _ fun e => hne (bankKey_injective e), tget?_tput_ne _ _ hne⟩
    copy := fun _ => List.forall_mem_singleton.mpr hcopy }

theorem BanksLatched.cons {n : StackIx} {step : Word} {h : Nat} {hs : List Nat} {s t u : State} (a : BanksLatched n step [h] s t)
    (b : BanksLatched n step hs t u) : BanksLatched n step (h :: hs) s u := by
  have hhead : ∀ k ∈ h :: hs, k ∉ hs → k ∈ [h] := fun k hk hk' => List.mem_singleton.mpr ((List.mem_cons.mp hk).resolve_right hk')
  exact {
    frame := a.frame.trans b.frame
    others := fun m hm => (b.others m hm).trans (a.others m hm)
    latch := b.latch.trans a.latch
    katFault := b.katFault.trans a.katFault
    taken := fun k hk => by
      by_cases hk' : k ∈ hs
      · exact b.taken k hk'
      · rw [(b.left k hk').1, (b.left k hk').2]
        exact a.taken k (hhead k hk hk')
    left := fun k hk => by
      obtain ⟨hne, hk'⟩ := not_or.mp fun e => hk (List.mem_cons.mpr e)
      rw [(b.left k hk').1, (b.left k hk').2]
      exact a.left k fun e => hne (List.mem_singleton.mp e)
    copy := fun hnd k hk => by
      obtain ⟨hh, hnd'⟩ := List.nodup_cons.mp hnd
      by_cases hk' : k ∈ hs
      · have hother : k ∉ [h] := fun e => hh (List.mem_singleton.mp e ▸ hk')
        rw [b.copy hnd' k hk', State.latchedBank, State.latchedBank, tget, tget, (a.left k hother).1, a.katFault]
      · rw [(b.left k hk').2]
        exact a.copy (List.nodup_singleton h) k (hhead k hk hk') }

theorem latchHandles_latched (n : StackIx) (step : Word) (hs : List Nat) (s : State) :
    BanksLatched n step hs s (hs.foldl (fun s h => s.latchHandle n step h) s) := by
  induction hs generalizing s with
  | nil => exact .nil n step s
  | cons h hs ih => exact (latchHandle_latched s n step h).cons (ih _)

/-! ### The latch -/

/-- Reports enter the warden's queue; at its stack only those that wait change. -/
theorem pumpReports_frame (s : State) (n : StackIx) :
    ∃ r, Frame [.regs, .agents, .ofd] (s.modStack n fun x => { x with toReport := r }) (s.pumpReports n) :=
  ⟨_, .each (fun s r => wardenReport_frame s _ r) _ _⟩

/-- A latch takes the banks of the context's handles after the known-answer check, and its command is over; then reports leave and the Hearth takes
note. -/
theorem bankLatch_outcome {s : State} {n : StackIx} {c : CtxIx} {step : Word} (hc : (s.stack n).latch.contains (c, step) = true) (kat : List Ofd) :
    ∃ u r, BanksLatched n step (s.handlesOf c) (s.katCheck n step kat) u ∧
      Frame [.regs, .msix, .recd, .subs, .i3c, .obs, .out, .hbm, .agents, .ofd] u (doBankLatch n c step kat s) ∧
      (∀ m, m ≠ n → (doBankLatch n c step kat s).stack m = u.stack m) ∧
      (doBankLatch n c step kat s).stack n = { u.stack n with latch := (u.stack n).latch.erase (c, step), toReport := r } := by
  have hlatched := latchHandles_latched n step (s.handlesOf c) (s.katCheck n step kat)
  have hrun : doBankLatch n c step kat s =
      ((((s.handlesOf c).foldl (fun s h => s.latchHandle n step h) (s.katCheck n step kat)).modStack n fun x =>
        { x with latch := x.latch.erase (c, step) }).pumpReports n).modLatch c step fun r => { r with left := r.left.erase n } := by
    unfold doBankLatch; rw [hc]; rfl
  rw [hrun]
  generalize (s.handlesOf c).foldl (fun s h => s.latchHandle n step h) (s.katCheck n step kat) = u at hlatched ⊢
  obtain ⟨r, hpump⟩ := pumpReports_frame (u.modStack n fun x => { x with latch := x.latch.erase (c, step) }) n
  generalize (u.modStack n fun x => { x with latch := x.latch.erase (c, step) }).pumpReports n = v at hpump ⊢
  have hwork := modLatch_work v c step fun r => { r with left := r.left.erase n }
  have hstack : ∀ m, _ := fun m => (hwork.stack m).trans (stack_congr (hpump .hbm (by decide)) m)
  refine ⟨u, r, hlatched, ?_, fun m hm => ?_, ?_⟩
  · exact (((modStack_frame u n _).mono.trans (modStack_frame _ n _).mono).trans hpump.mono).trans hwork.frame.mono
  · rw [hstack, stack_modStack_ne _ _ hm, stack_modStack_ne _ _ hm]
  · rw [hstack, stack_modStack_self, stack_modStack_self]

end Sys2Proof.Machine
end

section
/-! PROOFS. Tagged writes, latches and handles (R163 to R172): one lemma per command, and the statement. -/
namespace Sys2Proof.Machine

-- One theorem at a time: with the joint text's other threads, parallel ones would pass the memory that the check gives.
set_option Elab.async false

/-! ### Tagged writes (R164 to R166, R171, R215) -/

theorem disturb_idle {s : State} (n : StackIx) (w : TagWrite) (h : s.ofd.running = none) : (s.disturb n w).ofd = s.ofd := by
  unfold State.disturb
  rw [State.modOfd_ofd, h, Option.map_none, ← h]

/-- A write under its own context's handle moves the markers of its lines and adds to the bank of its step. -/
theorem doTaggedWrite_tagged {s : State} (n : StackIx) {w : TagWrite} {x : Handle} (hx : s.handle? w.handle.val = some x) (hc : x.d.ctx = w.ctx)
    (h0 : w.handle.val ≠ 0) : doTaggedWrite n w s = ((s.disturb n w).modStack n fun y => { y with slag := marksAfter w y.slag }).modStack n fun y =>
      { y with banks := tput y.banks (bankKey w.handle.val w.step) (s.addWrite n w x.d (tget y.banks (bankKey w.handle.val w.step) {})) } := by
  have hmine : (s.handle? w.handle.val).filter (fun h => h.d.ctx == w.ctx) = some x := by simp [hx, hc]
  unfold doTaggedWrite
  dsimp only
  rw [if_neg h0, hmine]

/-- A write under no handle moves the markers of its lines and is counted at its stack and in the Hearth. -/
theorem doTaggedWrite_miss {s : State} (n : StackIx) {w : TagWrite} (hx : s.handle? w.handle.val = none) (h0 : w.handle.val ≠ 0) :
    doTaggedWrite n w s = (((s.disturb n w).modStack n fun y => { y with slag := marksAfter w y.slag }).bump (stackReg n SWD_OFD_TAG_MISS)).bump
      HRT_OFD_TAG_MISS := by
  unfold doTaggedWrite
  dsimp only
  rw [if_neg h0, hx]
  rfl

/-- A port that is open adds the whole units that the write writes. -/
theorem addWrite_open {s : State} {n : StackIx} (h : (s.agent (s.stackAgent n)).resync = false) (w : TagWrite) (d : OfdDecl) (b : Bank)
    {us : List (Nat × Nat) × Bool} (hus : unitsAt (widthOf d.width) ((w.addr + 2 ^ 64 - d.region.base) % 2 ^ 64) w.bytes = us) :
    s.addWrite n w d b = (((b.add (s.digestOf d.keySet.val d.indexBase us.1) us.1.length).flag flagLost us.2).flag flagRewritten
      (s.attemptMark w)).flag flagSlag w.slag.isSome := by
  subst hus
  unfold State.addWrite
  dsimp only
  rw [h]
  rfl

theorem taggedWrite_adds {s : State} {n : StackIx} {w : TagWrite} {x : Handle} {us : List (Nat × Nat) × Bool} (hs : s.Signals)
    (hx : s.handle? w.handle.val = some x) (hc : x.d.ctx = w.ctx) (h0 : w.handle.val ≠ 0) (hopen : (s.agent (s.stackAgent n)).resync = false)
    (hus : unitsAt (widthOf x.d.width) ((w.addr + 2 ^ 64 - x.d.region.base) % 2 ^ 64) w.bytes = us) :
    ∃ t, exec (.taggedWrite n w) s = .next t ∧
      tget? (t.stack n).banks (bankKey w.handle.val w.step) = some (((((tget (s.stack n).banks (bankKey w.handle.val w.step) {}).add
        (s.digestOf x.d.keySet.val x.d.indexBase us.1) us.1.length).flag flagLost us.2).flag flagRewritten (s.attemptMark w)).flag flagSlag
          w.slag.isSome) ∧
      (t.stack n).slag = marksAfter w (s.stack n).slag ∧ (∀ m, m ≠ n → t.stack m = s.stack m) ∧
      Frame [.msix, .out, .hbm, .ofd] s t ∧ (s.ofd.running = none → t.ofd = s.ofd) := by
  refine ⟨settle (doTaggedWrite n w s), rfl, ?_⟩
  rw [doTaggedWrite_tagged n hx hc h0]
  refine ⟨?_, ?_, fun m hm => ?_, ?_, disturb_idle n w⟩
  · rw [settle_stack, stack_modStack_self, stack_modStack_self, ← addWrite_open hopen w x.d _ hus]
    exact tget?_tput_self _ _ _
  · rw [settle_stack, stack_modStack_self, stack_modStack_self]
    rfl
  · rw [settle_stack, stack_modStack_ne _ _ hm, stack_modStack_ne _ _ hm]
    rfl
  · exact Frame.settle ((modOfd_frame s _).mono.trans ((modStack_frame _ n _).mono.trans (modStack_frame _ n _).mono)) hs.latch (by decide) (by decide)
      (by decide) (by decide)

theorem taggedWrite_misses {s : State} {n : StackIx} {w : TagWrite} (hs : s.Signals) (hx : s.handle? w.handle.val = none) (h0 : w.handle.val ≠ 0) :
    ∃ t, exec (.taggedWrite n w) s = .next t ∧ t.reg HRT_OFD_TAG_MISS = BitVec.ofNat 32 (satAdd 32 (s.reg HRT_OFD_TAG_MISS).toNat 1) ∧
      (t.stack n).banks = (s.stack n).banks ∧ (∀ m, m ≠ n → t.stack m = s.stack m) ∧
      Frame [.regs, .msix, .out, .hbm, .ofd] s t ∧ (s.ofd.running = none → t.ofd = s.ofd) ∧
      RegsBut (fun k => k == HRT_OFD_TAG_MISS || k == stackReg n SWD_OFD_TAG_MISS) s t := by
  have hne : HRT_OFD_TAG_MISS ≠ stackReg n SWD_OFD_TAG_MISS := by simp only [stackReg, HRT_OFD_TAG_MISS, SWD_OFD_TAG_MISS]; omega
  refine ⟨settle (doTaggedWrite n w s), rfl, ?_⟩
  rw [doTaggedWrite_miss n hx h0]
  refine ⟨?_, ?_, fun m hm => ?_, ?_, disturb_idle n w, ?_⟩
  · rw [settle_reg, reg_bump_self, State.bump, State.reg_setNat_ne _ _ hne]
    rfl
  · rw [settle_stack, stack_bump, stack_bump, stack_modStack_self]
    rfl
  · rw [settle_stack, stack_bump, stack_bump, stack_modStack_ne _ _ hm]
    rfl
  · exact Frame.settle ((((modOfd_frame s _).mono.trans (modStack_frame _ n _).mono).bump (by decide)).bump (by decide)) hs.latch (by decide) (by decide)
      (by decide) (by decide)
  · refine RegsBut.trans (t := (s.disturb n w).modStack n fun y => { y with slag := marksAfter w y.slag }) (.of_regs rfl) ?_
    exact (((RegsBut.refl _ _).bump (k := stackReg n SWD_OFD_TAG_MISS) (by simp)).bump (k := HRT_OFD_TAG_MISS) (by simp)).trans (.of_regs (settle_regs _))

/-! ### Latches (R166, R175) -/

theorem digestLatchCommand_waits {s : State} (hs : s.Signals) (n : StackIx) (c : CtxIx) (step : Word) :
    ∃ t, exec (.digestLatchCommand n c step) s = .next t ∧
      t.stack n = { s.stack n with latch := (s.stack n).latch ++ [(c, step)] } ∧ (∀ m, m ≠ n → t.stack m = s.stack m) ∧ Frame [.msix, .out, .hbm] s t :=
  ⟨_, rfl, (settle_stack _ n).trans (stack_modStack_self s n _), fun m hm => (settle_stack _ m).trans (stack_modStack_ne s _ hm),
    Frame.settle (modStack_frame s n _).mono hs.latch (by decide) (by decide) (by decide) (by decide)⟩

theorem bankLatch_takes {s : State} {n : StackIx} {c : CtxIx} {step : Word} (hs : s.Signals) (kat : List Ofd)
    (hc : (s.stack n).latch.contains (c, step) = true) : ∃ t, exec (.bankLatch n c step kat) s = .next t ∧
    (t.stack n).latch = (s.stack n).latch.erase (c, step) ∧
    (∀ k ∈ s.handlesOf c, tget? (t.stack n).banks (bankKey k step) = none ∧ (tget? (t.stack n).copies k).isSome = true) ∧
      ((s.handlesOf c).Nodup → ∀ k ∈ s.handlesOf c, tget? (t.stack n).copies k =
        some ((tget (s.stack n).banks (bankKey k step) {}).flag flagFaulty (s.katFault n || (s.katMissed kat).isSome))) ∧
    (∀ m, m ≠ n → t.stack m = s.stack m) ∧ Frame [.regs, .msix, .recd, .subs, .i3c, .obs, .out, .hbm, .agents, .ofd] s t := by
  obtain ⟨u, r, hu, hframe, hothers, hself⟩ := bankLatch_outcome hc kat
  have hcheck := katCheck_frame s n step kat
  have hchecked : ∀ m, (s.katCheck n step kat).stack m = s.stack m := stack_congr (hcheck .hbm (by decide))
  refine ⟨settle (doBankLatch n c step kat s), rfl, ?_, fun k hk => ?_, fun hnd k hk => ?_, fun m hm => ?_, ?_⟩
  · rw [settle_stack, hself]
    show (u.stack n).latch.erase (c, step) = _
    rw [hu.latch, hchecked]
  · rw [settle_stack, hself]
    exact hu.taken k hk
  · rw [settle_stack, hself]
    exact (hu.copy hnd k hk).trans (by rw [State.latchedBank, hchecked, katFault_katCheck])
  · rw [settle_stack, hothers m hm, hu.others m hm, hchecked]
  · exact Frame.settle ((hcheck.mono.trans hu.frame).trans hframe) hs.latch (by decide) (by decide) (by decide) (by decide)

/-! ### Handles (R163, R168, R172) -/

/-- A served command finds everything but the next sequence number as it was. -/
theorem accepted_ofd (s : State) (h : Hdr) : (s.accepted h).ofd = s.ofd := accepted_frame s h .ofd (by decide)

theorem accepted_ownsRegion (s : State) (h : Hdr) (p : Pend) (r : MemRegion) : (s.accepted h).ownsRegion p r = s.ownsRegion p r := by
  have hregions : (s.accepted h).regions = s.regions := accepted_frame s h .regions (by decide)
  rw [State.ownsRegion, State.ownsRegion, State.regionOf, State.regionOf, hregions]

theorem freeHandle_congr {s t : State} (h : t.ofd = s.ofd) : t.freeHandle = s.freeHandle := by
  unfold State.freeHandle
  simp only [handle_congr h]

/-- A command on handles that changes the digests by `f` and answers. -/
theorem handleCommand_completes {s : State} {h : Hdr} (hs : s.Signals) (op : Nat) (f : Digests → Digests) (data : List Word) :
    ∃ t, done (((s.accepted h).modOfd f).ok ⟨h, op⟩ data) = .next t ∧ t.ofd = f s.ofd ∧ Answered s t h op .ok data ∧
      Frame [.regs, .msix, .cmp, .out, .ofd] s t ∧ RegsBut commandReg s t := by
  have hepoch : ((s.accepted h).modOfd f).host.epoch = s.host.epoch := congrArg HostIf.epoch (accepted_frame s h .host (by decide))
  obtain ⟨hans, hframe, hregs⟩ := command_completes (s := s) (h := h) (op := op) (st := .ok) (data := data) (l := [.regs, .msix, .cmp, .out, .ofd])
    (modOfd_frame _ f).mono ((accepted_regs s h).trans (.of_regs rfl)) (by decide) hepoch hs (by decide) (by decide)
  refine ⟨_, rfl, ?_, hans, hframe, hregs⟩
  rw [settle_ofd, State.ok, State.answer_ofd, State.modOfd_ofd, accepted_ofd]

theorem ofdRegister_registers {s : State} {h : Hdr} {d : OfdDecl} {k : Nat} (hs : s.Signals) (hv : s.Serves h) (ho : h.operator = true)
    (hbase : d.indexBase < 2 ^ 48) (hown : s.ownsRegion ⟨h, 0x40⟩ d.region = true) (hlen : d.region.length * 8 % widthOf d.width = 0)
    (hover : (s.ofd.handles.any fun e => overlaps e.2.d.region d.region) = false) (hfree : s.freeHandle = some k) :
    ∃ t, exec (.ofdRegister h d) s = .next t ∧ t.handle? k = some { d := d } ∧ Answered s t h 0x40 .ok [BitVec.ofNat 32 k] ∧
      (∀ j, j ≠ k → t.handle? j = s.handle? j) ∧ Frame [.regs, .msix, .cmp, .out, .ofd] s t ∧ RegsBut commandReg s t := by
  obtain ⟨t, ht, hofd, hans, hframe, hregs⟩ := handleCommand_completes (h := h) hs 0x40 (fun o => { o with
    handles := tput o.handles k { d := d }, exhausted := o.exhausted.erase d.ctx }) [BitVec.ofNat 32 k]
  have hrun : exec (.ofdRegister h d) s = _ := exec_host rfl hv
  refine ⟨t, hrun.trans (.trans ?_ ht), ?_, hans, fun j hj => ?_, hframe, hregs⟩
  · show done (serveOfdRegister d ⟨h, 0x40⟩ (s.accepted h)) = _
    unfold serveOfdRegister
    rw [serveAs_operator ho hv.2.1, if_neg (by omega), accepted_ownsRegion, hown, accepted_ofd, hover, freeHandle_congr (accepted_ofd s h), hfree]
    simp [hlen]
  · rw [State.handle?, hofd]; exact tget?_tput_self _ _ _
  · rw [State.handle?, hofd]; exact tget?_tput_ne _ _ hj

theorem ofdRelease_marks {s : State} {h : Hdr} {k : Fin 256} {x : Handle} (hs : s.Signals) (hv : s.Serves h) (ho : h.operator = true)
    (hx : s.handle? k.val = some x) : ∃ t, exec (.ofdRelease h k) s = .next t ∧ t.handle? k.val = some { x with releasing := true } ∧
      Answered s t h 0x41 .ok [] ∧ (∀ j, j ≠ k.val → t.handle? j = s.handle? j) ∧ Frame [.regs, .msix, .cmp, .out, .ofd] s t ∧
      RegsBut commandReg s t := by
  obtain ⟨t, ht, hofd, hans, hframe, hregs⟩ := handleCommand_completes (h := h) hs 0x41 (fun o => { o with
    handles := tput o.handles k.val { x with releasing := true } }) []
  have hrun : exec (.ofdRelease h k) s = _ := exec_host rfl hv
  refine ⟨t, hrun.trans (.trans ?_ ht), ?_, hans, fun j hj => ?_, hframe, hregs⟩
  · show done (serveOfdRelease k ⟨h, 0x41⟩ (s.accepted h)) = _
    unfold serveOfdRelease
    rw [handle_congr (accepted_ofd s h), hx]
    exact congrArg done (serveAs_operator ho hv.2.1 _ _ _)
  · rw [State.handle?, hofd]; exact tget?_tput_self _ _ _
  · rw [State.handle?, hofd]; exact tget?_tput_ne _ _ hj

theorem ofdRead_answers {s : State} {h : Hdr} {k : Fin 256} {x : Handle} (hs : s.Signals) (hv : s.Serves h) (ho : h.operator = true)
    (hx : s.handle? k.val = some x) : ∃ t, exec (.ofdRead h k) s = .next t ∧
      Answered s t h 0x42 .ok (x.latched.flatMap fun l => l.1 :: l.2.words (l.2.status (unitsOf x.d))) ∧
      Frame [.regs, .msix, .cmp, .out] s t ∧ RegsBut commandReg s t := by
  have hrun : exec (.ofdRead h k) s = _ := exec_host rfl hv
  have hserve : serveOfdRead k ⟨h, 0x42⟩ (s.accepted h) =
      (s.accepted h).ok ⟨h, 0x42⟩ (x.latched.flatMap fun l => l.1 :: l.2.words (l.2.status (unitsOf x.d))) := by
    unfold serveOfdRead
    rw [handle_congr (accepted_ofd s h), hx]
    exact serveAs_operator ho hv.2.1 _ _ _
  exact ⟨_, hrun.trans (congrArg done hserve), command_completes (.refl _ _) (accepted_regs s h) (by decide)
    (congrArg HostIf.epoch (accepted_frame s h .host (by decide))) hs (by decide) (by decide)⟩

/-! ### The statement -/

/-- Settles O30, clause by clause. -/
theorem digestBanks : Obligations.DigestBanks :=
  ⟨fun _ _ _ _ _ hs hx hc h0 hopen hus => taggedWrite_adds hs hx hc h0 hopen hus,
    fun _ _ _ hs hx h0 => taggedWrite_misses hs hx h0,
    fun _ n c step hs => digestLatchCommand_waits hs n c step,
    fun _ _ _ _ kat hs hc => bankLatch_takes hs kat hc,
    fun _ _ _ _ hs hv ho hbase hown hlen hover hfree => ofdRegister_registers hs hv ho hbase hown hlen hover hfree,
    fun _ _ _ _ hs hv ho hx => ofdRelease_marks hs hv ho hx,
    fun _ _ _ _ hs hv ho hx => ofdRead_answers hs hv ho hx⟩

end Sys2Proof.Machine
end

section
/-! PROOFS. Where the statement on sliced BIST leaves no room for what the model does: an Anvil run whose hand-over is complete begins under the counter
set in force then (R381). -/
namespace Sys2Proof.Machine

-- One theorem at a time: with the joint text's other threads, parallel ones would pass the memory that the check gives.
set_option Elab.async false

/-- A run on tile 0, which holds number 0 and hands it to its cover, tile 1. -/
def handingJob : AnvilJob := { tile := 0, why := .nonidem, kernels := [0], all := [0], cover := some 1, logical := some 0, phase := .handOver }

/-- The run is in slot 0; tile 0 has no command under way, and partition 0 counts with the full set (R379). -/
def fullSetHandOver : State :=
  { oneContext with
    regs := [(OBS_FULL_EN, 1)]
    plan := { fp := [(0, { st := .good }), (1, { st := .spare })], map := [(0, 0)] }
    tiles := [(0, { role := .logical, handing := true }), (1, { role := .selfTest })]
    test := { slots := [some handingJob] } }

/-- The first kernel begins under the full set. -/
theorem handOverComplete_latches_fullSet :
    (doHandOverComplete (some 0) fullSetHandOver).test.slots.getD 0 none = some { handingJob with phase := .testing, full := true } := by decide

/-- Refutes O35: an Anvil run latches the counter set in force as its test begins (R381); the third clause has everything but the phase stand in the slot,
and no premise says that the full set is off. -/
theorem not_slicedBist : ¬ Obligations.SlicedBist := by
  rintro ⟨-, -, hrun, -⟩
  obtain ⟨t, ht, hslot, -⟩ := hrun fullSetHandOver 0 handingJob 1 0 rfl rfl rfl rfl (by decide)
  obtain rfl : settle (doHandOverComplete (some 0) fullSetHandOver) = t := Host.Outcome.next.inj ht
  have hfull := Option.some.inj (handOverComplete_latches_fullSet.symm.trans hslot)
  exact Bool.noConfusion (congrArg AnvilJob.full hfull)

end Sys2Proof.Machine
end

section
/-! PROOFS. What leaves the partition map where it is (R257): the fences, re-placements, kills and tests that a reset settles before it runs. One rule per
operation, in the order of the model, as the `grounds` lemmas have it for the parts that are kept whole. -/
namespace Sys2Proof.Machine

-- One theorem at a time: with the joint text's other threads, parallel ones would pass the memory that the check gives.
set_option Elab.async false

/-! ### The map and the registers beside it -/

/-- The partition of each compute die, as the register holds it. -/
def State.partMap (s : State) : Word := s.reg HRT_PARTITION_MAP

/-- The regions of partitions depend on the map alone. -/
theorem domsOfParts_congr {s t : State} (h : t.partMap = s.partMap) (m : BitVec 4) : t.domsOfParts m = s.domsOfParts m := by
  have hreg : t.reg HRT_PARTITION_MAP = s.reg HRT_PARTITION_MAP := h
  simp only [State.domsOfParts, State.diesOfParts, State.partOfDie, State.fld, hreg]

/-- Another register than the map. -/
def besideMap (k : Nat) : Bool := k != HRT_PARTITION_MAP

/-- The pages of wardens lie above the Hearth's. -/
theorem besideMap_page {k : Nat} (hk : 0x10000 ≤ k) : besideMap k = true :=
  bne_iff_ne.mpr (Nat.ne_of_gt (Nat.lt_of_lt_of_le (by decide) hk))

@[simp] theorem besideMap_tileReg (t : TileIx) (o : Nat) : besideMap (tileReg t o) = true := besideMap_page (by unfold tileReg; omega)
@[simp] theorem besideMap_tileItem (t : TileIx) (o i : Nat) : besideMap (itemKey (tileReg t o) i) = true :=
  besideMap_page (by unfold itemKey tileReg; omega)
@[simp] theorem besideMap_linkReg (p : PortIx) (o : Nat) : besideMap (linkReg p o) = true := besideMap_page (by unfold linkReg; omega)

/-- The registers of the Hearth page that this work moves. -/
@[simp] theorem besideMap_hearth : besideMap HRT_SHD_PREEMPTED = true ∧ besideMap HRT_BIST_NEXT = true ∧ besideMap HRT_BIST_SKIPPED = true ∧
    besideMap HRT_SHD_TOO_LARGE = true ∧ besideMap HRT_SHD_MISSED_BUSY = true ∧ besideMap HRT_NTC_PROD = true ∧ besideMap HRT_NTC_LOST = true ∧
    besideMap HRT_FENCE_LAST = true ∧ besideMap HRT_FENCE_LATENCY = true := by decide

/-- The registers that an event moves are others. -/
theorem RegsBut.partMap {s t : State} (h : RegsBut eventReg s t) : t.partMap = s.partMap := h _ (by decide)

/-- Where the registers stand, the map stands. -/
theorem partMap_of_regs {s t : State} (h : t.regs = s.regs) : t.partMap = s.partMap := State.reg_congr h _

theorem Frame.partMap {l : List Part} {s t : State} (h : Frame l s t) (hl : Part.regs ∉ l) : t.partMap = s.partMap := partMap_of_regs (h .regs hl)

@[simp] theorem ite_partMap {c : Prop} [Decidable c] (a b : State) : (if c then a else b).partMap = if c then a.partMap else b.partMap :=
  apply_ite State.partMap c a b

@[simp] theorem foldl_partMap {α : Type} {f : State → α → State} (h : ∀ s x, (f s x).partMap = s.partMap) (l : List α) (s : State) :
    (l.foldl f s).partMap = s.partMap := by
  induction l generalizing s with
  | nil => rfl
  | cons x l ih => exact (ih _).trans (h s x)

@[simp] theorem each_partMap {α : Type} {f : State → α → State} (h : ∀ s x, (f s x).partMap = s.partMap) (l : List α) (s : State) :
    (s.each l f).partMap = s.partMap := foldl_partMap h l s

/-! ### Single updates, events and answers -/

@[simp] theorem setReg_partMap (s : State) {k : Nat} (hk : besideMap k = true) (v : Word) : (s.setReg k v).partMap = s.partMap :=
  State.reg_setReg_ne s v (Ne.symm (bne_iff_ne.mp hk))
@[simp] theorem setNat_partMap (s : State) {k : Nat} (hk : besideMap k = true) (v : Nat) : (s.setNat k v).partMap = s.partMap := setReg_partMap s hk _
@[simp] theorem setFld_partMap (s : State) {k : Nat} (hk : besideMap k = true) (hi lo x : Nat) : (s.setFld k hi lo x).partMap = s.partMap :=
  setReg_partMap s hk _
@[simp] theorem bump_partMap (s : State) {k : Nat} (hk : besideMap k = true) (n : Nat) : (s.bump k n).partMap = s.partMap := setReg_partMap s hk _
@[simp] theorem bumpFld_partMap (s : State) {k : Nat} (hk : besideMap k = true) (hi lo n : Nat) : (s.bumpFld k hi lo n).partMap = s.partMap :=
  setReg_partMap s hk _

@[simp] theorem modTile_partMap (s : State) (t : TileIx) (f : Tile → Tile) : (s.modTile t f).partMap = s.partMap := partMap_of_regs rfl
@[simp] theorem setRole_partMap (s : State) (t : TileIx) (r : PoolRole) : (s.setRole t r).partMap = s.partMap := partMap_of_regs rfl
@[simp] theorem modCtx_partMap (s : State) (c : CtxIx) (f : Ctx → Ctx) : (s.modCtx c f).partMap = s.partMap := partMap_of_regs rfl
@[simp] theorem modFp_partMap (s : State) (t : TileIx) (f : Fp → Fp) : (s.modFp t f).partMap = s.partMap := partMap_of_regs rfl
@[simp] theorem modPlan_partMap (s : State) (f : Plan → Plan) : (s.modPlan f).partMap = s.partMap := partMap_of_regs rfl
@[simp] theorem modShadow_partMap (s : State) (f : Shadow → Shadow) : (s.modShadow f).partMap = s.partMap := partMap_of_regs rfl
@[simp] theorem modTest_partMap (s : State) (f : SelfTest → SelfTest) : (s.modTest f).partMap = s.partMap := partMap_of_regs rfl
@[simp] theorem modOfd_partMap (s : State) (f : Digests → Digests) : (s.modOfd f).partMap = s.partMap := partMap_of_regs rfl
@[simp] theorem modHost_partMap (s : State) (f : HostIf → HostIf) : (s.modHost f).partMap = s.partMap := partMap_of_regs rfl
@[simp] theorem modBu_partMap (s : State) (f : BringUp → BringUp) : (s.modBu f).partMap = s.partMap := partMap_of_regs rfl
@[simp] theorem setWatch_partMap (s : State) (k : Nat) (x : Watch) : (s.setWatch k x).partMap = s.partMap := partMap_of_regs rfl
@[simp] theorem emitOut_partMap (s : State) (o : Out) : (s.emitOut o).partMap = s.partMap := partMap_of_regs rfl
@[simp] theorem rewriteRecord_partMap (s : State) : s.rewriteRecord.partMap = s.partMap := partMap_of_regs rfl
@[simp] theorem voidHalves_partMap (s : State) (c : Capture) : (s.voidHalves c).partMap = s.partMap := partMap_of_regs rfl

@[simp] theorem irq_partMap (s : State) (v : Nat) : (s.irq v).partMap = s.partMap := (irq_regs s v).partMap
@[simp] theorem ibi_partMap (s : State) (m : Nat) (w : Word) : (s.ibi m w).partMap = s.partMap := (ibi_frame s m w).partMap (by decide)
@[simp] theorem event_partMap (s : State) (b : EvBody) : (s.event b).partMap = s.partMap := (event_regs s b).partMap
@[simp] theorem emit_partMap (s : State) (e : Event) : (s.emit e).partMap = s.partMap := (emit_regs s e).partMap
@[simp] theorem traceRec_partMap (s : State) (p w : Nat) (r : List Word) : (s.traceRec p w r).partMap = s.partMap := (traceRec_regs s p w r).partMap
@[simp] theorem finish_partMap (s : State) (p : Pend) (st : Status) (d : Word) (r : List Word) : (s.finish p st d r).partMap = s.partMap :=
  (finish_regs s p st d r).partMap
@[simp] theorem failJobs_partMap (s : State) (cs : List CtxIx) (cause : Nat) (code : Word) (scope : Nat) (coords : Word) :
    (s.failJobs cs cause code scope coords).partMap = s.partMap := (failJobs_regs s cs cause code scope coords).partMap
@[simp] theorem failTags_partMap (s : State) (l : List (BitVec 16 × Word)) (cause : Nat) (code : Word) (scope : Nat) (coords : Word) :
    (s.failTags l cause code scope coords).partMap = s.partMap := (failTags_regs s l cause code scope coords).partMap
@[simp] theorem ringNotice_partMap (s : State) (n : Notice) : (s.ringNotice n).partMap = s.partMap := by simp [State.ringNotice, State.writeSlot]
@[simp] theorem notify_partMap (s : State) (n : Notice) : (s.notify n).partMap = s.partMap := by simp [State.notify]
@[simp] theorem setPkg_partMap (s : State) (p : PkgState) : (s.setPkg p).partMap = s.partMap := by simp [State.setPkg]
@[simp] theorem epochUp_partMap (s : State) : s.epochUp.partMap = s.partMap := by simp [State.epochUp]

/-! ### Wardens and messages -/

@[simp] theorem wardenReport_partMap (s : State) (a : AgentIx) (r : Rep) : (s.wardenReport a r).partMap = s.partMap := wardenReport_reg s a r (by decide)
@[simp] theorem send_partMap (s : State) (a : AgentIx) (m : Bell) (n : Nat) : (s.send a m n).partMap = s.partMap := (send_frame s a m n).partMap (by decide)
@[simp] theorem unitCommand_partMap (s : State) (a : AgentIx) (m : Bell) : (s.unitCommand a m).partMap = s.partMap := send_partMap s a m _
@[simp] theorem command_partMap (s : State) (a : AgentIx) (m : Bell) : (s.command a m).partMap = s.partMap := send_partMap s a m _
@[simp] theorem sendNotices_partMap (s : State) (ps : List PortIx) (scope : Fin 7) (after : Byte) (gens : List Byte) (cs : List CtxIx) :
    (s.sendNotices ps scope after gens cs).partMap = s.partMap := by simp [State.sendNotices]

/-! ### The shadow pool and covers -/

@[simp] theorem modEntry_partMap (s : State) (t : TileIx) (q : Word) (f : JEntry → JEntry) : (s.modEntry t q f).partMap = s.partMap := by
  unfold State.modEntry; split <;> rfl

@[simp] theorem startShadow_partMap (s : State) (p sh : TileIx) (k : Cmd) (n : Nat) : (s.startShadow p sh k n).partMap = s.partMap := by
  unfold State.startShadow; split <;> simp

@[simp] theorem reportHeld_partMap (s : State) (t : TileIx) (q : Word) : (s.reportHeld t q).partMap = s.partMap := by
  unfold State.reportHeld
  split
  · rfl
  · split
    · rfl
    · split <;> simp

@[simp] theorem startHeld_partMap (s : State) (p sh : TileIx) (k : Cmd) (n : Nat) : (s.startHeld p sh k n).partMap = s.partMap := by
  simp [State.startHeld]

@[simp] theorem freeCapture_partMap (s : State) (t p : TileIx) (q : Word) (n : Nat) : (s.freeCapture t p q n).partMap = s.partMap := modTile_partMap s t _
@[simp] theorem dropPreempted_partMap (s : State) (t : TileIx) (c : Capture) : (s.dropPreempted t c).partMap = s.partMap := by simp [State.dropPreempted]
@[simp] theorem claimCover_partMap (s : State) (u : TileIx) : (s.claimCover u).partMap = s.partMap := by simp [State.claimCover]
@[simp] theorem freeTest_partMap (s : State) (t : TileIx) : (s.freeTest t).partMap = s.partMap := by simp [State.freeTest]
@[simp] theorem startTest_partMap (s : State) (t : TileIx) : (s.startTest t).partMap = s.partMap := by simp [State.startTest]
@[simp] theorem spareSlot_partMap (s : State) (t : TileIx) : (s.spareSlot t).partMap = s.partMap := by simp [State.spareSlot]

@[simp] theorem spareOrSkip_partMap (s : State) : s.spareOrSkip.partMap = s.partMap := by
  unfold State.spareOrSkip; split <;> simp

@[simp] theorem loseCover_partMap (s : State) (u : TileIx) : (s.loseCover u).partMap = s.partMap := by
  unfold State.loseCover
  refine (each_partMap (fun s i => ?_) _ _).trans ?_
  · split
    · rfl
    · split <;> simp
  · split
    · rfl
    · split <;> simp

@[simp] theorem seekHold_partMap (s : State) (p : TileIx) (k : Cmd) (n : Nat) (o : Option TileIx) : (s.seekHold p k n o).partMap = s.partMap := by
  unfold State.seekHold
  split
  · rfl
  · split
    · simp
    · split
      · simp
      · split <;> simp

@[simp] theorem reseek_partMap (s : State) (p : TileIx) (q : Word) (o : Option TileIx) : (s.reseek p q o).partMap = s.partMap := by
  unfold State.reseek; split <;> simp

@[simp] theorem unpaired_partMap (s : State) (t : TileIx) (c : Capture) : (s.unpaired t c).partMap = s.partMap := by simp [State.unpaired]
@[simp] theorem preemptShadow_partMap (s : State) (t : TileIx) : (s.preemptShadow t).partMap = s.partMap := by simp [State.preemptShadow]

/-! ### Gates and commits -/

@[simp] theorem sample_partMap (s : State) (t : TileIx) (l : LogIx) (k : Cmd) (n : Nat) : (s.sample t l k n).partMap = s.partMap := by
  unfold State.sample
  dsimp only
  split
  · rfl
  · split
    · simp
    · split
      · simp
      · split
        · simp
        · split
          · simp
          · split <;> simp

@[simp] theorem accept_partMap (s : State) (t : TileIx) (l : LogIx) (k : Cmd) : (s.accept t l k).partMap = s.partMap := by simp [State.accept]
@[simp] theorem drainGate_partMap (s : State) (t : TileIx) (l : LogIx) : (s.drainGate t l).partMap = s.partMap := by simp [State.drainGate]

@[simp] theorem drainGateOf_partMap (s : State) (t : TileIx) : (s.drainGateOf t).partMap = s.partMap := by
  unfold State.drainGateOf; split <;> simp

@[simp] theorem drainFreed_partMap (s : State) : s.drainFreed.partMap = s.partMap := by simp [State.drainFreed]
@[simp] theorem seekWaiting_partMap (s : State) : s.seekWaiting.partMap = s.partMap := by simp [State.seekWaiting, State.seekAll]

@[simp] theorem countConsumed_partMap (s : State) (t : TileIx) (k : Cmd) : (s.countConsumed t k).partMap = s.partMap :=
  each_partMap (fun s o => by cases o <;> simp) _ _

@[simp] theorem traceEnd_partMap (s : State) (t : TileIx) (e : JEntry) : (s.traceEnd t e).partMap = s.partMap := by simp [State.traceEnd]
@[simp] theorem commit_partMap (s : State) (t : TileIx) (k : Nat) (e : JEntry) : (s.commit t k e).partMap = s.partMap := by simp [State.commit]

@[simp] theorem releaseHold1_partMap (s : State) (t : TileIx) (q : Word) : (s.releaseHold1 t q).partMap = s.partMap := by
  unfold State.releaseHold1; split <;> simp

/-! ### Disputes and tests that end -/

@[simp] theorem freeArb_partMap (s : State) (a : Arb) (n : Nat) : (s.freeArb a n).partMap = s.partMap := by simp [State.freeArb]
@[simp] theorem releaseArb_partMap (s : State) (a : Arb) : (s.releaseArb a).partMap = s.partMap := by simp [State.releaseArb]
@[simp] theorem shadowNotice_partMap (s : State) (a : Arb) (o m : Nat) (c : Word) : (s.shadowNotice a o m c).partMap = s.partMap := by
  simp [State.shadowNotice]
@[simp] theorem markStep_partMap (s : State) (c : CtxIx) (w : Word) (m : Nat) : (s.markStep c w m).partMap = s.partMap := modCtx_partMap s c _
@[simp] theorem doubt_partMap (s : State) (a : Arb) (o m : Nat) (c : Word) : (s.doubt a o m c).partMap = s.partMap := by simp [State.doubt]
@[simp] theorem undecided_partMap (s : State) (a : Arb) : (s.undecided a).partMap = s.partMap := by simp [State.undecided]
@[simp] theorem abandonCase_partMap (s : State) (a : Arb) : (s.abandonCase a).partMap = s.partMap := by simp [State.abandonCase]

@[simp] theorem endArb_partMap (s : State) (i : Nat) (a : Arb) : (s.endArb i a).partMap = s.partMap := by
  unfold State.endArb; split <;> simp

@[simp] theorem watchOn_partMap (s : State) (t : TileIx) : (s.watchOn t).partMap = s.partMap := by simp [State.watchOn]
@[simp] theorem abandonArb_partMap (s : State) (a : Arb) : (s.abandonArb a).partMap = s.partMap := by simp [State.abandonArb]

@[simp] theorem abandonArbsOf_partMap (s : State) (t : TileIx) : (s.abandonArbsOf t).partMap = s.partMap := by
  unfold State.abandonArbsOf
  refine (each_partMap (fun s a => by simp) _ _).trans (each_partMap (fun s i => ?_) _ _)
  split <;> simp

@[simp] theorem requestAnvil_partMap (s : State) (t : TileIx) (w : AnvilWhy) (l : List Nat) : (s.requestAnvil t w l).partMap = s.partMap := by
  unfold State.requestAnvil; split <;> rfl

@[simp] theorem reqDone_partMap (s : State) (n : Nat) (j : AnvilJob) : (s.reqDone n j).partMap = s.partMap := by
  unfold State.reqDone; split <;> simp

@[simp] theorem anvilRegs_partMap (s : State) (j : AnvilJob) (b : Bool) : (s.anvilRegs j b).partMap = s.partMap := by simp [State.anvilRegs]

@[simp] theorem abortJob_partMap (s : State) (j : AnvilJob) : (s.abortJob j).partMap = s.partMap := by
  unfold State.abortJob; split <;> simp

@[simp] theorem endTests_partMap (s : State) (l : List TileIx) : (s.endTests l).partMap = s.partMap := by simp [State.endTests]
@[simp] theorem abortTest_partMap (s : State) (t : TileIx) : (s.abortTest t).partMap = s.partMap := by simp [State.abortTest]
@[simp] theorem claimSpare_partMap (s : State) (t : TileIx) (a : Bool) : (s.claimSpare t a).partMap = s.partMap := by simp [State.claimSpare]

/-! ### Kills (R242) -/

@[simp] theorem scrubFails_partMap (s : State) (r : Scrub) (st : Status) (n : Nat) : (s.scrubFails r st n).partMap = s.partMap := by
  unfold State.scrubFails; split <;> simp

@[simp] theorem killDigests_partMap (s : State) (c : CtxIx) : (s.killDigests c).partMap = s.partMap := each_partMap (fun s r => by simp) _ _

@[simp] theorem closeWatch_partMap (s : State) (k n : Nat) : (s.closeWatch k n).partMap = s.partMap := by
  unfold State.closeWatch
  dsimp only
  split
  · rfl
  · simp

@[simp] theorem abandonWatches_partMap (s : State) (f : WatchDecl → Bool) : (s.abandonWatches f).partMap = s.partMap := by simp [State.abandonWatches]

@[simp] theorem killOutside_partMap (s : State) (c : CtxIx) : (s.killOutside c).partMap = s.partMap :=
  show ((s.killDigests c).abandonWatches fun w => w.ctx == c).partMap = s.partMap by simp

@[simp] theorem endKill_partMap (s : State) (c : CtxIx) (p : Option Pend) : (s.endKill c p).partMap = s.partMap := by
  unfold State.endKill; split <;> simp

@[simp] theorem sendKill_partMap (s : State) (c : CtxIx) (p : Option Pend) : (s.sendKill c p).partMap = s.partMap := by simp [State.sendKill]
@[simp] theorem startKill_partMap (s : State) (c : CtxIx) (p : Option Pend) : (s.startKill c p).partMap = s.partMap := by simp [State.startKill]

/-! ### Fences and re-placements (R190 to R211) -/

@[simp] theorem moveLogical_partMap (s : State) (l : LogIx) (u : TileIx) : (s.moveLogical l u).partMap = s.partMap := by simp [State.moveLogical]

@[simp] theorem stepTwo_partMap (s : State) (r : Repl) (u : TileIx) : (s.stepTwo r u).partMap = s.partMap := by
  unfold State.stepTwo
  cases r.cause <;> simp

@[simp] theorem noSpare_partMap (s : State) (r : Repl) : (s.noSpare r).partMap = s.partMap := by
  unfold State.noSpare
  cases r.cause <;> simp

@[simp] theorem askReturn_partMap (s : State) (t : TileIx) (n : Nat) (c : Option Event) : (s.askReturn t n c).partMap = s.partMap := by
  simp [State.askReturn]

@[simp] theorem fencePlan_partMap (s : State) (t : TileIx) (n : Nat) (c : Option Event) (p : Option TileIx) (at0 : Nat) :
    (s.fencePlan t n c p at0).partMap = s.partMap := by
  unfold State.fencePlan
  dsimp only
  split
  · split
    · simp
    · cases c <;> simp
  · cases c <;> simp

@[simp] theorem settleRepl_partMap (s : State) (ts : List TileIx) : (s.settleRepl ts).partMap = s.partMap := by
  unfold State.settleRepl
  extract_lets hit s0 s1 s2 mine
  have h2 : s2.partMap = s.partMap := by simp [s2, s1, s0]
  refine (each_partMap (fun s r => ?_) mine _).trans h2
  split <;> simp

end Sys2Proof.Machine
end

section
/-! PROOFS. A compute reset from the end of its hold to its completion (R77, R219, R240, R244, R245, R250). -/
namespace Sys2Proof.Machine

-- One theorem at a time: with the joint text's other threads, parallel ones would pass the memory that the check gives.
set_option Elab.async false

/-! ### KILL on the regions of a reset (R244, R245) -/

theorem killed_covered (m k c : BitVec 41) : m &&& c &&& ~~~ (k ||| m &&& c) = 0 := by
  have h : ∀ x y z : Bool, (x && z && !(y || x && z)) = false := by decide
  ext i hi
  simpa only [BitVec.getElem_and, BitVec.getElem_or, BitVec.getElem_not, BitVec.ofNat_eq_ofNat, BitVec.getElem_zero] using h _ _ _

/-- An advance of the generation arms regions and moves no KILL. -/
theorem advance_kill (s : State) (m : BitVec 41) (p : Nat) : (s.advance m p).1.hl.kill = s.hl.kill := by
  unfold State.advance
  extract_lets a share wait s1
  clear_value a share wait
  have h1 : s1.hl = s.hl := by
    unfold s1
    split <;> rfl
  split
  · rw [State.emit_hl]
  · show s1.hl.kill = s.hl.kill
    rw [h1]

theorem goAlign_kill (s : State) (r : Reset) : (s.goAlign r).hl.kill = s.hl.kill := by
  have hmod : ∀ (x : State × Bool) (f : Escalation → Escalation), (x.1.modEsc f).hl.kill = x.1.hl.kill := fun _ _ => rfl
  exact (hmod _ _).trans (advance_kill s (s.domsOfParts r.parts) (lowPart r.parts))

/-- Whatever the reset ends on its way, KILL stands on its compute regions when they go for ALIGN. -/
theorem runCompute_kills (s : State) (r : Reset) : s.domsOfParts r.parts &&& computeDomains &&& ~~~ (s.runCompute r).hl.kill = 0 := by
  unfold State.runCompute
  extract_lets ts ds cs s1 s2 s3 s4 s5 s6
  have h2 : Keeps true s1 s2 := by simp [s2]
  have h3 : Keeps true s2 s3 := by simp [s3]
  have h4 : Keeps true s3 s4 := by simp [s4]
  have h5 : Keeps true s4 s5 := by simp [s5]
  have h6 : Keeps true s5 s6 := by simp [s6]
  rw [goAlign_kill, ((((h2.trans h3).trans h4).trans h5).trans h6).kill]
  exact killed_covered ds _ computeDomains

/-! ### The end of a hold (R211, R250) -/

/-- A held reset proceeds: what was fenced meanwhile moves its number, then KILL stands and the regions go for ALIGN. -/
theorem endHold_proceeds {s : State} {r : Reset} (hr : s.esc.reset = some r) (hp : r.phase = .holding) (hl : r.level ≠ .chip) :
    Eased s s.endHold ∧ s.domsOfParts r.parts &&& computeDomains &&& ~~~ s.endHold.hl.kill = 0 ∧
      ∃ ph cs, s.endHold.esc.reset = some { r with phase := ph, cs := r.cs ++ cs } ∧ ph ≠ .holding := by
  have hrun : s.endHold = (s.settleRepl (s.tilesOfParts r.parts)).runCompute { r with cs := r.cs ++ s.victims r.level r.parts } := by
    simp only [State.endHold, hr, hp, if_true, State.runReset, hl, if_false]
  have hmoved : Keeps false s (s.settleRepl (s.tilesOfParts r.parts)) := (settleRepl_kept s _).keeps
  have hdoms := domsOfParts_congr (settleRepl_partMap s (s.tilesOfParts r.parts)) r.parts
  obtain ⟨heased, ph, hph, hreset⟩ := runCompute_outcome (s.settleRepl (s.tilesOfParts r.parts)) { r with cs := r.cs ++ s.victims r.level r.parts }
  have hkill := runCompute_kills (s.settleRepl (s.tilesOfParts r.parts)) { r with cs := r.cs ++ s.victims r.level r.parts }
  rw [hrun]
  exact ⟨hmoved.eased.trans heased, hdoms ▸ hkill, ph, _, hreset, hph⟩

/-- The operator's release is answered, then the hold ends. -/
theorem serveEscRelease_proceeds {s : State} {h : Hdr} {r : Reset} (hs : s.Serves h) (ho : h.operator = true) (hr : s.esc.reset = some r)
    (hp : r.phase = .holding) (hl : r.level ≠ .chip) : ∃ ph cs,
      (serveEscRelease ⟨h, 0x35⟩ (s.accepted h)).esc.reset = some { r with phase := ph, cs := r.cs ++ cs } ∧ ph ≠ .holding ∧
        Answered s (settle (serveEscRelease ⟨h, 0x35⟩ (s.accepted h))) h 0x35 .ok [] := by
  have hserve : serveEscRelease ⟨h, 0x35⟩ (s.accepted h) = ((s.accepted h).answer ⟨h, 0x35⟩ .ok 0 []).endHold :=
    serveAs_operator ho hs.operandsGood true none _
  have hanswer : Keeps true s ((s.accepted h).answer ⟨h, 0x35⟩ .ok 0 []) := (accepted_keeps true s h).trans (answer_kept true _ _ _ _ _).keeps
  obtain ⟨heased, -, ph, cs, hreset, hph⟩ := endHold_proceeds (hanswer.readied.reset.trans hr) hp hl
  rw [hserve]
  exact ⟨ph, cs, hreset, hph,
    heased.told.answered (answered_of_settle (answered_settle (congrArg HostIf.epoch (accepted_frame s h .host (by decide)))))⟩

/-! ### The end of the holdoff (R77, R219) -/

/-- With no advance to wait for and no ALIGN scheduled at that grid point, the generation advances and the regions under KILL are armed. -/
theorem goAlign_schedules {s : State} (r : Reset) (ha : s.time.alignAt ≠ some s.nextGrid) (hl : s.esc.lastAdvance = none) :
    s.goAlign r = { s with
      esc := { s.esc with reset := some { r with phase := .aligning }, gen := s.esc.gen + 1, lastAdvance := some s.time.tb }
      hl := { s.hl with armed := s.hl.armed ||| (s.domsOfParts r.parts &&& s.hl.kill) }
      time := { s.time with alignAt := some s.nextGrid } } := by
  simp [State.goAlign, State.advance, ha, hl, State.modEsc, State.modHl]

/-- The end of the holdoff lets the regions go for ALIGN as if none had gone before. -/
theorem genHoldoffExpiry_schedules {s : State} {r : Reset} (hr : s.esc.reset = some r) (hp : r.phase = .holdoff)
    (ha : s.time.alignAt ≠ some s.nextGrid) :
    doGenHoldoffExpiry s = { s with
      esc := { s.esc with reset := some { r with phase := .aligning }, gen := s.esc.gen + 1, lastAdvance := some s.time.tb }
      hl := { s.hl with armed := s.hl.armed ||| (s.domsOfParts r.parts &&& s.hl.kill) }
      time := { s.time with alignAt := some s.nextGrid } } := by
  simp only [doGenHoldoffExpiry, hr, hp, if_true]
  exact goAlign_schedules r ha rfl

/-! ### Ports open (R80, R244) -/

/-- The grade has every tile's warden, and it is not the Hearth. -/
theorem tileAgent_serves (s : State) (tl : TileIx) : s.agentExists (tileAgent tl) = true ∧ tileAgent tl ≠ s.hearthAgent := by
  have hlt := tl.isLt
  have hdie : (tileAgent tl).die.val = tl.val / 18 := Nat.mod_eq_of_lt (show tl.val / 18 < 25 by omega)
  have hpos : (tileAgent tl).agent.val = tl.val % 18 := Nat.mod_eq_of_lt (show tl.val % 18 < 32 by omega)
  constructor
  · have hunit : (s.unitOf (tileAgent tl)).1 = 1 := by
      unfold State.unitOf
      rw [if_neg (by omega), if_neg (by omega), if_pos (by omega), if_pos (by omega)]
    have hexists : s.dieExists (tileAgent tl).die = true := by
      simp only [State.dieExists, Bool.or_eq_true, decide_eq_true_eq]
      exact .inl (by omega)
    simp [State.agentExists, hexists, hunit]
  · intro e
    have hanchor : s.anchor.val = 16 ∨ s.anchor.val = 24 := by
      unfold State.anchor
      split
      · exact .inl rfl
      · exact .inr rfl
    have hsame : (tileAgent tl).die.val = s.anchor.val := congrArg (fun a => a.die.val) e
    omega

/-- A report leaves every port as it stands. -/
theorem wardenReport_resync (s : State) (a b : AgentIx) (r : Rep) : ((s.wardenReport a r).agent b).resync = (s.agent b).resync := by
  have hqueue : ∀ x : Agent, x.resync = (s.agent a).resync → ((s.setAgent a x).agent b).resync = (s.agent b).resync := fun x hx => by
    by_cases h : b = a
    · subst h; rw [agent_setAgent_self, hx]
    · rw [agent_setAgent_ne s x h]
  have hlost : ∀ (l : List Rep) (u : State), (u.each l State.latchLost).agent b = u.agent b := fun l u =>
    agent_congr (Frame.each (fun s r => latchLost_frame s r) l u .agents (by decide)) b
  unfold State.wardenReport
  dsimp only
  split
  · exact hqueue _ rfl
  · unfold State.dropReport
    dsimp only
    rw [hlost, agent_bump]
    exact hqueue _ rfl

theorem openPort_frame (s : State) (a : AgentIx) : Frame [.regs, .agents, .ofd] s (s.openPort a) := by
  unfold State.openPort
  exact .ite (.refl _ s) ((((modAgent_frame s a _).mono).bumpFld (by decide)).trans (wardenReport_frame _ _ _))

/-- A tile's port is open once it has been told to open. -/
theorem openPort_opens_tile (s : State) (tl : TileIx) : ((s.openPort (tileAgent tl)).agent (tileAgent tl)).resync = false := by
  obtain ⟨hx, hh⟩ := tileAgent_serves s tl
  cases hr : (s.agent (tileAgent tl)).resync with
  | false => simp [State.openPort, hr]
  | true => simp [State.openPort, hx, hh, hr, wardenReport_resync]

/-- No port that is open closes when another opens. -/
theorem openPort_keeps_open {s : State} (a : AgentIx) {b : AgentIx} (hb : (s.agent b).resync = false) : ((s.openPort a).agent b).resync = false := by
  unfold State.openPort
  dsimp only
  split
  · exact hb
  · rw [wardenReport_resync, agent_bumpFld]
    by_cases h : b = a
    · subst h; rw [agent_modAgent_self]
    · rw [agent_modAgent_ne s _ h, hb]

theorem openPorts_keep_open (l : List TileIx) {s : State} {b : AgentIx} (hb : (s.agent b).resync = false) :
    ((s.each l fun s t => s.openPort (tileAgent t)).agent b).resync = false := by
  induction l generalizing s with
  | nil => exact hb
  | cons x l ih => exact ih (openPort_keeps_open _ hb)

theorem openPorts_open {l : List TileIx} (s : State) {tl : TileIx} (hm : tl ∈ l) :
    ((s.each l fun s t => s.openPort (tileAgent t)).agent (tileAgent tl)).resync = false := by
  induction l generalizing s with
  | nil => exact absurd hm List.not_mem_nil
  | cons x l ih =>
    rcases List.mem_cons.mp hm with rfl | hm
    · exact openPorts_keep_open l (openPort_opens_tile s tl)
    · exact ih (s.openPort (tileAgent x)) hm

/-! ### Tiles that lost control (R240) -/

/-- A tile whose warden is lost is fenced without a cause of its own (R240). -/
def State.fenceLost (s : State) (t : TileIx) : State := s.fencePlan t 6 none none s.time.tb

/-- The tile is FENCED for control lost. -/
def State.outOfControl (s : State) (tl : TileIx) : Prop := (s.fpOf tl).st = .fenced ∧ (s.fpOf tl).reason = 6

/-- The tile is in service. -/
def State.inService (s : State) (tl : TileIx) : Prop := (s.fpOf tl).st = .good ∨ (s.fpOf tl).st = .spare

theorem fpOf_congr {s t : State} (h : t.plan.fp = s.plan.fp) (tl : TileIx) : t.fpOf tl = s.fpOf tl := by rw [State.fpOf, State.fpOf, h]

/-- Asking for a return test queues it, and no more. -/
theorem askReturn_frame (s : State) (t : TileIx) (n : Nat) (c : Option Event) : Frame [.test] s (s.askReturn t n c) := by
  have hqueue : ∀ x : SelfTest, Frame [.test] s { s with test := x } := fun x q hq => by
    cases q <;> first | rfl | exact absurd (by decide) hq
  unfold State.askReturn State.requestAnvil
  exact .ite (.refl _ s) (.ite (.refl _ s) (hqueue _))

/-- A tile that has left service stands as it is. -/
theorem fenceLost_of_out {s : State} {t : TileIx} (h : ¬ s.inService t) : s.fenceLost t = s := if_neg h

/-- The floor plan's part of a fence, and its frame. -/
theorem fencePlan_frame (s : State) (t : TileIx) (n : Nat) (c : Option Event) (p : Option TileIx) (d : Nat) :
    Frame [.plan, .test, .regs, .msix, .recd, .subs, .i3c, .obs, .out] s (s.fencePlan t n c p d) := by
  unfold State.fencePlan
  extract_lets was s1 s2
  have h1 : Frame [.plan, .test, .regs, .msix, .recd, .subs, .i3c, .obs, .out] s s1 := (modFp_frame s t _).mono.setNat (by decide)
  have h2 : Frame [.plan, .test, .regs, .msix, .recd, .subs, .i3c, .obs, .out] s s2 := (h1.setNat (by decide)).trans (askReturn_frame _ t n c).mono
  split
  · split
    · exact h2.modPlan (by decide)
    · cases c
      · exact h2.trans (epochUp_frame s2).mono
      · exact (h2.trans (epochUp_frame s2).mono).emit (by decide)
  · cases c
    · exact .refl _ s
    · exact (emit_frame s _).mono

/-- A tile in service is FENCED; the place of every other tile stands. -/
theorem fenceLost_fp {s : State} {t : TileIx} (h : s.inService t) :
    (s.fenceLost t).plan.fp = (s.modFp t fun f => { f with st := .fenced, reason := 6, watch := none }).plan.fp := by
  unfold State.fenceLost State.fencePlan
  extract_lets was s1 s2
  have h2 : s2.plan = (s.modFp t fun f => { f with st := .fenced, reason := 6, watch := none }).plan :=
    (askReturn_frame _ t 6 none .plan (by decide)).trans ((State.setNat_plan _ _ _).trans (State.setNat_plan _ _ _))
  have hepoch : s2.epochUp.plan.fp = s2.plan.fp := by simp [State.epochUp]
  rw [← h2]
  split
  · split
    · rfl
    · exact hepoch
  · next hout => exact absurd h hout

theorem fenceLost_fpOf_ne (s : State) {t tl : TileIx} (hne : tl ≠ t) : (s.fenceLost t).fpOf tl = s.fpOf tl := by
  by_cases h : s.inService t
  · exact (fpOf_congr (fenceLost_fp h) tl).trans (fpOf_setFp_ne s _ hne)
  · rw [fenceLost_of_out h]

theorem fenceLost_fences {s : State} {tl : TileIx} (h : s.inService tl) : (s.fenceLost tl).outOfControl tl := by
  have hself : (s.fenceLost tl).fpOf tl = _ := (fpOf_congr (fenceLost_fp h) tl).trans (fpOf_setFp_self s tl _)
  exact ⟨congrArg Fp.st hself, congrArg Fp.reason hself⟩

theorem State.outOfControl.not_inService {s : State} {tl : TileIx} (h : s.outOfControl tl) : ¬ s.inService tl := by
  rw [State.inService, h.1]
  decide

theorem fenceLost_keeps_outOfControl {s : State} {tl : TileIx} (h : s.outOfControl tl) (t : TileIx) : (s.fenceLost t).outOfControl tl := by
  by_cases e : tl = t
  · subst e
    rwa [fenceLost_of_out h.not_inService]
  · rwa [State.outOfControl, fenceLost_fpOf_ne s e]

theorem fenceAll_keeps_outOfControl (l : List TileIx) {s : State} {tl : TileIx} (h : s.outOfControl tl) : (s.each l State.fenceLost).outOfControl tl := by
  induction l generalizing s with
  | nil => exact h
  | cons x l ih => exact ih (fenceLost_keeps_outOfControl h x)

/-- Of the tiles that are lost each that was in service is FENCED, whatever is fenced before and after it. -/
theorem fenceAll_fences {l : List TileIx} {s : State} {tl : TileIx} (hm : tl ∈ l) (h : s.inService tl) : (s.each l State.fenceLost).outOfControl tl := by
  induction l generalizing s with
  | nil => exact absurd hm List.not_mem_nil
  | cons x l ih =>
    by_cases e : tl = x
    · subst e
      exact fenceAll_keeps_outOfControl l (fenceLost_fences h)
    · refine ih ((List.mem_cons.mp hm).resolve_left e) ?_
      rwa [State.inService, fenceLost_fpOf_ne s e]

theorem fenceAll_keeps (l : List TileIx) (s : State) : Keeps false s (s.each l State.fenceLost) :=
  .each (fun s t => (fencePlan_kept s t 6 none none s.time.tb).keeps) l s

theorem fenceAll_agents (l : List TileIx) (s : State) : (s.each l State.fenceLost).agents = s.agents := by
  induction l generalizing s with
  | nil => rfl
  | cons x l ih => exact (ih _).trans (fencePlan_frame s x 6 none none s.time.tb .agents (by decide))

/-! ### RESET_COMPLETE (R240, R244) -/

/-- The state in which the wardens that answer have their ports open and the reset is over. -/
def State.portsOpened (s : State) (ts : List TileIx) : State :=
  (s.each (ts.filter fun t => !(s.agent (tileAgent t)).failed) fun s t => s.openPort (tileAgent t)).modEsc fun e => { e with reset := none }

theorem portsOpened_frame (s : State) (ts : List TileIx) : Frame [.regs, .agents, .ofd, .esc] s (s.portsOpened ts) :=
  Frame.modEsc (.each (fun s t => (openPort_frame s (tileAgent t)).mono) _ s) (by decide)

theorem portsOpened_opens (s : State) {ts : List TileIx} {tl : TileIx} (hm : tl ∈ ts) (hf : (s.agent (tileAgent tl)).failed = false) :
    ((s.portsOpened ts).agent (tileAgent tl)).resync = false :=
  openPorts_open s (List.mem_filter.mpr ⟨hm, by rw [hf]; rfl⟩)

/-- With KILL gone and its broadcast over the reset completes: ports open, then the tiles whose wardens do not answer are fenced. -/
theorem doResetComplete_eq {s : State} {r : Reset} (hr : s.esc.reset = some r) (hl : r.level ≠ .chip) (hp : r.phase = .aligning)
    (hc : (s.bu.cast.all fun c => c.reset.isNone) = true) (hk : s.hl.kill &&& s.domsOfParts r.parts = 0) :
    doResetComplete s = (s.portsOpened (s.tilesOfParts r.parts)).each
      ((s.tilesOfParts r.parts).filter fun t => (s.agent (tileAgent t)).failed) State.fenceLost := by
  have hcast : (s.bu.cast.any fun c => c.reset.isSome) = false := by
    cases hb : s.bu.cast with
    | none => rfl
    | some c =>
      rw [hb, Option.all_some] at hc
      rw [Option.any_some, Option.isSome_eq_false_iff]
      exact hc
  unfold doResetComplete
  rw [hr]
  dsimp only
  rw [if_neg (by simp [hl, hp, hk, hcast])]
  rfl

/-! ### The statement -/

/-- Settles O21: a held reset proceeds to its ALIGN, and with KILL gone it opens the ports of the wardens that answer. -/
theorem resetProgress : Obligations.ResetProgress := by
  refine ⟨fun s r hr hp hl => ?expiry, fun s h r hs ho hr hp hl => ?release, fun s r hsig hr hp ha => ?holdoff,
    fun s r hsig hr hl hp hc hk => ?complete⟩
  case expiry =>
    obtain ⟨-, hkill, ph, cs, hreset, hph⟩ := endHold_proceeds hr hp hl
    exact ⟨_, ph, cs, rfl, hreset, hph, hkill⟩
  case release =>
    obtain ⟨ph, cs, hreset, hph, hanswer⟩ := serveEscRelease_proceeds hs ho hr hp hl
    exact ⟨_, ph, cs, exec_host rfl hs, hreset, hph, hanswer⟩
  case holdoff =>
    rw [exec, execGenHoldoffExpiry, genHoldoffExpiry_schedules hr hp ha]
    refine ⟨_, rfl, rfl, rfl, rfl, rfl, rfl, fun q hq => ?_⟩
    have hpins := settle_pw_of (s := s) hsig.2.2.2
    cases q <;> first | rfl | exact hpins | exact absurd (by decide) hq
  case complete =>
    have hframe := portsOpened_frame s (s.tilesOfParts r.parts)
    rw [exec, execResetComplete, doResetComplete_eq hr hl hp hc hk]
    refine ⟨_, rfl, (fenceAll_keeps _ _).readied.reset, fun tl hm hf => ?opened, fun tl hm hf hst => ?fenced, fun hall => ?quiet⟩
    case opened =>
      exact (congrArg Agent.resync (agent_congr (fenceAll_agents _ _) _)).trans (portsOpened_opens s hm hf)
    case fenced =>
      have hfp : (s.portsOpened (s.tilesOfParts r.parts)).fpOf tl = s.fpOf tl := fpOf_congr (congrArg Plan.fp (hframe .plan (by decide))) tl
      exact fenceAll_fences (List.mem_filter.mpr ⟨hm, hf⟩) (by rwa [State.inService, hfp])
    case quiet =>
      have hnone : ((s.tilesOfParts r.parts).filter fun t => (s.agent (tileAgent t)).failed) = [] := by simp [hall]
      rw [hnone]
      exact Frame.settle hframe.mono hsig.2.2.2 (by decide) (by decide) (by decide) (by decide)

end Sys2Proof.Machine
end

section
/-! PROOFS. Two statements whose frames leave no room for what the model does: the TRIP latch that a command's end shows (R339, R514), and the message
that follows a unit's read once the read is given up. -/
namespace Sys2Proof.Machine

-- One theorem at a time: with the joint text's other threads, parallel ones would pass the memory that the check gives.
set_option Elab.async false

/-- The one edge of a knot: context 1 waits on tile 0 for itself with a full queue. -/
def selfEdge : Edge := ⟨1, 3, 0, 0, true, 5, 64⟩

/-- Context 1 is in that knot longer than the knot timeout, its spill region empty; the TRIP latch stands and TRAY_PC_N does not show it yet. -/
def trippedKnot : State :=
  { State.reset with
    hl := { State.reset.hl with tripLatch := true }
    time := { State.reset.time with tb := 4000000000 }
    plan := { fp := [(0, { st := .good })], map := [(0, 0)] }
    ctxs := [(1, { used := true, step := 3 })]
    tiles := [(0, { role := .logical, queues := [(259, { depth := 2, tokens := [(5, 0, false), (6, 0, false)] })] })]
    esc := { graph := [⟨selfEdge, 0⟩] } }

/-- Refutes O22: every command shows the TRIP latch on TRAY_PC_N at its end (R339); the clause of the spill has no premise that the pin shows it
already, and its frame keeps the power signals. -/
theorem not_waitForGraph : ¬ Obligations.WaitForGraph := by
  rintro ⟨-, -, -, hspill, -⟩
  obtain ⟨t, ht, -, -, hframe⟩ := hspill trippedKnot [⟨selfEdge, 0⟩] 1 selfEdge 0 (by decide) (by decide) (by decide) (by decide)
    (by decide) (by decide)
  obtain rfl : settle (doKnotTimeoutExpiry true 1 trippedKnot) = t := Host.Outcome.next.inj ht
  have hpins : (settle (doKnotTimeoutExpiry true 1 trippedKnot)).pw = trippedKnot.pw := hframe .pw (by decide)
  have hshown : (settle (doKnotTimeoutExpiry true 1 trippedKnot)).pw.trayPc = true := by decide
  rw [hpins] at hshown
  exact absurd hshown (by decide)

/-- A snapshot still has to read the warden of tile 0, and a self-test of the tile waits behind that read in the warden's queue. -/
def readBeforeTest : State :=
  { State.reset with
    esc := { snaps := [{}, { st := 1, todo := [tileAgent 0] }] }
    bus := { State.reset.bus with out := [(agentKey (tileAgent 0) * 4 + 3, [⟨0, .snapshotRead, 0, 100⟩, ⟨1, .bist 0 1, 0, 100⟩])] } }

theorem readBeforeTest_signals : readBeforeTest.Signals := by unfold State.Signals; decide

/-- The self-test goes out and waits at its warden until the unit takes it (R79), so it draws one of the free inputs. -/
theorem snapshotUnitTimeout_sends_next : (doSnapshotUnitTimeout 1 (tileAgent 0) readBeforeTest).free = readBeforeTest.free + 1 := by decide

/-- Refutes O34: a unit whose read is given up leaves the head of its queue, and the next message to it goes out; when that one is for the unit itself, it
waits at the warden (R79), and the warden's state and the free inputs move, which the frame of that clause leaves no room for. -/
theorem not_snapshots : ¬ Obligations.Snapshots := by
  rintro ⟨-, hunit, -⟩
  obtain ⟨t, ht, -, hframe⟩ := hunit readBeforeTest 1 (tileAgent 0) readBeforeTest_signals (by decide) (by decide)
  obtain rfl : settle (doSnapshotUnitTimeout 1 (tileAgent 0) readBeforeTest) = t := Host.Outcome.next.inj ht
  have hkept : (doSnapshotUnitTimeout 1 (tileAgent 0) readBeforeTest).free = readBeforeTest.free := hframe .free (by decide)
  rw [snapshotUnitTimeout_sends_next] at hkept
  exact absurd hkept (by decide)

end Sys2Proof.Machine
end

section
/-! PROOFS. What one tile, context or port reads after a write, and what the shadow duties, the covers and the gates of tiles leave where it is: the
escalation (R256), the host interface, and the kills of contexts (R242). One rule per operation, in the order of the model. -/
namespace Sys2Proof.Machine

-- One theorem at a time: with the joint text's other threads, parallel ones would pass the memory that the check gives.
set_option Elab.async false

/-! ### Reads after writes -/

theorem tile_congr {s t : State} (h : t.tiles = s.tiles) (u : TileIx) : t.tile u = s.tile u := by rw [State.tile, h, State.tile]
theorem ctx_congr {s t : State} (h : t.ctxs = s.ctxs) (c : CtxIx) : t.ctx c = s.ctx c := by rw [State.ctx, h, State.ctx]

@[simp] theorem tile_setTile_self (s : State) (t : TileIx) (x : Tile) : (s.setTile t x).tile t = x := tget_tput_self _ _ _ _
@[simp] theorem tile_modTile_self (s : State) (t : TileIx) (f : Tile → Tile) : (s.modTile t f).tile t = f (s.tile t) := tget_tput_self _ _ _ _
theorem tile_setTile_ne (s : State) {t u : TileIx} (x : Tile) (h : u ≠ t) : (s.setTile t x).tile u = s.tile u :=
  tget_tput_ne _ _ _ fun e => h (Fin.ext e)
theorem tile_modTile_ne (s : State) {t u : TileIx} (f : Tile → Tile) (h : u ≠ t) : (s.modTile t f).tile u = s.tile u := tile_setTile_ne s _ h

@[simp] theorem ctx_setCtx_self (s : State) (c : CtxIx) (x : Ctx) : (s.setCtx c x).ctx c = x := tget_tput_self _ _ _ _
@[simp] theorem ctx_modCtx_self (s : State) (c : CtxIx) (f : Ctx → Ctx) : (s.modCtx c f).ctx c = f (s.ctx c) := tget_tput_self _ _ _ _
theorem ctx_setCtx_ne (s : State) {c d : CtxIx} (x : Ctx) (h : d ≠ c) : (s.setCtx c x).ctx d = s.ctx d :=
  tget_tput_ne _ _ _ fun e => h (Fin.ext e)
theorem ctx_modCtx_ne (s : State) {c d : CtxIx} (f : Ctx → Ctx) (h : d ≠ c) : (s.modCtx c f).ctx d = s.ctx d := ctx_setCtx_ne s _ h

/-! ### The parts that stand -/

/-- Whether a context's kill runs, and until when its number is in quarantine (R242). -/
def State.kills (s : State) (c : CtxIx) : Option (List AgentIx × Option Pend) × Option Nat := ((s.ctx c).killing, (s.ctx c).quarantine)

/-- The escalation, the host interface and the kills of contexts. -/
def State.aside (s : State) : Escalation × HostIf × (CtxIx → Option (List AgentIx × Option Pend) × Option Nat) := (s.esc, s.host, s.kills)

theorem esc_of_aside {s t : State} (h : t.aside = s.aside) : t.esc = s.esc := congrArg (·.1) h
theorem host_of_aside {s t : State} (h : t.aside = s.aside) : t.host = s.host := congrArg (·.2.1) h
theorem kills_of_aside {s t : State} (h : t.aside = s.aside) (c : CtxIx) : t.kills c = s.kills c := congrFun (congrArg (·.2.2) h) c
theorem killing_of_aside {s t : State} (h : t.aside = s.aside) (c : CtxIx) : (t.ctx c).killing = (s.ctx c).killing := congrArg Prod.fst (kills_of_aside h c)
theorem quarantine_of_aside {s t : State} (h : t.aside = s.aside) (c : CtxIx) : (t.ctx c).quarantine = (s.ctx c).quarantine :=
  congrArg Prod.snd (kills_of_aside h c)

theorem aside_of {s t : State} (he : t.esc = s.esc) (hh : t.host = s.host) (hc : t.ctxs = s.ctxs) : t.aside = s.aside := by
  have hkills : t.kills = s.kills := funext fun c => by rw [State.kills, State.kills, ctx_congr hc]
  rw [State.aside, State.aside, he, hh, hkills]

theorem Frame.aside {l : List Part} {s t : State} (h : Frame l s t) (he : Part.esc ∉ l) (hh : Part.host ∉ l) (hc : Part.ctxs ∉ l) :
    t.aside = s.aside := aside_of (h .esc he) (h .host hh) (h .ctxs hc)

@[simp] theorem ite_aside {c : Prop} [Decidable c] (a b : State) : (if c then a else b).aside = if c then a.aside else b.aside :=
  apply_ite State.aside c a b

@[simp] theorem each_aside {α : Type} {f : State → α → State} (h : ∀ s x, (f s x).aside = s.aside) (l : List α) (s : State) :
    (s.each l f).aside = s.aside := by
  induction l generalizing s with
  | nil => rfl
  | cons x l ih => exact (ih (f s x)).trans (h s x)

/-! ### Single updates, reports and messages -/

@[simp] theorem bump_aside (s : State) (k n : Nat) : (s.bump k n).aside = s.aside := aside_of rfl rfl rfl
@[simp] theorem setNat_aside (s : State) (k n : Nat) : (s.setNat k n).aside = s.aside := aside_of rfl rfl rfl
@[simp] theorem setFld_aside (s : State) (k hi lo x : Nat) : (s.setFld k hi lo x).aside = s.aside := aside_of rfl rfl rfl
@[simp] theorem bumpFld_aside (s : State) (k hi lo n : Nat) : (s.bumpFld k hi lo n).aside = s.aside := aside_of rfl rfl rfl
@[simp] theorem modTile_aside (s : State) (t : TileIx) (f : Tile → Tile) : (s.modTile t f).aside = s.aside := aside_of rfl rfl rfl
@[simp] theorem setRole_aside (s : State) (t : TileIx) (r : PoolRole) : (s.setRole t r).aside = s.aside := aside_of rfl rfl rfl
@[simp] theorem modShadow_aside (s : State) (f : Shadow → Shadow) : (s.modShadow f).aside = s.aside := aside_of rfl rfl rfl
@[simp] theorem modTest_aside (s : State) (f : SelfTest → SelfTest) : (s.modTest f).aside = s.aside := aside_of rfl rfl rfl
@[simp] theorem modHl_aside (s : State) (f : HardLines → HardLines) : (s.modHl f).aside = s.aside := aside_of rfl rfl rfl
@[simp] theorem voidHalves_aside (s : State) (c : Capture) : (s.voidHalves c).aside = s.aside := aside_of rfl rfl rfl

/-- A context that keeps its kill and its quarantine leaves the rest where it is. -/
@[simp] theorem modCtx_aside (s : State) (c : CtxIx) {f : Ctx → Ctx} (hk : ∀ x, (f x).killing = x.killing) (hq : ∀ x, (f x).quarantine = x.quarantine) :
    (s.modCtx c f).aside = s.aside := by
  have hkills : (s.modCtx c f).kills = s.kills := funext fun d => by
    by_cases h : d = c
    · subst h; rw [State.kills, State.kills, ctx_modCtx_self, hk, hq]
    · rw [State.kills, State.kills, ctx_modCtx_ne _ _ h]
  exact congrArg (fun k => (s.esc, s.host, k)) hkills

@[simp] theorem wardenReport_aside (s : State) (a : AgentIx) (r : Rep) : (s.wardenReport a r).aside = s.aside :=
  (wardenReport_frame s a r).aside (by decide) (by decide) (by decide)
@[simp] theorem send_aside (s : State) (a : AgentIx) (m : Bell) (n : Nat) : (s.send a m n).aside = s.aside :=
  (send_frame s a m n).aside (by decide) (by decide) (by decide)
@[simp] theorem unitCommand_aside (s : State) (a : AgentIx) (m : Bell) : (s.unitCommand a m).aside = s.aside := send_aside s a m _

/-! ### The shadow pool and covers -/

@[simp] theorem modEntry_aside (s : State) (t : TileIx) (q : Word) (f : JEntry → JEntry) : (s.modEntry t q f).aside = s.aside := by
  unfold State.modEntry; split <;> simp

@[simp] theorem startShadow_aside (s : State) (p sh : TileIx) (k : Cmd) (n : Nat) : (s.startShadow p sh k n).aside = s.aside := by
  unfold State.startShadow; split <;> simp

@[simp] theorem reportHeld_aside (s : State) (t : TileIx) (q : Word) : (s.reportHeld t q).aside = s.aside := by
  unfold State.reportHeld
  split
  · rfl
  · split
    · rfl
    · split <;> simp

@[simp] theorem startHeld_aside (s : State) (p sh : TileIx) (k : Cmd) (n : Nat) : (s.startHeld p sh k n).aside = s.aside := by simp [State.startHeld]

@[simp] theorem freeCapture_aside (s : State) (t p : TileIx) (q : Word) (n : Nat) : (s.freeCapture t p q n).aside = s.aside := modTile_aside s t _
@[simp] theorem dropPreempted_aside (s : State) (t : TileIx) (c : Capture) : (s.dropPreempted t c).aside = s.aside := by simp [State.dropPreempted]
@[simp] theorem claimCover_aside (s : State) (u : TileIx) : (s.claimCover u).aside = s.aside := by simp [State.claimCover]
@[simp] theorem freeTest_aside (s : State) (t : TileIx) : (s.freeTest t).aside = s.aside := by simp [State.freeTest]
@[simp] theorem startTest_aside (s : State) (t : TileIx) : (s.startTest t).aside = s.aside := by simp [State.startTest]
@[simp] theorem spareSlot_aside (s : State) (t : TileIx) : (s.spareSlot t).aside = s.aside := by simp [State.spareSlot]

@[simp] theorem spareOrSkip_aside (s : State) : s.spareOrSkip.aside = s.aside := by
  unfold State.spareOrSkip; split <;> simp

@[simp] theorem loseCover_aside (s : State) (u : TileIx) : (s.loseCover u).aside = s.aside := by
  unfold State.loseCover
  refine (each_aside (fun s i => ?_) _ _).trans ?_
  · split
    · rfl
    · split <;> simp
  · split
    · rfl
    · split <;> simp

@[simp] theorem seekHold_aside (s : State) (p : TileIx) (k : Cmd) (n : Nat) (o : Option TileIx) : (s.seekHold p k n o).aside = s.aside := by
  unfold State.seekHold
  split
  · rfl
  · split
    · simp
    · split
      · simp
      · split <;> simp

/-! ### Gates -/

/-- The sampler counts in the context; its kill stands. -/
@[simp] theorem sample_aside (s : State) (t : TileIx) (l : LogIx) (k : Cmd) (n : Nat) : (s.sample t l k n).aside = s.aside := by
  unfold State.sample
  extract_lets x s1 smp s2
  have h1 : s1.aside = s.aside := by simp [s1]
  have h2 : s2.aside = s.aside := by simp [s2, h1]
  split
  · rfl
  · split
    · rfl
    · split
      · simp [h1]
      · split
        · exact h1
        · split
          · exact h1
          · split
            · simp [h2]
            · simp [h2]

@[simp] theorem accept_aside (s : State) (t : TileIx) (l : LogIx) (k : Cmd) : (s.accept t l k).aside = s.aside := by simp [State.accept]
@[simp] theorem drainGate_aside (s : State) (t : TileIx) (l : LogIx) : (s.drainGate t l).aside = s.aside := by simp [State.drainGate]

@[simp] theorem drainGateOf_aside (s : State) (t : TileIx) : (s.drainGateOf t).aside = s.aside := by
  unfold State.drainGateOf; split <;> simp

@[simp] theorem drainGates_aside (s : State) : s.drainGates.aside = s.aside := by simp [State.drainGates]
@[simp] theorem drainFreed_aside (s : State) : s.drainFreed.aside = s.aside := by simp [State.drainFreed]
@[simp] theorem seekWaiting_aside (s : State) : s.seekWaiting.aside = s.aside := by simp [State.seekWaiting, State.seekAll]

/-! ### Trace writers -/

@[simp] theorem traceDrain_aside (s : State) (p w : Nat) : (s.traceDrain p w).aside = s.aside :=
  (traceDrain_frame s p w).aside (by decide) (by decide) (by decide)
@[simp] theorem releaseStop_aside (s : State) (m : BitVec 41) : (s.releaseStop m).aside = s.aside := by simp [State.releaseStop, State.drainWriters]

end Sys2Proof.Machine
end

section
/-! PROOFS. Boundary stops from their request to their release (R73, R256). -/
namespace Sys2Proof.Machine

-- One theorem at a time: with the joint text's other threads, parallel ones would pass the memory that the check gives.
set_option Elab.async false

/-! ### STOP on a scope (R73) -/

/-- A line asserted on a mask within its reach, wherever neither it nor a second one stands, leaves nothing of the mask without both. -/
theorem scope_covered (m r a b : BitVec 41) : m &&& r &&& ~~~ (a ||| m &&& r &&& ~~~ (a ||| b) ||| b) = 0 := by
  have h : ∀ w x y z : Bool, (w && x && !(y || w && x && !(y || z) || z)) = false := by decide
  ext i hi
  simpa only [BitVec.getElem_and, BitVec.getElem_or, BitVec.getElem_not, BitVec.ofNat_eq_ofNat, BitVec.getElem_zero] using h _ _ _ _

/-- STOP asserted on a mask holds every domain of it that the line reaches and TRIP does not hold. -/
theorem assertStop_scope (s : State) (m : BitVec 41) : m &&& s.stopReach &&& ~~~ ((s.assertStop m).hl.stop ||| (s.assertStop m).hl.trip) = 0 := by
  obtain ⟨hs, ht⟩ := latchStops_lines (s.stopTests (m &&& s.stopReach &&& ~~~ (s.hl.stop ||| s.hl.trip)))
    (m &&& s.stopReach &&& ~~~ (s.hl.stop ||| s.hl.trip))
  simp only [State.assertStop, State.modHl_hl, hs, ht]
  exact scope_covered m s.stopReach s.hl.stop s.hl.trip

/-- The smear of the stop is the one register that it moves (R397). -/
theorem assertStop_regs (s : State) (m : BitVec 41) : RegsBut (fun k => k == HRT_SMEAR) s (s.assertStop m) := by
  have hlatch : ∀ (u : State) (n : BitVec 41), RegsBut (fun k => k == HRT_SMEAR) u (u.latchStops n) := fun u n => by
    unfold State.latchStops
    exact .ite (.refl _ u) (.setNat (.of_regs rfl) (by decide))
  exact ((RegsBut.of_regs rfl).trans (hlatch (s.stopTests _) _)).trans (.of_regs rfl)

/-- STOP leaves the latch of TRIP. -/
theorem assertStop_tripLatch (s : State) (m : BitVec 41) : (s.assertStop m).hl.tripLatch = s.hl.tripLatch := by
  unfold State.assertStop State.latchStops
  dsimp only [State.modHl_hl]
  split <;> rfl

/-! ### A stop begins, is held, and ends (R256) -/

/-- The stop in force is set. -/
def State.withStop (s : State) (b : Option Bstop) : State := s.modEsc fun e => { e with bstop := b }

theorem withStop_frame (s : State) (b : Option Bstop) : Frame [.esc] s (s.withStop b) := modEsc_frame s _

/-- With no stop in force, BOUNDARY_STOP of a partition begins one as it is answered. -/
theorem serveBoundaryStop_begins {s : State} {p : Pend} {parts : BitVec 4} (step : Bool) (ho : p.h.operator = true) (hg : p.h.badOperand = false)
    (hn : s.esc.bstop = none) (hp : parts ≠ 0) :
    serveBoundaryStop parts step p s = (s.withStop (some ⟨parts, step, .host p, false, false, []⟩)).ok p [] := by
  refine (serveAs_operator ho hg true none _).trans ?_
  rw [if_neg hp, hn]
  rfl

/-- With every tile of the scope at its boundary, the cut of a host's stop is held. -/
theorem boundaryCut_holds {s : State} {p : Pend} {b : Bstop} (hb : s.esc.bstop = some b) (hw : b.who = .host p) (hh : b.held = false)
    (ht : b.timedOut = false) (ha : s.atBoundary b = (s.stopTiles b).length) : doBoundaryCutReached s = s.holdCut b := by
  have hall := List.length_filter_eq_length_iff.mp ha
  have hnone : ((s.stopTiles b).any fun t => !s.stands b t) = false := List.any_eq_false.mpr fun t hm => by simp [hall t hm]
  simp [doBoundaryCutReached, hb, hw, hh, ht, hnone]

/-- A host's stop that is neither held nor timed out times out with a record. -/
theorem bstopTimeout_ends {s : State} {p : Pend} {b : Bstop} (hb : s.esc.bstop = some b) (hw : b.who = .host p) (hh : b.held = false)
    (ht : b.timedOut = false) : doBstopTimeout s = s.timeOutCut b := by simp [doBstopTimeout, hb, hw, hh, ht]

/-- Holding the cut moves no TRIP latch, so the power signals show what they showed. -/
theorem holdCut_frame {s : State} (hs : s.Signals) (b : Bstop) : Frame [.regs, .msix, .out, .esc, .hl, .free, .test] s (settle (s.holdCut b)) := by
  have hcut : Frame [.regs, .msix, .out, .esc, .hl, .free, .test] s (s.holdCut b) := (assertStop_frame s _).mono.modEsc (by decide)
  have hpw : (s.holdCut b).pw = s.pw := hcut .pw (by decide)
  have hlatch : (s.holdCut b).hl.tripLatch = s.hl.tripLatch := assertStop_tripLatch s _
  have hpins : (settle (s.holdCut b)).pw = (s.holdCut b).pw := settle_pw_of (by rw [hpw, hlatch]; exact hs.latch)
  intro q hq
  by_cases hqp : q = .pw
  · subst hqp; exact hpins.trans hpw
  · refine Part.same_trans (hcut q hq) (settle_frame _ q fun hm => ?_)
    simp only [List.mem_cons, List.not_mem_nil, or_false] at hm
    rcases hm with rfl | rfl | rfl
    · exact hq (by decide)
    · exact hqp rfl
    · exact hq (by decide)

/-- A stop that ends leaves the gates' work behind it; of the escalation only the stop in force moves. -/
theorem endBstop_aside {s : State} {b : Bstop} (hb : s.esc.bstop = some b) : s.endBstop.aside = (s.withStop none).aside := by
  unfold State.endBstop
  rw [hb]
  exact (drainGates_aside _).trans (by rw [ite_aside, releaseStop_aside]; exact ite_self _)

/-- BOUNDARY_RESUME ends a host's stop, then is answered. -/
theorem serveBoundaryResume_ends {s : State} {p q : Pend} {b : Bstop} (ho : p.h.operator = true) (hg : p.h.badOperand = false)
    (hb : s.esc.bstop = some b) (hw : b.who = .host q) : serveBoundaryResume p s = s.endBstop.ok p [] := by
  refine (serveAs_operator ho hg true none _).trans ?_
  simp [hb, hw]

/-! ### The statement -/

/-- Settles O18, clause by clause. -/
theorem boundaryStops : Obligations.BoundaryStops := by
  refine ⟨fun s h parts step hsig hs ho hn hp => ?request, fun s p parts step l hsig hb ha => ?cut, fun s p parts step l hb => ?timeout,
    fun s h p parts step held out l hs ho hb => ?release⟩
  case request =>
    have hesc : (s.accepted h).esc = s.esc := accepted_frame s h .esc (by decide)
    have hserve := serveBoundaryStop_begins (p := ⟨h, 0x33⟩) step ho hs.operandsGood ((congrArg Escalation.bstop hesc).trans hn) hp
    have hframe := withStop_frame (s.accepted h) (some ⟨parts, step, .host ⟨h, 0x33⟩, false, false, []⟩)
    refine ⟨_, (exec_host (c := .boundaryStop parts step) rfl hs).trans (congrArg done hserve), ?_, command_completes hframe.mono
      ((accepted_regs s h).trans (.of_frame hframe (by decide))) (by decide) (congrArg HostIf.epoch (accepted_frame s h .host (by decide))) hsig
      (by decide) (by decide)⟩
    rw [settle_esc, State.ok, State.answer_esc]
    rfl
  case cut =>
    refine ⟨_, congrArg done (boundaryCut_holds hb rfl rfl rfl ha), rfl, assertStop_scope s (s.domsOfParts parts), holdCut_frame hsig _, ?_⟩
    exact (assertStop_regs s _).trans (.of_regs rfl)
  case timeout =>
    refine ⟨_, congrArg done (bstopTimeout_ends hb rfl rfl rfl), ?_, ?_⟩
    · rw [settle_esc, State.timeOutCut, State.emit_esc]
      rfl
    · rw [settle_hl, State.timeOutCut, State.emit_hl]
      exact assertStop_scope s (s.domsOfParts parts)
  case release =>
    have haccept := accepted_frame s h
    have hstop := (congrArg Escalation.bstop (haccept .esc (by decide))).trans hb
    have haside := endBstop_aside hstop
    refine ⟨_, (exec_host (c := .boundaryResume) rfl hs).trans (congrArg done (serveBoundaryResume_ends ho hs.operandsGood hstop rfl)), ?_, ?_⟩
    · rw [settle_esc, State.ok, State.answer_esc, esc_of_aside haside]
      rfl
    · refine answered_settle (congrArg HostIf.epoch ?_)
      exact (host_of_aside haside).trans (haccept .host (by decide))

end Sys2Proof.Machine
end

section
/-! PROOFS. The kill of a context: what is taken down outside the wardens, the messages to them, and the end of the kill (R242, R243). -/
namespace Sys2Proof.Machine

-- One theorem at a time: with the joint text's other threads, parallel ones would pass the memory that the check gives.
set_option Elab.async false

/-! ### What a kill does outside the wardens moves no context -/

theorem each_ctxs {α : Type} {f : State → α → State} (h : ∀ s x, (f s x).ctxs = s.ctxs) (l : List α) (s : State) : (s.each l f).ctxs = s.ctxs := by
  induction l generalizing s with
  | nil => rfl
  | cons x l ih => exact (ih (f s x)).trans (h s x)

@[simp] theorem scrubFails_ctxs (s : State) (r : Scrub) (st : Status) (n : Nat) : (s.scrubFails r st n).ctxs = s.ctxs := by
  unfold State.scrubFails
  split
  · rfl
  · split <;> simp

@[simp] theorem killDigests_ctxs (s : State) (c : CtxIx) : (s.killDigests c).ctxs = s.ctxs := each_ctxs (fun s r => by simp) _ _

@[simp] theorem closeWatch_ctxs (s : State) (k n : Nat) : (s.closeWatch k n).ctxs = s.ctxs := by
  unfold State.closeWatch
  dsimp only
  split
  · rfl
  · split
    · rfl
    · simp [State.setWatch, apply_ite State.ctxs]

@[simp] theorem abandonWatches_ctxs (s : State) (f : WatchDecl → Bool) : (s.abandonWatches f).ctxs = s.ctxs := each_ctxs (fun s k => by simp) _ _

@[simp] theorem killOutside_ctxs (s : State) (c : CtxIx) : (s.killOutside c).ctxs = s.ctxs :=
  (abandonWatches_ctxs (s.killDigests c) fun w => w.ctx == c).trans (killDigests_ctxs s c)

@[simp] theorem send_ctxs (s : State) (a : AgentIx) (m : Bell) (n : Nat) : (s.send a m n).ctxs = s.ctxs := send_frame s a m n .ctxs (by decide)

@[simp] theorem sendNotices_ctxs (s : State) (ps : List PortIx) (scope : Fin 7) (after : Byte) (gens : List Byte) (cs : List CtxIx) :
    (s.sendNotices ps scope after gens cs).ctxs = s.ctxs := each_ctxs (fun s p => by simp) _ _

/-! ### What a kill makes of the context -/

/-- The context is faulted and its kill runs, or is over and its number in quarantine. -/
def State.killed (s : State) (c : CtxIx) : Prop :=
  (s.ctx c).faulted = true ∧ ((s.ctx c).killing.isSome = true ∨ (s.ctx c).quarantine.isSome = true)

theorem killed_congr {s t : State} (h : t.ctxs = s.ctxs) {c : CtxIx} (hk : s.killed c) : t.killed c := by
  rw [State.killed, ctx_congr h]
  exact hk

/-- The end of a kill starts the quarantine of 10 ms (R243). -/
theorem endKill_ctx (s : State) (c : CtxIx) (p : Option Pend) :
    (s.endKill c p).ctx c = { s.ctx c with killing := none, quarantine := some (s.time.tb + 10 ^ 7) } := by
  unfold State.endKill
  extract_lets s1
  have h1 : s1.ctx c = { s.ctx c with killing := none, quarantine := some (s.time.tb + 10 ^ 7) } := ctx_modCtx_self s c _
  split
  · exact (ctx_congr (State.finish_ctxs ..) c).trans h1
  · exact h1

/-- The last warden that confirms ends the kill. -/
theorem killConfirmed_last {s : State} {a : AgentIx} {c : CtxIx} {p : Option Pend} (h : (s.ctx c).killing = some ([a], p)) :
    s.killConfirmed a c = s.endKill c p := by
  unfold State.killConfirmed
  simp [h]

theorem sendKill_killed (s : State) (c : CtxIx) (p : Option Pend) : (s.sendKill c p).killed c := by
  unfold State.sendKill
  extract_lets ws s1
  have h1 : (s1.ctx c).faulted = true := congrArg Ctx.faulted (ctx_modCtx_self (s.killOutside c) c _)
  split
  · rw [State.killed, endKill_ctx]
    exact ⟨h1, .inr rfl⟩
  · have hsent : (s1.each ws fun s a => s.command a (.kill c)).ctxs = s1.ctxs := each_ctxs (fun s a => send_ctxs s a _ _) ws s1
    rw [State.killed, ctx_modCtx_self]
    exact ⟨(congrArg Ctx.faulted (ctx_congr hsent c)).trans h1, .inl rfl⟩

theorem startKill_killed (s : State) (c : CtxIx) (p : Option Pend) : (s.startKill c p).killed c := by
  unfold State.startKill
  split
  · exact sendKill_killed s c p
  · exact killed_congr (sendNotices_ctxs ..) (sendKill_killed s c p)

/-- A context in use that is not faulted is killed. -/
theorem killContext_killed {s : State} {c : CtxIx} (hu : (s.ctx c).used = true) (hf : (s.ctx c).faulted = false) (cause : Nat) (code : Word) (scope : Nat)
    (p : Option Pend) : (s.killContext c cause code scope p).killed c := by
  unfold State.killContext
  dsimp only
  rw [hu, hf]
  exact startKill_killed _ c p

/-- A fault of a context in use kills it (R239). -/
theorem contextFault_killed {s : State} {c : CtxIx} (hu : (s.ctx c).used = true) (hf : (s.ctx c).faulted = false) (code step seq : Word) :
    (s.contextFault c code step seq).killed c := by
  unfold State.contextFault
  dsimp only
  rw [hu, hf]
  have hctx : ∀ n : Notice, (s.notify n).ctx c = s.ctx c := fun n => ctx_congr (State.notify_ctxs s n) c
  exact killContext_killed (by rw [hctx, hu]) (by rw [hctx, hf]) _ _ _ _

end Sys2Proof.Machine
end

section
/-! PROOFS. What the expiry of each watchdog does (R224 to R226): a report of the warden, the fault of a context, a reset that names exactly the contexts
with state in its scope (R239, R249, R250). -/
namespace Sys2Proof.Machine

-- One theorem at a time: with the joint text's other threads, parallel ones would pass the memory that the check gives.
set_option Elab.async false

/-! ### The contexts that a reset kills (R239) -/

/-- The contexts that a reset names: those with state in its scope and those of its trigger, in order. -/
def State.doomed (s : State) (l : Level) (parts : BitVec 4) (also : List CtxIx) : List CtxIx :=
  (List.finRange 16).filter fun c => (s.victims l parts).contains c || also.contains c

@[simp] theorem contains_doomed (s : State) (l : Level) (parts : BitVec 4) (also : List CtxIx) (c : CtxIx) :
    (s.doomed l parts also).contains c = ((s.victims l parts).contains c || also.contains c) := by
  rw [Bool.eq_iff_iff, List.contains_iff_mem, State.doomed, List.mem_filter]
  exact and_iff_right (List.mem_finRange c)

/-- They depend on the partition map, the tiles, the floor plan and the contexts. -/
theorem victims_congr {s t : State} (hm : t.partMap = s.partMap) (ht : t.tiles = s.tiles) (hp : t.plan = s.plan) (hc : t.ctxs = s.ctxs) (l : Level)
    (parts : BitVec 4) : t.victims l parts = s.victims l parts := by
  have hreg : t.reg HRT_PARTITION_MAP = s.reg HRT_PARTITION_MAP := hm
  simp only [State.victims, State.tilesOfParts, State.partOfTile, State.partOfDie, State.fld, State.logicalOf, State.ctxsOn, State.holdsWork,
    State.replsOn, State.tile, State.ctx, hreg, ht, hp, hc]

theorem emit_victims (s : State) (e : Event) (l : Level) (parts : BitVec 4) : (s.emit e).victims l parts = s.victims l parts :=
  victims_congr (emit_partMap s e) (s.emit_tiles e) (s.emit_plan e) (s.emit_ctxs e) l parts

/-! ### A reset begins with them (R244, R250) -/

/-- Announced, with the re-placements settled, a reset that begins waits in a hold or runs. -/
theorem beginReset_names {s : State} (hr : s.esc.reset = none) (l : Level) (parts0 : BitVec 4) (code : Word) (holdable : Bool) (also : List CtxIx) :
    ∃ (u : State) (r : Reset), r = ⟨l, levelParts l parts0, code, .holding, s.time.tb, s.doomed l (levelParts l parts0) also⟩ ∧
      u.fld HRT_ESC_HOLD 10 0 = s.fld HRT_ESC_HOLD 10 0 ∧ s.beginReset l parts0 code holdable also =
        if holdable && u.fld HRT_ESC_HOLD 10 0 != 0 then
          ((u.assertStop (if l = .chip then u.stopReach else u.domsOfParts r.parts)).modEsc fun e => { e with reset := some r }).event
            (.state u.bu.pkg u.bu.stage)
        else u.runReset r := by
  unfold State.beginReset
  extract_lets parts cs now s1 s2 s3 gens s4 s5 old all r
  have h1 : Keeps false s s1 := by simp [s1]
  have h2 : Keeps false s1 s2 := by
    unfold s2
    split <;> simp
  have h3 : Readied s2 s3 := .modEsc s2 fun e => by split <;> rfl
  have h5 : Keeps false s3 s5 := by simp [s5, s4]
  have hready : Readied s s5 := (h1.readied.trans h2.readied).trans (h3.trans h5.readied)
  have hold : old = none := by
    unfold old
    rw [hready.reset, hr]
    rfl
  have hall : all = parts := by
    unfold all
    rw [hold]
    exact BitVec.zero_or
  have hreset : r = ⟨l, parts, code, .holding, now, cs⟩ := by
    unfold r
    rw [hall, hold]
    rfl
  exact ⟨s5, r, hreset, hready.hold, by rw [show all = r.parts from rfl]⟩

theorem runReset_reset (s : State) (r : Reset) : ∃ ph, ph ≠ .holding ∧ (s.runReset r).esc.reset = some { r with phase := ph } := by
  unfold State.runReset
  split
  · exact ⟨.aligning, by decide, (runChip_rebooted s r).reset⟩
  · exact (runCompute_outcome s r).2

/-- On a free ladder a trigger begins its reset, with the contexts that it names, held exactly when a hold applies and is set (R250). -/
theorem trigger_names {s : State} {l : Level} {parts : BitVec 4} (hf : s.LadderFree l parts) (code : Word) (holdable : Bool) (also : List CtxIx) :
    ∃ ph, (s.trigger l parts code holdable also).esc.reset =
        some ⟨l, levelParts l parts, code, ph, s.time.tb, s.doomed l (levelParts l parts) also⟩ ∧
      (ph = .holding ↔ holdable = true ∧ s.fld HRT_ESC_HOLD 10 0 ≠ 0) := by
  obtain ⟨u, r, rfl, hfld, hbegin⟩ := beginReset_names hf.idle l parts code holdable also
  have hset : (holdable && u.fld HRT_ESC_HOLD 10 0 != 0) = true ↔ (holdable = true ∧ s.fld HRT_ESC_HOLD 10 0 ≠ 0) := by
    rw [hfld]
    simp
  rw [trigger_begins hf, hbegin]
  split
  · next hheld => exact ⟨.holding, (hold_outcome u _ _ _).2, fun _ => hset.mp hheld, fun _ => rfl⟩
  · next hfree =>
    obtain ⟨ph, hph, hreset⟩ := runReset_reset u ⟨l, levelParts l parts, code, .holding, s.time.tb, s.doomed l (levelParts l parts) also⟩
    exact ⟨ph, hreset, fun e => absurd e hph, fun e => absurd (hset.mpr e) hfree⟩

/-- A watchdog records its expiry, then its reset begins. -/
theorem recorded_trigger_names {s : State} {l : Level} {parts : BitVec 4} (hf : s.LadderFree l parts) (e : Event) :
    ∃ ph, ((s.emit e).trigger l parts e.word true).esc.reset =
        some ⟨l, levelParts l parts, e.word, ph, s.time.tb, s.doomed l (levelParts l parts) []⟩ ∧ (ph = .holding ↔ s.fld HRT_ESC_HOLD 10 0 ≠ 0) := by
  have hkeeps := (emit_kept true s e).keeps
  obtain ⟨ph, hreset, hhold⟩ := trigger_names (hkeeps.ladderFree hf) e.word true []
  have hnamed : (s.emit e).doomed l (levelParts l parts) [] = s.doomed l (levelParts l parts) [] := by
    rw [State.doomed, State.doomed, emit_victims]
  rw [hnamed, hkeeps.time] at hreset
  rw [hkeeps.readied.hold] at hhold
  exact ⟨ph, hreset, hhold.trans (and_iff_right rfl)⟩

/-! ### The watchdog of a tile (R224) -/

/-- A tile as its watchdog's expiry leaves it: the expiry shows in TWD_WDOG, and from this instant the tile counts as detected (R195). -/
def State.timedOut (s : State) (tl : TileIx) (us : Nat) : State :=
  (s.setNat (tileReg tl TWD_WDOG) us).modTile tl fun x => { x with detectAt := some s.time.tb }

theorem timedOut_frame (s : State) (tl : TileIx) (us : Nat) : Frame [.regs, .tiles] s (s.timedOut tl us) :=
  (setNat_frame s _ _).mono.modTile (by decide)

theorem timedOut_shows (s : State) (tl : TileIx) (us : Nat) : (s.timedOut tl us).reg (tileReg tl TWD_WDOG) = BitVec.ofNat 32 us :=
  (State.reg_congr (State.modTile_regs ..) _).trans (State.reg_setNat_self s _ us)

theorem timedOut_regs (s : State) (tl : TileIx) (us : Nat) : RegsBut (fun k => k == tileReg tl TWD_WDOG) s (s.timedOut tl us) :=
  ((RegsBut.refl (fun k => k == tileReg tl TWD_WDOG) s).setNat (beq_self_eq_true (tileReg tl TWD_WDOG))).trans (.of_regs (State.modTile_regs ..))

theorem timedOut_tile_self (s : State) (tl : TileIx) (us : Nat) : (s.timedOut tl us).tile tl = { s.tile tl with detectAt := some s.time.tb } := by
  rw [State.timedOut, tile_modTile_self, tile_congr (s.setNat_tiles ..)]

theorem timedOut_tile_ne (s : State) {tl u : TileIx} (us : Nat) (h : u ≠ tl) : (s.timedOut tl us).tile u = s.tile u := by
  rw [State.timedOut, tile_modTile_ne _ _ h, tile_congr (s.setNat_tiles ..)]

/-- The gate open and the region running, the warden reports the running command; the elapsed microseconds are the setting's. -/
theorem tileWatchdog_reports {s : State} {tl : TileIx} {e : JEntry} (hrun : s.running tl = some e) (hgate : (s.tile tl).gateClosed = false)
    (hreg : s.regionRuns tl = true) : doTileWatchdogExpiry tl s =
      (s.timedOut tl (2 ^ 31 + s.fld HRT_WDOG_TILE 9 0 * 1000)).wardenReport (tileAgent tl) (.tileWatchdog tl e.cmd.ctx e.cmd.seq) := by
  simp only [doTileWatchdogExpiry, hrun, hgate, hreg, Bool.not_true, Bool.or_self, Bool.false_eq_true, if_false]
  rfl

/-! ### The statement -/

/-- Settles O19: each watchdog by what its warden, its context or its reset does. -/
theorem watchdogs : Obligations.Watchdogs := by
  refine ⟨fun s tl e hsig hrun hgate hreg hroom => ?tile, fun s c ts hts hwd hused hfault => ?context, fun s p hwd hfree => ?partition,
    fun s hwd hfree => ?chip⟩
  case tile =>
    generalize hus : 2 ^ 31 + s.fld HRT_WDOG_TILE 9 0 * 1000 = us
    have hframe := timedOut_frame s tl us
    have hagents : (s.timedOut tl us).agents = s.agents := hframe .agents (by decide)
    have hagent : (s.timedOut tl us).agent (tileAgent tl) = s.agent (tileAgent tl) := agent_congr hagents _
    have hroom' : ((s.timedOut tl us).agent (tileAgent tl)).queue.length < 16 := by rw [hagent]; exact hroom
    have hreport := tileWatchdog_reports hrun hgate hreg
    rw [hus, wardenReport_room hroom'] at hreport
    refine ⟨_, congrArg done hreport, ?_, ?_, ?_, fun u hu => ?_, ?_, ?_⟩
    · rw [settle_reg, State.reg_congr (State.modAgent_regs ..), timedOut_shows]
    · rw [settle_agent, agent_modAgent_self, hagent]
    · rw [settle_tile, tile_congr (State.modAgent_tiles ..), timedOut_tile_self]
    · rw [settle_tile, tile_congr (State.modAgent_tiles ..), timedOut_tile_ne _ _ hu]
    · exact Frame.settle (hframe.mono.modAgent (by decide)) hsig.latch (by decide) (by decide) (by decide) (by decide)
    · exact (timedOut_regs s tl us).trans (.of_regs ((settle_regs _).trans (State.modAgent_regs ..)))
  case context =>
    subst hts
    have hctx : ∀ e : Event, (s.emit e).ctx c = s.ctx c := fun e => ctx_congr (s.emit_ctxs e) c
    refine ⟨_, rfl, ?_⟩
    rw [settle_ctx, doContextWatchdogExpiry, if_pos hwd]
    exact (contextFault_killed (by rw [hctx, hused]) (by rw [hctx, hfault]) _ _ _).1
  case partition =>
    obtain ⟨ph, hreset, hhold⟩ := recorded_trigger_names hfree ⟨4, 0, p.val, 0x0503, s.resetData (BitVec.ofNat 4 (2 ^ p.val))⟩
    refine ⟨_, ph, _, rfl, ?_, fun c => (contains_doomed s _ _ [] c).trans (Bool.or_false _), hhold⟩
    rw [settle_esc, doPartitionWatchdogExpiry, if_pos hwd]
    exact hreset
  case chip =>
    obtain ⟨ph, hreset, hhold⟩ := recorded_trigger_names hfree ⟨5, 0, 0, 0x0504, s.resetData 0xF⟩
    refine ⟨_, ph, s.doomed .chip 0xF [], rfl, ?_, hhold⟩
    rw [settle_esc, doChipWatchdogExpiry, if_pos hwd]
    exact hreset

end Sys2Proof.Machine
end

section
/-! PROOFS. Reconfiguration of a tile (R236, R237), and the kill of a context from the command to the free number (R242, R243). -/
namespace Sys2Proof.Machine

-- One theorem at a time: with the joint text's other threads, parallel ones would pass the memory that the check gives.
set_option Elab.async false

/-! ### The drain starts (R236) -/

/-- The tile as its drain starts: the command runs, and the watchdog of the tile starts again. -/
def State.drained (s : State) (tl : TileIx) (seq : Word) (k : Nat) (e : JEntry) : State :=
  (s.setFld (tileReg tl TWD_WDOG) 23 0 0).modTile tl fun x => { (x.setSlot k { e with
    state := .running, execs := min 3 (e.execs + 1), startC := s.lightCounts tl }) with draining := some (s.time.tb, seq), wdogCount := 0 }

theorem reconfiguration_drains {s : State} {tl : TileIx} {seq : Word} {k : Nat} {e : JEntry} (hslot : (s.tile tl).slotOf seq = some (k, e))
    (hkind : e.cmd.kind = .reconfig) (hstate : e.state = .issued) (hopen : e.isOpen = true)
    (holder : ((s.tile tl).jnl.any fun x => x.1 != k && x.2.isOpen && x.2.state != .complete && later seq x.2.cmd.seq) = false)
    (hgate : (s.tile tl).gateClosed = false) (hdrain : (s.tile tl).draining = none) (hreg : s.regionRuns tl = true)
    (hstop : s.stopsIssue tl e.cmd.ctx = false) : doReconfiguration tl seq s = s.drained tl seq k e := by
  unfold doReconfiguration
  rw [hslot]
  exact if_neg (by simp [hkind, hstate, hopen, holder, hgate, hdrain, hreg, hstop])

theorem drained_tile_self (s : State) (tl : TileIx) (seq : Word) (k : Nat) (e : JEntry) :
    ((s.drained tl seq k e).tile tl).draining = some (s.time.tb, seq) ∧ ((s.drained tl seq k e).tile tl).epoch = (s.tile tl).epoch := by
  rw [State.drained, tile_modTile_self, tile_congr (s.setFld_tiles ..)]
  exact ⟨rfl, rfl⟩

theorem drained_tile_ne (s : State) {tl u : TileIx} (seq : Word) (k : Nat) (e : JEntry) (h : u ≠ tl) : (s.drained tl seq k e).tile u = s.tile u := by
  rw [State.drained, tile_modTile_ne _ _ h, tile_congr (s.setFld_tiles ..)]

theorem drained_frame (s : State) (tl : TileIx) (seq : Word) (k : Nat) (e : JEntry) : Frame [.regs, .tiles] s (s.drained tl seq k e) :=
  (setFld_frame s _ _ _ _).mono.modTile (by decide)

theorem drained_regs (s : State) (tl : TileIx) (seq : Word) (k : Nat) (e : JEntry) :
    RegsBut (fun r => r == tileReg tl TWD_WDOG) s (s.drained tl seq k e) :=
  ((RegsBut.refl (fun r => r == tileReg tl TWD_WDOG) s).setFld (beq_self_eq_true (tileReg tl TWD_WDOG))).trans (.of_regs (State.modTile_regs ..))

/-! ### The tile enters the next epoch (R237) -/

/-- A tile in its next epoch, without what its queues held of the old one. -/
def Tile.nextEpoch (x : Tile) : Tile :=
  { x with epoch := (x.epoch + 1) % 16, draining := none, queues := x.queues.map fun (q : Nat × Queue) => (q.1, q.2.without x.epoch) }

/-- The tile enters its next epoch: the spill region follows its queues, and the discards are counted. -/
def State.nextEpoch (s : State) (tl : TileIx) (n : Nat) : State :=
  ((s.setTile tl (s.tile tl).nextEpoch).trimSpills tl).bump (tileReg tl TWD_EPOCH_DISCARD) n

/-- What the commit leaves of a tile that enters its next epoch: its command is complete, and the streams that had to drain are reported. -/
theorem reconfigCommit_enters {s : State} {tl : TileIx} {b : Bool} {n d : Nat} {seq : Word} (m : Option (CtxIx × Word))
    (hdrain : (s.tile tl).draining = some (d, seq)) (hgate : (s.tile tl).gateClosed = false) (hreg : s.regionRuns tl = true)
    (hend : b = true ∨ (n = 0 ∧ (s.tile tl).oldTokens = [])) : ∃ (faults : List (CtxIx × Word)) (f : JEntry → JEntry),
      doReconfigCommit tl b n m s = ((s.nextEpoch tl ((s.tile tl).oldTokens.length + n)).modEntry tl seq f).each faults fun s x =>
        s.wardenReport (tileAgent tl) (.epochDrain tl x.1 x.2) := by
  have hgo : ¬ ((0 < (s.tile tl).oldTokens.length + n ∧ !b) ∨ (s.tile tl).gateClosed ∨ !s.regionRuns tl) := by
    rcases hend with rfl | ⟨rfl, hold⟩
    · simp [hgate, hreg]
    · simp [hold, hgate, hreg]
  unfold doReconfigCommit
  dsimp only
  rw [hdrain]
  exact ⟨_, _, if_neg hgo⟩

theorem without_epoch (q : Queue) (n : Nat) : ∀ x ∈ (q.without n).tokens ++ (q.without n).spilled, x.2.1 ≠ n := fun x hx => by
  have hkeep : ∀ l : List (Nat × Nat × Bool), x ∈ l.filter (fun k => k.2.1 != n) → x.2.1 ≠ n := fun l h => bne_iff_ne.mp (List.mem_filter.mp h).2
  exact (List.mem_append.mp hx).elim (hkeep _) (hkeep _)

theorem modEntry_frame (s : State) (t : TileIx) (q : Word) (f : JEntry → JEntry) : Frame [.tiles] s (s.modEntry t q f) := by
  unfold State.modEntry
  split
  · exact modTile_frame s t _
  · exact .refl _ s

/-- An entry that moves leaves the other tiles, and of its own all but the journal. -/
theorem modEntry_tile_ne (s : State) {t u : TileIx} (q : Word) (f : JEntry → JEntry) (h : u ≠ t) : (s.modEntry t q f).tile u = s.tile u := by
  unfold State.modEntry
  split
  · exact tile_modTile_ne s _ h
  · rfl

theorem modEntry_tile_self (s : State) (t : TileIx) (q : Word) (f : JEntry → JEntry) :
    ((s.modEntry t q f).tile t).epoch = (s.tile t).epoch ∧ ((s.modEntry t q f).tile t).draining = (s.tile t).draining ∧
      ((s.modEntry t q f).tile t).queues = (s.tile t).queues := by
  unfold State.modEntry
  split
  · rw [tile_modTile_self]
    exact ⟨rfl, rfl, rfl⟩
  · exact ⟨rfl, rfl, rfl⟩

theorem nextEpoch_frame (s : State) (tl : TileIx) (n : Nat) : Frame [.regs, .tiles, .esc] s (s.nextEpoch tl n) :=
  (((setTile_frame s tl _).mono).modEsc (by decide)).bump (by decide)

theorem nextEpoch_tile_ne (s : State) {tl u : TileIx} (n : Nat) (h : u ≠ tl) : (s.nextEpoch tl n).tile u = s.tile u := by
  rw [State.nextEpoch, tile_congr (State.bump_tiles ..), State.trimSpills, tile_congr (State.modEsc_tiles ..), tile_setTile_ne s _ h]

theorem nextEpoch_tile_self (s : State) (tl : TileIx) (n : Nat) : (s.nextEpoch tl n).tile tl = (s.tile tl).nextEpoch := by
  rw [State.nextEpoch, tile_congr (State.bump_tiles ..), State.trimSpills, tile_congr (State.modEsc_tiles ..), tile_setTile_self]

/-- Nothing of the old epoch is left in the tile's queues. -/
theorem nextEpoch_queues (x : Tile) : ∀ q ∈ x.nextEpoch.queues, ∀ k ∈ q.2.tokens ++ q.2.spilled, k.2.1 ≠ x.epoch := fun q hq => by
  obtain ⟨p, -, rfl⟩ := List.mem_map.mp hq
  exact without_epoch p.2 x.epoch

theorem nextEpoch_counts (s : State) (tl : TileIx) (n : Nat) : (s.nextEpoch tl n).reg (tileReg tl TWD_EPOCH_DISCARD) =
    BitVec.ofNat 32 (satAdd 32 (s.reg (tileReg tl TWD_EPOCH_DISCARD)).toNat n) := State.reg_setNat_self _ _ _

/-- The reports of the streams that had to drain move no tile and not the count of discards. -/
theorem reports_frame (s : State) (a : AgentIx) (l : List (CtxIx × Word)) (f : CtxIx × Word → Rep) :
    Frame [.regs, .agents, .ofd] s (s.each l fun s x => s.wardenReport a (f x)) := .each (fun s x => wardenReport_frame s a (f x)) l s

theorem reports_discards (s : State) (a : AgentIx) (tl : TileIx) (l : List (CtxIx × Word)) (f : CtxIx × Word → Rep) :
    (s.each l fun s x => s.wardenReport a (f x)).reg (tileReg tl TWD_EPOCH_DISCARD) = s.reg (tileReg tl TWD_EPOCH_DISCARD) := by
  have hpage : tileReg tl TWD_EPOCH_DISCARD % 0x1000 ≠ TWD_REPORT_DROP := by
    simp only [tileReg, TWD_EPOCH_DISCARD, TWD_REPORT_DROP]
    omega
  induction l generalizing s with
  | nil => rfl
  | cons x l ih => exact (ih _).trans (wardenReport_reg s a (f x) hpage)

/-! ### The kill of a context (R242) -/

/-- CONTEXT_KILL of a context in use waits for its answer, and the kill begins. -/
theorem serveContextKill_kills {s : State} {p : Pend} {c : CtxIx} (ho : p.h.operator = true) (hg : p.h.badOperand = false)
    (hu : (s.ctx c).used = true) (hf : (s.ctx c).faulted = false) : (serveContextKill c p s).killed c := by
  have hserve : serveContextKill c p s = (s.waitAnswer p).killContext c 0 0 0 (some p) := by
    refine (serveAs_operator ho hg false (some c) _).trans ?_
    rw [hu, hf]
    rfl
  have hctx : (s.waitAnswer p).ctx c = s.ctx c := ctx_congr (State.waitAnswer_ctxs s p) c
  rw [hserve]
  exact killContext_killed (by rw [hctx, hu]) (by rw [hctx, hf]) _ _ _ _

theorem dropComparison_frame (s : State) (p : TileIx) (q : Word) : Frame [.tiles] s (s.dropComparison p q) := by
  unfold State.dropComparison
  split
  · exact .refl _ s
  · split
    · exact modTile_frame s _ _
    · exact .refl _ s

/-- What the warden discards before it confirms a kill is its tile's and the captures'. -/
theorem contextKillCommand_confirms (tl : TileIx) (c : CtxIx) (s : State) : ∃ u : State, Frame [.regs, .tiles] s u ∧
    doContextKillCommand tl c s = ((u.killConfirmed (tileAgent tl) c).seekWaiting).drainGateOf tl := by
  unfold doContextKillCommand
  extract_lets x mine gone rerun s0 s1 s2 s3
  have h0 : Frame [.regs, .tiles] s s0 := .ite (setFld_frame s _ _ _ _).mono (.refl _ s)
  have h1 : Frame [.regs, .tiles] s s1 := h0.trans (setTile_frame s0 tl _).mono
  have h2 : Frame [.regs, .tiles] s s2 := h1.trans (Frame.each (fun s (e : JEntry) => dropComparison_frame s tl e.cmd.seq) _ s1).mono
  have h3 : Frame [.tiles] s2 s3 := .each (fun s e => .each (fun s p => modTile_frame s tl _) _ s) gone s2
  exact ⟨s3, h2.trans h3.mono, rfl⟩

/-- The kill of a context ended, its quarantine to run from the time of `s`. -/
def State.killEnded (s t : State) (c : CtxIx) : Prop := (t.ctx c).killing = none ∧ (t.ctx c).quarantine = some (s.time.tb + 10 ^ 7)

/-- The last warden's confirmation ends the kill. -/
theorem killConfirmed_ends {s u : State} {a : AgentIx} {c : CtxIx} {p : Option Pend} (hk : (u.ctx c).killing = some ([a], p)) (ht : u.time = s.time) :
    s.killEnded (u.killConfirmed a c) c := by
  rw [killConfirmed_last hk, State.killEnded, endKill_ctx, ht]
  exact ⟨rfl, rfl⟩

theorem killEnded_of_aside {s t u : State} {c : CtxIx} (h : s.killEnded t c) (ha : u.aside = t.aside) : s.killEnded u c := by
  rw [State.killEnded, killing_of_aside ha, quarantine_of_aside ha]
  exact h

theorem contextKillCommand_ends {s : State} {tl : TileIx} {c : CtxIx} {p : Option Pend} (hk : (s.ctx c).killing = some ([tileAgent tl], p)) :
    s.killEnded (doContextKillCommand tl c s) c := by
  obtain ⟨u, hframe, hdo⟩ := contextKillCommand_confirms tl c s
  have hkill : (u.ctx c).killing = some ([tileAgent tl], p) := by rw [ctx_congr (hframe .ctxs (by decide)), hk]
  rw [hdo]
  exact killEnded_of_aside (killConfirmed_ends hkill (hframe .time (by decide))) ((drainGateOf_aside _ tl).trans (seekWaiting_aside _))

/-! ### A warden given up (R199, R242) -/

/-- A fence is ordered for a kill that timed out: it waits for its confirmation with its cause, detected as it is decided. -/
def State.givenUp (s : State) (tl : TileIx) (e : Event) : State :=
  (s.modPlan fun p => { p with fencing := tput p.fencing tl.val (some e, s.time.tb, none, 6) }).command (tileAgent tl) (.fence tl 6)

theorem orderFence_givesUp {s : State} {tl : TileIx} (e : Event) (hst : (s.fpOf tl).st = .good) (hf : tget? s.plan.fencing tl.val = none)
    (hr : s.inReset tl = false) : s.orderFence tl 6 (some e) = s.givenUp tl e := by
  simp [State.orderFence, State.fenceNow, State.detected, State.givenUp, hst, hf, hr]

theorem givenUp_frame (s : State) (tl : TileIx) (e : Event) : Frame [.plan, .agents, .bus, .free, .out] s (s.givenUp tl e) :=
  (modPlan_frame s _).mono.trans (send_frame _ _ _ _).mono

theorem givenUp_fencing (s : State) (tl : TileIx) (e : Event) :
    tget? (s.givenUp tl e).plan.fencing tl.val = some (some e, s.time.tb, none, 6) := by
  have hplan : (s.givenUp tl e).plan = _ := send_frame _ _ _ _ .plan (by decide)
  rw [hplan]
  exact tget?_tput_self _ _ _

theorem endKill_plan (s : State) (c : CtxIx) (p : Option Pend) : (s.endKill c p).plan = s.plan := by
  unfold State.endKill
  split
  · exact State.finish_plan ..
  · rfl

/-- The last warden is given up: its tile is ordered fenced, and the kill ends. -/
theorem killTimeout_ends {s : State} {tl : TileIx} {c : CtxIx} {p : Option Pend} (hk : (s.ctx c).killing = some ([tileAgent tl], p))
    (hst : (s.fpOf tl).st = .good) (hf : tget? s.plan.fencing tl.val = none) (hr : s.inReset tl = false) :
    s.killEnded (doKillTimeout tl c s) c ∧
      tget? (doKillTimeout tl c s).plan.fencing tl.val = some (some ⟨4, 1, tl.val, 0x050A, [i1 c.val]⟩, s.time.tb, none, 6) := by
  have hdo : doKillTimeout tl c s = (s.givenUp tl ⟨4, 1, tl.val, 0x050A, [i1 c.val]⟩).killConfirmed (tileAgent tl) c := by
    rw [← orderFence_givesUp _ hst hf hr, doKillTimeout, hk]
    exact if_pos (by simp)
  have hframe := givenUp_frame s tl ⟨4, 1, tl.val, 0x050A, [i1 c.val]⟩
  have hfence := givenUp_fencing s tl ⟨4, 1, tl.val, 0x050A, [i1 c.val]⟩
  have hkill := (congrArg Ctx.killing (ctx_congr (hframe .ctxs (by decide)) c)).trans hk
  rw [hdo]
  refine ⟨killConfirmed_ends hkill (hframe .time (by decide)), ?_⟩
  rw [killConfirmed_last hkill, endKill_plan, hfence]

/-! ### The statement -/

/-- Settles O23, clause by clause. -/
theorem reconfigurationAndKill : Obligations.ReconfigurationAndKill := by
  refine ⟨fun s tl seq k e hsig hslot hkind hstate hopen holder hgate hdrain hreg hstop => ?drain,
    fun s tl b n m d seq hsig hdrain hgate hreg hend => ?epoch, fun s h c hs ho hu hf => ?kill, fun s tl c p hk => ?confirm,
    fun s tl c p hk hst hf hr => ?giveUp, fun s c hsig hq hk => ?free⟩
  case drain =>
    have hframe := drained_frame s tl seq k e
    obtain ⟨hdrained, hepoch⟩ := drained_tile_self s tl seq k e
    refine ⟨_, congrArg done (reconfiguration_drains hslot hkind hstate hopen holder hgate hdrain hreg hstop), ?_, ?_, fun u hu => ?_, ?_, ?_⟩
    · rw [settle_tile, hdrained]
    · rw [settle_tile, hepoch]
    · rw [settle_tile, drained_tile_ne s seq k e hu]
    · exact Frame.settle hframe.mono hsig.latch (by decide) (by decide) (by decide) (by decide)
    · exact (drained_regs s tl seq k e).trans (.of_regs (settle_regs _))
  case epoch =>
    obtain ⟨faults, f, hdo⟩ := reconfigCommit_enters m hdrain hgate hreg hend
    generalize (s.tile tl).oldTokens.length + n = count at hdo ⊢
    have hentry := modEntry_frame (s.nextEpoch tl count) tl seq f
    have hreports := reports_frame ((s.nextEpoch tl count).modEntry tl seq f) (tileAgent tl) faults fun x => .epochDrain tl x.1 x.2
    have htile := tile_congr (hreports .tiles (by decide))
    obtain ⟨hepoch, hdrained, hqueues⟩ := modEntry_tile_self (s.nextEpoch tl count) tl seq f
    rw [nextEpoch_tile_self] at hepoch hdrained hqueues
    refine ⟨_, congrArg done hdo, ?_, ?_, ?_, ?_, fun u hu => ?_, ?_⟩
    · rw [settle_tile, htile, hepoch]
      rfl
    · rw [settle_tile, htile, hdrained]
      rfl
    · rw [settle_reg, reports_discards, State.reg_congr (hentry .regs (by decide)), nextEpoch_counts]
    · rw [settle_tile, htile, hqueues]
      exact nextEpoch_queues (s.tile tl)
    · rw [settle_tile, htile, modEntry_tile_ne _ _ _ hu, nextEpoch_tile_ne s _ hu]
    · exact Frame.settle (((nextEpoch_frame s tl count).mono.trans hentry.mono).trans hreports.mono) hsig.latch (by decide) (by decide) (by decide)
        (by decide)
  case kill =>
    have hctx : (s.accepted h).ctx c = s.ctx c := ctx_congr (accepted_frame s h .ctxs (by decide)) c
    refine ⟨_, exec_host (c := .contextKill c) rfl hs, ?_⟩
    rw [settle_ctx]
    exact serveContextKill_kills ho hs.operandsGood (by rw [hctx, hu]) (by rw [hctx, hf])
  case confirm =>
    refine ⟨_, rfl, ?_⟩
    rw [settle_ctx]
    exact contextKillCommand_ends hk
  case giveUp =>
    obtain ⟨⟨hkilling, hquarantine⟩, hfence⟩ := killTimeout_ends hk hst hf hr
    refine ⟨_, rfl, ?_, ?_, ?_⟩
    · rw [settle_ctx, hkilling]
    · rw [settle_ctx, hquarantine]
    · rw [settle_plan, hfence]
  case free =>
    have hdo : doQuarantineExpiry c s = s.setCtx c {} := if_pos ⟨hq, hk⟩
    refine ⟨_, congrArg done hdo, ?_, fun d hd => ?_, ?_⟩
    · rw [settle_ctx, ctx_setCtx_self]
    · rw [settle_ctx, ctx_setCtx_ne _ _ hd]
    · exact Frame.settle (setCtx_frame s c {}).mono hsig.latch (by decide) (by decide) (by decide) (by decide)

end Sys2Proof.Machine
end

section
/-! PROOFS. Interrupt causes that stand stay raised while events are recorded (R424): `Told` says so of vector 0, and here it holds of every vector. -/
namespace Sys2Proof.Machine

-- One theorem at a time: with the joint text's other threads, parallel ones would pass the memory that the check gives.
set_option Elab.async false

/-! ### The relation -/

/-- Every cause that stands in `s` stands in `t`. -/
def Raised (s t : State) : Prop := ∀ v, s.causes.getLsbD v = true → t.causes.getLsbD v = true

theorem Raised.refl (s : State) : Raised s s := fun _ => id
theorem Raised.trans {s t u : State} (h : Raised s t) (k : Raised t u) : Raised s u := fun v hv => k v (h v hv)
theorem Raised.ite {s a b : State} {c : Prop} [Decidable c] (h : Raised s a) (k : Raised s b) : Raised s (if c then a else b) := by split <;> assumption

theorem Raised.foldl {α : Type} {f : State → α → State} (h : ∀ s x, Raised s (f s x)) (l : List α) (s : State) : Raised s (l.foldl f s) := by
  induction l generalizing s with
  | nil => exact .refl s
  | cons x l ih => exact (h s x).trans (ih _)

/-- Where the registers stand, the causes stand. -/
theorem Raised.of_regs {s t : State} (h : t.regs = s.regs) : Raised s t := fun _ hv => causes_congr h ▸ hv

theorem Raised.of_frame {l : List Part} {s t : State} (h : Frame l s t) (hl : Part.regs ∉ l) : Raised s t := .of_regs (h .regs hl)

/-- Another register than the cause register; with it every update that ends in one write. -/
theorem setReg_raised (s : State) {k : Nat} (v : Word) (hk : k ≠ HRT_IRQ_CAUSE) : Raised s (s.setReg k v) := fun w hw => by
  rwa [State.causes, State.reg_setReg_ne s v (Ne.symm hk)]

theorem bump_raised (s : State) {k : Nat} (n : Nat) (hk : k ≠ HRT_IRQ_CAUSE) : Raised s (s.bump k n) := setReg_raised s _ hk
theorem bumpFld_raised (s : State) {k : Nat} (hi lo n : Nat) (hk : k ≠ HRT_IRQ_CAUSE) : Raised s (s.bumpFld k hi lo n) := setReg_raised s _ hk
theorem add64_raised (s : State) {lo hi : Nat} (n w : Nat) (hl : lo ≠ HRT_IRQ_CAUSE) (hh : hi ≠ HRT_IRQ_CAUSE) : Raised s (s.add64 lo hi n w) :=
  (setReg_raised s _ hl).trans (setReg_raised _ _ hh)

/-- A raised cause joins those that stand (R424). -/
theorem irq_raised (s : State) (v : Nat) : Raised s (s.irq v) := fun w hw => by
  have hjoin : (s.setReg HRT_IRQ_CAUSE (s.reg HRT_IRQ_CAUSE ||| BitVec.ofNat 32 (2 ^ v))).causes.getLsbD w = true := by
    simp only [State.causes, BitVec.getLsbD_setWidth, State.reg_setReg_self, BitVec.getLsbD_or, Bool.and_eq_true, Bool.or_eq_true] at hw ⊢
    exact ⟨hw.1, .inl hw.2⟩
  unfold State.irq
  dsimp only
  split
  · exact hw
  · split
    · exact hjoin
    · split
      · exact hjoin
      · split
        · exact hjoin
        · exact hjoin

/-! ### Recording an event -/

theorem pushEvent_raised (s : State) (b : EvBody) : Raised s (s.pushEvent b).1 :=
  (Raised.of_regs rfl).trans (bumpFld_raised _ 31 16 _ (by decide))

theorem modRec_raised (s : State) (f : Recorder → Recorder) : Raised s (s.modRec f) := .of_regs rfl

theorem ringPut_raised (s : State) (r : Record × Bool) : Raised s (s.ringPut r) := by
  unfold State.ringPut
  exact .ite ((modRec_raised s _).trans (bump_raised _ _ (by decide))) (modRec_raised s _)

theorem announce_raised (s : State) (c : Nat) (rs : List Record) : Raised s (s.announce c rs).1 := by
  have hloop : ∀ (l : List Record) (a : State × List Nat), Raised s a.1 → Raised s (l.foldl (fun (a : State × List Nat) r =>
      let x := ((a.1.irq 5).ibi 1 r.code).pushEvent (.record r); (x.1, a.2 ++ x.2)) a).1 := fun l => by
    induction l with
    | nil => exact fun a h => h
    | cons r l ih =>
      exact fun a h => ih _ (((h.trans (irq_raised _ _)).trans (.of_frame (ibi_frame _ _ _) (by decide))).trans (pushEvent_raised _ _))
  unfold State.announce
  split
  · exact hloop rs (s, []) (.refl s)
  · exact .refl s

/-- The end of an event's records: announced, and from class 3 flushed (R361, R362). -/
theorem announceFlush_raised {s t : State} (h : Raised s t) (c : Nat) (rs : List Record) (p : Prop) [Decidable p] (k : FlushKind) :
    Raised s (if p then (t.announce c rs).1.askFlush k else (t.announce c rs).1) :=
  have ha := h.trans (announce_raised t c rs)
  .ite (ha.trans (.of_frame (askFlush_frame _ k) (by decide))) ha

theorem emitCore_raised (s : State) (e : Event) (sq : Bool) : Raised s (s.emitCore e sq).1 := by
  unfold State.emitCore
  dsimp only
  split
  · split
    · split
      · exact announceFlush_raised (modRec_raised s _) _ _ _ _
      · exact (modRec_raised s _).trans (bumpFld_raised _ _ _ _ (by decide))
    · exact (modRec_raised s _).trans (bump_raised _ _ (by decide))
  · split
    · split
      · split
        · exact announceFlush_raised ((modRec_raised s _).trans (modRec_raised _ _)) _ _ _ _
        · exact (modRec_raised s _).trans (bumpFld_raised _ _ _ _ (by decide))
      · exact ((modRec_raised s _).trans (modRec_raised _ _)).trans (bump_raised _ _ (by decide))
    · exact announceFlush_raised (((modRec_raised s _).trans (.foldl ringPut_raised _ _)).trans (modRec_raised _ _)) _ _ _ _

theorem lostEvents_raised (s : State) (l : List Nat) : Raised s (s.lostEvents l) := .foldl (fun _ _ => emitCore_raised _ _ _) _ _
theorem emitBase_raised (s : State) (e : Event) (q : Bool) : Raised s (s.emitBase e q) := (emitCore_raised s e q).trans (lostEvents_raised _ _)
theorem event_raised (s : State) (b : EvBody) : Raised s (s.event b) := (pushEvent_raised s b).trans (lostEvents_raised _ _)

/-! ### Its trace -/

theorem traceLost_raised (s : State) (p w n : Nat) : Raised s (s.traceLost p w n) := by
  have hcount : Raised s (s.add64 (itemKey OBS_TRACE_LOST_LO p) (itemKey OBS_TRACE_LOST_HI p) n) :=
    add64_raised s _ _ (ne_cause (Nat.le_add_right_of_le (by decide))) (ne_cause (Nat.le_add_right_of_le (by decide)))
  have hunit : ∀ t, Raised s t → Raised s (if w < 144 then t.bump (0x100000 + 0x1000 * w + TWD_TRACE_DROP) n
      else if w < 192 then t.bump (0x280000 + 0x1000 * (w - 144) + LWD_TS_DROP) n else t) := fun t h =>
    .ite (h.trans (bump_raised _ _ (ne_cause (by omega)))) (.ite (h.trans (bump_raised _ _ (ne_cause (by omega)))) h)
  unfold State.traceLost
  dsimp only
  refine .ite ?_ (hunit _ hcount)
  refine Raised.trans ?_ (irq_raised _ _)
  refine Raised.trans ?_ (emitBase_raised _ _ _)
  exact (hunit _ hcount).trans (.of_regs rfl)

theorem traceRec_raised (s : State) (p w : Nat) (r : List Word) : Raised s (s.traceRec p w r) := by
  have hwriter : ∀ x, Raised s (s.setWriter p w x) := fun x => .of_regs rfl
  unfold State.traceRec
  exact .ite (.refl s) (.ite ((hwriter _).trans (.of_frame (traceDrain_frame _ p w) (by decide))) ((hwriter _).trans (traceLost_raised _ p w 1)))

theorem traceEvent_raised (s : State) (e : Event) (q : Word) : Raised s (s.traceEvent e q) := by
  unfold State.traceEvent
  split
  · split
    · exact .foldl (fun _ _ => traceRec_raised _ _ _ _) _ _
    · exact .refl s
  · exact .refl s

theorem countError_raised (s : State) (e : Event) : Raised s (s.countError e) := by
  unfold State.countError
  exact .ite (add64_raised s _ _ (ne_cause (by omega)) (ne_cause (by omega))) (.refl s)

theorem emit_raised (s : State) (e : Event) : Raised s (s.emit e) :=
  ((countError_raised s e).trans (emitCore_raised _ e false)).trans ((traceEvent_raised _ _ _).trans (lostEvents_raised _ _))

theorem failTags_raised (s : State) (l : List (BitVec 16 × Word)) (cause : Nat) (code : Word) (scope : Nat) (coords : Word) :
    Raised s (s.failTags l cause code scope coords) := .foldl (fun s _ => event_raised s _) _ _

theorem setPkg_raised (s : State) (p : PkgState) : Raised s (s.setPkg p) := by
  have hshow : ∀ (u : State) b m w, Raised u ((u.event b).ibi m w) := fun u b m w => (event_raised u b).trans (.of_frame (ibi_frame _ m w) (by decide))
  have hpkg : ∀ f, Raised s (s.modBu f) := fun f => .of_regs rfl
  unfold State.setPkg
  refine .ite (.refl s) (.ite ?_ ?_)
  · exact ((hpkg _).trans (hshow _ _ _ _)).trans (failTags_raised _ _ _ _ _ _)
  · exact (hpkg _).trans (hshow _ _ _ _)

end Sys2Proof.Machine
end

section
/-! PROOFS. Link state in service: training, identity, loss, alarms and fence notices (R254, R321, R391, R448, R450, R452, R463), and what the comparison
of the wiring leaves of it (R451). -/
namespace Sys2Proof.Machine

-- One theorem at a time: with the joint text's other threads, parallel ones would pass the memory that the check gives.
set_option Elab.async false

/-! ### Ports and their registers -/

theorem port_congr {s t : State} (h : t.ports = s.ports) (p : PortIx) : t.port p = s.port p := by rw [State.port, h, State.port]
@[simp] theorem port_modPort_self (s : State) (p : PortIx) (f : Port → Port) : (s.modPort p f).port p = f (s.port p) := tget_tput_self _ _ _ _
theorem port_modPort_ne (s : State) {p q : PortIx} (f : Port → Port) (h : q ≠ p) : (s.modPort p f).port q = s.port q :=
  tget_tput_ne _ _ _ fun e => h (Fin.ext e)
@[simp] theorem settle_port (s : State) (p : PortIx) : (settle s).port p = s.port p := rfl

theorem linkReg_ne (p : PortIx) {a b : Nat} (h : a ≠ b) : linkReg p a ≠ linkReg p b := by
  unfold linkReg
  omega

/-- Of a link warden's page an event moves only the count of trace records dropped (R387). -/
theorem linkReg_stands (p : PortIx) {o : Nat} (ho : o < 0x1000) (hn : o ∉ [TWD_TRACE_DROP, TWD_LC_ERR_LO, TWD_LC_ERR_HI, LWD_TS_DROP]) :
    eventReg (linkReg p o) = false := by
  have hp := p.isLt
  have hpage : linkReg p o % 0x1000 = o := by
    unfold linkReg
    omega
  have hlow : 0x280000 ≤ linkReg p o ∧ linkReg p o < 0x1000000 := by
    unfold linkReg
    omega
  have hword : linkReg p o % 0x1000000 = linkReg p o := Nat.mod_eq_of_lt hlow.2
  have hout : ∀ l : List Nat, (∀ k ∈ l, k < 0x280000) → l.contains (linkReg p o) = false := fun l hl =>
    Bool.eq_false_iff.mpr fun hm => Nat.not_lt.mpr hlow.1 (hl _ (List.contains_iff_mem.mp hm))
  rw [eventReg, hpage, hword, hout _ (by decide), hout _ (by decide), Bool.eq_false_iff.mpr fun hm => hn (List.contains_iff_mem.mp hm)]
  exact Bool.and_false _

/-! ### The comparison of the wiring (R451) -/

/-- A port without the outcome of its comparison. -/
def Port.line (x : Port) : Port := { x with out := .notCompared }

/-- What a comparison of the wiring does: records and events, package states and the outcomes of ports. -/
structure Rewired (s t : State) : Prop where
  frame : Frame [.regs, .msix, .recd, .subs, .i3c, .obs, .out, .ports, .bu] s t
  regs : RegsBut eventReg s t
  lines : ∀ p, (t.port p).line = (s.port p).line
  raised : Raised s t

theorem Rewired.refl (s : State) : Rewired s s := ⟨.refl _ s, .refl _ s, fun _ => rfl, .refl s⟩

theorem Rewired.trans {s t u : State} (h : Rewired s t) (k : Rewired t u) : Rewired s u :=
  ⟨h.frame.trans k.frame, h.regs.trans k.regs, fun p => (k.lines p).trans (h.lines p), h.raised.trans k.raised⟩

theorem Rewired.ite {s a b : State} {c : Prop} [Decidable c] (h : Rewired s a) (k : Rewired s b) : Rewired s (if c then a else b) := by split <;> assumption

theorem emit_rewired (s : State) (e : Event) : Rewired s (s.emit e) :=
  ⟨(emit_frame s e).mono, emit_regs s e, fun p => congrArg Port.line (port_congr (s.emit_ports e) p), emit_raised s e⟩

theorem failTags_rewired (s : State) (l : List (BitVec 16 × Word)) (cause : Nat) (code : Word) (scope : Nat) (coords : Word) :
    Rewired s (s.failTags l cause code scope coords) :=
  ⟨(failTags_frame s l cause code scope coords).mono, failTags_regs s l cause code scope coords,
    fun p => congrArg Port.line (port_congr (failTags_frame s l cause code scope coords .ports (by decide)) p), failTags_raised s l cause code scope coords⟩

theorem setPkg_regs (s : State) (p : PkgState) : RegsBut eventReg s (s.setPkg p) := by
  have hpkg : ∀ f b m w, RegsBut eventReg s (((s.modBu f).event b).ibi m w) := fun f b m w =>
    ((RegsBut.of_regs rfl).trans (event_regs (s.modBu f) b)).trans (.of_frame (ibi_frame _ m w) (by decide))
  unfold State.setPkg
  exact .ite (.refl _ s) (.ite ((hpkg _ _ _ _).trans (failTags_regs _ _ _ _ _ _)) (hpkg _ _ _ _))

theorem setPkg_rewired (s : State) (p : PkgState) : Rewired s (s.setPkg p) :=
  ⟨(setPkg_frame s p).mono, setPkg_regs s p, fun q => congrArg Port.line (port_congr (s.setPkg_ports p) q), setPkg_raised s p⟩

theorem modBu_rewired (s : State) (f : BringUp → BringUp) : Rewired s (s.modBu f) := ⟨(modBu_frame s f).mono, .of_regs rfl, fun _ => rfl, .of_regs rfl⟩

theorem outcome_rewired (s : State) (p : PortIx) (w : Wired) : Rewired s (s.modPort p fun x => { x with out := w }) :=
  ⟨(modPort_frame s p _).mono, .of_regs rfl, fun q => by
    by_cases h : q = p
    · subst h; rw [port_modPort_self]; rfl
    · rw [port_modPort_ne _ _ h], .of_regs rfl⟩

theorem compareWiring_rewired (s : State) : Rewired s s.compareWiring.1 := by
  have hloop : ∀ (f : State × List PortIx → PortIx → State × List PortIx), (∀ a p, Rewired a.1 (f a p).1) →
      ∀ (l : List PortIx) (a : State × List PortIx), Rewired a.1 (l.foldl f a).1 := fun f hf l => by
    induction l with
    | nil => exact fun a => .refl a.1
    | cons p l ih => exact fun a => (hf a p).trans (ih (f a p))
  refine hloop _ (fun a p => ?_) s.tensorPorts (s, [])
  dsimp only
  split
  · exact .refl a.1
  · have hout := outcome_rewired a.1 p (a.1.wiredOf p)
    split
    · exact hout.trans (emit_rewired _ _)
    · exact hout.trans (emit_rewired _ _)
    · exact hout
    · exact hout

theorem topoDisagree_rewired (s : State) (ps : List PortIx) : Rewired s (s.topoDisagree ps) := (modBu_rewired s _).trans (emit_rewired _ _)
theorem topoAgreed_rewired (s : State) : Rewired s s.topoAgreed := (modBu_rewired s _).trans (emit_rewired _ _)

theorem rewire_rewired (s : State) (whole : Bool) : Rewired s (s.rewire whole) := by
  have hcompare := compareWiring_rewired s
  unfold State.rewire
  extract_lets x s1 bad
  refine .ite hcompare (.ite (hcompare.trans (failTags_rewired _ _ _ _ _ _)) (.ite ?_ (.ite ?_ hcompare)))
  · have hbad := hcompare.trans (topoDisagree_rewired s1 bad)
    exact .ite hbad (.ite (hbad.trans (setPkg_rewired _ _)) (hbad.trans (failTags_rewired _ _ _ _ _ _)))
  · have hgood := hcompare.trans (topoAgreed_rewired s1)
    exact .ite (hgood.trans (setPkg_rewired _ _)) hgood

/-- A port's line as the comparison finds it, field by field. -/
theorem rewire_line (s : State) (whole : Bool) (p : PortIx) : ((s.rewire whole).port p).up = (s.port p).up ∧
    ((s.rewire whole).port p).far = (s.port p).far ∧ ((s.rewire whole).port p).gone = (s.port p).gone ∧
    ((s.rewire whole).port p).gens = (s.port p).gens ∧ ((s.rewire whole).port p).floors = (s.port p).floors := by
  have hline := (rewire_rewired s whole).lines p
  exact ⟨(congrArg Port.up hline :), (congrArg Port.far hline :), (congrArg Port.gone hline :), (congrArg Port.gens hline :),
    (congrArg Port.floors hline :)⟩

/-- A register of a link warden that no event moves stands through the comparison. -/
theorem rewire_linkReg (s : State) (whole : Bool) {p : PortIx} {o : Nat} (h : eventReg (linkReg p o) = false) :
    (s.rewire whole).reg (linkReg p o) = s.reg (linkReg p o) := (rewire_rewired s whole).regs _ h

/-! ### Training and identity (R391, R448) -/

/-- A port that has trained. -/
def Port.trainedTo (x : Port) (floors : List Nat) : Port :=
  { x with up := true, far := none, gens := [], lossExpected := false, noPeer := false, floors := floors }

/-- The port up, its counts of messages at zero, before its identity goes out. -/
def State.linkRaised (s : State) (p : PortIx) (floors : List Nat) : State :=
  (((s.modPort p fun x => x.trainedTo floors).setNat (linkReg p LWD_MSG_TX) 0).setNat (linkReg p LWD_MSG_RX) 0).setFld (linkReg p LWD_LINK_STATE) 31 29 2

/-- The identity that goes out moves neither ports nor registers. -/
theorem linkUp_frame (s : State) (p : PortIx) (floors : List Nat) : Frame [.out] (s.linkRaised p floors) (s.linkUp p floors) :=
  .ite (emitOut_frame _ _) (.refl _ _)

theorem linkUp_port (s : State) (p : PortIx) (floors : List Nat) : (s.linkUp p floors).port p = (s.port p).trainedTo floors := by
  rw [port_congr (linkUp_frame s p floors .ports (by decide)), State.linkRaised, port_congr (State.setFld_ports ..), port_congr (State.setNat_ports ..),
    port_congr (State.setNat_ports ..), port_modPort_self]

theorem linkUp_counts (s : State) (p : PortIx) (floors : List Nat) :
    (s.linkUp p floors).reg (linkReg p LWD_MSG_TX) = 0 ∧ (s.linkUp p floors).reg (linkReg p LWD_MSG_RX) = 0 := by
  have hstate : ∀ (u : State) (o v : Nat), o ≠ LWD_LINK_STATE → (u.setFld (linkReg p LWD_LINK_STATE) 31 29 v).reg (linkReg p o) = u.reg (linkReg p o) :=
    fun u o v h => State.reg_setReg_ne u _ (linkReg_ne p h)
  have hregs := State.reg_congr (linkUp_frame s p floors .regs (by decide))
  rw [hregs, hregs, State.linkRaised, hstate _ _ _ (by decide), hstate _ _ _ (by decide)]
  exact ⟨(State.reg_setNat_ne _ 0 (linkReg_ne p (by decide))).trans (State.reg_setNat_self _ _ _), State.reg_setNat_self _ _ _⟩

/-- A port that trains in service is up and counted, and the wiring is compared anew. -/
theorem linkTrained_trains {s : State} {p : PortIx} (floors : List Nat) (hl : s.portLives p = true) (hu : (s.port p).up = false)
    (hw : s.bu.linkWaits.contains p = false) :
    doLinkTrained p floors s = ((s.linkUp p floors).bumpFld (linkReg p LWD_POLICY) 23 16).rewire false := by
  rw [doLinkTrained, hl, hu]
  exact (if_pos rfl).trans (if_neg (by rw [hw]; exact Bool.false_ne_true))

/-- Where the comparison of the wiring leaves a port that has trained, and its counts. -/
theorem linkTrained_shows {s : State} {p : PortIx} (floors : List Nat) (hl : s.portLives p = true) (hu : (s.port p).up = false)
    (hw : s.bu.linkWaits.contains p = false) : ((doLinkTrained p floors s).port p).up = true ∧ ((doLinkTrained p floors s).port p).far = none ∧
      ((doLinkTrained p floors s).port p).floors = floors ∧ (doLinkTrained p floors s).reg (linkReg p LWD_MSG_TX) = 0 ∧
      (doLinkTrained p floors s).reg (linkReg p LWD_MSG_RX) = 0 := by
  obtain ⟨htx, hrx⟩ := linkUp_counts s p floors
  have hpolicy : ∀ (u : State) (o : Nat), o ≠ LWD_POLICY → (u.bumpFld (linkReg p LWD_POLICY) 23 16).reg (linkReg p o) = u.reg (linkReg p o) :=
    fun u o h => State.reg_setReg_ne u _ (linkReg_ne p h)
  obtain ⟨hup, hfar, -, -, hfloors⟩ := rewire_line ((s.linkUp p floors).bumpFld (linkReg p LWD_POLICY) 23 16) false p
  rw [linkTrained_trains floors hl hu hw, hup, hfar, hfloors, port_congr (State.bumpFld_ports ..), linkUp_port,
    rewire_linkReg _ _ (linkReg_stands p (by decide) (by decide)), rewire_linkReg _ _ (linkReg_stands p (by decide) (by decide)),
    hpolicy _ _ (by decide), hpolicy _ _ (by decide)]
  exact ⟨rfl, rfl, rfl, htx, hrx⟩

/-- A port with an identity block: the far end and its generations are known, and it is gone only while a loss is expected. -/
def Port.known (x : Port) (i : Identity) : Port := { x with far := some i, gens := i.gens, gone := x.gone && x.lossExpected }

/-- The identity block in the warden's registers. -/
def State.identified (s : State) (p : PortIx) (i : Identity) : State :=
  (((s.modPort p fun x => x.known i).set64 (linkReg p LWD_FAR_SERIAL_LO) (linkReg p LWD_FAR_SERIAL_HI) i.serial.toNat).setReg (linkReg p LWD_FAR_ID)
    (word4 i.chipGen.toNat i.flags.toNat i.grade.toNat i.port.toNat)).setReg (linkReg p LWD_FAR_GEN)
    (word4 (i.gens.getD 0 0).toNat (i.gens.getD 1 0).toNat (i.gens.getD 2 0).toNat (i.gens.getD 3 0).toNat)

theorem identityBlock_identifies {s : State} {p : PortIx} (i : Identity) (hu : (s.port p).up = true) (ht : s.isTensor p = true) :
    doIdentityBlock p i s = (s.identified p i).rewire false := by
  rw [doIdentityBlock, hu, ht]
  exact if_neg Bool.false_ne_true

theorem identified_frame (s : State) (p : PortIx) (i : Identity) : Frame [.ports, .regs] s (s.identified p i) :=
  (((modPort_frame s p _).mono.set64 (by decide)).setReg (by decide)).setReg (by decide)

theorem identified_port (s : State) (p : PortIx) (i : Identity) : (s.identified p i).port p = (s.port p).known i := by
  rw [State.identified, port_congr (State.setReg_ports ..), port_congr (State.setReg_ports ..), port_congr (State.set64_ports ..), port_modPort_self]

theorem identified_id (s : State) (p : PortIx) (i : Identity) :
    (s.identified p i).reg (linkReg p LWD_FAR_ID) = word4 i.chipGen.toNat i.flags.toNat i.grade.toNat i.port.toNat :=
  (State.reg_setReg_ne _ _ (linkReg_ne p (by decide))).trans (State.reg_setReg_self _ _ _)

end Sys2Proof.Machine
end

section
/-! PROOFS. Losses, fence notices and alarms of a link (R254, R321, R450, R452, R463). -/
namespace Sys2Proof.Machine

-- One theorem at a time: with the joint text's other threads, parallel ones would pass the memory that the check gives.
set_option Elab.async false

/-! ### The far end is gone, or says so (R254, R321) -/

/-- What a notice received, or a loss taken as one, does beyond its port: the record, the job tags named, vector 7 and the subscribers' event. -/
def State.peersTold (s : State) (e : Event) (n : FenceNotice) : State :=
  (((s.emit e).failPeers n.entries e.word n.scope.val n.coords).irq 7).event (.fence n false)

theorem failPeers_frame (s : State) (l : List (BitVec 16 × Word)) (code : Word) (scope : Nat) (coords : Word) :
    Frame [.regs, .msix, .recd, .subs, .i3c, .out, .ctxs] s (s.failPeers l code scope coords) :=
  (Frame.each (l := [.ctxs]) (fun s c => modCtx_frame s c _) _ s).mono.trans (failTags_frame _ _ _ _ _ _).mono

theorem peersTold_frame (s : State) (e : Event) (n : FenceNotice) :
    Frame [.regs, .msix, .recd, .subs, .i3c, .obs, .out, .ctxs] s (s.peersTold e n) :=
  (((emit_frame s e).mono.trans (failPeers_frame _ _ _ _ _).mono).trans (irq_frame _ 7).mono).trans (event_frame _ _).mono

/-- Vector 7 stays raised while the subscribers are told. -/
theorem peersTold_raises (s : State) (e : Event) (n : FenceNotice) : (s.peersTold e n).causes.getLsbD 7 = true :=
  event_raised _ _ 7 (irq_cause (by decide))

theorem peersTold_port (s : State) (e : Event) (n : FenceNotice) (p : PortIx) : (s.peersTold e n).port p = s.port p :=
  port_congr (peersTold_frame s e n .ports (by decide)) p

/-- A port whose link is down. -/
def State.linkDown (s : State) (p : PortIx) (far : Bool) : State :=
  ((s.bumpFld (linkReg p LWD_LINK_STATE) 15 0).setFld (linkReg p LWD_LINK_STATE) 31 29 3).modPort p fun x => { x with up := false, gone := x.gone || far }

theorem linkDown_port (s : State) (p : PortIx) : ((s.linkDown p true).port p).up = false ∧ ((s.linkDown p true).port p).gone = true := by
  rw [State.linkDown, port_modPort_self]
  exact ⟨rfl, Bool.or_true _⟩

/-- A loss that no notice announced counts as a notice of the far end's power (R321). -/
theorem linkLoss_surprises {s : State} {p : PortIx} (hu : (s.port p).up = true) (ht : s.isTensor p = true) (hx : (s.port p).lossExpected = false) :
    doLinkLossOfSignal p s = (((s.linkDown p true).emit ⟨0, 3, p.val, 0x071A, s.portData p⟩).peersTold ⟨0, 3, p.val, 0x0511, s.portData p⟩
      (s.lossNotice p)).rewire false := by
  unfold doLinkLossOfSignal
  extract_lets x s1 s2 e n
  have hdown : s2 = s.linkDown p true := by
    unfold s2
    rw [ht]
    rfl
  rw [hu, ht, hdown]
  exact (if_neg Bool.false_ne_true).trans ((if_neg Bool.false_ne_true).trans (if_neg (by rw [hx]; exact Bool.false_ne_true)))

/-- The port stays down, its far end gone, and vector 7 raised, while the wiring is compared anew. -/
theorem linkLoss_outcome {s : State} {p : PortIx} (hu : (s.port p).up = true) (ht : s.isTensor p = true) (hx : (s.port p).lossExpected = false) :
    ((doLinkLossOfSignal p s).port p).up = false ∧ ((doLinkLossOfSignal p s).port p).gone = true ∧
      (doLinkLossOfSignal p s).causes.getLsbD 7 = true := by
  rw [linkLoss_surprises hu ht hx]
  generalize (⟨0, 3, p.val, 0x071A, s.portData p⟩ : Event) = lost
  generalize (⟨0, 3, p.val, 0x0511, s.portData p⟩ : Event) = e
  obtain ⟨hdown, hgone⟩ := linkDown_port s p
  have hport : (((s.linkDown p true).emit lost).peersTold e (s.lossNotice p)).port p = (s.linkDown p true).port p :=
    (peersTold_port _ e _ p).trans (port_congr (State.emit_ports _ lost) p)
  obtain ⟨hup', -, hgone', -, -⟩ := rewire_line (((s.linkDown p true).emit lost).peersTold e (s.lossNotice p)) false p
  exact ⟨by rw [hup', hport, hdown], by rw [hgone', hport, hgone], (rewire_rewired _ false).raised 7 (peersTold_raises _ e _)⟩

/-! ### A notice is received (R463) -/

/-- A port that has received a notice: of scope 3 to 6 the far end is gone and a loss expected, of scope 1 or 2 it has new generations. -/
def Port.notified (x : Port) (n : FenceNotice) : Port :=
  match n.scope.val with
  | 0 => { x with lastNotice := some n }
  | 1 | 2 => { x with lastNotice := some n, gens := n.gens }
  | _ => { x with lastNotice := some n, gone := true, lossExpected := true, gens := [] }

theorem notified_gone (x : Port) {n : FenceNotice} (h : 3 ≤ n.scope.val) :
    x.notified n = { x with lastNotice := some n, gone := true, lossExpected := true, gens := [] } := by
  obtain ⟨k, hk⟩ := Nat.exists_eq_add_of_le' h
  rw [Port.notified, hk]
  rfl

theorem notified_renewed (x : Port) {n : FenceNotice} (h : n.scope.val = 1 ∨ n.scope.val = 2) :
    x.notified n = { x with lastNotice := some n, gens := n.gens } := by
  rw [Port.notified]
  rcases h with h | h
  · rw [h]
    rfl
  · rw [h]
    rfl

/-- A notice that is not the port's last one again. -/
theorem fenceNotice_received {s : State} {p : PortIx} {n : FenceNotice} (hu : (s.port p).up = true) (ht : s.isTensor p = true)
    (hn : (s.port p).lastNotice.any (sameNotice n) = false) : ∃ u : State, Frame [.regs, .ports] s u ∧ u.port p = (s.port p).notified n ∧
      doFenceNotice p n s = u.peersTold ⟨0, 3, p.val, 0x0511, s.portData p⟩ n := by
  unfold doFenceNotice
  extract_lets x s1 g s2 e
  have hgo : ¬ ((!x.up || !s.isTensor p) = true) := by simp [x, hu, ht]
  have h1 : Frame [.regs] s s1 := (setFld_frame s _ _ _ _).bumpFld (by decide)
  have hport : ∀ f, (s1.modPort p f).port p = f (s.port p) := fun f => by rw [port_modPort_self, port_congr (h1 .ports (by decide))]
  have hmod : ∀ f, Frame [.regs, .ports] s (s1.modPort p f) := fun f => h1.mono.modPort (by decide)
  have h2 : Frame [.regs, .ports] s s2 ∧ s2.port p = (s.port p).notified n := by
    unfold s2 Port.notified
    rcases hk : n.scope.val with _ | _ | _ | k
    · exact ⟨hmod _, hport _⟩
    · exact ⟨(hmod _).setReg (by decide), (port_congr (State.setReg_ports ..) p).trans (hport _)⟩
    · exact ⟨(hmod _).setReg (by decide), (port_congr (State.setReg_ports ..) p).trans (hport _)⟩
    · exact ⟨hmod _, hport _⟩
  exact ⟨s2, h2.1, h2.2, (if_neg hgo).trans (if_neg (by rw [hn]; exact Bool.false_ne_true))⟩

/-- A notice again is only counted. -/
theorem fenceNotice_repeated {s : State} {p : PortIx} {n : FenceNotice} (hu : (s.port p).up = true) (ht : s.isTensor p = true)
    (hn : (s.port p).lastNotice.any (sameNotice n) = true) : doFenceNotice p n s = s.bump (linkReg p LWD_NOTICE_DUP) := by
  unfold doFenceNotice
  dsimp only
  rw [hu, ht, hn]
  rfl

/-- A notice that is received leaves its port, its causes and its frame so, whatever the power signals show. -/
theorem fenceNotice_outcome {s : State} {p : PortIx} {n : FenceNotice} (hu : (s.port p).up = true) (ht : s.isTensor p = true)
    (hn : (s.port p).lastNotice.any (sameNotice n) = false) :
    (settle (doFenceNotice p n s)).port p = (s.port p).notified n ∧ (settle (doFenceNotice p n s)).causes.getLsbD 7 = true ∧
      Frame [.regs, .msix, .recd, .subs, .i3c, .obs, .out, .ports, .ctxs, .pw] s (settle (doFenceNotice p n s)) := by
  obtain ⟨u, hframe, hport, hdo⟩ := fenceNotice_received hu ht hn
  rw [hdo]
  refine ⟨?_, ?_, (hframe.mono.trans (peersTold_frame u _ n).mono).trans (settle_frame _).mono⟩
  · rw [settle_port, peersTold_port, hport]
  · rw [settle_causes]
    exact peersTold_raises u _ n

/-! ### Alarms (R450, R452) -/

/-- An alarm that is not raised shows in its own bit alone. -/
theorem alarm_off (s : State) (p : PortIx) (kind : Nat) : s.alarm p kind false = s.setFld (linkReg p LWD_POLICY) kind kind 0 := by
  unfold State.alarm
  exact if_neg Bool.false_ne_true

theorem alarm_frame (s : State) (p : PortIx) (kind : Nat) (on : Bool) :
    Frame [.regs, .msix, .recd, .subs, .i3c, .obs, .out, .ports] s (s.alarm p kind on) := by
  have hbit := setFld_frame s (linkReg p LWD_POLICY) kind kind (if on then 1 else 0)
  unfold State.alarm
  exact .ite ((hbit.mono.modPort (by decide)).emit (by decide)) hbit.mono

/-- Of the warden's registers an alarm moves its own, and the counts that an event moves. -/
theorem alarm_linkReg (s : State) (p : PortIx) (kind : Nat) (on : Bool) {o : Nat} (ho : o ≠ LWD_POLICY) (hs : eventReg (linkReg p o) = false) :
    (s.alarm p kind on).reg (linkReg p o) = s.reg (linkReg p o) := by
  unfold State.alarm
  extract_lets s1 due
  have h1 : s1.reg (linkReg p o) = s.reg (linkReg p o) := State.reg_setReg_ne s _ (linkReg_ne p ho)
  split
  · rw [emit_regs _ _ _ hs, State.reg_congr (State.modPort_regs ..), h1]
  · exact h1

/-- A tensor port with a lane below its floor is down once the wiring is compared anew. -/
theorem laneMargin_drops {s : State} {p : PortIx} {lanes : List (Nat × Nat)} (hu : (s.port p).up = true) (ht : s.isTensor p = true)
    (hlow : (lanes.zipIdx.any fun l => decide (l.1.1 < (s.port p).floors.getD l.2 0)) = true) : ((doLaneMarginCheck p lanes s).port p).up = false := by
  have hdown : ∀ u : State, (((u.modPort p fun x => { x with up := false }).setFld (linkReg p LWD_LINK_STATE) 31 29 3).port p).up = false := fun u => by
    rw [port_congr (State.setFld_ports ..), port_modPort_self]
  unfold doLaneMarginCheck
  extract_lets fl s1 low s2
  have hon : low = true := hlow
  rw [hu, ht, hon]
  exact ((rewire_line _ false p).1).trans (hdown s2)

/-- With every lane at its floor the check shows the margins. -/
theorem laneMargin_frame {s : State} {p : PortIx} {lanes : List (Nat × Nat)} (hu : (s.port p).up = true)
    (hlow : (lanes.zipIdx.any fun l => decide (l.1.1 < (s.port p).floors.getD l.2 0)) = false) : Frame [.regs] s (doLaneMarginCheck p lanes s) := by
  unfold doLaneMarginCheck
  extract_lets fl s1 low s2
  have hoff : low = false := hlow
  have h1 : Frame [.regs] s s1 := .each (fun s l => setNat_frame s _ _) _ s
  have h2 : Frame [.regs] s s2 := by
    unfold s2
    rw [hoff, alarm_off]
    exact h1.setFld (by decide)
  rw [hu, hoff]
  exact h2

/-- The corrected and uncorrected symbols and the retries of the second, counted (R452). -/
def State.linkCounted (s : State) (p : PortIx) (retry : Nat) : State :=
  ((s.drawn.add64 (linkReg p LWD_FEC_CORR_LO) (linkReg p LWD_FEC_CORR_HI) (Config.fecCounts s.free).1).bump (linkReg p LWD_FEC_UNCORR)
    (Config.fecCounts s.free).2).bump (linkReg p LWD_RETRY) retry

theorem linkCounted_frame (s : State) (p : PortIx) (retry : Nat) : Frame [.regs, .free] s (s.linkCounted p retry) :=
  (((drawn_frame s).mono.add64 (by decide)).bump (by decide)).bump (by decide)

theorem linkCounted_retry (s : State) (p : PortIx) (retry : Nat) :
    (s.linkCounted p retry).reg (linkReg p LWD_RETRY) = BitVec.ofNat 32 (satAdd 32 (s.reg (linkReg p LWD_RETRY)).toNat retry) := by
  have hfec : ∀ (u : State) (n m w : Nat), ((u.add64 (linkReg p LWD_FEC_CORR_LO) (linkReg p LWD_FEC_CORR_HI) n w).bump (linkReg p LWD_FEC_UNCORR) m).reg
      (linkReg p LWD_RETRY) = u.reg (linkReg p LWD_RETRY) := fun u n m w =>
    ((State.reg_setReg_ne _ _ (linkReg_ne p (by decide))).trans (State.reg_setReg_ne _ _ (linkReg_ne p (by decide)))).trans
      (State.reg_setReg_ne _ _ (linkReg_ne p (by decide)))
  rw [State.linkCounted, reg_bump_self, hfec]
  rfl

theorem linkAlarmCheck_counts {s : State} {p : PortIx} (fec retry : Nat) (hu : (s.port p).up = true) : doLinkAlarmCheck p fec retry s =
    ((s.linkCounted p retry).alarm p 1 (decide (1000 * 10 ^ (max 1 (s.reachOf p) - 1) < fec))).alarm p 2
      (decide (10 * 10 ^ (max 1 (s.reachOf p) - 1) < retry)) := by
  unfold doLinkAlarmCheck
  rw [hu]
  rfl

/-- Within the limits of the shortest reach nothing is alarmed, whatever the reach (R452). -/
theorem linkAlarmCheck_quiet {s : State} {p : PortIx} {fec retry : Nat} (hu : (s.port p).up = true) (hf : fec ≤ 1000) (hr : retry ≤ 10) :
    Frame [.regs, .free] s (doLinkAlarmCheck p fec retry s) := by
  have hlim : 0 < 10 ^ (max 1 (s.reachOf p) - 1) := Nat.pow_pos (by decide)
  have hfec : decide (1000 * 10 ^ (max 1 (s.reachOf p) - 1) < fec) = false := decide_eq_false (by omega)
  have hretry : decide (10 * 10 ^ (max 1 (s.reachOf p) - 1) < retry) = false := decide_eq_false (by omega)
  rw [linkAlarmCheck_counts fec retry hu, hfec, hretry, alarm_off, alarm_off]
  exact ((linkCounted_frame s p retry).setFld (by decide)).setFld (by decide)

/-! ### The statement -/

/-- Settles O38, clause by clause. -/
theorem linkState : Obligations.LinkState := by
  refine ⟨fun s p floors hl hu hw => ⟨⟨_, rfl, linkTrained_shows floors hl hu hw⟩, ⟨_, rfl, linkTrained_shows floors hl hu hw⟩⟩,
    fun s p ok floors => ?noPeer, fun s p i hu ht => ?identity, fun s p hu ht hx => ?loss, fun s p n hu ht hn hscope => ?gone,
    fun s p n hu ht hn hscope => ?renewed, fun s p n hsig hu ht hn => ?repeated, fun s p lanes hu ht hlow => ⟨_, rfl, laneMargin_drops hu ht hlow⟩,
    fun s p lanes hsig hu hlow => ?margin, fun s p fec retry hsig hu => ?check⟩
  case noPeer =>
    have hdo : doLinkRetrainTimer p ok false floors s = s := if_neg (by simp)
    exact congrArg done hdo
  case identity =>
    obtain ⟨-, hfar, -, hgens, -⟩ := rewire_line (s.identified p i) false p
    have hport := identified_port s p i
    have hframe := (identified_frame s p i).mono.trans (rewire_rewired (s.identified p i) false).frame
    refine ⟨_, congrArg done (identityBlock_identifies i hu ht), ?_, ?_, ?_, ?_, ?_⟩
    · rw [settle_port, hfar, hport]
      rfl
    · rw [settle_port, hgens, hport]
      rfl
    · rw [settle_reg, rewire_linkReg _ _ (linkReg_stands p (by decide) (by decide)), identified_id]
    · exact (settle_hl _).trans (hframe .hl (by decide))
    · exact (settle_ctxs _).trans (hframe .ctxs (by decide))
  case loss =>
    obtain ⟨hdown, hgone, hcause⟩ := linkLoss_outcome hu ht hx
    exact ⟨_, rfl, hdown, hgone, hcause⟩
  case gone =>
    obtain ⟨hport, hcause, hframe⟩ := fenceNotice_outcome hu ht hn
    rw [notified_gone _ hscope] at hport
    exact ⟨_, rfl, congrArg Port.gone hport, congrArg Port.lossExpected hport, congrArg Port.lastNotice hport, hcause, hframe⟩
  case renewed =>
    obtain ⟨hport, hcause, hframe⟩ := fenceNotice_outcome hu ht hn
    rw [notified_renewed _ hscope] at hport
    exact ⟨_, rfl, (congrArg Port.gone hport :), (congrArg Port.gens hport :), hcause, hframe⟩
  case repeated =>
    refine ⟨_, congrArg done (fenceNotice_repeated hu ht hn), ?_, ?_, ?_⟩
    · rw [settle_reg, reg_bump_self]
    · exact Frame.settle (bump_frame s _ _).mono hsig.latch (by decide) (by decide) (by decide) (by decide)
    · exact ((RegsBut.refl (fun k => k == linkReg p LWD_NOTICE_DUP) s).bump (beq_self_eq_true (linkReg p LWD_NOTICE_DUP))).trans
        (.of_regs (settle_regs _))
  case margin =>
    exact ⟨_, rfl, Frame.settle (laneMargin_frame hu hlow).mono hsig.latch (by decide) (by decide) (by decide) (by decide)⟩
  case check =>
    refine ⟨_, rfl, ?_, ?_, fun hf hr => Frame.settle (linkAlarmCheck_quiet hu hf hr).mono hsig.latch (by decide) (by decide) (by decide) (by decide)⟩
    · have hstands : eventReg (linkReg p LWD_RETRY) = false := linkReg_stands p (by decide) (by decide)
      rw [settle_reg, linkAlarmCheck_counts fec retry hu, alarm_linkReg _ p 2 _ (by decide) hstands, alarm_linkReg _ p 1 _ (by decide) hstands,
        linkCounted_retry]
    · rw [linkAlarmCheck_counts fec retry hu]
      exact Frame.settle (((linkCounted_frame s p retry).mono.trans (alarm_frame _ p 1 _).mono).trans (alarm_frame _ p 2 _).mono) hsig.latch (by decide)
        (by decide) (by decide) (by decide)

end Sys2Proof.Machine
end

section
/-! PROOFS. Where the statement on Anvil runs leaves no room for what the model does: a spare that shadows a command of its own journal gives the shadow
up to its test, and a hold-commit command behind it in that journal takes the cover of another run (R118, R138, R283). -/
namespace Sys2Proof.Machine

-- One theorem at a time: with the joint text's other threads, parallel ones would pass the memory that the check gives.
set_option Elab.async false

/-- Two commands of one sequence number in the journal of tile 2: a sampled one that it runs as a shadow, and its own hold-commit one, complete, which
waits for a comparison. -/
def ownDuty : JEntry := { cmd := passCmd, state := .running, execs := 1, role := .shadow, primary := some 2, serial := 1 }
def ownHeld : JEntry := { cmd := heldCmd, state := .complete, execs := 1, judged := [0], cmpWait := true, sampled := true }

/-- An Anvil run that waits for tile 2, a spare. -/
def spareRun : AnvilJob := { tile := 2, why := .nonidem, kernels := [0], all := [0] }

/-- Tile 0 still hands its number to its cover, tile 1, for the run in slot 0. The run that waits is for tile 2, whose capture names tile 2 itself as the
primary. -/
def selfShadowing : State :=
  { oneContext with
    fns := [(0, ⟨.on, 1, .nonSecure⟩)]
    plan := { fp := [(0, { st := .good }), (1, { st := .spare }), (2, { st := .spare })], map := [(0, 0)] }
    test := { queue := [spareRun], slots := [some handingJob, none] }
    tiles := [
      (0, { role := .logical, handing := true }),
      (1, { role := .selfTest }),
      (2, { role := .shadow, jnl := [(0, ownDuty), (1, ownHeld)], slots := [some ⟨2, 1, 7, false, false, ⟨0, 0⟩⟩, none] })] }

theorem selfShadowing_signals : selfShadowing.Signals := by unfold State.Signals; decide

/-- The run that waits can start at once: it needs no cover. -/
theorem selfShadowing_starts :
    (selfShadowing.test.queue.findSome? fun j => (selfShadowing.canStart j).map fun x => (j, x)) = some (spareRun, none, .testing) := by decide

/-- Of the two commands of its sequence number the capture finds the one that runs, which is no hold-commit command. -/
theorem selfShadowing_sampled :
    ∀ o ∈ (selfShadowing.tile spareRun.tile).slots.filterMap id,
      ((selfShadowing.tile o.primary).slotOf o.seq).any (fun e => e.2.cmd.hold) = false := by decide

/-- With the shadow entry closed the capture's number names the hold-commit command. It takes tile 1, and the run in slot 0 loses its cover to it. -/
theorem anvilRunStart_moves_cover :
    ((doAnvilRunStart selfShadowing).test.slots.getD 0 none).bind AnvilJob.cover = some 2 := by decide

/-- Refutes O36: the second clause looks at the commands that the captures name before the run starts, and no premise says that a tile's captures are of
commands of other tiles. Where one is the tile's own, its end brings up another command of its journal, whose search for a shadow moves the slot of
another run. -/
theorem not_anvilRuns : ¬ Obligations.AnvilRuns := by
  rintro ⟨-, hstart, -⟩
  obtain ⟨t, ht, -, ⟨j, hslots, -⟩, -⟩ :=
    hstart selfShadowing 1 spareRun none .testing selfShadowing_signals (by decide) selfShadowing_starts selfShadowing_sampled
  obtain rfl : settle (doAnvilRunStart selfShadowing) = t := Host.Outcome.next.inj ht
  have hkept : ((doAnvilRunStart selfShadowing).test.slots.getD 0 none).bind AnvilJob.cover = some 1 :=
    congrArg (fun l => (l.getD 0 none).bind AnvilJob.cover) hslots
  exact absurd (anvilRunStart_moves_cover.symm.trans hkept) (by decide)

end Sys2Proof.Machine
end

section
/-! PROOFS. The image messages of CMP (R295, R299, R302): a new authenticated message with its feature in force acts on a state that has only
its session's or source's data moved, and what it does to the NOR device or the fuses stands in the settled state beside its answer. -/
namespace Sys2Proof.Machine

-- One theorem at a time: with the joint text's other threads, parallel ones would pass the memory that the check gives.
set_option Elab.async false

/-! ### The NOR device -/

/-- The byte at each place of a written range is the byte written there. -/
theorem memRead_memWriteAll_inside (l : List Byte) : ∀ (m : List Host.Cell) (a i : Nat), i < l.length →
    memRead (memWriteAll m a l) (a + i) = l.getD i 0 := by
  induction l with
  | nil => intro m a i h; exact absurd h (Nat.not_lt_zero i)
  | cons b r ih =>
    intro m a i h
    cases i with
    | zero =>
      rw [memWriteAll, memRead_memWriteAll_outside _ _ _ _ (by omega)]
      exact memRead_memWrite_self m a b
    | succ i =>
      rw [memWriteAll, show a + (i + 1) = a + 1 + i by omega, ih _ _ _ (Nat.lt_of_succ_lt_succ h)]
      rfl

/-- A write sequence is not later than the next one, also where it wraps (R22). -/
theorem not_later_succ (a : Word) : later a (a + 1#32) = false := by simp [later]

theorem later_succ (a : Word) : later (a + 1#32) a = true := by simp [later]

/-- What was written to the two copies last is in force (R294). -/
@[simp] theorem Copies.get_put {α : Type} (c : Copies α) (x : α) : (c.put x).get = some x := by
  obtain ⟨c0, c1⟩ := c
  simp only [Copies.put, Copies.get, Copies.newest, Copies.zeroNext]
  cases c0 with
  | none =>
    cases c1 with
    | none => rfl
    | some b => simp [not_later_succ]
  | some a =>
    cases c1 with
    | none => simp [later_succ]
    | some b =>
      cases h : later b.1 a.1 with
      | true => simp [h, not_later_succ]
      | false => simp [h, later_succ]

/-- Without the power-fail lock a directory write goes to the other copy. -/
theorem writeDir_nor {s : State} (h : s.recd.pfLock = false) (f : Directory → Directory) :
    (s.writeDir f).nor = { s.nor with dir := s.nor.dir.put (f s.dir) } := by
  simp [State.writeDir, h]

theorem withNor_frame (s : State) (x : Nor) : Frame [.nor] s { s with nor := x } := fun p hp => by
  cases p <;> first | rfl | exact absurd (List.mem_singleton.2 rfl) hp

theorem withFused_frame (s : State) (x : Fused) : Frame [.fused] s { s with fused := x } := fun p hp => by
  cases p <;> first | rfl | exact absurd (List.mem_singleton.2 rfl) hp

theorem writeDir_frame (s : State) (f : Directory → Directory) : Frame [.nor] s (s.writeDir f) := by
  unfold State.writeDir
  split
  · exact .refl _ s
  · exact withNor_frame s _

theorem dir_congr {s t : State} (h : t.nor = s.nor) : t.dir = s.dir := by rw [State.dir, State.dir, h]

/-- The directory that was written is in force. -/
theorem dir_of_put {s : State} {c : Copies Directory} {d : Directory} (h : s.nor.dir = c.put d) : s.dir = d := by
  rw [State.dir, h, Copies.get_put]; rfl

/-- Authentication looks at the NOR device and the fuses alone. -/
theorem authenticate_congr {s t : State} (hn : t.nor = s.nor) (hf : t.fused = s.fused) (n : Fin 2) : t.authenticate n = s.authenticate n := by
  have hbytes : t.nor8 n = s.nor8 n := by funext o k; rw [State.nor8, State.nor8, hn]
  have hnat : t.norNat n = s.norNat n := by funext o k; rw [State.norNat, State.norNat, hbytes]
  have hsection : t.section n = s.section n := by funext k; simp only [State.section, hnat]
  have hsections : t.sections n = s.sections n := by rw [State.sections, State.sections, hnat, hsection]
  simp only [State.authenticate, State.manifestOk, State.keySlotOf, hbytes, hnat, hsections, hf]

/-! ### A message that is heard -/

theorem setSource_frame (s : State) (k : Nat) (x : Source) : Frame [.cmp] s (s.setSource k x) := fun p hp => by
  cases p <;> first | rfl | exact absurd (List.mem_singleton.2 rfl) hp

theorem setSession_frame (s : State) (k : Nat) (x : Option Session) : Frame [.cmp] s (s.setSession k x) := fun p hp => by
  cases p <;> first | rfl | exact absurd (List.mem_singleton.2 rfl) hp

theorem clearCopy_frame (s : State) (k : Nat) : Frame [.paths] s (s.clearCopy k) := fun p hp => by
  cases p <;> first | rfl | exact absurd (List.mem_singleton.2 rfl) hp

/-- Taking a message moves its session or source and its path copies only (R467, R481). -/
theorem taken_frame (s : State) (m : CmpHdr) : Frame [.cmp, .paths] s (s.taken m) := by
  unfold State.taken
  split
  · dsimp only
    split
    · exact (setSource_frame s _ _).mono
    · exact .step (setSource_frame _ _ _) (by decide) (clearCopy_frame s _).mono
  · split
    · split
      · exact (setSession_frame s _ _).mono
      · exact .refl _ s
    · exact .refl _ s

@[simp] theorem State.taken_nor (s : State) (m : CmpHdr) : (s.taken m).nor = s.nor := taken_frame s m .nor (by decide)
@[simp] theorem State.taken_fused (s : State) (m : CmpHdr) : (s.taken m).fused = s.fused := taken_frame s m .fused (by decide)
@[simp] theorem State.taken_bu (s : State) (m : CmpHdr) : (s.taken m).bu = s.bu := taken_frame s m .bu (by decide)
@[simp] theorem State.taken_recd (s : State) (m : CmpHdr) : (s.taken m).recd = s.recd := taken_frame s m .recd (by decide)
@[simp] theorem State.taken_dir (s : State) (m : CmpHdr) : (s.taken m).dir = s.dir := dir_congr (s.taken_nor m)
@[simp] theorem State.taken_authenticate (s : State) (m : CmpHdr) (n : Fin 2) : (s.taken m).authenticate n = s.authenticate n :=
  authenticate_congr (s.taken_nor m) (s.taken_fused m) n
@[simp] theorem State.taken_norNat (s : State) (m : CmpHdr) (n : Fin 2) (o k : Nat) : (s.taken m).norNat n o k = s.norNat n o k := by
  simp only [State.norNat, State.nor8, State.taken_nor]
@[simp] theorem State.taken_onTrial (s : State) (m : CmpHdr) : (s.taken m).onTrial = s.onTrial := by
  simp only [State.onTrial, State.taken_bu, State.taken_dir]
@[simp] theorem State.taken_confirmed (s : State) (m : CmpHdr) : (s.taken m).confirmed = s.confirmed := by
  simp only [State.confirmed, State.taken_bu, State.taken_dir]

/-- Without the power-fail lock the slot that did not boot may be written. -/
theorem taken_spareSlotNo {s : State} {n : Fin 2} (m : CmpHdr) (hs : s.bu.slot = some n) (hl : s.recd.pfLock = false) :
    (s.taken m).spareSlotNo = some (otherSlot n) := by
  simp [State.spareSlotNo, hs, hl]

/-- A heard authenticated message passes the tests of its world and its feature (R425, R468). -/
theorem cmpIn_heard {s : State} {m : CmpHdr} {k : Nat} (h : s.Hears m (some k)) (ha : m.auth = true) (i : Instr) (act : State → State) :
    s.cmpIn m i false (fun s => s.securely m fun s => s.needing m k act) = act (s.taken m) := by
  obtain ⟨hfresh, hrun, hfeature⟩ := h
  have hk : ((s.taken m).features m).getLsbD k = true := hfeature k rfl
  rw [cmpIn_fresh hfresh (.inr hrun)]
  simp only [State.securely, State.needing, ha, hk, if_true]

theorem reply_frame (s : State) (m : CmpHdr) (st : Status) (body : List Word) : Frame [.cmp, .out] s (s.reply m st body) :=
  cmpAnswer_frame s m _

/-- The fields that a message to the NOR device may move. -/
abbrev norParts : List Part := [.nor, .cmp, .paths, .msix, .out]

/-- A message whose act ends with its answer leaves the NOR device and the fuses as the act left them, and the answer leaves. -/
theorem heard_answered {l : List Part} {s u : State} {m : CmpHdr} {st : Status} {i : Instr}
    (hexec : exec i s = .next (settle (u.reply m st []))) (hsig : s.Signals) (hu : Frame l (s.taken m) u)
    (hl : ∀ p ∈ ([.cmp, .paths, .msix, .out] : List Part), p ∈ l := by decide) (hhl : Part.hl ∉ l := by decide)
    (hpw : Part.pw ∉ l := by decide) :
    ∃ t, exec i s = .next t ∧ t.nor = u.nor ∧ t.fused = u.fused ∧ .cmpReply m st [] ∈ t.out ∧ Frame l s t := by
  refine ⟨_, hexec, rfl, rfl, settle_out_mem List.mem_cons_self, ?_⟩
  have htaken : Frame l s (s.taken m) := (taken_frame s m).mono fun p hp => hl p (by simp at hp ⊢; tauto)
  have hreply : Frame l u (u.reply m st []) := (reply_frame u m st []).mono fun p hp => hl p (by simp at hp ⊢; tauto)
  exact ((htaken.trans hu).trans hreply).settle hsig.latch hhl hpw (hl _ (by decide)) (hl _ (by decide))

/-- A directory that a heard message writes is in force afterwards. -/
theorem heard_writesDir {s : State} {m : CmpHdr} {i : Instr} {f : Directory → Directory}
    (hexec : exec i s = .next (settle (((s.taken m).writeDir f).reply m .ok []))) (hsig : s.Signals) (hlock : s.recd.pfLock = false) :
    ∃ t, exec i s = .next t ∧ t.nor.dir = s.nor.dir.put t.dir ∧ t.dir = f s.dir ∧ .cmpReply m .ok [] ∈ t.out ∧ Frame norParts s t := by
  obtain ⟨t, ht, hnor, -, hout, hframe⟩ := heard_answered hexec hsig (l := norParts) (writeDir_frame _ f).mono
  have hput : t.nor.dir = s.nor.dir.put (f s.dir) := by
    rw [hnor, writeDir_nor (s := s.taken m) (by rw [State.taken_recd, hlock]), State.taken_nor, State.taken_dir]
  have hdir : t.dir = f s.dir := dir_of_put hput
  exact ⟨t, ht, hdir ▸ hput, hdir, hout, hframe⟩

/-! ### What each message does -/

/-- IMAGE_WRITE of a range that fits writes it to the slot that did not boot. -/
theorem exec_imageWrite {s : State} {m : CmpHdr} {n : Fin 2} (off : Nat) (data : List Byte) (hs : s.Hears m (some 4)) (ha : m.auth = true)
    (hslot : s.bu.slot = some n) (hlock : s.recd.pfLock = false)
    (hfit : ¬ (off % 256 ≠ 0 ∨ data.length % 256 ≠ 0 ∨ data.length < 256 ∨ 1024 < data.length ∨ slotLength < off + data.length)) :
    exec (.imageWrite m off data) s = .next (settle (({ s.taken m with nor := { s.nor with
      slots := memWriteAll s.nor.slots (slotBase (otherSlot n) + off) data } } : State).reply m .ok [])) := by
  refine (congrArg done (cmpIn_heard hs ha _ _)).trans ?_
  simp only [taken_spareSlotNo m hslot hlock, hfit, if_false, State.taken_nor, done_eq, State.good]

/-- IMAGE_ARM of a slot that authenticates writes the directory with a trial of it. -/
theorem exec_imageArm_authentic {s : State} {m : CmpHdr} {n : Fin 2} (b : Bool) (hs : s.Hears m (some 4)) (ha : m.auth = true)
    (hslot : s.bu.slot = some n) (hlock : s.recd.pfLock = false) (hauth : s.authenticate (otherSlot n) = none) :
    exec (.imageArm m b) s = .next (settle (((s.taken m).writeDir fun d => { d with
      trial := 1, autoConfirm := b, armed := BitVec.ofNat 32 (s.norNat (otherSlot n) 8 4) }).reply m .ok [])) := by
  refine (congrArg done (cmpIn_heard hs ha _ _)).trans ?_
  simp only [taken_spareSlotNo m hslot hlock, State.taken_authenticate, hauth, Option.isSome_none, Bool.false_eq_true, if_false,
    State.taken_norNat, done_eq, State.good]

theorem exec_imageArm_refused {s : State} {m : CmpHdr} {n : Fin 2} (b : Bool) (hs : s.Hears m (some 4)) (ha : m.auth = true)
    (hslot : s.bu.slot = some n) (hlock : s.recd.pfLock = false) (hauth : s.authenticate (otherSlot n) ≠ none) :
    exec (.imageArm m b) s = .next (settle ((s.taken m).reply m .refused [])) := by
  refine (congrArg done (cmpIn_heard hs ha _ _)).trans ?_
  simp only [taken_spareSlotNo m hslot hlock, State.taken_authenticate, Option.isSome_iff_ne_none.2 hauth, if_true, done_eq, State.bad]

/-- IMAGE_CONFIRM of a trial that booted writes the directory with the booted slot active. -/
theorem exec_imageConfirm {s : State} {m : CmpHdr} {n : Fin 2} (hs : s.Hears m (some 4)) (ha : m.auth = true) (htrial : s.onTrial = true)
    (hdir : s.dir.trial = 2) (hslot : s.bu.slot = some n) (hlock : s.recd.pfLock = false) :
    exec (.imageConfirm m) s = .next (settle (((s.taken m).writeDir fun d => { d with active := n, trial := 0 }).reply m .ok [])) := by
  refine (congrArg done (cmpIn_heard hs ha _ _)).trans ?_
  simp only [State.taken_onTrial, htrial, State.taken_dir, hdir, State.taken_recd, hlock, State.taken_bu, hslot, Option.getD_some, beq_self_eq_true,
    Bool.not_false, Bool.and_self, if_true, done_eq, State.good]

/-- ROLLBACK_COMMIT of a confirmed image of a later security version burns that version and records it. -/
theorem exec_rollbackCommit {s : State} {m : CmpHdr} (hs : s.Hears m (some 4)) (ha : m.auth = true) (hconf : s.confirmed = true)
    (hver : s.fused.secver < s.bu.secver) :
    exec (.rollbackCommit m) s = .next (settle ((({ s.taken m with fused := { s.fused with secver := s.bu.secver } } : State).emit
      ⟨0, 0, s.bu.secver, 0x071C, []⟩).reply m .ok [])) := by
  refine (congrArg done (cmpIn_heard hs ha _ _)).trans ?_
  simp only [State.taken_confirmed, hconf, State.taken_fused, State.taken_bu, hver, decide_true, Bool.and_self, if_true, done_eq, State.good]

/-- KEY_REVOKE of a slot that holds another key than that of the running image burns its revocation. -/
theorem exec_keyRevoke {s : State} {m : CmpHdr} {k : Fin 4} (hs : s.Hears m (some 4)) (ha : m.auth = true)
    (hkey : s.fused.keyHash.getD k.val 0 ≠ s.fused.keyHash.getD s.bu.keySlot 0) :
    exec (.keyRevoke m k) s = .next (settle (({ s.taken m with fused := { s.fused with
      keyRevoked := s.fused.keyRevoked ||| BitVec.ofNat 4 (2 ^ k.val) } } : State).reply m .ok [])) := by
  refine (congrArg done (cmpIn_heard hs ha _ _)).trans ?_
  simp only [State.taken_fused, State.taken_bu, hkey, if_false, done_eq, State.good]

/-- Settles O53: each message by what it does to the NOR device or the fuses, and the frame that its answer keeps. -/
theorem cmpImage : Obligations.CmpImage := by
  unfold Obligations.CmpImage
  refine ⟨?write, ?arm, ?confirm, ?rollback, ?revoke⟩
  case write =>
    intro s m off data n hsig hs ha hslot hlock hoff hlen hmin hmax hfit
    obtain ⟨t, ht, hnor, -, hout, hframe⟩ :=
      heard_answered (exec_imageWrite off data hs ha hslot hlock (by omega)) hsig (l := norParts) (withNor_frame _ _).mono
    have hslots : t.nor.slots = memWriteAll s.nor.slots (slotBase (otherSlot n) + off) data := congrArg Nor.slots hnor
    refine ⟨t, ht, ?_, ?_, ?_, hout, hframe⟩ <;> rw [hslots]
    · exact memRead_memWriteAll_inside data _ _
    · exact memRead_memWriteAll_outside data _ _
    · exact memWriteAll_wf data _ _
  case arm =>
    intro s m b n hsig hs ha hslot hlock
    by_cases hauth : s.authenticate (otherSlot n) = none
    · obtain ⟨t, ht, hput, hdir, hout, hframe⟩ := heard_writesDir (exec_imageArm_authentic b hs ha hslot hlock hauth) hsig hlock
      exact ⟨t, ht, hframe, fun _ => ⟨hput, hdir, hout⟩, fun h => absurd hauth h⟩
    · obtain ⟨t, ht, hnor, -, hout, hframe⟩ :=
        heard_answered (exec_imageArm_refused b hs ha hslot hlock hauth) hsig (l := norParts) (.refl _ _)
      exact ⟨t, ht, hframe, fun h => absurd h hauth, fun _ => ⟨hnor.trans (s.taken_nor m), hout⟩⟩
  case confirm =>
    intro s m n hsig hs ha htrial hdir hslot hlock
    exact heard_writesDir (exec_imageConfirm hs ha htrial hdir hslot hlock) hsig hlock
  case rollback =>
    intro s m hsig hs ha hconf hver
    obtain ⟨t, ht, -, hfused, hout, hframe⟩ := heard_answered (exec_rollbackCommit hs ha hconf hver) hsig
      (l := [.regs, .msix, .recd, .subs, .i3c, .obs, .out, .fused, .cmp, .paths]) ((withFused_frame _ _).mono.emit (by decide))
    exact ⟨t, ht, hfused.trans (State.emit_fused _ _), hout, hframe⟩
  case revoke =>
    intro s m k hsig hs ha hkey
    obtain ⟨t, ht, -, hfused, hout, hframe⟩ := heard_answered (exec_keyRevoke hs ha hkey) hsig
      (l := [.fused, .cmp, .paths, .msix, .out]) (withFused_frame _ _).mono
    exact ⟨t, ht, hfused, hout, hframe⟩

end Sys2Proof.Machine
end

section
/-! PROOFS. The signals over a step (R339, R410, R424, R489, R514). -/
namespace Sys2Proof.Machine

-- One theorem at a time: with the joint text's other threads, parallel ones would pass the memory that the check gives.
set_option Elab.async false

/-- A step ends with `settle`: as every command does, or as the grid period does when none waits. -/
theorem step_settles (s : State) : ∃ u, step s = .next (settle u) := by
  cases h : s.pending with
  | nil => exact ⟨doGridPeriod s, by rw [step, h]; rfl⟩
  | cons c rest =>
    obtain ⟨u, hu⟩ := exec_settles c { s with pending := rest }
    exact ⟨u, (step_front h).trans hu⟩

/-- Settles O57: whatever a step does, it ends with `settle`, after which the signals hold. -/
theorem signalsKept : Obligations.SignalsKept := by
  intro s t _ hst
  obtain ⟨u, hu⟩ := step_settles s
  rw [hu] at hst
  exact done_signals hst

end Sys2Proof.Machine
end

section
/-! PROOFS. The hard lines through the end of tests, and TRIP (R339, R340, R345). -/
namespace Sys2Proof.Machine

-- One theorem at a time: with the joint text's other threads, parallel ones would pass the memory that the check gives.
set_option Elab.async false

/-! ### What the end of tests leaves of the hard lines (R339) -/

/-- The hard lines, as one value. -/
def State.lines (s : State) : HardLines := s.hl

theorem Frame.lines {l : List Part} {s t : State} (h : Frame l s t) (hl : Part.hl ∉ l) : t.lines = s.lines := h .hl hl

@[simp] theorem ite_lines {c : Prop} [Decidable c] (a b : State) : (if c then a else b).lines = if c then a.lines else b.lines := apply_ite State.lines c a b

@[simp] theorem foldl_lines {α : Type} {f : State → α → State} (h : ∀ s x, (f s x).lines = s.lines) (l : List α) (s : State) : (l.foldl f s).lines = s.lines := by
  induction l generalizing s with
  | nil => rfl
  | cons x l ih => exact (ih _).trans (h s x)

@[simp] theorem each_lines {α : Type} {f : State → α → State} (h : ∀ s x, (f s x).lines = s.lines) (l : List α) (s : State) : (s.each l f).lines = s.lines :=
  foldl_lines h l s

@[simp] theorem when_lines {f : State → State} (h : ∀ s, (f s).lines = s.lines) (s : State) (b : Bool) : (s.when b f).lines = s.lines := by
  cases b
  · rfl
  · exact h s

@[simp] theorem setReg_lines (s : State) (k : Nat) (v : Word) : (s.setReg k v).lines = s.lines := (setReg_frame s k v).lines (by decide)
@[simp] theorem setNat_lines (s : State) (k v : Nat) : (s.setNat k v).lines = s.lines := (setNat_frame s k v).lines (by decide)
@[simp] theorem setFld_lines (s : State) (k hi lo x : Nat) : (s.setFld k hi lo x).lines = s.lines := (setFld_frame s k hi lo x).lines (by decide)
@[simp] theorem bump_lines (s : State) (k n : Nat) : (s.bump k n).lines = s.lines := (bump_frame s k n).lines (by decide)
@[simp] theorem bumpFld_lines (s : State) (k hi lo n : Nat) : (s.bumpFld k hi lo n).lines = s.lines := (bumpFld_frame s k hi lo n).lines (by decide)
@[simp] theorem modTile_lines (s : State) (t : TileIx) (f : Tile → Tile) : (s.modTile t f).lines = s.lines := (modTile_frame s t f).lines (by decide)
@[simp] theorem modCtx_lines (s : State) (c : CtxIx) (f : Ctx → Ctx) : (s.modCtx c f).lines = s.lines := (modCtx_frame s c f).lines (by decide)
@[simp] theorem modShadow_lines (s : State) (f : Shadow → Shadow) : (s.modShadow f).lines = s.lines := (modShadow_frame s f).lines (by decide)
@[simp] theorem modTest_lines (s : State) (f : SelfTest → SelfTest) : (s.modTest f).lines = s.lines := (modTest_frame s f).lines (by decide)
@[simp] theorem setAgent_lines (s : State) (a : AgentIx) (x : Agent) : (s.setAgent a x).lines = s.lines := (setAgent_frame s a x).lines (by decide)
@[simp] theorem emit_lines (s : State) (e : Event) : (s.emit e).lines = s.lines := (emit_frame s e).lines (by decide)
@[simp] theorem traceRec_lines (s : State) (p w : Nat) (r : List Word) : (s.traceRec p w r).lines = s.lines := (traceRec_frame s p w r).lines (by decide)
@[simp] theorem finish_lines (s : State) (p : Pend) (st : Status) (d : Word) (r : List Word) : (s.finish p st d r).lines = s.lines := (finish_frame s p st d r).lines (by decide)
@[simp] theorem notify_lines (s : State) (n : Notice) : (s.notify n).lines = s.lines := (notify_frame s n).lines (by decide)
@[simp] theorem setRole_lines (s : State) (t : TileIx) (r : PoolRole) : (s.setRole t r).lines = s.lines := rfl
@[simp] theorem latchLost_lines (s : State) (r : Rep) : (s.latchLost r).lines = s.lines := by cases r <;> rfl
@[simp] theorem dropReport_lines (s : State) (a : AgentIx) (r : Rep) : (s.dropReport a r).lines = s.lines := by simp [State.dropReport]
@[simp] theorem wardenReport_lines (s : State) (a : AgentIx) (r : Rep) : (s.wardenReport a r).lines = s.lines := by simp [State.wardenReport]
@[simp] theorem modEntry_lines (s : State) (t : TileIx) (q : Word) (f : JEntry → JEntry) : (s.modEntry t q f).lines = s.lines := by
  unfold State.modEntry; split <;> rfl
@[simp] theorem startShadow_lines (s : State) (p sh : TileIx) (k : Cmd) (n : Nat) : (s.startShadow p sh k n).lines = s.lines := by
  unfold State.startShadow; split <;> simp
@[simp] theorem reportHeld_lines (s : State) (t : TileIx) (q : Word) : (s.reportHeld t q).lines = s.lines := by
  unfold State.reportHeld
  split
  · rfl
  · split
    · rfl
    · split <;> simp
@[simp] theorem startHeld_lines (s : State) (p sh : TileIx) (k : Cmd) (n : Nat) : (s.startHeld p sh k n).lines = s.lines := by simp [State.startHeld]
@[simp] theorem freeCapture_lines (s : State) (t p : TileIx) (q : Word) (n : Nat) : (s.freeCapture t p q n).lines = s.lines := modTile_lines ..
@[simp] theorem freeTest_lines (s : State) (t : TileIx) : (s.freeTest t).lines = s.lines := by simp [State.freeTest]
@[simp] theorem voidHalves_lines (s : State) (c : Capture) : (s.voidHalves c).lines = s.lines := rfl
@[simp] theorem transmit_lines (s : State) (a : AgentIx) (m : Sent) : (s.transmit a m).lines = s.lines := by unfold State.transmit; split <;> rfl
@[simp] theorem send_lines (s : State) (a : AgentIx) (b : Bell) (n : Nat) : (s.send a b n).lines = s.lines := by
  unfold State.send
  simp only [ite_lines, transmit_lines]
  exact ite_self _
@[simp] theorem dropPreempted_lines (s : State) (t : TileIx) (c : Capture) : (s.dropPreempted t c).lines = s.lines := by simp [State.dropPreempted]
@[simp] theorem claimCover_lines (s : State) (u : TileIx) : (s.claimCover u).lines = s.lines := by simp [State.claimCover]
@[simp] theorem startTest_lines (s : State) (t : TileIx) : (s.startTest t).lines = s.lines := by simp [State.startTest, State.unitCommand]
@[simp] theorem spareSlot_lines (s : State) (t : TileIx) : (s.spareSlot t).lines = s.lines := by simp [State.spareSlot]
@[simp] theorem spareOrSkip_lines (s : State) : s.spareOrSkip.lines = s.lines := by unfold State.spareOrSkip; split <;> simp
@[simp] theorem loseCover_lines (s : State) (u : TileIx) : (s.loseCover u).lines = s.lines := by
  unfold State.loseCover
  refine (each_lines (fun s i => ?_) _ _).trans ?_
  · split
    · rfl
    · split <;> simp
  · split
    · rfl
    · split <;> simp
@[simp] theorem seekHold_lines (s : State) (p : TileIx) (k : Cmd) (n : Nat) (o : Option TileIx) : (s.seekHold p k n o).lines = s.lines := by
  unfold State.seekHold
  split
  · rfl
  · split
    · simp
    · split
      · simp
      · split <;> simp
@[simp] theorem sample_lines (s : State) (t : TileIx) (l : LogIx) (k : Cmd) (n : Nat) : (s.sample t l k n).lines = s.lines := by
  unfold State.sample
  simp only [ite_lines, bump_lines, seekHold_lines, modCtx_lines]
  split
  · rfl
  · split
    · rfl
    · split
      · rfl
      · split <;> simp
@[simp] theorem accept_lines (s : State) (t : TileIx) (l : LogIx) (k : Cmd) : (s.accept t l k).lines = s.lines := by simp [State.accept]
@[simp] theorem drainGate_lines (s : State) (t : TileIx) (l : LogIx) : (s.drainGate t l).lines = s.lines := by simp [State.drainGate]
@[simp] theorem drainGateOf_lines (s : State) (t : TileIx) : (s.drainGateOf t).lines = s.lines := by unfold State.drainGateOf; split <;> simp
@[simp] theorem drainFreed_lines (s : State) : s.drainFreed.lines = s.lines := by simp [State.drainFreed]
@[simp] theorem countConsumed_lines (s : State) (t : TileIx) (k : Cmd) : (s.countConsumed t k).lines = s.lines :=
  each_lines (fun s o => by cases o <;> simp) _ _
@[simp] theorem traceEnd_lines (s : State) (t : TileIx) (e : JEntry) : (s.traceEnd t e).lines = s.lines := by simp [State.traceEnd]
@[simp] theorem commit_lines (s : State) (t : TileIx) (k : Nat) (e : JEntry) : (s.commit t k e).lines = s.lines := by simp [State.commit]
@[simp] theorem releaseHold1_lines (s : State) (t : TileIx) (q : Word) : (s.releaseHold1 t q).lines = s.lines := by
  unfold State.releaseHold1; split <;> simp
@[simp] theorem freeArb_lines (s : State) (a : Arb) (n : Nat) : (s.freeArb a n).lines = s.lines := by simp [State.freeArb]
@[simp] theorem releaseArb_lines (s : State) (a : Arb) : (s.releaseArb a).lines = s.lines := by simp [State.releaseArb]
@[simp] theorem shadowNotice_lines (s : State) (a : Arb) (o m : Nat) (c : Word) : (s.shadowNotice a o m c).lines = s.lines := by simp [State.shadowNotice]
@[simp] theorem doubt_lines (s : State) (a : Arb) (o m : Nat) (c : Word) : (s.doubt a o m c).lines = s.lines := by simp [State.doubt, State.markStep]
@[simp] theorem abandonCase_lines (s : State) (a : Arb) : (s.abandonCase a).lines = s.lines := by simp [State.abandonCase, State.undecided]
@[simp] theorem requestAnvil_lines (s : State) (t : TileIx) (w : AnvilWhy) (l : List Nat) : (s.requestAnvil t w l).lines = s.lines := by
  unfold State.requestAnvil; split <;> rfl
@[simp] theorem reqDone_lines (s : State) (n : Nat) (j : AnvilJob) : (s.reqDone n j).lines = s.lines := by unfold State.reqDone; split <;> simp
@[simp] theorem abortJob_lines (s : State) (j : AnvilJob) : (s.abortJob j).lines = s.lines := by unfold State.abortJob; split <;> simp
@[simp] theorem endTests_lines (s : State) (l : List TileIx) : (s.endTests l).lines = s.lines := by simp [State.endTests, State.anvilRegs]

/-! ### TRIP (R339, R345) -/

theorem endTests_hl (s : State) (l : List TileIx) : (s.endTests l).hl = s.hl := endTests_lines s l
theorem endTests_pw (s : State) (l : List TileIx) : (s.endTests l).pw = s.pw := congrArg (·.2.2.1) (endTests_grounds s l)

/-- TRIP as the sequencer finds it before it records it: lines, latch and pins, and no reset, stop or Quench any more. -/
def State.tripLatched (s : State) : State :=
  let s0 := s.latchStops (s.allDomains &&& ~~~ (s.hl.stop ||| s.hl.trip))
  { s0 with
    hl := { s0.hl with trip := s.allDomains, tripLatch := true }
    pw := { s.pw with trayPc := true, readyForMain := false }
    esc := { s.esc with reset := none, bstop := none }
    thm := { s.thm with quenching := false, confirming := [] } }

/-- What follows the latch: the die's TRIP register, the record, the flush and the interrupt. -/
def State.tripTold (s : State) (x : Sensor) (t : Int) : State :=
  let die := dieReg (s.thermalDie (unitOfSensor x)) DWD_TRIP
  let s2 := s.setNat die (2 ^ 31 + sensorNum x % 256 * 2 ^ 16 + s.fld die 15 0)
  ((s2.endFreeze.emitSq (s2.thermalEvent 6 0x0806 (unitOfSensor x) t (s2.tripAt (unitOfSensor x)))).powerFlush).ibi 4 0

theorem trip_eq {s : State} (h : s.hl.tripLatch = false) (x : Sensor) (t : Int) :
    s.trip x t = (((s.tripLatched.tripTold x t).endTests (List.finRange 144)).endPass).setPkg .safe := by
  rw [State.trip, h]
  rfl

theorem tripTold_frame (s : State) (x : Sensor) (t : Int) : Frame [.regs, .msix, .recd, .subs, .i3c, .obs, .out] s (s.tripTold x t) := by
  unfold State.tripTold State.powerFlush
  exact ((((((Frame.refl _ s).setNat (by decide)).endFreeze (by decide)).emitSq (by decide)).endFreeze (by decide)).releaseHold (by decide)).askFlush
    (by decide) |>.ibi (by decide)

/-- TRIP has latched on every domain of `s`, and the package is SAFE. -/
def State.Tripped (s t : State) : Prop :=
  t.hl.tripLatch = true ∧ t.hl.trip = s.allDomains ∧ t.pw.trayPc = true ∧ t.pw.readyForMain = false ∧ t.bu.pkg = .safe

theorem trip_latches {s : State} (h : s.hl.tripLatch = false) (x : Sensor) (t : Int) : s.Tripped (settle (s.trip x t)) := by
  have hl : (s.trip x t).hl = s.tripLatched.hl := by
    rw [trip_eq h, State.setPkg_hl, State.endPass, State.modRec_hl, endTests_hl]
    exact tripTold_frame _ x t .hl (by decide)
  have hpw : (s.trip x t).pw = s.tripLatched.pw := by
    rw [trip_eq h, State.setPkg_pw, State.endPass, State.modRec_pw, endTests_pw]
    exact tripTold_frame _ x t .pw (by decide)
  have hpkg : (s.trip x t).bu.pkg = .safe := by rw [trip_eq h, setPkg_bu]
  refine ⟨congrArg HardLines.tripLatch hl, congrArg HardLines.trip hl, ?_, congrArg Power.readyForMain hpw, hpkg⟩
  change ((s.trip x t).pw.trayPc || (s.trip x t).hl.tripLatch) = true
  rw [hl]
  exact Bool.or_true _

/-- A sample or a confirmation that only moves the watch is a step that leaves the signals. -/
theorem modThm_settles {s : State} (hsig : s.Signals) (f : Thermal → Thermal) :
    (settle (s.modThm f)).thm = f s.thm ∧ Frame [.msix, .out, .thm] s (settle (s.modThm f)) :=
  ⟨rfl, Frame.settle (modThm_frame s f).mono hsig.latch (by decide) (by decide) (by decide) (by decide)⟩

theorem doTripAssert_trips {s : State} {u : Sensor} {x : Int} (hs : s.pw.standby = true) (he : s.sensorExists u = true)
    (hx : s.tripAt (unitOfSensor u) ≤ x) : doTripAssert u x s = s.trip u x := by
  simp [doTripAssert, hs, he, hx]

theorem doStackTripSample_awaits {s : State} {n : StackIx} {x : Int} (hn : n.val < s.stackCount) (hx : s.tripAt (.stack n) ≤ x)
    (hc : s.thm.confirming.contains n = false) :
    doStackTripSample n x s = s.modThm fun m => { m with confirming := n :: m.confirming } := by
  simp only [doStackTripSample, hn, hx, hc, decide_true, Bool.not_false, Bool.and_self, if_true]

/-- The episode of a stack is over. -/
def State.episodeEnded (s : State) (n : StackIx) : State := s.modThm fun m => { m with confirming := m.confirming.erase n }

theorem doStackTripConfirm_eq {s : State} {n : StackIx} (x : Int) (hc : s.thm.confirming.contains n = true) :
    doStackTripConfirm n x s = if s.tripAt (.stack n) ≤ x then (s.episodeEnded n).trip (.stack n) x else s.episodeEnded n := by
  rw [doStackTripConfirm, hc]
  rfl

/-- Settles O14: TRIP from a sample or a confirmation latches, and what follows the latch leaves lines and pins (`trip_latches`); a first sample and a
cool confirmation move the watch only. -/
theorem tripLatches : Obligations.TripLatches := by
  unfold Obligations.TripLatches
  refine ⟨?assert, ?sample, ?confirm, ?below⟩
  case assert =>
    intro s u x hs he hx hl
    exact ⟨_, congrArg done (doTripAssert_trips hs he hx), trip_latches hl u x⟩
  case sample =>
    intro s n x hsig hn hx hc
    obtain ⟨hthm, hframe⟩ := modThm_settles hsig fun m => { m with confirming := n :: m.confirming }
    exact ⟨_, congrArg done (doStackTripSample_awaits hn hx hc), congrArg Thermal.confirming hthm, hframe⟩
  case confirm =>
    intro s n x hc hx hl
    exact ⟨_, congrArg done ((doStackTripConfirm_eq x hc).trans (if_pos hx)), trip_latches (s := s.episodeEnded n) hl (.stack n) x⟩
  case below =>
    intro s n x hsig hc hx
    obtain ⟨hthm, hframe⟩ := modThm_settles hsig fun m => { m with confirming := m.confirming.erase n }
    exact ⟨_, congrArg done ((doStackTripConfirm_eq x hc).trans (if_neg (not_le.mpr hx))), congrArg Thermal.confirming hthm, hframe⟩

end Sys2Proof.Machine
end

section
/-! PROOFS. The Temper loop and the end of a thermal grace (R330 to R334). -/
namespace Sys2Proof.Machine

-- One theorem at a time: with the joint text's other threads, parallel ones would pass the memory that the check gives.
set_option Elab.async false

/-! ### Regions -/

@[simp] theorem region_setRegion_self (s : State) (g : Nat) (x : Temper) : (s.setRegion g x).region g = x := tget_tput_self _ _ _ _
theorem region_setRegion_ne (s : State) {g k : Nat} (x : Temper) (h : k ≠ g) : (s.setRegion g x).region k = s.region k := tget_tput_ne _ _ _ h
@[simp] theorem setThrt_region (s : State) (g k : Nat) : (s.setThrt g).region k = s.region k := rfl
theorem region_congr {s t : State} (h : t.thm = s.thm) (g : Nat) : t.region g = s.region g := by rw [State.region, h, State.region]

theorem setThrt_frame (s : State) (g : Nat) : Frame [.hl] s (s.setThrt g) := modHl_frame s _
theorem setRegion_frame (s : State) (g : Nat) (x : Temper) : Frame [.thm] s (s.setRegion g x) := modThm_frame s _

theorem domainBit_self {g : Nat} (hg : g < 41) : (BitVec.ofNat 41 (2 ^ g)).getLsbD g = true := by
  simp only [BitVec.getLsbD_ofNat, hg, Nat.testBit_two_pow_self, decide_true, Bool.and_self]

/-- THRT stands on a region exactly while its ratio in force is below 16 (R334). -/
theorem setThrt_thrt (s : State) {g : Nat} (hg : g < 41) : (s.setThrt g).hl.thrt.getLsbD g = decide ((s.region g).ratio < 16) := by
  by_cases h : (s.region g).ratio < 16
  · rw [State.setThrt, State.modHl_hl, if_pos h]
    simp only [BitVec.getLsbD_or, domainBit_self hg, Bool.or_true, h, decide_true]
  · rw [State.setThrt, State.modHl_hl, if_neg h]
    simp only [BitVec.getLsbD_and, BitVec.getLsbD_not, domainBit_self hg, hg, decide_true, Bool.not_true,
      Bool.and_false, h, decide_false]

/-! ### One turn of the Temper loop -/

/-- The units that drive a region: itself, and what else enforces it (R333). -/
def State.driving (s : State) (g : Fin 16) : List ThermalUnit := .region g :: ((s.region g.val).drivers.filter fun k => k != g.val).map unitAt

/-- A unit calls for a step down. -/
def State.hotAt (s : State) (u : ThermalUnit) : Bool := s.blind u || (match s.unitTemp u with
  | some t => decide (s.request u - 12 ≤ t)
  | none => false)

theorem unitAt_region (g : Fin 16) : unitAt g.val = .region g := by
  simp [unitAt]

/-- Every recorded driver of a region drives it. -/
theorem drivers_drive {s : State} {g : Fin 16} {u : ThermalUnit} (h : u ∈ (s.region g).drivers.map unitAt) : u ∈ s.driving g := by
  obtain ⟨k, hk, rfl⟩ := List.mem_map.mp h
  by_cases hkg : k = g.val
  · subst hkg
    exact unitAt_region g ▸ List.mem_cons_self
  · exact List.mem_cons_of_mem _ (List.mem_map_of_mem (List.mem_filter.mpr ⟨hk, by simpa using hkg⟩))

theorem hotAt_of {s : State} {u : ThermalUnit} (h : s.blind u = true ∨ ∃ x, s.unitTemp u = some x ∧ s.request u - 12 ≤ x) : s.hotAt u = true := by
  rcases h with hb | ⟨x, hx, hle⟩
  · simp [State.hotAt, hb]
  · simp only [State.hotAt, hx, decide_eq_true hle, Bool.or_true]

theorem stepRatio_hot (floor every : Nat) {hot : Bool} (cool : Bool) (r since : Nat) (h : hot = true) :
    stepRatio floor every hot cool r since = (max floor (r - 1), 0) := by rw [h]; rfl

/-- A region after a step down of its thermal ratio. -/
def State.steppedDown (s : State) (g : Nat) : Temper := { s.region g with thermal := max s.floorRatio ((s.region g).thermal - 1), sinceRaise := 0, enforced := true }

/-- A turn of the loop that leaves the region enforced: the region, its THRT, and what is left of the power enforcement. -/
def State.ticked (s : State) (g : Nat) (x : Temper) (b : Bool) : State :=
  ((s.setRegion g x).setThrt g).modThm fun m => { m with powerOn := m.powerOn && b }

theorem ticked_thm (s : State) (g : Nat) (x : Temper) (b : Bool) :
    (s.ticked g x b).thm = { s.thm with regions := tput s.thm.regions g x, powerOn := s.thm.powerOn && b } := rfl

theorem ticked_hl (s : State) (g : Nat) (x : Temper) (b : Bool) : (s.ticked g x b).hl = ((s.setRegion g x).setThrt g).hl := State.modThm_hl _ _

theorem ticked_region_self (s : State) (g : Nat) (x : Temper) (b : Bool) : (s.ticked g x b).region g = x := by
  rw [State.region, ticked_thm]; exact tget_tput_self _ _ _ _

theorem ticked_region_ne (s : State) {g k : Nat} (x : Temper) (b : Bool) (h : k ≠ g) : (s.ticked g x b).region k = s.region k := by
  rw [State.region, ticked_thm]; exact tget_tput_ne _ _ _ h

theorem ticked_thrt (s : State) {g : Nat} (hg : g < 41) (x : Temper) (b : Bool) : (s.ticked g x b).hl.thrt.getLsbD g = decide (x.ratio < 16) := by
  rw [ticked_hl, setThrt_thrt _ hg, region_setRegion_self]

theorem ticked_lines (s : State) (g : Nat) (x : Temper) (b : Bool) : (s.ticked g x b).hl = { s.hl with thrt := (s.ticked g x b).hl.thrt } := by
  rw [ticked_hl]; rfl

theorem ticked_frame (s : State) (g : Nat) (x : Temper) (b : Bool) : Frame [.thm, .hl] s (s.ticked g x b) :=
  ((setRegion_frame s g x).mono.trans (setThrt_frame _ g).mono).modThm (by decide)

theorem doTemperTick_down {s : State} {g : Fin 16} (hr : s.sq.run = .running) (he : (s.region g).enforced = true) (hp : s.thm.powerOn = false)
    (hhot : (s.driving g).any s.hotAt = true) (hfull : ¬ (max s.floorRatio ((s.region g).thermal - 1) = 16 ∧ (s.region g).power = 16)) :
    ∃ b, doTemperTick g s = s.ticked g (s.steppedDown g) b := by
  have hfull' : (max s.floorRatio ((s.region g).thermal - 1) == 16 && (s.region g).power == 16) = false := by
    simpa using hfull
  simp only [doTemperTick, hr, he, hp, bne_self_eq_false, Bool.not_true, Bool.or_self, Bool.false_eq_true, if_false]
  rw [stepRatio_hot (h := ?hot)]
  case hot => exact hhot
  simp only [hfull', Bool.false_eq_true, if_false, Bool.not_false]
  exact ⟨_, rfl⟩

/-- settle within a frame that lets the hard lines move, the TRIP latch apart: the pins stand. -/
theorem Frame.settle_lines {l : List Part} {s t : State} (h : Frame l s t) (hs : s.Signals) (hlatch : t.hl.tripLatch = s.hl.tripLatch)
    (hp : Part.pw ∉ l) (hm : Part.msix ∈ l) (ho : Part.out ∈ l) : Frame l s (Machine.settle t) := by
  have hpw : t.pw = s.pw := h .pw hp
  have hpins : (Machine.settle t).pw = t.pw := settle_pw_of (by rw [hpw, hlatch]; exact hs.latch)
  intro q hq
  by_cases hqp : q = .pw
  · subst hqp; exact hpins.trans hpw
  · refine Part.same_trans (h q hq) (settle_frame t q fun hmem => ?_)
    simp only [List.mem_cons, List.not_mem_nil, or_false] at hmem
    rcases hmem with rfl | rfl | rfl
    · exact hq hm
    · exact hqp rfl
    · exact hq ho

/-! ### The end of a grace -/

/-- A loop that enforces the region it comes to, and releases none, leaves every region of its list enforced. -/
theorem foldl_enforces {f : State → Nat → State} (hself : ∀ s g, ((f s g).region g).enforced = true)
    (hkeep : ∀ s g k, (s.region k).enforced = true → ((f s g).region k).enforced = true) (l : List Nat) :
    ∀ (s : State) (k : Nat), k ∈ l ∨ (s.region k).enforced = true → ((l.foldl f s).region k).enforced = true := by
  induction l with
  | nil => exact fun s k h => h.resolve_left List.not_mem_nil
  | cons g l ih =>
    intro s k h
    refine ih (f s g) k ?_
    rcases h with h | h
    · rcases List.mem_cons.mp h with rfl | h
      · exact .inr (hself s k)
      · exact .inl h
    · exact .inr (hkeep s g k h)

/-- Regions set one after the other, each with THRT after it. -/
def State.setEach (s : State) (l : List Nat) (f : State → Nat → Temper) : State := s.each l fun s g => (s.setRegion g (f s g)).setThrt g

theorem setEach_enforces {f : State → Nat → Temper} (hf : ∀ s g, (f s g).enforced = true) (l : List Nat) (s : State) {k : Nat} (hk : k ∈ l) :
    ((s.setEach l f).region k).enforced = true := by
  have hself : ∀ (s : State) g, (((s.setRegion g (f s g)).setThrt g).region g).enforced = true := fun s g => by
    rw [setThrt_region, region_setRegion_self, hf]
  refine foldl_enforces hself (fun s g k h => ?_) l s k (.inl hk)
  by_cases hkg : k = g
  · subst hkg; exact hself s k
  · rwa [setThrt_region, region_setRegion_ne s _ hkg]

/-- Of the watch, only the regions move. -/
theorem setEach_thm (f : State → Nat → Temper) (l : List Nat) (s : State) : ∃ r, (s.setEach l f).thm = { s.thm with regions := r } := by
  unfold State.setEach State.each
  induction l generalizing s with
  | nil => exact ⟨s.thm.regions, rfl⟩
  | cons g l ih =>
    obtain ⟨r, hr⟩ := ih ((s.setRegion g (f s g)).setThrt g)
    exact ⟨r, hr⟩

/-- What ENFORCE makes of a region for a unit (R333). -/
def State.enforcedFor (u : ThermalUnit) (s : State) (g : Nat) : Temper := { s.region g with
  enforced := true, sinceRaise := 0
  drivers := if (s.region g).drivers.contains (unitNum u) then (s.region g).drivers else unitNum u :: (s.region g).drivers
  thermal := if s.blind u then s.floorRatio else max s.floorRatio ((s.region g).thermal - 1) }

/-- ENFORCE finds every region of the unit enforced, or enforces them one after the other. -/
theorem enforce_cases (s : State) (u : ThermalUnit) : (s.enforce u = s ∧ ∀ g ∈ s.enforces u, (s.region g).enforced = true) ∨
    (s.enforce u).thm = (s.setEach (s.enforces u) (State.enforcedFor u)).thm := by
  unfold State.enforce
  dsimp only
  split
  · next h =>
    simp only [Bool.and_eq_true, List.all_eq_true] at h
    exact .inl ⟨rfl, fun g hg => (h.1 g hg).1⟩
  · refine .inr ?_
    split
    · rfl
    · rw [State.emit_thm, State.irq_thm, State.bumpFld_thm]
      rfl

/-- ENFORCE leaves the levels of the units. -/
theorem enforce_levelOf (s : State) (u v : ThermalUnit) : (s.enforce u).levelOf v = s.levelOf v := by
  rcases enforce_cases s u with ⟨h, -⟩ | h
  · rw [h]
  · obtain ⟨r, hr⟩ := setEach_thm (State.enforcedFor u) (s.enforces u) s
    rw [State.levelOf, h, hr, State.levelOf]

theorem enforce_enforces (s : State) (u : ThermalUnit) {g : Nat} (hg : g ∈ s.enforces u) : ((s.enforce u).region g).enforced = true := by
  rcases enforce_cases s u with ⟨h, hset⟩ | h
  · rw [h]; exact hset g hg
  · rw [region_congr h]
    exact setEach_enforces (fun _ _ => rfl) (s.enforces u) s hg

theorem doThermalGraceExpiry_ends {s : State} {u : ThermalUnit} (hr : s.sq.run = .running) (hg : (s.levelOf u).grace = true) :
    doThermalGraceExpiry u s = s.graceOver u := by
  simp [doThermalGraceExpiry, hr, hg]

/-- Settles O15: with a unit that calls for a step down a tick is `ticked` with the region stepped down, and a grace that ends enforces every region of
its unit. -/
theorem temperLoop : Obligations.TemperLoop := by
  unfold Obligations.TemperLoop
  refine ⟨?tick, ?grace⟩
  case tick =>
    intro s g hsig hr he hp ⟨u, hu, hcalls⟩ hfull
    have hhot : (s.driving g).any s.hotAt = true := List.any_eq_true.mpr ⟨u, drivers_drive hu, hotAt_of hcalls⟩
    obtain ⟨b, hb⟩ := doTemperTick_down hr he hp hhot hfull
    have hset : (settle (s.ticked g (s.steppedDown g) b)).region g = s.steppedDown g :=
      (region_congr (settle_thm _) g).trans (ticked_region_self s g _ b)
    have hframe : Frame [.msix, .out, .thm, .hl] s (settle (s.ticked g (s.steppedDown g) b)) :=
      (ticked_frame s g _ b).mono.settle_lines hsig (by rw [ticked_lines]) (by decide) (by decide) (by decide)
    refine ⟨_, congrArg done hb, ?_⟩
    rw [settle_hl, hset]
    exact ⟨rfl, rfl, rfl, rfl, ticked_thrt s (by omega) _ b,
      fun k hk => (region_congr (settle_thm _) k).trans (ticked_region_ne s _ b hk), ticked_lines s g _ b, hframe⟩
  case grace =>
    intro s u hr hg
    have hlevel : (settle (s.graceOver u)).levelOf u = { s.levelOf u with grace := false, expired := true } :=
      (enforce_levelOf _ u u).trans (tget_tput_self _ _ _ _)
    exact ⟨_, congrArg done (doThermalGraceExpiry_ends hr hg), by rw [hlevel], by rw [hlevel], fun g hg => enforce_enforces _ u hg⟩

end Sys2Proof.Machine
end

section
/-! PROOFS. Sensor rounds, PMBus rounds and the input power (R328, R341, R342, R344, R347). -/
namespace Sys2Proof.Machine

-- One theorem at a time: with the joint text's other threads, parallel ones would pass the memory that the check gives.
set_option Elab.async false

/-- settle moves no register. -/
theorem RegsBut.settled {f : Nat → Bool} {s t : State} (h : RegsBut f s t) : RegsBut f s (settle t) := fun k hk => (settle_reg t k).trans (h k hk)

/-! ### A cool reading (R328, R329, R347) -/

/-- A sensor's register lies in a warden page. -/
theorem sensorReg_bounds (s : State) (x : Sensor) : 0x100000 ≤ s.sensorReg x ∧ s.sensorReg x < 0x1000000 := by
  cases x with
  | tile t => have := t.isLt; simp only [State.sensorReg, tileReg, TWD_TEMP]; omega
  | hotspot cd k => have := (dieIx cd.val).isLt; have := k.isLt; simp only [State.sensorReg, dieReg, DWD_SNS]; omega
  | io d k => have := (dieIx (8 + d.val)).isLt; have := k.isLt; simp only [State.sensorReg, dieReg, DWD_SNS]; omega
  | anchor k => have := s.anchor.isLt; have := k.isLt; simp only [State.sensorReg, dieReg, DWD_SNS]; omega
  | stack n => have := n.isLt; simp only [State.sensorReg, stackReg, SWD_TEMP]; omega

/-- The reading kept and shown. -/
def State.shown (s : State) (x : Sensor) (t : Int) : State := (s.putReading x t).setNat (s.sensorReg x) (tempBits t)

theorem shown_frame (s : State) (x : Sensor) (t : Int) : Frame [.thm, .regs] s (s.shown x t) := (modThm_frame s _).mono.setNat (by decide)

theorem shown_reg (s : State) (x : Sensor) (t : Int) : (s.shown x t).reg (s.sensorReg x) = BitVec.ofNat 32 (tempBits t) := State.reg_setNat_self _ _ _

theorem shown_regs (s : State) (x : Sensor) (t : Int) : RegsBut (fun k => k == s.sensorReg x) s (s.shown x t) :=
  RegsBut.setNat (.of_regs rfl) (beq_self_eq_true _)

/-- The thresholds stand in the Hearth page. -/
theorem shown_limit (s : State) (x : Sensor) (t : Int) (u : ThermalUnit) (hi lo : Nat) : (s.shown x t).limit u hi lo = s.limit u hi lo := by
  have hb := sensorReg_bounds s x
  have hk : (itemKey HRT_THM_LIMITS (classOf u) == s.sensorReg x) = false := by
    simp only [beq_eq_false_iff_ne, itemKey, HRT_THM_LIMITS]
    omega
  rw [State.limit, State.fld, shown_regs s x t _ hk, State.limit, State.fld]

/-- A unit without a level, below every threshold, keeps none. -/
theorem judgeUnit_cool {s : State} {u : ThermalUnit} {m : Int} (hblind : s.blind u = false) (htemp : s.unitTemp u = some m)
    (hlevel : s.levelOf u = {}) (ha : m < s.advise u) (hr : m < s.request u) (hq : m < s.quenchAt u) : s.judgeUnit u = s := by
  have ha' : decide (s.advise u ≤ m) = false := decide_eq_false (not_le.mpr ha)
  have hr' : decide (s.request u ≤ m) = false := decide_eq_false (not_le.mpr hr)
  simp only [State.judgeUnit, hblind, htemp, hlevel, ha', hr', Bool.false_eq_true, if_false, Bool.and_false, Bool.false_and, if_neg (not_le.mpr hq)]

/-- A good reading of a cool unit is kept and shown, and nothing else follows. -/
theorem takeReadings_cool {s : State} {x : Sensor} {t m : Int} (hrun : s.sq.run = .running) (he : s.sensorExists x = true)
    (hf : s.thm.failed.contains (sensorNum x) = false) (hbad : (s.putReading x t).sensorBad x t = false)
    (htemp : (s.putReading x t).unitTemp (unitOfSensor x) = some m) (hblind : s.blind (unitOfSensor x) = false)
    (hlevel : s.levelOf (unitOfSensor x) = {}) (ha : m < s.advise (unitOfSensor x)) (hr : m < s.request (unitOfSensor x))
    (hq : m < s.quenchAt (unitOfSensor x)) : s.takeReadings [(x, t)] = s.shown x t := by
  have hverdict : ((s.putReading x t).thm.failed.contains (sensorNum x) || (s.putReading x t).sensorBad x t) = false :=
    Bool.or_eq_false_iff.mpr ⟨hf, hbad⟩
  have hjudge : (s.putReading x t).judgeReading x t false = s.shown x t := by
    simp only [State.judgeReading, Bool.false_and, Bool.false_eq_true, if_false, bit, Nat.zero_add]
    rfl
  have hwatch : (s.shown x t).watchUnit (unitOfSensor x) = s.shown x t := by
    rw [State.watchUnit, if_pos (show (s.shown x t).sq.run = .running from hrun)]
    refine judgeUnit_cool (m := m) hblind htemp hlevel ?_ ?_ ?_
    · rwa [State.advise, shown_limit]
    · rwa [State.request, shown_limit]
    · rwa [State.quenchAt, shown_limit]
  have hl : ([(x, t)].filter fun r => s.sensorExists r.1) = [(x, t)] := by simp [he]
  simp only [State.takeReadings, hl]
  simp only [State.each, List.foldl_cons, List.foldl_nil, hverdict, hjudge, List.map_cons, List.map_nil, dedupUnits, List.contains_nil,
    Bool.false_eq_true, if_false, List.nil_append, hwatch]

/-! ### PMBus rounds (R341) -/

/-- What a PMBus round leaves until it takes its sample: the last average, the samples of the next, and the lines. -/
def State.meters (s : State) : Nat × List Nat × HardLines := (s.thm.power, s.thm.pins, s.hl)

theorem emit_meters (s : State) (e : Event) : (s.emit e).meters = s.meters := by
  rw [State.meters, State.emit_thm, State.emit_hl, State.meters]

theorem setChannel_meters (s : State) (c : Nat) (x : Channel) : (s.setChannel c x).meters = s.meters := rfl

theorem each_meters {α : Type} {f : State → α → State} (h : ∀ s x, (f s x).meters = s.meters) (l : List α) (s : State) :
    (s.each l f).meters = s.meters := by
  unfold State.each
  induction l generalizing s with
  | nil => rfl
  | cons x l ih => exact (ih _).trans (h s x)

theorem pmbRead_meters (s : State) (r : PmbRead) : (s.pmbRead r).meters = s.meters := by
  unfold State.pmbRead
  dsimp only
  split
  · rfl
  · split
    · exact (each_meters (fun s b => emit_meters s _) _ _).trans (setChannel_meters s _ _)
    · split
      · exact setChannel_meters s _ _
      · exact (emit_meters _ _).trans (setChannel_meters s _ _)

/-- The answer of the input channel in a round. -/
def State.sampleOf (s : State) (rs : List PmbRead) : Option PmbRead :=
  s.inputChannel.bind fun c => rs.find? fun r => r.channel.val == c && r.answers && r.pecGood

theorem settle_inputChannel (s : State) : (settle s).inputChannel = s.inputChannel := rfl

theorem doPmbusRound_eq {s : State} (hr : s.sq.run = .running) (rs : List PmbRead) :
    doPmbusRound rs s = (s.each rs State.pmbRead).modThm fun m =>
      { m with pins := (((s.each rs State.pmbRead).sampleOf rs).map PmbRead.pin).toList ++ m.pins } := by
  rw [doPmbusRound, if_neg (not_not.mpr hr)]
  generalize s.each rs State.pmbRead = u
  dsimp only
  change (match u.sampleOf rs with
    | some r => u.modThm fun m => { m with pins := r.pin :: m.pins }
    | none => u) = _
  cases u.sampleOf rs <;> rfl

/-- What a round leaves, and the sample that it takes. -/
theorem pmbusRound_takes {s : State} (hr : s.sq.run = .running) (rs : List PmbRead) :
    (doPmbusRound rs s).thm.power = s.thm.power ∧ (doPmbusRound rs s).hl = s.hl ∧
      (doPmbusRound rs s).thm.pins = (((doPmbusRound rs s).sampleOf rs).map PmbRead.pin).toList ++ s.thm.pins := by
  have hmeters := each_meters pmbRead_meters rs s
  rw [doPmbusRound_eq hr]
  generalize s.each rs State.pmbRead = u at hmeters ⊢
  obtain ⟨hpower, hpins, hhl⟩ : u.thm.power = s.thm.power ∧ u.thm.pins = s.thm.pins ∧ u.hl = s.hl := by simpa [State.meters] using hmeters
  exact ⟨hpower, hhl, congrArg (_ ++ ·) hpins⟩

/-! ### The average and its grace (R342) -/

/-- The average of the last 10 ms, kept and shown. -/
def State.averaged (s : State) (c w : Nat) : State :=
  (s.modThm fun m => { m with power := w, pins := [] }).setNat HRT_PWR_INPUT
    ((((s.channel c).last.map PmbRead.vin).getD 0) / 10 % 65536 * 2 ^ 16 + min 65535 w)

theorem averaged_frame (s : State) (c w : Nat) : Frame [.thm, .regs] s (s.averaged c w) := (modThm_frame s _).mono.setNat (by decide)

theorem averaged_thm (s : State) (c w : Nat) : (s.averaged c w).thm = { s.thm with power := w, pins := [] } := rfl

theorem averaged_regs (s : State) (c w : Nat) : RegsBut (fun k => k == HRT_PWR_INPUT) s (s.averaged c w) := RegsBut.setNat (.of_regs rfl) (by decide)

theorem averaged_shows (s : State) (c w : Nat) : ((s.averaged c w).reg HRT_PWR_INPUT).toNat % 65536 = min 65535 w := by
  rw [State.averaged, State.reg_setNat_self, BitVec.toNat_ofNat]
  omega

theorem averaged_fld (s : State) (c w : Nat) {k : Nat} (hk : (k == HRT_PWR_INPUT) = false) (hi lo : Nat) :
    (s.averaged c w).fld k hi lo = s.fld k hi lo := by rw [State.fld, averaged_regs s c w k hk, State.fld]

/-- The grace of the input power begins: recorded, with vector 4. -/
def State.powerGraceBegun (s : State) (w : Nat) : State :=
  ((s.modThm fun m => { m with powerGrace := true }).emit ⟨0, 6, 0, 0x0808, s.powerData w⟩).irq 4

theorem powerGraceBegun_frame (s : State) (w : Nat) : Frame [.regs, .msix, .recd, .subs, .i3c, .obs, .out, .thm] s (s.powerGraceBegun w) :=
  ((modThm_frame s _).mono.emit (by decide)).irq (by decide)

theorem powerGraceBegun_thm (s : State) (w : Nat) : (s.powerGraceBegun w).thm = { s.thm with powerGrace := true } := by
  rw [State.powerGraceBegun, State.irq_thm, State.emit_thm]
  rfl

theorem powerGraceBegun_regs (s : State) (w : Nat) : RegsBut eventReg s (s.powerGraceBegun w) :=
  (RegsBut.of_regs (s.modThm_regs _)).trans ((emit_regs _ _).trans (irq_regs _ _))

/-- The average of a running core with an answering input channel. -/
theorem doPowerAverage_eq {s : State} {w c : Nat} (hr : s.sq.run = .running) (hw : meanOf s.thm.pins = some w) (hc : s.inputChannel = some c) :
    doPowerAverage s =
      if decide ((s.averaged c w).fld HRT_PWR_LIMIT 11 0 < w) && !(s.averaged c w).thm.powerGrace && !(s.averaged c w).thm.powerOn then
        if ((s.averaged c w).powerGraceBegun w).fld HRT_PWR_GRACE 12 0 = 0 then ((s.averaged c w).powerGraceBegun w).powerGraceOver w
        else (s.averaged c w).powerGraceBegun w
      else s.averaged c w := by
  have hmean : ((meanOf s.thm.pins).filter fun _ => s.sq.run == .running) = some w := by rw [hw, hr]; rfl
  unfold doPowerAverage
  rw [hc, hmean]
  rfl

/-- An average at or below the limit is only kept and shown. -/
theorem doPowerAverage_below {s : State} {w c : Nat} (hr : s.sq.run = .running) (hw : meanOf s.thm.pins = some w) (hc : s.inputChannel = some c)
    (hle : w ≤ s.fld HRT_PWR_LIMIT 11 0) : doPowerAverage s = s.averaged c w := by
  rw [doPowerAverage_eq hr hw hc, averaged_fld s c w (by decide), decide_eq_false (not_lt.mpr hle), Bool.false_and, Bool.false_and,
    if_neg Bool.false_ne_true]

/-- An average above the limit begins the grace, where there is one. -/
theorem doPowerAverage_above {s : State} {w c : Nat} (hr : s.sq.run = .running) (hw : meanOf s.thm.pins = some w) (hc : s.inputChannel = some c)
    (hlt : s.fld HRT_PWR_LIMIT 11 0 < w) (hgrace : s.thm.powerGrace = false) (hon : s.thm.powerOn = false) (hg : s.fld HRT_PWR_GRACE 12 0 ≠ 0) :
    doPowerAverage s = (s.averaged c w).powerGraceBegun w := by
  have hfld : ((s.averaged c w).powerGraceBegun w).fld HRT_PWR_GRACE 12 0 = s.fld HRT_PWR_GRACE 12 0 := by
    rw [State.fld, powerGraceBegun_regs _ w _ (by decide), ← State.fld, averaged_fld s c w (by decide)]
  have hbegins : (decide (s.fld HRT_PWR_LIMIT 11 0 < w) && !(s.averaged c w).thm.powerGrace && !(s.averaged c w).thm.powerOn) = true := by
    rw [averaged_thm, decide_eq_true hlt, hgrace, hon]; rfl
  rw [doPowerAverage_eq hr hw hc, averaged_fld s c w (by decide), if_pos hbegins, hfld, if_neg hg]

/-! ### The end of the grace, and the floor (R342, R344) -/

/-- The grace is over, and nothing else follows. -/
def State.powerGraceDone (s : State) : State := s.modThm fun m => { m with powerGrace := false }

theorem powerGraceDone_thm (s : State) : s.powerGraceDone.thm = { s.thm with powerGrace := false } := rfl

theorem powerGraceOver_ends {s : State} {w : Nat} (h : w * 100 ≤ s.fld HRT_PWR_LIMIT 11 0 * 95 ∨ s.inputChannel = none) :
    s.powerGraceOver w = s.powerGraceDone := by
  have hcond : (s.powerGraceDone.inputChannel.isSome && decide (s.powerGraceDone.fld HRT_PWR_LIMIT 11 0 * 95 < w * 100)) = false := by
    rcases h with h | h
    · exact (congrArg _ (decide_eq_false (not_lt.mpr h))).trans (Bool.and_false _)
    · exact congrArg (fun o => o.isSome && _) h
  rw [State.powerGraceOver]
  exact if_neg (by rw [Bool.not_eq_true]; exact hcond)

/-- A region as power enforcement leaves it: a step down of its power ratio (R342). -/
def State.powerEnforced (s : State) (g : Nat) : Temper :=
  { s.region g with enforced := true, sincePower := 0, power := max s.floorRatio ((s.region g).power - 1) }

/-- Power enforcement begins: recorded, with vector 4. -/
def State.powerEnforcing (s : State) (w : Nat) : State :=
  ((s.powerGraceDone.modThm fun m => { m with powerOn := true }).emit ⟨0, 6, 0, 0x0809, s.powerGraceDone.powerData w⟩).irq 4

theorem powerGraceOver_enforces {s : State} {w : Nat} (hc : s.inputChannel ≠ none) (hlt : s.fld HRT_PWR_LIMIT 11 0 * 95 < w * 100) :
    s.powerGraceOver w = (s.powerEnforcing w).setEach (List.range 16) State.powerEnforced := by
  have hcond : (s.powerGraceDone.inputChannel.isSome && decide (s.powerGraceDone.fld HRT_PWR_LIMIT 11 0 * 95 < w * 100)) = true :=
    Bool.and_eq_true_iff.mpr ⟨Option.isSome_iff_ne_none.mpr hc, decide_eq_true hlt⟩
  rw [State.powerGraceOver]
  exact if_pos hcond

theorem powerEnforcing_thm (s : State) (w : Nat) : (s.powerEnforcing w).thm = { s.thm with powerGrace := false, powerOn := true } := by
  rw [State.powerEnforcing, State.irq_thm, State.emit_thm]
  rfl

theorem doPowerGraceExpiry_ends {s : State} (hr : s.sq.run = .running) (hg : s.thm.powerGrace = true) :
    doPowerGraceExpiry s = s.powerGraceOver s.thm.power := by
  simp [doPowerGraceExpiry, hr, hg]

theorem quenchBegin_quenching (s : State) (ut ix : Nat) (data : List (List Byte)) : (s.quenchBegin ut ix data).thm.quenching = true := by
  rw [State.quenchBegin]
  exact congrArg Thermal.quenching (State.modThm_thm _ _)

/-- Quench begins, and the package goes for its boundary (R336). -/
theorem startQuench_begins {s : State} (h : s.quenchBarred = false) (ut ix : Nat) (data : List (List Byte)) :
    (s.startQuench ut ix data).thm.quenching = true ∧ (s.startQuench ut ix data).esc.bstop = some ⟨0xF, false, .quench, false, false, []⟩ := by
  rw [State.startQuench, h, if_neg Bool.false_ne_true, State.modEsc_thm, State.modEsc_esc]
  exact ⟨quenchBegin_quenching s ut ix data, rfl⟩

theorem doPowerFloorExpiry_quenches {s : State} (hr : s.sq.run = .running) (hon : s.thm.powerOn = true) (hc : s.inputChannel ≠ none)
    (hlt : s.fld HRT_PWR_LIMIT 11 0 < s.thm.power) (hf : ∀ g, g < 16 → (s.region g).ratio ≤ s.floorRatio) :
    doPowerFloorExpiry s = s.startQuench 6 0 (s.powerItems s.thm.power [iw (codeOf 0 6 0 0x0809)]) := by
  have hall : ((List.range 16).all fun g => decide ((s.region g).ratio ≤ s.floorRatio)) = true :=
    List.all_eq_true.mpr fun g hg => decide_eq_true (hf g (List.mem_range.mp hg))
  simp only [doPowerFloorExpiry, hr, hon, Option.isSome_iff_ne_none.mpr hc, decide_eq_true hlt, hall, beq_self_eq_true, Bool.and_self, if_true]

/-- Settles O16: a cool reading is shown and judged without effect, a round only takes its sample, the average and the end of the grace compare it with
the limit, and the floor's expiry begins Quench. -/
theorem sensorAndPower : Obligations.SensorAndPower := by
  unfold Obligations.SensorAndPower
  refine ⟨?sensor, ?pmbus, ?below, ?above, ?grace, ?enforce, ?floor⟩
  case sensor =>
    intro s x temp m hsig hr he hf hbad htemp hblind hlevel ha hreq hq
    have hround : doSensorRound [(x, temp)] [] s = s.shown x temp := takeReadings_cool hr he hf hbad htemp hblind hlevel ha hreq hq
    exact ⟨_, congrArg done hround, tget?_tput_self _ _ _, shown_reg s x temp,
      (shown_frame s x temp).mono.settle hsig.latch (by decide) (by decide) (by decide) (by decide), (shown_regs s x temp).settled⟩
  case pmbus =>
    intro s rs hr
    obtain ⟨hpower, hhl, hpins⟩ := pmbusRound_takes hr rs
    have hexec : exec (.pmbusRound rs) s = .next (settle (doPmbusRound rs s)) := rfl
    refine ⟨_, hexec, ?_⟩
    rw [settle_thm, settle_hl, settle_inputChannel, hpins, State.sampleOf]
    refine ⟨hpower, hhl, fun c r hc hfind => ?_, fun h => ?_⟩
    · rw [hc, Option.bind_some, hfind]
      rfl
    · rcases h with hc | ⟨c, hc, hfind⟩
      · rw [hc]
        rfl
      · rw [hc, Option.bind_some, hfind]
        rfl
  case below =>
    intro s w c hsig hr hw hc hle
    exact ⟨_, congrArg done (doPowerAverage_below hr hw hc hle), by rw [settle_thm, averaged_thm], by rw [settle_thm, averaged_thm],
      by rw [settle_reg, averaged_shows], (averaged_frame s c w).mono.settle hsig.latch (by decide) (by decide) (by decide) (by decide),
      (averaged_regs s c w).settled⟩
  case above =>
    intro s w c hsig hr hw hc hlt hgrace hon hg
    have hframe := (averaged_frame s c w).mono.trans (powerGraceBegun_frame (s.averaged c w) w)
    have hthm := powerGraceBegun_thm (s.averaged c w) w
    exact ⟨_, congrArg done (doPowerAverage_above hr hw hc hlt hgrace hon hg), congrArg Thermal.power ((settle_thm _).trans hthm),
      congrArg Thermal.powerGrace ((settle_thm _).trans hthm), (settle_hl _).trans (hframe .hl (by decide)), hframe.settle hsig.latch (by decide) (by decide) (by decide) (by decide)⟩
  case grace =>
    intro s hsig hr hg h
    exact ⟨_, congrArg done ((doPowerGraceExpiry_ends hr hg).trans (powerGraceOver_ends h)), by rw [settle_thm, powerGraceDone_thm],
      by rw [settle_thm, powerGraceDone_thm], (modThm_settles hsig _).2⟩
  case enforce =>
    intro s hr hg hc hlt
    obtain ⟨r, hthm⟩ := setEach_thm State.powerEnforced (List.range 16) (s.powerEnforcing s.thm.power)
    rw [powerEnforcing_thm] at hthm
    refine ⟨_, congrArg done ((doPowerGraceExpiry_ends hr hg).trans (powerGraceOver_enforces hc hlt)),
      congrArg Thermal.powerGrace ((settle_thm _).trans hthm), congrArg Thermal.powerOn ((settle_thm _).trans hthm), fun g hg => ?_⟩
    rw [region_congr (settle_thm _)]
    exact setEach_enforces (fun _ _ => rfl) _ _ (List.mem_range.mpr hg)
  case floor =>
    intro s hr hon hc hlt hf hq hd ht
    have hbarred : s.quenchBarred = false := by rw [State.quenchBarred, hq, hd, ht]; rfl
    obtain ⟨hquench, hstop⟩ := startQuench_begins hbarred 6 0 (s.powerItems s.thm.power [iw (codeOf 0 6 0 0x0809)])
    exact ⟨_, congrArg done (doPowerFloorExpiry_quenches hr hon hc hlt hf), (congrArg Thermal.quenching (settle_thm _)).trans hquench,
      (congrArg Escalation.bstop (settle_esc _)).trans hstop⟩

end Sys2Proof.Machine
end

section
/-! PROOFS. Flushes of the recorder, its header and the failing store (R343, R354, R357, R362, R364). -/
namespace Sys2Proof.Machine

-- One theorem at a time: with the joint text's other threads, parallel ones would pass the memory that the check gives.
set_option Elab.async false

/-! ### What an event leaves of the recorder (R350, R362) -/

/-- The MRAM, the header as the recorder holds it, and whether the store has failed. -/
def State.mram (s : State) : (Tab Record × Tab Record × Copies MramHdr) × MramHdr × Bool :=
  ((s.recd.store, s.recd.sealedReg, s.recd.hdrs), s.recd.hdr, s.recd.failed)

theorem failed_of_mram {s t : State} (h : t.mram = s.mram) : t.recd.failed = s.recd.failed := congrArg (·.2.2) h

theorem Frame.mram {l : List Part} {s t : State} (h : Frame l s t) (hl : Part.recd ∉ l) : t.mram = s.mram := by
  rw [State.mram, show t.recd = s.recd from h .recd hl, State.mram]

theorem ite_mram {s a b : State} {c : Prop} [Decidable c] (h : a.mram = s.mram) (k : b.mram = s.mram) : (if c then a else b).mram = s.mram := by
  split <;> assumption

theorem foldl_mram {α : Type} {f : State → α → State} (h : ∀ s x, (f s x).mram = s.mram) (l : List α) (s : State) : (l.foldl f s).mram = s.mram := by
  induction l generalizing s with
  | nil => rfl
  | cons x l ih => exact (ih _).trans (h s x)

theorem ringPut_mram (s : State) (r : Record × Bool) : (s.ringPut r).mram = s.mram := by
  unfold State.ringPut
  exact ite_mram ((bump_frame _ _ _).mram (by decide)) rfl

theorem askFlush_mram (s : State) (k : FlushKind) : (s.askFlush k).mram = s.mram := by
  unfold State.askFlush
  split
  · rfl
  · split
    · exact ite_mram rfl rfl
    · rfl

theorem announce_mram (s : State) (c : Nat) (rs : List Record) : (s.announce c rs).1.mram = s.mram := (announce_frame s c rs).mram (by decide)

/-- The end of an event's records: announced, and from class 3 flushed (R361, R362). -/
theorem announceFlush_mram (s : State) (c : Nat) (rs : List Record) (p : Prop) [Decidable p] (k : FlushKind) :
    (if p then (s.announce c rs).1.askFlush k else (s.announce c rs).1).mram = s.mram :=
  ite_mram ((askFlush_mram _ k).trans (announce_mram s c rs)) (announce_mram s c rs)

theorem emitCore_mram (s : State) (e : Event) (sq : Bool) : (s.emitCore e sq).1.mram = s.mram := by
  unfold State.emitCore
  dsimp only
  split
  · split
    · split
      · exact announceFlush_mram _ _ _ _ _
      · exact (bumpFld_frame _ _ _ _ _).mram (by decide)
    · exact (bump_frame _ _ _).mram (by decide)
  · split
    · split
      · split
        · exact announceFlush_mram _ _ _ _ _
        · exact (bumpFld_frame _ _ _ _ _).mram (by decide)
      · exact (bump_frame _ _ _).mram (by decide)
    · exact (announceFlush_mram _ _ _ _ _).trans (foldl_mram ringPut_mram _ _)

theorem lostEvents_mram (s : State) (l : List Nat) : (s.lostEvents l).mram = s.mram := foldl_mram (fun _ _ => emitCore_mram _ _ _) _ _

theorem traceLost_mram (s : State) (p w n : Nat) : (s.traceLost p w n).mram = s.mram := by
  have hunit : ∀ t : State, t.mram = s.mram → (if w < 144 then t.bump (0x100000 + 0x1000 * w + TWD_TRACE_DROP) n
      else if w < 192 then t.bump (0x280000 + 0x1000 * (w - 144) + LWD_TS_DROP) n else t).mram = s.mram := fun t h =>
    ite_mram (((bump_frame t _ _).mram (by decide)).trans h) (ite_mram (((bump_frame t _ _).mram (by decide)).trans h) h)
  have hcounted := hunit _ ((add64_frame s (itemKey OBS_TRACE_LOST_LO p) (itemKey OBS_TRACE_LOST_HI p) n 64).mram (by decide))
  unfold State.traceLost
  dsimp only
  refine ite_mram ?_ hcounted
  exact ((irq_frame _ _).mram (by decide)).trans (((lostEvents_mram _ _).trans (emitCore_mram _ _ _)).trans hcounted)

theorem traceRec_mram (s : State) (p w : Nat) (r : List Word) : (s.traceRec p w r).mram = s.mram := by
  unfold State.traceRec
  exact ite_mram rfl (ite_mram ((traceDrain_frame _ p w).mram (by decide)) (traceLost_mram _ p w 1))

theorem traceEvent_mram (s : State) (e : Event) (q : Word) : (s.traceEvent e q).mram = s.mram := by
  unfold State.traceEvent
  split
  · split
    · exact foldl_mram (fun _ _ => traceRec_mram _ _ _ _) _ _
    · rfl
  · rfl

/-- Recording an event writes no MRAM. -/
theorem emit_mram (s : State) (e : Event) : (s.emit e).mram = s.mram :=
  ((lostEvents_mram _ _).trans (traceEvent_mram _ _ _)).trans ((emitCore_mram _ e false).trans ((countError_frame s e).mram (by decide)))

/-! ### A flush begins (R362) -/

theorem modRec_settles {s : State} (hsig : s.Signals) (f : Recorder → Recorder) :
    (settle (s.modRec f)).recd = f s.recd ∧ Frame [.recd, .msix, .out] s (settle (s.modRec f)) :=
  ⟨rfl, Frame.settle (modRec_frame s f).mono hsig.latch (by decide) (by decide) (by decide) (by decide)⟩

/-- The state in which a flush has begun. -/
def State.flushBegun (s : State) (k : FlushKind) : State := s.modRec fun c => { c with flush := some ⟨k, c.dirty, false⟩ }

theorem askFlush_begins {s : State} (hl : s.recd.pfLock = false) (hf : s.recd.flush = none) (k : FlushKind) : s.askFlush k = s.flushBegun k := by
  rw [State.askFlush, hl, if_neg Bool.false_ne_true, hf]
  rfl

theorem doBackgroundFlush_begins {s : State} (hd : s.flushDue = true) (hs : s.recd.failed = false) (hl : s.recd.pfLock = false)
    (hf : s.recd.flush = none) : doBackgroundFlush s = s.flushBegun .background := by
  rw [doBackgroundFlush, hd, hs, ← askFlush_begins hl hf]
  rfl

/-- A write that the block takes in the Hearth page, to a register that is not transactional, does what the register does on a write. -/
theorem writeRow_takes_hearth {s : State} {a : Acc} {v : Word} {r : RegRow} {n page : Nat} (h : s.Takes a v r .hearth n page) (hx : r.txn = false)
    (temp : Option Int) : s.writeRow a.path r .hearth n page a.off v temp =
      if (s.hearthAct a.path (a.off - page) v temp).2 then (s.hearthAct a.path (a.off - page) v temp).1.putReg a.path r page a.off v
      else (s.hearthAct a.path (a.off - page) v temp).1 := by
  obtain ⟨-, hcode, hres, hrange, hstate, -, -⟩ := h
  have hv : v &&& r.mask = v := and_mask_of_reserved hres
  have hw1c : r.code ≠ .w1c := by rcases hcode with e | e <;> simp [e]
  simp [State.writeRow, hres, hv, hw1c, hrange, hstate, hx, isWarden]

/-- REC_FLUSH_REQ is not transactional. -/
theorem flushReq_not_txn {r : RegRow} (h : findRow hearthRows REC_FLUSH_REQ = some r) : r.txn = false := by
  have hall : (findRow hearthRows REC_FLUSH_REQ).all (fun r => !r.txn) = true := by decide
  simpa [h] using hall

/-- A write of 1 to REC_FLUSH_REQ asks for a forced flush. -/
theorem recFlushReq_asks {s : State} {a : Acc} {r : RegRow} (h : s.Takes (Acc.to a REC_FLUSH_REQ) 1 r .hearth 0 0) :
    regWriteAt (Acc.to a REC_FLUSH_REQ) 1 none s = s.askFlush .forced := by
  have hfind : findRow hearthRows REC_FLUSH_REQ = some r := findRow_of_rowAt h.1.2.2.2.1 h.1.2.2.2.2.1
  have hact : s.hearthAct (Acc.to a REC_FLUSH_REQ).path REC_FLUSH_REQ 1 none = (s.askFlush .forced, false) := rfl
  rw [regWriteAt_takes h, writeRow_takes_hearth h (flushReq_not_txn hfind)]
  exact if_neg Bool.false_ne_true

/-! ### A flush ends (R343, R362, R364) -/

theorem endThrottle_idle {s : State} (h : s.recd.throttled = false) : s.endThrottle = s := by
  simp [State.endThrottle, Recorder.throttleOver, h]

theorem trayStep_idle {s : State} (h : s.esc.trayDue = false) : s.trayStep = s := by
  simp [State.trayStep, h]

theorem removalNotices_idle {s : State} (h : s.bu.removal ≠ .flushing) : s.removalNotices = s := by
  simp [State.removalNotices, h]

/-- A flush is over, and its duration shown where it was asked for. -/
def State.flushEnded (s : State) (f : Flush) (dur : Nat) : State :=
  if f.kind = .background then s.modRec fun c => { c with flush := none, asked := none, lastFlush := s.time.tb }
  else (s.modRec fun c => { c with flush := none, asked := none, lastFlush := s.time.tb }).setNat REC_FLUSH_TIME dur

theorem flushEnded_frame (s : State) (f : Flush) (dur : Nat) : Frame [.recd, .regs] s (s.flushEnded f dur) :=
  .ite (modRec_frame s _).mono ((modRec_frame s _).mono.setNat (by decide))

theorem flushEnded_recd (s : State) (f : Flush) (dur : Nat) :
    (s.flushEnded f dur).recd = { s.recd with flush := none, asked := none, lastFlush := s.time.tb } := by
  unfold State.flushEnded
  split <;> rfl

theorem flushEnded_background (s : State) {f : Flush} (h : f.kind = .background) (dur : Nat) :
    s.flushEnded f dur = s.modRec fun c => { c with flush := none, asked := none, lastFlush := s.time.tb } := if_pos h

theorem flushEnded_shows (s : State) {f : Flush} (h : f.kind ≠ .background) (dur : Nat) :
    (s.flushEnded f dur).reg REC_FLUSH_TIME = BitVec.ofNat 32 dur := by
  rw [State.flushEnded, if_neg h, State.reg_setNat_self]

/-- What waits for the end of a flush: the end of a throttle, and an erase (R346, R369). -/
def State.eraseWaiting (s : State) : State :=
  match s.recd.erasePending with
  | some (a, b) => if s.recd.pfLock then s else s.eraseNow a b
  | none => s

theorem eraseWaiting_idle {s : State} (h : s.recd.erasePending = none ∨ s.recd.pfLock = true) : s.eraseWaiting = s := by
  unfold State.eraseWaiting
  split
  · next he => rw [if_pos (h.resolve_left (by simp [he]))]
  · rfl

/-- The lock after the flush of a power-fail warning or of TRIP (R343): no write to the MRAM begins any more, a sparing record under way is cut, and
the duration since the warning is shown where one stands. -/
def State.pfLocked (s : State) (since : Nat) : State :=
  let s1 := (s.modRec fun c => { c with pfLock := true }).modPlan fun p =>
    { p with writing := false, recorded := if p.writing then p.recorded.cut else p.recorded }
  if s.pw.pfWarn then s1.setNat HRT_PF_FLUSH_TIME since else s1

/-- With no other flush asked for, a flush that ends is followed by the lock, the end of the throttle and the erase that waits. -/
theorem flushOver_eq {s : State} (f : Flush) (dur : Nat) (ha : s.recd.asked = none) : s.flushOver f dur =
    (if f.kind = .powerFail ∧ (s.pw.pfWarn || s.hl.tripLatch) = true then (s.flushEnded f dur).pfLocked ((s.time.tb - s.thm.pfSince) / 1000)
      else s.flushEnded f dur).endThrottle.eraseWaiting := by
  have hpins : (s.flushEnded f dur).pw.pfWarn = s.pw.pfWarn := congrArg Power.pfWarn (flushEnded_frame s f dur .pw (by decide))
  unfold State.flushOver State.pfLocked
  dsimp only
  rw [ha, hpins]
  rfl

/-- With nothing waiting for it, the end of a flush is that alone. -/
theorem flushOver_ends {s : State} {f : Flush} (dur : Nat) (hk : f.kind ≠ .powerFail) (ht : s.recd.throttled = false) (ha : s.recd.asked = none)
    (he : s.recd.erasePending = none) : s.flushOver f dur = s.flushEnded f dur := by
  have hrec := flushEnded_recd s f dur
  rw [flushOver_eq f dur ha, if_neg fun h => hk h.1, endThrottle_idle (by rw [hrec]; exact ht), eraseWaiting_idle (.inl (by rw [hrec]; exact he))]

theorem pfLocked_frame (s : State) (since : Nat) : Frame [.recd, .plan, .regs] s (s.pfLocked since) :=
  have hlock := ((modRec_frame s _).mono (m := [.recd, .plan, .regs])).modPlan (by decide)
  .ite (hlock.setNat (by decide)) hlock

theorem pfLocked_recd (s : State) (since : Nat) : (s.pfLocked since).recd = { s.recd with pfLock := true } := by
  unfold State.pfLocked
  dsimp only
  split <;> rfl

theorem pfLocked_shows {s : State} (h : s.pw.pfWarn = true) (since : Nat) : (s.pfLocked since).reg HRT_PF_FLUSH_TIME = BitVec.ofNat 32 since := by
  rw [State.pfLocked, if_pos h, State.reg_setNat_self]

/-- The flush of a power-fail warning or of TRIP that still stands ends with the lock, which lets no erase begin. -/
theorem flushOver_locks {s : State} {f : Flush} (dur : Nat) (hk : f.kind = .powerFail) (ht : s.recd.throttled = false) (ha : s.recd.asked = none)
    (hw : s.pw.pfWarn = true ∨ s.hl.tripLatch = true) :
    s.flushOver f dur = (s.flushEnded f dur).pfLocked ((s.time.tb - s.thm.pfSince) / 1000) := by
  have hrec := pfLocked_recd (s.flushEnded f dur) ((s.time.tb - s.thm.pfSince) / 1000)
  rw [flushOver_eq f dur ha, if_pos ⟨hk, by simpa using hw⟩, endThrottle_idle (by rw [hrec, flushEnded_recd]; exact ht),
    eraseWaiting_idle (.inr (by rw [hrec]))]

/-! ### What a flush lands (R357, R359, R362) -/

theorem foldl_store1_eq (l : List (Record × Bool)) (c : Recorder) :
    ∃ st h q, l.foldl Recorder.store1 c = { c with store := st, hdr := h, flushSeq := q } := by
  induction l generalizing c with
  | nil => exact ⟨c.store, c.hdr, c.flushSeq, rfl⟩
  | cons r l ih =>
    obtain ⟨st, h, q, he⟩ := ih (c.store1 r)
    exact ⟨st, h, q, he⟩

theorem foldl_seal1_eq (l : List (Record × Bool)) (c : Recorder) :
    ∃ sr k d, l.foldl Recorder.seal1 c = { c with sealedReg := sr, sealedCount := k, diverted := d } := by
  induction l generalizing c with
  | nil => exact ⟨c.sealedReg, c.sealedCount, c.diverted, rfl⟩
  | cons r l ih =>
    obtain ⟨sr, k, d, he⟩ := ih (c.seal1 r)
    refine ⟨sr, k, d, ?_⟩
    rw [List.foldl_cons, he]
    unfold Recorder.seal1
    split <;> rfl

/-- The writes of a flush move the two rings, the working header and the counts of the sealed section. -/
theorem land_eq (c : Recorder) (l : List (Record × Bool)) (n : Nat) : ∃ st h q sr k d,
    c.land l n = { c with store := st, hdr := h, flushSeq := q, sealedReg := sr, sealedCount := k, diverted := d } := by
  obtain ⟨st, h, q, h1⟩ := foldl_store1_eq (l.take n) c
  obtain ⟨sr, k, d, h2⟩ := foldl_seal1_eq ((l.filter Prod.snd).take (n - l.length)) ((l.take n).foldl Recorder.store1 c)
  exact ⟨st, h, q, sr, k, d, by rw [Recorder.land, h2, h1]⟩

/-- The recorder after the writes of a flush. -/
def Recorder.landed (c : Recorder) (f : Flush) : Recorder :=
  { c.land (c.fresh f) (2 * (c.fresh f).length) with
    dirty := c.dirty.filter fun d => !f.recs.any fun r => r.1.seq == d.1.seq
    failed := false, overrun := 0 }

/-- It leaves what decides how the flush ends. -/
theorem landed_keeps (c : Recorder) (f : Flush) : (c.landed f).hdrs = c.hdrs ∧ (c.landed f).throttled = c.throttled ∧ (c.landed f).asked = c.asked ∧
    (c.landed f).erasePending = c.erasePending ∧ (c.landed f).passOpen = c.passOpen := by
  obtain ⟨st, h, q, sr, k, d, he⟩ := land_eq c (c.fresh f) (2 * (c.fresh f).length)
  simp only [Recorder.landed, he, and_self]

theorem landed_single {c : Recorder} {f : Flush} {r : Record} (hf : f.recs = [(r, false)]) (hd : (c.dirty.any fun d => d.1.seq == r.seq) = true) :
    tget? (c.landed f).store c.hdr.writeIx = some r ∧ (c.landed f).hdr.lastSeq = r.seq ∧
      (c.landed f).hdr.writeIx = (c.hdr.writeIx + 1) % storeSlots := by
  have hfresh : c.fresh f = [(r, false)] := by
    rw [Recorder.fresh, hf, List.filter_cons_of_pos (by exact hd), List.filter_nil]
  rw [Recorder.landed, hfresh]
  exact ⟨tget?_tput_self _ _ _, rfl, rfl⟩

/-! ### FLUSH_COMPLETE -/

/-- The state after the writes of a flush and of the header. -/
def State.flushLanded (s : State) (f : Flush) : State := (s.modRec fun c => c.landed f).writeHeader

theorem writeHeader_frame (s : State) : Frame [.recd] s s.writeHeader := modRec_frame s _

theorem flushLanded_frame (s : State) (f : Flush) : Frame [.recd] s (s.flushLanded f) := (modRec_frame s _).trans (writeHeader_frame _)

theorem sealNow_passOpen {s : State} (h : s.recd.passOpen = true) : s.sealNow = s := by
  simp [State.sealNow, h]

/-- A flush that succeeds during the power-on pass: its writes, the header, and what follows a flush. -/
theorem doFlushComplete_succeeds {s : State} {f : Flush} (dur : Nat) (hf : s.recd.flush = some f) (hp : s.recd.passOpen = true) :
    doFlushComplete true dur s = (if s.recd.failed then
      ((s.flushLanded f).flushOver f dur).emit ⟨0, 6, 1, 0x0904, [i4 s.recd.overrun]⟩
      else (s.flushLanded f).flushOver f dur).trayStep.removalNotices := by
  have hseal : (s.modRec fun c => c.landed f).sealNow = s.modRec fun c => c.landed f := sealNow_passOpen ((landed_keeps s.recd f).2.2.2.2.trans hp)
  rw [State.flushLanded, ← hseal]
  unfold doFlushComplete
  rw [hf]
  rfl

/-- With no tray notice due and no removal in its flush, nothing follows the end of a flush. -/
theorem noticesAfter_idle {s t : State} {l : List Part} (h : Frame l s t) (he : Part.esc ∉ l) (hb : Part.bu ∉ l) (ht : s.esc.trayDue = false)
    (hr : s.bu.removal ≠ .flushing) : t.trayStep.removalNotices = t := by
  have hesc : t.esc = s.esc := h .esc he
  have hbu : t.bu = s.bu := h .bu hb
  rw [trayStep_idle (by rw [hesc]; exact ht), removalNotices_idle (by rw [hbu]; exact hr)]

/-- A first failure of a flush is counted, and the flush written again. -/
theorem doFlushComplete_repeats {s : State} {f : Flush} (dur : Nat) (hf : s.recd.flush = some f) (ha : f.again = false) (hs : s.recd.failed = false) :
    doFlushComplete false dur s = (s.bump REC_STORE_ERR).modRec fun c => { c with flush := some { f with again := true } } := by
  simp only [doFlushComplete, hf, ha, hs, Bool.false_eq_true, if_false, Bool.not_false, Bool.and_self, if_true]

/-- The state in which the store has failed. -/
def State.storeFailed (s : State) : State := (s.bump REC_STORE_ERR).modRec fun c => { c with failed := true }

theorem storeFailed_frame (s : State) : Frame [.recd, .regs] s s.storeFailed := (bump_frame s _ _).mono.modRec (by decide)

theorem storeFailed_recd (s : State) : s.storeFailed.recd = { s.recd with failed := true } := rfl

theorem storeFailed_counts (s : State) : s.storeFailed.reg REC_STORE_ERR = BitVec.ofNat 32 (satAdd 32 (s.reg REC_STORE_ERR).toNat 1) :=
  reg_bump_self s _ _

/-- A flush that fails when it was repeated, or while the store is failed, is given up; the first failure of the store is an event. -/
theorem doFlushComplete_gives_up {s : State} {f : Flush} (dur : Nat) (hf : s.recd.flush = some f) (ha : f.again = true ∨ s.recd.failed = true) :
    doFlushComplete false dur s = (if s.recd.failed then s.storeFailed.flushOver f dur
      else (s.storeFailed.flushOver f dur).emit ⟨0, 6, 1, 0x0903, []⟩).trayStep.removalNotices := by
  have hlast : (!f.again && !s.recd.failed) = false := by rcases ha with h | h <;> simp [h]
  unfold doFlushComplete
  rw [hf]
  simp only [hlast, Bool.false_eq_true, if_false]
  rfl

/-- The retry of a failed store writes what is dirty. -/
theorem doStoreRetry_begins {s : State} (ok : Bool) (hs : s.recd.failed = true) (hl : s.recd.pfLock = false) (hf : s.recd.flush = none) :
    doStoreRetry ok s = doFlushComplete ok 0 (s.flushBegun .background) := by
  rw [doStoreRetry, hs, hl, ← askFlush_begins hl hf]
  rfl

/-- The state after a flush that succeeds and with which nothing else ends. -/
def State.flushDone (s : State) (f : Flush) (dur : Nat) : State := (s.flushLanded f).flushEnded f dur

theorem flushDone_frame (s : State) (f : Flush) (dur : Nat) : Frame [.recd, .regs] s (s.flushDone f dur) :=
  (flushLanded_frame s f).mono.trans (flushEnded_frame _ f dur)

theorem flushLanded_recd (s : State) (f : Flush) : (s.flushLanded f).recd =
    { s.recd.landed f with hdr := (s.flushLanded f).recd.hdr, hdrs := s.recd.hdrs.put (s.flushLanded f).recd.hdr, lastHeader := s.opTime } := by
  rw [← (landed_keeps s.recd f).1]
  rfl

theorem flushLanded_waits {s : State} {f : Flush} (ht : s.recd.throttled = false) (ha : s.recd.asked = none) :
    (s.flushLanded f).recd.throttled = false ∧ (s.flushLanded f).recd.asked = none :=
  ⟨(landed_keeps s.recd f).2.1.trans ht, (landed_keeps s.recd f).2.2.1.trans ha⟩

theorem flushLanded_over {s : State} {f : Flush} (dur : Nat) (hk : f.kind ≠ .powerFail) (ht : s.recd.throttled = false) (ha : s.recd.asked = none)
    (he : s.recd.erasePending = none) : (s.flushLanded f).flushOver f dur = s.flushDone f dur :=
  have ⟨_, hthr, hask, hera, _⟩ := landed_keeps s.recd f
  flushOver_ends dur hk (hthr.trans ht) (hask.trans ha) (hera.trans he)

theorem flushDone_recd (s : State) (f : Flush) (dur : Nat) :
    (s.flushDone f dur).recd = { (s.flushLanded f).recd with flush := none, asked := none, lastFlush := s.time.tb } := flushEnded_recd _ _ _

/-- A flush that succeeds where the store had failed is an event. -/
theorem completeRetry_succeeds {s : State} {f : Flush} (hf : s.recd.flush = some f) (hk : f.kind ≠ .powerFail) (hs : s.recd.failed = true)
    (ht : s.recd.throttled = false) (ha : s.recd.asked = none) (he : s.recd.erasePending = none) (hp : s.recd.passOpen = true)
    (htray : s.esc.trayDue = false) (hrem : s.bu.removal ≠ .flushing) :
    doFlushComplete true 0 s = (s.flushDone f 0).emit ⟨0, 6, 1, 0x0904, [i4 s.recd.overrun]⟩ := by
  rw [doFlushComplete_succeeds 0 hf hp, hs, if_pos rfl, flushLanded_over 0 hk ht ha he]
  exact noticesAfter_idle ((flushDone_frame s f 0).mono.trans (emit_frame _ _)) (by decide) (by decide) htray hrem

/-- A flush that fails where the store had failed is over, with no event. -/
theorem completeRetry_fails {s : State} {f : Flush} (hf : s.recd.flush = some f) (hk : f.kind ≠ .powerFail) (hs : s.recd.failed = true)
    (ht : s.recd.throttled = false) (ha : s.recd.asked = none) (he : s.recd.erasePending = none)
    (htray : s.esc.trayDue = false) (hrem : s.bu.removal ≠ .flushing) : doFlushComplete false 0 s = s.storeFailed.flushEnded f 0 := by
  rw [doFlushComplete_gives_up 0 hf (.inr hs), hs, if_pos rfl, flushOver_ends (s := s.storeFailed) 0 hk ht ha he]
  exact noticesAfter_idle ((storeFailed_frame s).trans (flushEnded_frame _ f 0)) (by decide) (by decide) htray hrem

/-- Settles O49, clause by clause: a flush begins through `askFlush`; one that succeeds lands its records and the header before the flush is over; one
that fails is written again or fails the store, which events leave failed (`emit_mram`). -/
theorem recorderFlushes : Obligations.RecorderFlushes := by
  unfold Obligations.RecorderFlushes
  refine ⟨?background, ?forced, ?success, ?powerFail, ?again, ?failed, ?header, ?retry⟩
  case background =>
    intro s hsig hd hs hl hf
    exact ⟨_, congrArg done (doBackgroundFlush_begins hd hs hl hf), modRec_settles hsig _⟩
  case forced =>
    intro s a v r hsig ht hv hl hf
    subst hv
    exact ⟨_, congrArg done ((recFlushReq_asks ht).trans (askFlush_begins hl hf .forced)), modRec_settles hsig _⟩
  case success =>
    intro s f dur hsig hf hk hs ht ha he hp htray hrem
    have hdone : doFlushComplete true dur s = s.flushDone f dur := by
      rw [doFlushComplete_succeeds dur hf hp, hs, if_neg Bool.false_ne_true, flushLanded_over dur hk ht ha he,
        noticesAfter_idle (flushDone_frame s f dur) (by decide) (by decide) htray hrem]
    refine ⟨_, congrArg done hdone, ?_⟩
    rw [settle_recd, settle_reg, flushDone_recd]
    exact ⟨rfl, rfl, rfl, congrArg Recorder.hdrs (flushLanded_recd s f), rfl, fun hkf => flushEnded_shows _ (by simp [hkf]) dur,
      fun r hr hd => landed_single hr hd,
      (flushDone_frame s f dur).mono.settle hsig.latch (by decide) (by decide) (by decide) (by decide)⟩
  case powerFail =>
    intro s f dur hsig hf hk hs ht ha hp htray hrem hw
    obtain ⟨hthr, hask⟩ := flushLanded_waits (f := f) ht ha
    have hlanded := flushLanded_frame s f
    have hover : (s.flushLanded f).flushOver f dur = (s.flushDone f dur).pfLocked ((s.time.tb - s.thm.pfSince) / 1000) :=
      flushOver_locks dur hk hthr hask hw
    have hframe : Frame [.recd, .plan, .regs] s ((s.flushDone f dur).pfLocked ((s.time.tb - s.thm.pfSince) / 1000)) :=
      (flushDone_frame s f dur).mono.trans (pfLocked_frame _ _)
    have hdone : doFlushComplete true dur s = (s.flushDone f dur).pfLocked ((s.time.tb - s.thm.pfSince) / 1000) := by
      rw [doFlushComplete_succeeds dur hf hp, hs, if_neg Bool.false_ne_true, hover, noticesAfter_idle hframe (by decide) (by decide) htray hrem]
    have hpins : (s.flushDone f dur).pw = s.pw := flushDone_frame s f dur .pw (by decide)
    refine ⟨_, congrArg done hdone, ?_⟩
    rw [settle_recd, settle_reg, pfLocked_recd, flushDone_recd]
    exact ⟨rfl, rfl, fun hwarn => pfLocked_shows (hpins ▸ hwarn) _,
      hframe.mono.settle hsig.latch (by decide) (by decide) (by decide) (by decide)⟩
  case again =>
    intro s f dur hsig hf ha hs
    refine ⟨_, congrArg done (doFlushComplete_repeats dur hf ha hs), rfl, ?_, ?_, ?_⟩
    · rw [settle_reg]
      exact reg_bump_self s _ _
    · exact ((bump_frame s _ _).mono.modRec (by decide)).settle hsig.latch (by decide) (by decide) (by decide) (by decide)
    · exact ((RegsBut.refl _ s).bump (k := REC_STORE_ERR) (by decide)).trans (.of_regs (settle_regs _))
  case failed =>
    intro s f dur hsig hf ha hs ht hask he hk htray hrem
    have hover : s.storeFailed.flushOver f dur = s.storeFailed.flushEnded f dur := flushOver_ends dur hk ht hask he
    have hframe : Frame evParts s ((s.storeFailed.flushEnded f dur).emit ⟨0, 6, 1, 0x0903, []⟩) :=
      ((storeFailed_frame s).trans (flushEnded_frame _ f dur)).mono.trans (emit_frame _ _)
    have hdone : doFlushComplete false dur s = (s.storeFailed.flushEnded f dur).emit ⟨0, 6, 1, 0x0903, []⟩ := by
      rw [doFlushComplete_gives_up dur hf (.inl ha), hs, if_neg Bool.false_ne_true, hover,
        noticesAfter_idle hframe (by decide) (by decide) htray hrem]
    refine ⟨_, congrArg done hdone, ?_, hframe.settle hsig.latch (by decide) (by decide) (by decide) (by decide)⟩
    rw [settle_recd, failed_of_mram (emit_mram _ _), flushEnded_recd, storeFailed_recd]
  case header =>
    intro s hsig hl hs hp
    have hwrite : doHeaderWriteTimer s = s.writeHeader := by rw [doHeaderWriteTimer, hp, hl, hs]; rfl
    refine ⟨_, congrArg done hwrite, rfl, rfl, rfl, (writeHeader_frame s).mono.settle hsig.latch (by decide) (by decide) (by decide) (by decide)⟩
  case retry =>
    intro s hsig hs hl hf ha he ht hp htray hrem
    have hframe : Frame [.recd] s (s.flushBegun .background) := modRec_frame s _
    refine ⟨?ok, ?bad⟩
    case ok =>
      have hok := completeRetry_succeeds (s := s.flushBegun .background) (f := ⟨.background, s.recd.dirty, false⟩) rfl nofun hs ht ha he hp htray hrem
      refine ⟨_, congrArg done ((doStoreRetry_begins true hs hl hf).trans hok), ?_,
        ((hframe.mono.trans (flushDone_frame _ _ _).mono).trans (emit_frame _ _)).settle hsig.latch (by decide) (by decide) (by decide) (by decide)⟩
      rw [settle_recd, failed_of_mram (emit_mram _ _), flushDone_recd, flushLanded_recd]
      rfl
    case bad =>
      have hbad := completeRetry_fails (s := s.flushBegun .background) (f := ⟨.background, s.recd.dirty, false⟩) rfl nofun hs ht ha he htray hrem
      refine ⟨_, congrArg done ((doStoreRetry_begins false hs hl hf).trans hbad), ?_, ?_, ?_,
        ((hframe.mono.trans (storeFailed_frame _)).trans (flushEnded_frame _ _ _)).mono.settle hsig.latch (by decide) (by decide) (by decide) (by decide)⟩
      · rw [settle_recd, flushEnded_recd, storeFailed_recd]
      · rw [settle_recd, flushEnded_recd]
      · rw [settle_reg, flushEnded_background _ rfl]
        exact storeFailed_counts (s.flushBegun .background)

end Sys2Proof.Machine
end

section
/-! PROOFS. Transactions opened, filled, aborted, rolled back and refused (R434 to R437, R440 to R442). -/
namespace Sys2Proof.Machine

-- One theorem at a time: with the joint text's other threads, parallel ones would pass the memory that the check gives.
set_option Elab.async false

/-! ### A world's transaction -/

theorem txn_congr {s t : State} (h : t.txns = s.txns) (w : World) : t.txn w = s.txn w := by rw [State.txn, h, State.txn]

theorem worldNum_injective {w v : World} (h : World.num v = World.num w) : v = w := by cases w <;> cases v <;> simp_all [World.num]

theorem txn_modTxn_ne (s : State) {w v : World} (f : Txn → Txn) (h : v ≠ w) : (s.modTxn w f).txn v = s.txn v :=
  tget_tput_ne _ _ _ fun e => h (worldNum_injective e)

@[simp] theorem accepted_txn (s : State) (h : Hdr) (w : World) : (s.accepted h).txn w = s.txn w := txn_congr (accepted_frame s h .txns (by decide)) w
theorem accepted_time (s : State) (h : Hdr) : (s.accepted h).time = s.time := accepted_frame s h .time (by decide)
theorem accepted_epoch (s : State) (h : Hdr) : (s.accepted h).host.epoch = s.host.epoch :=
  congrArg HostIf.epoch (accepted_frame s h .host (by decide))

@[simp] theorem emit_txn (s : State) (e : Event) (w : World) : (s.emit e).txn w = s.txn w := txn_congr (s.emit_txns e) w
@[simp] theorem irq_txn (s : State) (n : Nat) (w : World) : (s.irq n).txn w = s.txn w := txn_congr (s.irq_txns n) w
@[simp] theorem settle_txn (s : State) (w : World) : (settle s).txn w = s.txn w := rfl
@[simp] theorem answer_txn (s : State) (p : Pend) (st : Status) (d : Word) (l : List Word) (w : World) : (s.answer p st d l).txn w = s.txn w :=
  txn_congr (s.answer_txns p st d l) w

/-! ### A served command and the transaction of its world -/

/-- Where a served command only changes one world's transaction and answers, the other world's stands, and the answer is given. -/
theorem txnCommand_completes {s : State} {i : Instr} {h : Hdr} {c : HostCmd} {w : World} {f : Txn → Txn} {st : Status} {data : List Word}
    (hi : hostOf i = some (h, c)) (hs : s.Serves h)
    (hc : serveHost c ⟨h, hostOpcode c⟩ (s.accepted h) = ((s.accepted h).modTxn w f).answer ⟨h, hostOpcode c⟩ st 0 data) :
    ∃ t, exec i s = .next t ∧ t.txn w = f (s.txn w) ∧ (∀ v, v ≠ w → t.txn v = s.txn v) ∧ Answered s t h (hostOpcode c) st data ∧
      (s.Signals → Frame [.regs, .msix, .cmp, .out, .txns] s t ∧ RegsBut commandReg s t) := by
  refine ⟨_, (exec_host hi hs).trans (congrArg done hc), ?_, fun v hv => ?_, answered_settle (accepted_epoch s h), fun hsig => ?_⟩
  · rw [settle_txn, answer_txn, State.txn_modTxn_self, accepted_txn]
  · rw [settle_txn, answer_txn, txn_modTxn_ne _ _ hv, accepted_txn]
  · exact (command_completes (modTxn_frame _ w f).mono ((accepted_regs s h).trans (.of_regs rfl)) (by decide) (accepted_epoch s h) hsig
      (by decide) (by decide)).2

/-! ### TXN_BEGIN and TXN_ABORT (R434, R440) -/

/-- The transaction that TXN_BEGIN opens at an instant. -/
def Txn.begun (x : Txn) (now : Nat) : Txn :=
  { x with isOpen := true, ident := (x.ident + 1) % 65536, items := [], openedAt := now, excluded := 0, commit := none }

/-- A transaction whose bank is discarded. -/
def Txn.closed (x : Txn) : Txn := { x with isOpen := false, items := [], commit := none }

theorem serveTxnBegin_opens {s : State} {p : Pend} (ho : p.h.operator = true) (hb : p.h.badOperand = false) (hclosed : (s.txn p.world).isOpen = false) :
    serveTxnBegin p s =
      (s.modTxn p.world fun x => x.begun s.time.tb).answer p .ok 0 [BitVec.ofNat 32 (((s.txn p.world).ident + 1) % 65536)] :=
  (serveAs_operator ho hb true none _).trans (if_neg (by rw [hclosed]; exact Bool.false_ne_true))

theorem serveTxnBegin_busy {s : State} {p : Pend} (ho : p.h.operator = true) (hb : p.h.badOperand = false) (hopen : (s.txn p.world).isOpen = true) :
    serveTxnBegin p s = s.answer p .busy 0 [] :=
  (serveAs_operator ho hb true none _).trans (if_pos hopen)

theorem serveTxnAbort_closes {s : State} {p : Pend} (ho : p.h.operator = true) (hb : p.h.badOperand = false) (hopen : (s.txn p.world).isOpen = true)
    (hidle : (s.txn p.world).commit = none) : serveTxnAbort p s = (s.modTxn p.world Txn.closed).answer p .ok 0 [] := by
  refine (serveAs_operator ho hb true none _).trans ?_
  simp only [hopen, hidle, Bool.not_true, Bool.false_eq_true, if_false]
  rfl

theorem txnBegin_completes {s : State} {h : Hdr} (hs : s.Serves h) (ho : h.operator = true) (hclosed : (s.txn (Pend.world ⟨h, 0x10⟩)).isOpen = false) :
    ∃ t, exec (.txnBegin h) s = .next t ∧ t.txn (Pend.world ⟨h, 0x10⟩) = (s.txn (Pend.world ⟨h, 0x10⟩)).begun s.time.tb ∧
      (∀ w, w ≠ Pend.world ⟨h, 0x10⟩ → t.txn w = s.txn w) ∧
      Answered s t h 0x10 .ok [BitVec.ofNat 32 (((s.txn (Pend.world ⟨h, 0x10⟩)).ident + 1) % 65536)] ∧
      (s.Signals → Frame [.regs, .msix, .cmp, .out, .txns] s t ∧ RegsBut commandReg s t) := by
  have hserve := serveTxnBegin_opens (s := s.accepted h) (p := ⟨h, 0x10⟩) ho hs.operandsGood (by rw [accepted_txn]; exact hclosed)
  rw [accepted_txn, accepted_time] at hserve
  exact txnCommand_completes (c := .txnBegin) rfl hs hserve

/-- Settles O58: an open transaction answers BUSY and stands, a closed one is opened under the next identifier (`txnBegin_completes`). -/
theorem transactionBegin : Obligations.TransactionBegin := by
  refine ⟨fun s h hs ho hclosed => ?opens, fun s h hs ho hopen => ?busy⟩
  case opens =>
    obtain ⟨t, hexec, hown, hother, hans, -⟩ := txnBegin_completes hs ho hclosed
    exact ⟨t, hexec, by rw [hown]; rfl, by rw [hown]; rfl, by rw [hown]; rfl, hother, hans⟩
  case busy =>
    have hserve := serveTxnBegin_busy (s := s.accepted h) (p := ⟨h, 0x10⟩) ho hs.operandsGood (by rw [accepted_txn]; exact hopen)
    refine ⟨_, (exec_host (c := .txnBegin) rfl hs).trans (congrArg done hserve), fun w => ?_, answered_settle (accepted_epoch s h)⟩
    rw [settle_txn, answer_txn, accepted_txn]

/-! ### The timeout (R440, R442) -/

/-- What a rollback leaves before vector 10. -/
def State.discarded (s : State) (w : World) : State :=
  ((s.modTxn w Txn.closed).bump TXN_ROLLBACKS).emit ⟨0, 0, World.num w, 0x0B02, s.txnData w 255⟩

theorem rollback_open {s : State} {w : World} (hopen : (s.txn w).isOpen = true) : s.rollback w = (s.discarded w).irq 10 := if_pos hopen

theorem doTxnTimeoutExpiry_open {s : State} {w : World} (hopen : (s.txn w).isOpen = true) (hidle : (s.txn w).commit = none) :
    doTxnTimeoutExpiry w s = (s.discarded w).irq 10 :=
  (if_neg (by rw [hidle]; exact Bool.false_ne_true)).trans (rollback_open hopen)

theorem discarded_frame (s : State) (w : World) : Frame [.regs, .msix, .recd, .subs, .i3c, .obs, .out, .txns] s (s.discarded w) :=
  (((modTxn_frame s w _).mono).trans (bump_frame _ _ _).mono).trans (emit_frame _ _).mono

theorem discarded_regs (s : State) (w : World) : RegsBut (fun k => eventReg k || k == TXN_ROLLBACKS) s (s.discarded w) := by
  have hcount : RegsBut (fun k => eventReg k || k == TXN_ROLLBACKS) s ((s.modTxn w Txn.closed).bump TXN_ROLLBACKS) :=
    (RegsBut.of_regs (t := s.modTxn w Txn.closed) rfl).bump (by simp)
  exact hcount.trans ((emit_regs _ _).mono fun _ hk => (Bool.or_eq_false_iff.mp hk).1)

theorem discarded_count (s : State) (w : World) :
    (s.discarded w).reg TXN_ROLLBACKS = BitVec.ofNat 32 (satAdd 32 (s.reg TXN_ROLLBACKS).toNat 1) :=
  (emit_regs _ _ TXN_ROLLBACKS (by decide)).trans (reg_bump_self (s.modTxn w Txn.closed) _ _)

theorem discarded_txn_self (s : State) (w : World) : (s.discarded w).txn w = (s.txn w).closed :=
  (emit_txn _ _ w).trans (State.txn_modTxn_self s w _)

theorem discarded_txn_ne (s : State) {w v : World} (h : v ≠ w) : (s.discarded w).txn v = s.txn v :=
  (emit_txn _ _ v).trans (txn_modTxn_ne s _ h)

/-- Settles O1: TXN_BEGIN and TXN_ABORT each change their world's transaction and answer, and the timeout discards the bank. -/
theorem txnLifecycle : Obligations.TxnLifecycle := by
  refine ⟨fun s h hsig hs ho hclosed => ?opens, fun s h hsig hs ho hopen hidle => ?aborts, fun s w hsig hopen hidle => ?expires⟩
  case opens =>
    obtain ⟨t, hexec, hown, hother, hans, hframe⟩ := txnBegin_completes hs ho hclosed
    exact ⟨t, _, hexec, rfl, by rw [hown]; rfl, by rw [hown]; rfl, by rw [hown]; rfl, by rw [hown]; rfl, hother, hans, hframe hsig⟩
  case aborts =>
    have hserve := serveTxnAbort_closes (s := s.accepted h) (p := ⟨h, 0x13⟩) ho hs.operandsGood (by rw [accepted_txn]; exact hopen)
      (by rw [accepted_txn]; exact hidle)
    obtain ⟨t, hexec, hown, hother, hans, hframe⟩ := txnCommand_completes (i := .txnAbort h) (c := .txnAbort) rfl hs hserve
    exact ⟨t, hexec, by rw [hown]; rfl, by rw [hown]; rfl, hother, hans, hframe hsig⟩
  case expires =>
    have htxn : ∀ v, (settle ((s.discarded w).irq 10)).txn v = (s.discarded w).txn v := fun v => irq_txn (s.discarded w) 10 v
    refine ⟨_, congrArg done (doTxnTimeoutExpiry_open hopen hidle), ?_, ?_, ?_, ?_, fun v hv => ?_, ?_, ?_⟩
    · rw [htxn, discarded_txn_self]; rfl
    · rw [htxn, discarded_txn_self]; rfl
    · rw [settle_reg, irq_regs _ 10 TXN_ROLLBACKS (by decide), discarded_count]
    · rw [settle_causes]; exact irq_cause (by decide)
    · rw [htxn, discarded_txn_ne s hv]
    · exact ((discarded_frame s w).trans (irq_frame _ 10).mono).settle hsig.latch (by decide) (by decide) (by decide) (by decide)
    · exact (discarded_regs s w).trans (((irq_regs _ 10).mono fun _ hk => (Bool.or_eq_false_iff.mp hk).1).trans (.of_regs rfl))

/-! ### Staging of items (R434 to R436) -/

/-- An item that is no register write joins the bank while it has room. -/
theorem stage_appends {s : State} {w : World} {it : TxnItem} (hreg : ∀ y, sameReg it y = false) (hroom : (s.txn w).items.length < 256) :
    s.stage w it = (s.modTxn w fun x => { x with items := x.items ++ [it] }, true) := by
  have hnew : (s.txn w).items.any (sameReg it) = false := List.any_eq_false.mpr fun y _ => Bool.eq_false_iff.mp (hreg y)
  simp only [State.stage, hnew, hroom, Bool.false_eq_true, if_false, if_true]

theorem serveItem_stages {s : State} {p : Pend} {it : TxnItem} (ho : p.h.operator = true) (hb : p.h.badOperand = false) (hw : p.world = .secure)
    (hopen : (s.txn .secure).isOpen = true) (hidle : (s.txn .secure).commit = none) (hroom : (s.txn .secure).items.length < 256)
    (hreg : ∀ y, sameReg it y = false) :
    serveItem it true p s = (s.modTxn .secure fun x => { x with items := x.items ++ [it] }).answer p .ok 0 [] := by
  refine (serveAs_operator ho hb true none _).trans ?_
  simp only [hw, hopen, hidle, stage_appends hreg hroom, Bool.not_true, Bool.false_eq_true, Option.isSome_none, if_false, if_true, reduceCtorEq]
  rfl

/-- Settles O2: an item of each kind, once its row finds its operands good, is staged by `serveItem`, which moves nothing else. -/
theorem txnItemsStage : Obligations.TxnItemsStage := by
  intro s h hsig hs ho hw hopen hidle hroom
  have hstage : ∀ (it : TxnItem), (∀ y, sameReg it y = false) → serveItem it true ⟨h, 0x11⟩ (s.accepted h) =
      ((s.accepted h).modTxn .secure fun x => { x with items := x.items ++ [it] }).answer ⟨h, 0x11⟩ .ok 0 [] := fun it hreg => by
    refine serveItem_stages ho hs.operandsGood hw ?_ ?_ ?_ hreg <;> rw [accepted_txn] <;> assumption
  have hcompletes : ∀ (i : Instr) (c : HostCmd) (it : TxnItem), hostOf i = some (h, c) → hostOpcode c = 0x11 → (∀ y, sameReg it y = false) →
      serveHost c ⟨h, 0x11⟩ (s.accepted h) = serveItem it true ⟨h, 0x11⟩ (s.accepted h) → ∃ t, exec i s = .next t ∧
        (t.txn .secure).items = (s.txn .secure).items ++ [it] ∧ Answered s t h 0x11 .ok [] ∧
        Frame [.regs, .msix, .cmp, .out, .txns] s t ∧ RegsBut commandReg s t := fun i c it hi hop hreg hserve => by
    obtain ⟨t, hexec, hown, -, hans, hframe⟩ := txnCommand_completes hi hs (by rw [hop]; exact hserve.trans (hstage it hreg))
    exact ⟨t, hexec, by rw [hown], hop ▸ hans, hframe hsig⟩
  refine ⟨fun ix e hgood => ?region, fun p r hp => ?role, fun ix r => ?route, fun p ix e hp => ?slice, fun r x => ?sparing⟩
  case region => exact hcompletes _ (.itemRegion ix e) (.region ix e) rfl rfl (fun _ => rfl) (by rw [serveHost, hgood])
  case role =>
    exact hcompletes _ (.itemPortRole p r) (.role p r) rfl rfl (fun _ => rfl) (by simp only [serveHost, accepted_portCount, hp, decide_true])
  case route => exact hcompletes _ (.itemRoute ix r) (.route ix r) rfl rfl (fun _ => rfl) rfl
  case slice =>
    exact hcompletes _ (.itemSlice p ix e) (.slice p ix e) rfl rfl (fun _ => rfl) (by simp only [serveHost, accepted_portCount, hp, decide_true])
  case sparing => exact hcompletes _ (.itemSparing r x) (.sparing r x) rfl rfl (fun _ => rfl) rfl

/-! ### A commit that validation refuses (R437, R441, R442) -/

/-- The kind of the item of a bank at which validation failed. -/
def State.kindAt (s : State) (w : World) (k : Nat) : Nat := (((s.txn w).items[k]?).map TxnItem.kind).getD 0

/-- A refused commit before its record: the failure register and the count (R442). -/
def State.refused (s : State) (w : World) (k : Nat) : State :=
  ((s.setNat (failReg w) (23 * 2 ^ 24 + k % 256 * 2 ^ 16 + s.kindAt w k)).bump TXN_REFUSED).modTxn w fun x => { x with commit := none }

theorem refuseTxn_eq (s : State) (w : World) (k : Nat) :
    s.refuseTxn w k = (s.refused w k).emit ⟨0, 0, World.num w, 0x0B03, (s.refused w k).txnData w k⟩ := rfl

/-- The failure registers are no event's. -/
theorem failReg_stands (w : World) : eventReg (failReg w) = false ∧ failReg w ≠ TXN_REFUSED := by cases w <;> decide

theorem refuseTxn_frame (s : State) (w : World) (k : Nat) : Frame [.regs, .msix, .recd, .subs, .i3c, .obs, .out, .txns] s (s.refuseTxn w k) := by
  have hset : Frame [.regs, .txns] s (s.refused w k) := (((setNat_frame s _ _).mono).trans (bump_frame _ _ _).mono).trans (modTxn_frame _ w _).mono
  exact hset.mono.trans (emit_frame _ _).mono

theorem refuseTxn_regs (s : State) (w : World) (k : Nat) :
    RegsBut (fun r => commandReg r || r == TXN_REFUSED || r == failReg w) s (s.refuseTxn w k) := by
  have hset : RegsBut (fun r => commandReg r || r == TXN_REFUSED || r == failReg w) s (s.refused w k) :=
    (((RegsBut.refl _ s).setNat (by simp)).bump (by simp)).trans (.of_regs rfl)
  exact hset.trans ((emit_regs _ _).command.mono fun r hr => (Bool.or_eq_false_iff.mp (Bool.or_eq_false_iff.mp hr).1).1)

theorem refuseTxn_txn (s : State) (w : World) (k : Nat) : (s.refuseTxn w k).txn w = { s.txn w with commit := none } :=
  (emit_txn _ _ w).trans (State.txn_modTxn_self _ w _)

theorem refuseTxn_failReg (s : State) (w : World) (k : Nat) :
    (s.refuseTxn w k).reg (failReg w) = BitVec.ofNat 32 (23 * 2 ^ 24 + k % 256 * 2 ^ 16 + s.kindAt w k) := by
  rw [refuseTxn_eq, emit_regs _ _ _ (failReg_stands w).1]
  exact (State.reg_setNat_ne _ _ (failReg_stands w).2).trans (State.reg_setNat_self s _ _)

theorem serveCommit_refuses {s : State} {p : Pend} {b : Bool} {k : Nat} (ho : p.h.operator = true) (hb : p.h.badOperand = false)
    (hopen : (s.txn p.world).isOpen = true) (hidle : (s.txn p.world).commit = none)
    (hfail : (s.modTxn p.world fun x => { x with lastStep := b }).firstFail p.world = some k) :
    serveCommit b p s = ((s.modTxn p.world fun x => { x with lastStep := b }).refuseTxn p.world k).answer p .refused
      (codeOf 0 0 (World.num p.world) 0x0B03) [BitVec.ofNat 32 k] := by
  refine (serveAs_operator ho hb true none _).trans ?_
  simp only [hopen, hidle, hfail, Bool.not_true, Bool.false_eq_true, Option.isSome_none, if_false]

theorem exec_txnCommit {s : State} {h : Hdr} (hs : s.Serves h) (b : Bool) :
    exec (if b then .txnCommitStep h else .txnCommitImmediate h) s = done (serveCommit b ⟨h, 0x12⟩ (s.accepted h)) := by
  cases b
  · exact exec_host (c := .txnCommit false) rfl hs
  · exact exec_host (c := .txnCommit true) rfl hs

/-- Settles O5: validation precedes everything that a commit applies, and the refusal moves the failure register and the count alone. -/
theorem txnCommitRefused : Obligations.TxnCommitRefused := by
  intro s h b k hsig hs ho hopen hidle hfail
  have hserve := serveCommit_refuses (p := ⟨h, 0x12⟩) ho hs.operandsGood (by rw [accepted_txn]; exact hopen) (by rw [accepted_txn]; exact hidle) hfail
  generalize Pend.world ⟨h, 0x12⟩ = w at *
  have hown : ((s.accepted h).modTxn w fun x => { x with lastStep := b }).txn w = { s.txn w with lastStep := b } := by
    rw [State.txn_modTxn_self, accepted_txn]
  have hstart : Frame [.regs, .txns] s ((s.accepted h).modTxn w fun x => { x with lastStep := b }) :=
    (accepted_frame s h).mono.trans (modTxn_frame _ w _).mono
  have hregs : RegsBut commandReg s ((s.accepted h).modTxn w fun x => { x with lastStep := b }) := (accepted_regs s h).trans (.of_regs rfl)
  generalize (s.accepted h).modTxn w (fun x => { x with lastStep := b }) = u at *
  refine ⟨_, (exec_txnCommit hs b).trans (congrArg done hserve), ?_, ?_, ?_, ?_, ?_⟩
  · rw [settle_txn, answer_txn, refuseTxn_txn, hown]; exact hopen
  · rw [settle_txn, answer_txn, refuseTxn_txn, hown]
  · rw [settle_reg, answer_regs _ _ _ _ _ _ (failReg_stands w).1, refuseTxn_failReg, State.kindAt, hown]
  · exact ((hstart.mono.trans (refuseTxn_frame u w k).mono).trans (answer_frame _ _ _ _ _).mono).settle hsig.latch (by decide) (by decide)
      (by decide) (by decide)
  · have hcommand : ∀ r, (commandReg r || r == TXN_REFUSED || r == failReg w) = false → commandReg r = false := fun r hr =>
      (Bool.or_eq_false_iff.mp (Bool.or_eq_false_iff.mp hr).1).1
    exact ((hregs.mono hcommand).trans (refuseTxn_regs u w k)).trans
      (((answer_regs _ _ _ _ _).command.mono hcommand).trans (.of_regs rfl))

end Sys2Proof.Machine
end

section
/-! PROOFS. The I3C target (R518 to R520), and what the host link and the loss of the main path do (R40, R322, R410, R515, R516). -/
namespace Sys2Proof.Machine

-- One theorem at a time: with the joint text's other threads, parallel ones would pass the memory that the check gives.
set_option Elab.async false

/-! ### The parts of the target -/

theorem withI3c_frame (s : State) (x : I3c) : Frame [.i3c] s { s with i3c := x } := fun p hp => by
  cases p <;> first | rfl | exact absurd (by decide) hp

/-- A command that ends inside a frame without the hard lines and the pins is settled inside it. -/
theorem done_frame {l : List Part} {s u : State} (hsig : s.Signals) (h : Frame l s u) (hl : Part.hl ∉ l := by decide) (hp : Part.pw ∉ l := by decide)
    (hm : Part.msix ∈ l := by decide) (ho : Part.out ∈ l := by decide) : Frame l s (settle u) := h.settle hsig.latch hl hp hm ho

/-- An answer of the target stands in the settled state. -/
theorem i3cSays_powered {s : State} (b : List Byte) (h : s.pw.standby = true) : s.i3cSays b = s.emitOut (.i3c b) := if_pos h

theorem says_mem (s : State) (o : Out) : o ∈ (settle (s.emitOut o)).out := settle_out_mem List.mem_cons_self

/-! ### A read by the controller (R519) -/

/-- A word of the pointer space moves the holding register and the draws alone. -/
theorem i3cWord_keeps (s : State) (off : Nat) : Frame [.i3c, .free] s (s.i3cWord off).1 ∧ (s.i3cWord off).1.i3c.pointer = s.i3c.pointer ∧
    (s.i3cWord off).1.i3c.addr = s.i3c.addr := by
  have hsame : Frame [.i3c, .free] s s ∧ s.i3c.pointer = s.i3c.pointer ∧ s.i3c.addr = s.i3c.addr := ⟨.refl _ s, rfl, rfl⟩
  have hdrawn : Frame [.i3c, .free] s s.drawn ∧ s.drawn.i3c.pointer = s.i3c.pointer ∧ s.drawn.i3c.addr = s.i3c.addr :=
    ⟨(drawn_frame s).mono, rfl, rfl⟩
  unfold State.i3cWord
  split
  · split
    · exact hsame
    · split
      · exact hsame
      · split
        · exact hsame
        · split
          · exact hsame
          · exact ⟨(drawn_frame s).mono.trans (withI3c_frame _ _).mono, rfl, rfl⟩
          · exact hdrawn
  · split
    · exact hdrawn
    · split
      · exact hdrawn
      · exact hsame

/-- The words of a read in turn: their bytes, and the state after them. -/
def State.i3cWords (s : State) (first : Nat) (l : List Nat) : State × List Byte :=
  l.foldl (fun (a : State × List Byte) k =>
    let y := a.1.i3cWord (4 * (first + k))
    (y.1, a.2 ++ leBytes 4 y.2.toNat)) (s, [])

theorem i3cWords_keeps (s : State) (first : Nat) (l : List Nat) : Frame [.i3c, .free] s (s.i3cWords first l).1 ∧
    (s.i3cWords first l).1.i3c.addr = s.i3c.addr ∧ (s.i3cWords first l).2.length = 4 * l.length := by
  have hloop : ∀ (l : List Nat) (a : State × List Byte), Frame [.i3c, .free] s a.1 → a.1.i3c.addr = s.i3c.addr →
      let x := l.foldl (fun (a : State × List Byte) k =>
        let y := a.1.i3cWord (4 * (first + k))
        (y.1, a.2 ++ leBytes 4 y.2.toNat)) a
      Frame [.i3c, .free] s x.1 ∧ x.1.i3c.addr = s.i3c.addr ∧ x.2.length = a.2.length + 4 * l.length := by
    intro l
    induction l with
    | nil => exact fun a hf ha => ⟨hf, ha, rfl⟩
    | cons k l ih =>
      intro a hf ha
      obtain ⟨h1, -, h3⟩ := i3cWord_keeps a.1 (4 * (first + k))
      obtain ⟨g1, g2, g3⟩ := ih (_, _) (hf.trans h1) (h3.trans ha)
      refine ⟨g1, g2, g3.trans ?_⟩
      simp only [List.length_append, leBytes, List.length_cons, List.length_nil]
      omega
  obtain ⟨h1, h2, h3⟩ := hloop l (s, []) (.refl _ s) rfl
  exact ⟨h1, h2, h3.trans (Nat.zero_add _)⟩

/-- The bytes that a read of `n` from `p` returns, of the words that cover them. -/
theorem read_length {α : Type} {p n : Nat} {l : List α} (h : l.length = 4 * ((p + n + 3) / 4 - p / 4)) : ((l.drop (p % 4)).take n).length = n := by
  rw [List.length_take, List.length_drop, h]
  omega

theorem doI3cPrivateRead_powered {s : State} (n : Nat) (h : s.pw.standby = true) : doI3cPrivateRead n s =
    let p := s.i3c.pointer
    let m := min 256 (max 4 n)
    let x := s.i3cWords (p / 4) (List.range ((p + m + 3) / 4 - p / 4))
    ({ x.1 with i3c := { x.1.i3c with pointer := (p + m) % 2 ^ 24 } }).emitOut (.i3c ((x.2.drop (p % 4)).take m)) :=
  if_neg (by rw [h]; exact Bool.false_ne_true)

/-! ### Addresses, switches and interrupts (R518, R520) -/

/-- The addresses that ENTDAA and SETDASA give a target without one. -/
theorem doEntdaa_gives {s : State} (a : Fin 128) (hp : s.pw.standby = true) (ha : s.i3c.addr = none) :
    doEntdaa a s = (s.setAddr (some a)).emitOut (.i3c (s.provisionalId ++ [Config.bcr, Config.dcr])) := by
  rw [doEntdaa, hp, ha]
  exact i3cSays_powered _ hp

theorem doSetdasa_gives {s : State} (a : Fin 128) (hp : s.pw.standby = true) (ha : s.i3c.addr = none) : doSetdasa 0x4A a s = s.setAddr (some a) := by
  rw [doSetdasa, hp, ha]
  rfl

/-- An interrupt that was not accepted: given up after its eighth attempt, else raised again while interrupts are on. -/
theorem doIbiRetryTimer_again {s : State} {m n : Nat} {p : Word} {r : List (Nat × Word × Nat)} (h : s.i3c.pend = (m, p, n) :: r) :
    doIbiRetryTimer false s = if 8 ≤ n then { s with i3c := { s.i3c with pend := r } }
      else if s.i3c.ibiOn then ({ s with i3c := { s.i3c with pend := (m, p, n + 1) :: r } }).emitOut (.ibi m p) else s := by
  simp only [doIbiRetryTimer, h, Bool.false_eq_true, false_or]

theorem doIbiRetryTimer_accepted {s : State} {m n : Nat} {p : Word} {r : List (Nat × Word × Nat)} (h : s.i3c.pend = (m, p, n) :: r) :
    doIbiRetryTimer true s = { s with i3c := { s.i3c with pend := r } } := by
  simp only [doIbiRetryTimer, h, true_or, if_true]

/-- Settles O54: each message by the equation of what it does. -/
theorem i3cTarget : Obligations.I3cTarget := by
  have hset : ∀ (s : State) (x : I3c), s.Signals → Frame [.i3c, .msix, .out] s (settle { s with i3c := x }) := fun s x hsig =>
    done_frame hsig (withI3c_frame s x).mono
  have hsays : ∀ (s u : State) (b : List Byte), s.Signals → Frame [.msix, .out] s u → Frame [.msix, .out] s (settle (u.emitOut (.i3c b))) :=
    fun s u b hsig hu => done_frame hsig (hu.trans (emitOut_frame _ _).mono)
  refine ⟨fun s x y z hsig => ?pointer, fun s n hsig hp => ?read, fun s a hsig hp ha => ?address, fun s hsig => ⟨_, rfl, rfl, hset s _ hsig⟩,
    fun s hsig hp => ?codes, fun s m p n r hsig hpend => ?interrupts⟩
  case pointer => exact ⟨_, rfl, rfl, hset s _ hsig⟩
  case read =>
    refine ⟨_, congrArg done (doI3cPrivateRead_powered n hp), ?_⟩
    dsimp only
    obtain ⟨hframe, haddr, hlen⟩ := i3cWords_keeps s (s.i3c.pointer / 4)
      (List.range ((s.i3c.pointer + min 256 (max 4 n) + 3) / 4 - s.i3c.pointer / 4))
    generalize s.i3cWords (s.i3c.pointer / 4) _ = x at hframe haddr hlen
    rw [List.length_range] at hlen
    exact ⟨⟨_, says_mem _ _, read_length hlen⟩, rfl, haddr,
      done_frame hsig ((hframe.mono.trans (withI3c_frame x.1 _).mono).trans (emitOut_frame _ _).mono)⟩
  case address =>
    refine ⟨⟨_, congrArg done (doEntdaa_gives a hp ha), rfl, says_mem _ _, ?_⟩, _, congrArg done (doSetdasa_gives a hp ha), rfl, hset s _ hsig⟩
    exact done_frame hsig ((withI3c_frame s _).mono.trans (emitOut_frame _ _).mono)
  case codes =>
    refine ⟨⟨_, congrArg done (i3cSays_powered _ hp), says_mem _ _, hsays s s _ hsig (.refl _ s)⟩,
      ⟨_, congrArg done (i3cSays_powered _ hp), says_mem _ _, hsays s s _ hsig (.refl _ s)⟩,
      ⟨_, congrArg done (i3cSays_powered _ hp), says_mem _ _, hsays s s _ hsig (.refl _ s)⟩,
      ⟨_, congrArg done (i3cSays_powered _ hp), says_mem _ _, hsays s s _ hsig (.refl _ s)⟩,
      ⟨_, congrArg done (i3cSays_powered (s := s.drawn) _ hp), ⟨_, _, says_mem _ _⟩, ?_⟩, ⟨_, congrArg done (if_pos hp), rfl, hset s _ hsig⟩,
      _, rfl, rfl, hset s _ hsig⟩
    exact done_frame hsig ((drawn_frame s).mono.trans (emitOut_frame _ _).mono)
  case interrupts =>
    refine ⟨⟨_, congrArg done (doIbiRetryTimer_accepted hpend), rfl, hset s _ hsig⟩, _, congrArg done (doIbiRetryTimer_again hpend), ?_⟩
    by_cases h8 : 8 ≤ n
    · rw [if_pos h8, if_pos h8]
      exact ⟨rfl, fun h => absurd h (Nat.not_lt.mpr h8), hset s _ hsig⟩
    · rw [if_neg h8, if_neg h8]
      split
      · exact ⟨rfl, fun _ _ => says_mem _ _, done_frame hsig ((withI3c_frame s _).mono.trans (emitOut_frame _ _).mono)⟩
      · next hoff => exact ⟨rfl, fun _ hon => absurd hon hoff, done_frame hsig (.refl _ s)⟩

/-! ### The host link and the main path -/

/-- The end of a command that moves the pins besides: it leaves them where TRAY_PC_N already follows the latch. -/
theorem settle_modPw {s : State} (hsig : s.Signals) {f : Power → Power} (hf : (f s.pw).trayPc = s.pw.trayPc) :
    (settle (s.modPw f)).pw = f s.pw ∧ Frame [.msix, .out, .pw] s (settle (s.modPw f)) :=
  ⟨settle_pw_of fun h => hf.trans (hsig.latch h), ((modPw_frame s f).mono).trans (settle_frame _).mono⟩

/-- What main power held does not include bring-up. -/
theorem clearMain_bu (s : State) : s.clearMain.bu = s.bu := rfl

/-- Without main power no domain, tile or port is left and the package is SAFE, whether a removal ends with it or not. -/
theorem doMainPathRemoved_clears (s : State) : (doMainPathRemoved s).pw.mainGood = false ∧ (doMainPathRemoved s).pw.domOn = 0 ∧
    (doMainPathRemoved s).tiles = [] ∧ (doMainPathRemoved s).ports = [] ∧ (doMainPathRemoved s).bu.pkg = .safe := by
  have hsafe : (s.setPkg .safe).clearMain.bu.pkg = .safe := by rw [clearMain_bu, setPkg_bu]
  unfold doMainPathRemoved
  extract_lets s1
  split
  · exact ⟨rfl, rfl, rfl, rfl, hsafe⟩
  · exact ⟨rfl, rfl, rfl, rfl, hsafe⟩

/-- On return to D0 a latched message leaves or is pending under its mask; none stays held (R410). -/
theorem doPmStateChange_returns (s : State) : (settle (doPmStateChange false s)).msix.d3Held = 0 ∧
    (settle (doPmStateChange false s)).msix.pba &&& ~~~ s.vecMask = 0 := by
  refine ⟨BitVec.zero_and, ?_⟩
  have hkept : ∀ a m : BitVec 16, (a &&& ~~~ (a &&& ~~~ m)) &&& ~~~ m = 0 := fun a m => by
    ext i hi
    simp only [BitVec.getElem_and, BitVec.getElem_not]
    cases a[i] <;> cases m[i] <;> simp
  exact hkept _ s.vecMask

/-- Settles O13: each event of the link or of power by the fields that it sets. -/
theorem hostLinkAndMainPath : Obligations.HostLinkAndMainPath := by
  refine ⟨fun s hsig ht => ⟨_, congrArg done (?perst : doHostFullReset true s = s.modPw fun p => { p with perstSeen := true }), settle_modPw hsig rfl⟩,
    fun s hsig hd => ⟨_, congrArg done (if_pos hd : doPcieLinkTrained s = _), settle_modPw hsig rfl⟩,
    fun s hsig => ⟨_, rfl, settle_modPw hsig rfl⟩, fun s hsig => ⟨_, rfl, ?_, (doPmStateChange_returns s).1, (doPmStateChange_returns s).2, ?_⟩,
    fun s => ⟨_, rfl, doMainPathRemoved_clears s⟩⟩
  case perst => simp only [doHostFullReset, ht, Bool.not_false, Bool.and_true, if_true]
  · exact settle_pw_of (s := doPmStateChange false s) hsig.latch
  · exact fun p hp => by cases p <;> first | rfl | exact absurd (by decide) hp

end Sys2Proof.Machine
end

section
/-! PROOFS. Where five statements leave no room for what the model does: the known answers that an apply writes anew (R175), the block counts that a start of
trace clears (R386), a tile that samples nothing without power (R377, R381), a read through a link that is down (R216), and an overwrite that a flush
goes before (R369). -/
namespace Sys2Proof.Machine

-- One theorem at a time: with the joint text's other threads, parallel ones would pass the memory that the check gives.
set_option Elab.async false

/-! ### An apply writes the known answers anew (R175, R439) -/

theorem lockGo_ofd (s : State) (was : Word) : (s.lockGo was).ofd = s.ofd := by
  have hgo : ∀ (u : State) (f : Nat), (u.fnGo f .secure).ofd = u.ofd := fun u f => by
    unfold State.fnGo
    dsimp only
    split <;> rfl
  have hall : ∀ (l : List Nat) (u : State), (u.each l fun u f => u.fnGo f .secure).ofd = u.ofd := fun l => by
    induction l with
    | nil => exact fun u => rfl
    | cons f l ih => exact fun u => (ih _).trans (hgo u f)
  unfold State.lockGo
  split
  · rfl
  · exact hall _ s

/-- A bank without items, where known answers stand: they are written anew for every key set. -/
theorem finishApply_known {s : State} (hitems : (s.txn .nonSecure).items = []) (hknown : s.ofd.known ≠ []) :
    (s.finishApply .nonSecure).ofd.known.length = 4 := by
  have hports : ∀ u : State, u.livePorts.filter (fun _ => false) = [] := fun u => List.filter_false _
  have hstand : ∀ f : Txn → Txn, (s.modTxn .nonSecure f).ofd.known ≠ [] := fun _ => hknown
  simp only [State.finishApply, hitems, List.any_nil, hports, State.each, List.foldl_nil, reduceCtorEq, if_false, hstand, State.emit_ofd, State.bump_ofd,
    State.setReg_ofd, lockGo_ofd]
  rfl

/-- A served commit of an empty bank of the non-secure world applies at once (R438). -/
theorem serveCommit_empty {s u : State} {p : Pend} (ho : p.h.operator = true) (hb : p.h.badOperand = false) (hw : p.world = .nonSecure)
    (hopen : (s.txn .nonSecure).isOpen = true) (hidle : (s.txn .nonSecure).commit = none) (hitems : (s.txn .nonSecure).items = [])
    (hu : (s.modTxn .nonSecure fun x => { x with lastStep := false }) = u) (hgood : u.firstFail .nonSecure = none) :
    serveCommit false p s = (u.applyTxn .nonSecure).answer p .ok 0 [(u.applyTxn .nonSecure).reg TXN_CFG_EPOCH] := by
  refine (serveAs_operator ho hb true none _).trans ?_
  simp only [hw, hopen, hidle, hitems, hu, hgood, Bool.not_true, Bool.false_eq_true, Option.isSome_none, List.any_nil, Bool.or_self, Bool.not_false,
    Bool.true_or, if_true, if_false]
  rfl

/-- An open transaction with an empty bank, in a package whose stacks hold a known answer. -/
def knownTxn : State := { srvTxn with ofd := { known := [⟨1, 2⟩] } }

/-- Refutes O4: with known answers at the stacks an apply writes them anew (R175), for all four key sets; the frame of the statement has the Hearth's
side of the digests stand. -/
theorem not_txnCommitApplies : ¬ Obligations.TxnCommitApplies := by
  intro hob
  have hserves : knownTxn.Serves hw := ⟨rfl, rfl, rfl, by decide, by decide, by decide⟩
  have hgood : ((knownTxn.accepted hw).modTxn .nonSecure fun x => { x with lastStep := false }).firstFail .nonSecure = none := by decide
  obtain ⟨t, hexec, -, -, -, -, -, hframe⟩ := hob knownTxn hw (by unfold State.Signals; decide) hserves rfl rfl rfl rfl (fun i hi => nomatch hi) hgood
  have hserve := serveCommit_empty (s := knownTxn.accepted hw) (p := ⟨hw, 0x12⟩) rfl rfl rfl rfl rfl rfl rfl hgood
  have happly := finishApply_known (s := ((knownTxn.accepted hw).modTxn .nonSecure fun x => { x with lastStep := false }).beginApply .nonSecure) rfl
    (by decide)
  have ht : t = _ := Host.Outcome.next.inj (hexec.symm.trans ((exec_host (c := .txnCommit false) rfl hserves).trans (congrArg done hserve)))
  have hlen : t.ofd.known.length = 4 := by
    rw [ht, settle_ofd, State.answer_ofd]
    exact happly
  have hsame : t.ofd = knownTxn.ofd := hframe .ofd (by decide)
  rw [hsame] at hlen
  exact absurd hlen (by decide)

/-! ### Trace counts its blocks since ON (R386, R404) -/

theorem startTrace_blocks (s : State) : s.startTrace.reg (itemKey OBS_TRACE_BLOCKS 0) = 0 := by
  have hkey : ∀ j, j ≠ 0 → itemKey OBS_TRACE_BLOCKS 0 ≠ itemKey OBS_TRACE_BLOCKS j := fun j hj => by
    unfold itemKey
    omega
  have hclear : ∀ u : State, u.clearTrace.reg (itemKey OBS_TRACE_BLOCKS 0) = u.reg (itemKey OBS_TRACE_BLOCKS 0) := fun u => rfl
  rw [State.startTrace, hclear]
  change ((((s.setReg (itemKey OBS_TRACE_BLOCKS 0) 0).setReg (itemKey OBS_TRACE_BLOCKS 1) 0).setReg (itemKey OBS_TRACE_BLOCKS 2) 0).setReg
    (itemKey OBS_TRACE_BLOCKS 3) 0).reg (itemKey OBS_TRACE_BLOCKS 0) = 0
  rw [State.reg_setReg_ne _ _ (hkey 3 (by decide)), State.reg_setReg_ne _ _ (hkey 2 (by decide)), State.reg_setReg_ne _ _ (hkey 1 (by decide)),
    State.reg_setReg_self]

theorem setFn_regs (s : State) (f : Nat) (st : FnState) : RegsBut eventReg s (s.setFn f st) := by
  have hmod : ∀ g, RegsBut eventReg s (s.modFn f g) := fun g => .of_regs rfl
  unfold State.setFn
  exact .ite (((hmod _).trans (emit_regs _ _)).irq) (hmod _)

/-- Trace is STARTING, with a block counted before, and no partition traced. -/
def startingTrace : State := { srv with fns := [(1, ⟨.starting, 3, .nonSecure⟩)], regs := [(HRT_CMD_CTRL, 1), (itemKey OBS_TRACE_BLOCKS 0, 5)] }

theorem startingTrace_starts : doFnStartComplete 1 true startingTrace = startingTrace.startTrace.setFn 1 .on := rfl

/-- Refutes O7: trace that goes ON counts its blocks anew (R386, R404), which moves a register; the third clause has every register stand but those of
events. -/
theorem not_functionStates : ¬ Obligations.FunctionStates := by
  rintro ⟨-, -, hob, -⟩
  obtain ⟨t, hexec, -, -, -, -, -, hrest⟩ := hob startingTrace 1 true true (by unfold State.Signals; decide) rfl (by decide)
  have ht : t = _ := Host.Outcome.next.inj (hexec.symm.trans (congrArg done startingTrace_starts))
  have hstands := (hrest (.inl (by decide))).2 (itemKey OBS_TRACE_BLOCKS 0) (by decide)
  have hzero : t.reg (itemKey OBS_TRACE_BLOCKS 0) = 0 := by
    rw [ht, settle_reg, setFn_regs _ _ _ _ (by decide), startTrace_blocks]
  rw [hzero] at hstands
  exact absurd hstands (by decide)

/-! ### A tile without power samples nothing (R377, R381) -/

theorem doPcSample_disabled {s : State} {tl : TileIx} (h : s.enabled tl = false) (pc : Word) (stall : Option (Fin 8)) : doPcSample tl pc stall s = s := by
  simp only [doPcSample, h, Bool.false_and, Bool.false_eq_true, if_false]

/-- Trace is ON with every source selected, and no region has power. -/
def unpoweredTrace : State := { srvTrace with tiles := [], pw := { srvTrace.pw with domOn := 0 } }

/-- Refutes O32: the premises of the first clause ask that no line holds the tile's region and not that the region has power; without power the enables
are down and nothing is sampled. -/
theorem not_traceRecords : ¬ Obligations.TraceRecords := by
  rintro ⟨hob, -⟩
  obtain ⟨t, hexec, ⟨w0, w1, w3, hbuf⟩, -⟩ := hob unpoweredTrace 0 0 none (by unfold State.Signals; decide) (by decide) (by decide) (by decide)
    (by decide) rfl rfl (by decide)
  have ht : t = _ := Host.Outcome.next.inj (hexec.symm.trans (congrArg done (doPcSample_disabled (s := unpoweredTrace) (by decide) 0 none)))
  rw [ht] at hbuf
  exact absurd hbuf (List.cons_ne_nil _ _).symm

/-! ### A read through a link that is down (R216, R464) -/

theorem doLinkFrameSend_down {s : State} {p : PortIx} {f : Sys2Proof.Frame} (hlines : (s.hl.stop ||| s.hl.trip).getLsbD (24 + p.val / 3) = false)
    (htensor : s.isTensor p = true) (hup : (s.port p).up = false) (hread : f.isWrite = false) (tl : TileIx) :
    doLinkFrameSend p tl f s = s.remoteGone p false f.bytes := by
  simp only [doLinkFrameSend, hlines, htensor, hup, hread, Bool.not_true, Bool.not_false, Bool.or_true, Bool.and_self, Bool.false_eq_true, if_false,
    if_true]

theorem remoteGone_egress (s : State) (p : PortIx) (n : Nat) :
    (s.remoteGone p false n).reg (linkReg p LWD_EGRESS_DROP) = s.reg (linkReg p LWD_EGRESS_DROP) := by
  have hpage : 0x280000 ≤ linkReg p LWD_EGRESS_DROP := by
    unfold linkReg
    omega
  have hgone : linkReg p LWD_EGRESS_DROP ≠ HRT_REMOTE_GONE := Nat.ne_of_gt (Nat.lt_of_lt_of_le (by decide : HRT_REMOTE_GONE < 0x280000) hpage)
  rw [State.remoteGone, if_neg Bool.false_ne_true, State.reg_congr (State.emitOut_regs _ _), State.bump, State.reg_setNat_ne _ _ hgone, State.bump,
    State.reg_setNat_ne _ _ (linkReg_ne p (by decide))]

/-- A read for a job tag without an entry, and a package whose port 5 has not trained. -/
def foreignRead : Sys2Proof.Frame := { frame1 with tag := 10, isWrite := false }
def downLink : State := { srvLink with ports := [] }

/-- Refutes O37: a read through a link that is down is answered with Slag (R216), whether its tag has an entry or not; the fifth clause has it counted as
dropped, and no premise says that the port is up. -/
theorem not_linkFrames : ¬ Obligations.LinkFrames := by
  rintro ⟨-, -, -, -, hob, -⟩
  obtain ⟨t, hexec, hdrop, -⟩ := hob downLink 5 0 foreignRead (by decide) (by decide) (by decide) (by decide) (by decide) (by decide)
  have ht : t = _ := Host.Outcome.next.inj (hexec.symm.trans (congrArg done (doLinkFrameSend_down (s := downLink) (p := 5) (f := foreignRead)
    (by decide) (by decide) (by decide) rfl 0)))
  rw [ht, settle_reg, remoteGone_egress] at hdrop
  exact absurd hdrop (by decide)

/-! ### A flush goes before the overwrite (R369) -/

theorem doEraseOverwriteDone_waits {s : State} (h : s.recd.flush.isSome = true) : doEraseOverwriteDone s = s := by
  unfold doEraseOverwriteDone
  split
  · rfl
  · rw [h, Bool.or_true, if_pos rfl]

/-- An overwrite of both areas, and a background flush that runs. -/
def flushedErase : State := { srv with recd := { srv.recd with erase := some (true, true), flush := some ⟨.background, [], false⟩ } }

/-- Refutes O50: while a flush runs the overwrite goes on, and no premise of the fifth clause says that none does. -/
theorem not_recorderFreezeErase : ¬ Obligations.RecorderFreezeErase := by
  rintro ⟨-, -, -, -, hob⟩
  obtain ⟨t, hexec, hover, -⟩ := hob flushedErase true true (by unfold State.Signals; decide) rfl rfl
  have ht : t = _ := Host.Outcome.next.inj (hexec.symm.trans (congrArg done (doEraseOverwriteDone_waits (s := flushedErase) rfl)))
  rw [ht] at hover
  exact absurd hover (by decide)

end Sys2Proof.Machine
end

section
/-! PROOFS. Counters of a context and tensor watches (R380, R393 to R396): what goes on when a watch ends leaves the watches that have ended as they are. -/
namespace Sys2Proof.Machine

-- One theorem at a time: with the joint text's other threads, parallel ones would pass the memory that the check gives.
set_option Elab.async false

/-! ### The shadow pool, covers and gates leave observation where it is -/

@[simp] theorem each_obs {α : Type} {f : State → α → State} (h : ∀ s x, (f s x).obs = s.obs) (l : List α) (s : State) : (s.each l f).obs = s.obs := by
  induction l generalizing s with
  | nil => rfl
  | cons x l ih => exact (ih (f s x)).trans (h s x)

@[simp] theorem ite_obs {c : Prop} [Decidable c] (a b : State) : (if c then a else b).obs = if c then a.obs else b.obs := apply_ite State.obs c a b

@[simp] theorem wardenReport_obs (s : State) (a : AgentIx) (r : Rep) : (s.wardenReport a r).obs = s.obs := wardenReport_frame s a r .obs (by decide)
@[simp] theorem send_obs (s : State) (a : AgentIx) (m : Bell) (n : Nat) : (s.send a m n).obs = s.obs := send_frame s a m n .obs (by decide)
@[simp] theorem unitCommand_obs (s : State) (a : AgentIx) (m : Bell) : (s.unitCommand a m).obs = s.obs := send_obs s a m _
@[simp] theorem command_obs (s : State) (a : AgentIx) (m : Bell) : (s.command a m).obs = s.obs := send_obs s a m _
@[simp] theorem modEntry_obs (s : State) (t : TileIx) (q : Word) (f : JEntry → JEntry) : (s.modEntry t q f).obs = s.obs :=
  modEntry_frame s t q f .obs (by decide)
@[simp] theorem voidHalves_obs (s : State) (c : Capture) : (s.voidHalves c).obs = s.obs := rfl
@[simp] theorem setRole_obs (s : State) (t : TileIx) (r : PoolRole) : (s.setRole t r).obs = s.obs := rfl

@[simp] theorem startShadow_obs (s : State) (p sh : TileIx) (k : Cmd) (n : Nat) : (s.startShadow p sh k n).obs = s.obs := by
  unfold State.startShadow; split <;> simp

@[simp] theorem reportHeld_obs (s : State) (t : TileIx) (q : Word) : (s.reportHeld t q).obs = s.obs := by
  unfold State.reportHeld
  split
  · rfl
  · split
    · rfl
    · split <;> simp

@[simp] theorem startHeld_obs (s : State) (p sh : TileIx) (k : Cmd) (n : Nat) : (s.startHeld p sh k n).obs = s.obs := by simp [State.startHeld]
@[simp] theorem dropPreempted_obs (s : State) (t : TileIx) (c : Capture) : (s.dropPreempted t c).obs = s.obs :=
  (((modTile_frame s t _).mono (m := [.tiles, .regs])).trans ((bump_frame _ _ _).mono.trans (bump_frame _ _ _).mono)) .obs (by decide)
@[simp] theorem claimCover_obs (s : State) (u : TileIx) : (s.claimCover u).obs = s.obs := by simp [State.claimCover]
@[simp] theorem freeTest_obs (s : State) (t : TileIx) : (s.freeTest t).obs = s.obs := by simp [State.freeTest]
@[simp] theorem startTest_obs (s : State) (t : TileIx) : (s.startTest t).obs = s.obs :=
  (unitCommand_obs _ _ _).trans (((setFld_frame _ _ _ _ _).trans (bumpFld_frame _ _ _ _ _)) .obs (by decide) : _ = (s.setRole t .selfTest).obs)
@[simp] theorem spareSlot_obs (s : State) (t : TileIx) : (s.spareSlot t).obs = s.obs := by simp [State.spareSlot]
@[simp] theorem spareOrSkip_obs (s : State) : s.spareOrSkip.obs = s.obs := by unfold State.spareOrSkip; split <;> simp

@[simp] theorem loseCover_obs (s : State) (u : TileIx) : (s.loseCover u).obs = s.obs := by
  unfold State.loseCover
  refine (each_obs (fun s i => ?_) _ _).trans ?_
  · split
    · rfl
    · split <;> simp
  · split
    · rfl
    · split <;> simp

@[simp] theorem seekHold_obs (s : State) (p : TileIx) (k : Cmd) (n : Nat) (o : Option TileIx) : (s.seekHold p k n o).obs = s.obs := by
  unfold State.seekHold
  split
  · rfl
  · split
    · simp
    · split
      · simp
      · split <;> simp

@[simp] theorem sample_obs (s : State) (t : TileIx) (l : LogIx) (k : Cmd) (n : Nat) : (s.sample t l k n).obs = s.obs := by
  unfold State.sample
  dsimp only
  split
  · rfl
  · split
    · rfl
    · split
      · simp
      · split
        · rfl
        · split
          · rfl
          · split <;> simp

@[simp] theorem accept_obs (s : State) (t : TileIx) (l : LogIx) (k : Cmd) : (s.accept t l k).obs = s.obs := by simp [State.accept]
@[simp] theorem drainGate_obs (s : State) (t : TileIx) (l : LogIx) : (s.drainGate t l).obs = s.obs := by simp [State.drainGate]
@[simp] theorem drainGateOf_obs (s : State) (t : TileIx) : (s.drainGateOf t).obs = s.obs := by unfold State.drainGateOf; split <;> simp
@[simp] theorem drainFreed_obs (s : State) : s.drainFreed.obs = s.obs := by simp [State.drainFreed]

/-! ### Records of the trace leave the watches -/

/-- The watches stand. -/
def SameWatches (s t : State) : Prop := t.obs.watches = s.obs.watches

theorem SameWatches.refl (s : State) : SameWatches s s := rfl
theorem SameWatches.trans {s t u : State} (h : SameWatches s t) (k : SameWatches t u) : SameWatches s u := Eq.trans k h
theorem SameWatches.of_obs {s t : State} (h : t.obs = s.obs) : SameWatches s t := congrArg Observe.watches h
theorem SameWatches.ite {s a b : State} {c : Prop} [Decidable c] (h : SameWatches s a) (k : SameWatches s b) : SameWatches s (if c then a else b) := by
  split <;> assumption

theorem SameWatches.foldl {α : Type} {f : State → α → State} (h : ∀ s x, SameWatches s (f s x)) (l : List α) (s : State) : SameWatches s (l.foldl f s) := by
  induction l generalizing s with
  | nil => exact .refl s
  | cons x l ih => exact (h s x).trans (ih _)

theorem traceDrain_watches (s : State) (p w : Nat) : SameWatches s (s.traceDrain p w) := by
  unfold State.traceDrain
  dsimp only
  split <;> rfl

theorem traceLost_watches (s : State) (p w n : Nat) : SameWatches s (s.traceLost p w n) := by
  unfold State.traceLost
  extract_lets s1 s2 r
  have h1 : Frame [.regs] s s1 := add64_frame _ _ _ _ _
  have h2 : s2.obs = s.obs := (Frame.ite (h1.trans (bump_frame _ _ _)) (.ite (h1.trans (bump_frame _ _ _)) h1) : Frame [.regs] s s2) .obs (by decide)
  refine .ite ?_ (.of_obs h2)
  refine SameWatches.trans ?_ (.of_obs ((State.irq_obs _ _).trans (State.emitBase_obs _ _ _)))
  exact (SameWatches.of_obs h2).trans rfl

theorem traceRec_watches (s : State) (p w : Nat) (r : List Word) : SameWatches s (s.traceRec p w r) := by
  have hw : ∀ x, SameWatches s (s.setWriter p w x) := fun x => rfl
  unfold State.traceRec
  exact .ite (.refl s) (.ite ((hw _).trans (traceDrain_watches _ p w)) ((hw _).trans (traceLost_watches _ p w 1)))

theorem traceEvent_watches (s : State) (e : Event) (q : Word) : SameWatches s (s.traceEvent e q) := by
  unfold State.traceEvent
  split
  · split
    · exact .foldl (fun _ _ => traceRec_watches _ _ _ _) _ _
    · exact .refl s
  · exact .refl s

theorem emit_watches (s : State) (e : Event) : SameWatches s (s.emit e) := by
  have hcore : SameWatches s ((s.countError e).emitCore e false).1 := .of_obs ((State.emitCore_obs _ _ _).trans (State.countError_obs s e))
  exact (hcore.trans (traceEvent_watches _ _ _)).trans (.of_obs (lostEvents_frame _ _ .obs (by decide)))

/-! ### A watch that has ended stays as it is -/

theorem watch_congr {s t : State} (h : SameWatches s t) (k : Nat) : t.watch k = s.watch k := by rw [State.watch, h, State.watch]

@[simp] theorem watch_setWatch_self (s : State) (k : Nat) (x : Watch) : (s.setWatch k x).watch k = x := tget_tput_self _ _ _ _
theorem watch_setWatch_ne (s : State) {j k : Nat} (x : Watch) (h : j ≠ k) : (s.setWatch k x).watch j = s.watch j := tget_tput_ne _ _ _ h

/-- A watch under way. -/
def Watch.live (x : Watch) : Bool := x.st == 1 || x.st == 2

/-- Where watch `k` has ended, it stands. -/
def Rests (k : Nat) (s t : State) : Prop := (s.watch k).live = false → t.watch k = s.watch k

theorem Rests.refl (k : Nat) (s : State) : Rests k s s := fun _ => rfl
theorem Rests.trans {k : Nat} {s t u : State} (h : Rests k s t) (g : Rests k t u) : Rests k s u := fun hs =>
  (g (by rw [h hs]; exact hs)).trans (h hs)
theorem Rests.of_watches {k : Nat} {s t : State} (h : SameWatches s t) : Rests k s t := fun _ => watch_congr h k
theorem Rests.of_obs {k : Nat} {s t : State} (h : t.obs = s.obs) : Rests k s t := .of_watches (.of_obs h)

theorem Rests.each {α : Type} {k : Nat} {f : State → α → State} (h : ∀ s x, Rests k s (f s x)) (l : List α) (s : State) : Rests k s (s.each l f) := by
  unfold State.each
  induction l generalizing s with
  | nil => exact .refl k s
  | cons x l ih => exact (h s x).trans (ih _)

theorem closeWatch_ended {s : State} {k n : Nat} (h : (s.watch k).live = false) : s.closeWatch k n = s := by
  obtain ⟨h1, h2⟩ := Bool.or_eq_false_iff.mp h
  unfold State.closeWatch
  dsimp only
  split
  · rfl
  · exact if_pos ⟨beq_eq_false_iff_ne.mp h1, beq_eq_false_iff_ne.mp h2⟩

/-- A watch under way ends with its status; what is recorded of that moves no watch. -/
theorem closeWatch_live {s : State} {k n : Nat} {w : WatchDecl} (hw : (s.watch k).w = some w) (h : (s.watch k).live = true) :
    SameWatches (s.setWatch k { s.watch k with st := n }) (s.closeWatch k n) := by
  have hst : ¬ ((s.watch k).st ≠ 1 ∧ (s.watch k).st ≠ 2) := by
    rw [Watch.live, Bool.or_eq_true, beq_iff_eq, beq_iff_eq] at h
    omega
  unfold State.closeWatch
  extract_lets x
  split
  · next hnone => exact absurd (hw.symm.trans hnone) (Option.some_ne_none w)
  · rw [if_neg hst]
    extract_lets s1 s2
    have h1 : SameWatches (s.setWatch k { s.watch k with st := n }) s1 := .refl _
    have h2 : SameWatches s1 s2 := .ite (traceRec_watches _ _ _ _) (.refl s1)
    exact ((h1.trans h2).trans (emit_watches s2 _)).trans (.of_obs (State.irq_obs _ _))

/-- The end of one watch moves no watch that has ended. -/
theorem closeWatch_rests (k : Nat) (s : State) (j n : Nat) : Rests k s (s.closeWatch j n) := fun hk => by
  cases hlive : (s.watch j).live with
  | false => rw [closeWatch_ended hlive]
  | true =>
    cases hw : (s.watch j).w with
    | none => rw [State.closeWatch, hw]
    | some w =>
      have hne : k ≠ j := fun e => by rw [e, hlive] at hk; exact Bool.noConfusion hk
      rw [watch_congr (closeWatch_live hw hlive) k, watch_setWatch_ne _ _ hne]

theorem abandonWatches_rests (k : Nat) (s : State) (f : WatchDecl → Bool) : Rests k s (s.abandonWatches f) :=
  .each (fun s j => closeWatch_rests k s j 7) _ s

/-! ### Commands that go on after a hold -/

@[simp] theorem scrubFails_obs (s : State) (r : Scrub) (st : Status) (n : Nat) : (s.scrubFails r st n).obs = s.obs := by
  unfold State.scrubFails
  split
  · rfl
  · split <;> simp

@[simp] theorem sendNotices_obs (s : State) (ps : List PortIx) (scope : Fin 7) (after : Byte) (gens : List Byte) (cs : List CtxIx) :
    (s.sendNotices ps scope after gens cs).obs = s.obs := by
  unfold State.sendNotices
  exact each_obs (fun s p => (State.event_obs _ _).trans (setFld_frame (s.emitOut _) _ _ _ _ .obs (by decide))) _ _

@[simp] theorem endKill_obs (s : State) (c : CtxIx) (p : Option Pend) : (s.endKill c p).obs = s.obs := by
  unfold State.endKill
  split
  · exact State.finish_obs _ _ _ _ _
  · rfl

theorem killOutside_rests (k : Nat) (s : State) (c : CtxIx) : Rests k s (s.killOutside c) := by
  have hdigests : (s.killDigests c).obs = s.obs := each_obs (fun s r => scrubFails_obs s r _ _) _ _
  exact ((Rests.of_obs hdigests).trans (abandonWatches_rests k _ _)).trans (.of_obs rfl)

theorem sendKill_rests (k : Nat) (s : State) (c : CtxIx) (p : Option Pend) : Rests k s (s.sendKill c p) := by
  unfold State.sendKill
  extract_lets ws s1
  have h1 : Rests k s s1 := (killOutside_rests k s c).trans (.of_obs (State.modCtx_obs _ c _))
  split
  · exact h1.trans (.of_obs (endKill_obs s1 c p))
  · have hsent : (s1.each ws fun s a => s.command a (.kill c)).obs = s1.obs := each_obs (fun s a => command_obs s a _) ws s1
    exact h1.trans (.of_obs ((State.modCtx_obs _ c _).trans hsent))

theorem contextFault_rests (k : Nat) (s : State) (c : CtxIx) (code step seq : Word) : Rests k s (s.contextFault c code step seq) := by
  have hkill : ∀ u : State, Rests k u (u.killContext c 0 code 0 none) := fun u => by
    have hsend := (Rests.of_obs (u.jobFailed_obs c 0 code 0 0xFFFFFFFF)).trans (sendKill_rests k _ c none)
    unfold State.killContext
    dsimp only
    split
    · unfold State.startKill
      split
      · exact hsend
      · exact hsend.trans (.of_obs (sendNotices_obs _ _ _ _ _ _))
    · exact .refl k u
  unfold State.contextFault
  dsimp only
  split
  · exact (Rests.of_obs (s.notify_obs _)).trans (hkill _)
  · exact .refl k s

/-- A command issued ends no watch but by the fault of its context, which ends those under way. -/
theorem doCommandIssue_rests (k : Nat) (l : LogIx) (c : Cmd) (s : State) : Rests k s (doCommandIssue l c s) := by
  unfold doCommandIssue
  dsimp only
  split
  · exact .refl k s
  · split
    · exact .of_obs (State.modCtx_obs s _ _)
    · split
      · exact contextFault_rests k s _ _ _ _
      · split
        · exact .of_obs (State.modTile_obs s _ _)
        · exact .of_obs ((drainFreed_obs _).trans (accept_obs _ _ _ _))

theorem releaseWatchHold_rests (k : Nat) (s : State) (c : CtxIx) : Rests k s (s.releaseWatchHold c) := by
  have hgo : ∀ (l : List (LogIx × Cmd)) (u : State), Rests k u (u.each l fun u h => doCommandIssue h.1 h.2 u) :=
    Rests.each fun u h => doCommandIssue_rests k h.1 h.2 u
  rw [State.releaseWatchHold]
  exact Rests.trans (.of_obs (State.modCtx_obs s c _)) (hgo _ _)

/-! ### The end of a watch (R396) -/

/-- A watch under way ends with a status that is an end's, whatever goes on behind its hold. -/
theorem endWatch_watch {s : State} {k n : Nat} {w : WatchDecl} (hw : (s.watch k).w = some w) (h : (s.watch k).live = true)
    (hn : ({ s.watch k with st := n } : Watch).live = false) : (s.endWatch k n).watch k = { s.watch k with st := n } := by
  have hclose : (s.closeWatch k n).watch k = { s.watch k with st := n } := by rw [watch_congr (closeWatch_live hw h) k, watch_setWatch_self]
  unfold State.endWatch
  dsimp only
  split
  · exact hclose
  · split
    · exact (releaseWatchHold_rests k _ _ (by rw [hclose]; exact hn)).trans hclose
    · exact hclose

/-- The copy of a watch ends it, TRUNCATED where it did not fit. -/
theorem watchCopied_st {s : State} {k : Nat} {w : WatchDecl} (hw : (s.watch k).w = some w) (hst : (s.watch k).st = 2) (ha : isAddress w.sel = true)
    (hh : (s.ctx w.ctx).watchHold = true) (bytes : Nat) {status : Nat} (hn : 3 ≤ status) :
    ((s.watchCopied k bytes status).watch k).st = if dumpRoom w < bytes then 5 else status := by
  have hrun : s.watchCopied k bytes status =
      (s.setWatch k { s.watch k with bytes := min bytes (dumpRoom w) }).endWatch k (if dumpRoom w < bytes then 5 else status) := by
    simp [State.watchCopied, hw, hst, ha, hh]
  have hend : ∀ x : Watch, x.st = (if dumpRoom w < bytes then 5 else status) → x.live = false := fun x hx => by
    have hge : 3 ≤ x.st := by rw [hx]; split <;> omega
    rw [Watch.live, Bool.or_eq_false_iff, beq_eq_false_iff_ne, beq_eq_false_iff_ne]
    omega
  rw [hrun, endWatch_watch (w := w)]
  · rw [watch_setWatch_self]; exact hw
  · rw [watch_setWatch_self, Watch.live, hst]; rfl
  · exact hend _ rfl

/-! ### Counters and watchpoints that commands name (R380, R393, R396) -/

theorem accepted_reg (s : State) (h : Hdr) {k : Nat} (hk : k ≠ HRT_CMD_NEXT_SEQ) : (s.accepted h).reg k = s.reg k := by
  unfold State.accepted
  split
  · rfl
  · exact State.reg_setReg_ne s _ hk

theorem accepted_watch (s : State) (h : Hdr) (k : Nat) : (s.accepted h).watch k = s.watch k :=
  watch_congr (.of_obs (accepted_frame s h .obs (by decide))) k

theorem accepted_ctx (s : State) (h : Hdr) (c : CtxIx) : (s.accepted h).ctx c = s.ctx c := ctx_congr (accepted_frame s h .ctxs (by decide)) c

/-- The counters of tiles lie above the intake's registers. -/
theorem accepted_ctxSum (s : State) (h : Hdr) (n : Nat) (c : CtxIx) : (s.accepted h).ctxSum n c = s.ctxSum n c := by
  have hkey : ∀ (t : TileIx) (o i : Nat), itemKey (tileReg t o) i ≠ HRT_CMD_NEXT_SEQ := fun t o i => by
    have hpage : 0x100000 ≤ itemKey (tileReg t o) i := by
      unfold itemKey tileReg
      omega
    exact Nat.ne_of_gt (Nat.lt_of_lt_of_le (by decide : HRT_CMD_NEXT_SEQ < 0x100000) hpage)
  simp only [State.ctxSum, State.ctxCounter, State.reg64, accepted_reg s h (hkey _ _ _)]

/-- A served command that writes one watchpoint and answers OK. -/
theorem watchCommand_completes {s : State} {i : Instr} {h : Hdr} {c : HostCmd} {k : Nat} {x : Watch} {data : List Word} (hsig : s.Signals)
    (hi : hostOf i = some (h, c)) (hs : s.Serves h)
    (hc : serveHost c ⟨h, hostOpcode c⟩ (s.accepted h) = ((s.accepted h).setWatch k x).answer ⟨h, hostOpcode c⟩ .ok 0 data) :
    ∃ t, exec i s = .next t ∧ t.watch k = x ∧ Answered s t h (hostOpcode c) .ok data ∧ (∀ j, j ≠ k → t.watch j = s.watch j) ∧
      Frame [.regs, .msix, .cmp, .out, .obs] s t ∧ RegsBut commandReg s t := by
  have hset : Frame [.obs] (s.accepted h) ((s.accepted h).setWatch k x) := fun p hp => by cases p <;> first | rfl | exact absurd (by decide) hp
  have hwatch : ∀ j, (settle (((s.accepted h).setWatch k x).answer ⟨h, hostOpcode c⟩ .ok 0 data)).watch j = ((s.accepted h).setWatch k x).watch j :=
    fun j => watch_congr (.of_obs (State.answer_obs _ _ _ _ _)) j
  obtain ⟨hans, hframe, hregs⟩ := command_completes (op := hostOpcode c) (st := .ok) (data := data) (hset.mono (m := [.regs, .msix, .cmp, .out, .obs]))
    ((accepted_regs s h).trans (.of_regs rfl)) (by decide) (accepted_epoch s h) hsig (by decide) (by decide)
  refine ⟨_, (exec_host hi hs).trans (congrArg done hc), ?_, hans, fun j hj => ?_, hframe, hregs⟩
  · rw [hwatch, watch_setWatch_self]
  · rw [hwatch, watch_setWatch_ne _ _ hj, accepted_watch]

theorem serveWatchSet_arms {s : State} {p : Pend} {w : WatchDecl} {k : Nat} (ho : p.h.operator = true) (hb : p.h.badOperand = false)
    (hon : s.fnOn 2 = true) (hk : s.freeWatch w.part = some k) (hstep : later w.step (s.ctx w.ctx).step = true)
    (hsel : isAddress w.sel = true ∨ s.fld OBS_TAG_FORM w.part.val w.part.val ≠ 0) (hown : s.ownsRegion p w.dump = true) (hdump : s.dumpOk p w = true) :
    serveWatchSet w p s = (s.setWatch k { st := 1, w := some w }).answer p .ok 0 [BitVec.ofNat 32 (k % 8)] := by
  have htag : (!isAddress w.sel && decide (s.fld OBS_TAG_FORM w.part.val w.part.val = 0)) = false := by
    rcases hsel with ha | hf
    · rw [ha]; rfl
    · rw [decide_eq_false hf, Bool.and_false]
  refine (serveAs_operator ho hb false (some w.ctx) _).trans ?_
  simp only [hon, hk, hstep, htag, hown, hdump, Bool.not_true, Bool.false_eq_true, if_false]
  rfl

theorem serveWatchRelease_frees {s : State} {p : Pend} {part : PartIx} {wp : Fin 8} {w : WatchDecl} (ho : p.h.operator = true)
    (hb : p.h.badOperand = false) (hw : (s.watch (watchKey part wp.val)).w = some w) (hh : (s.ctx w.ctx).watchHold = false) :
    serveWatchRelease part wp p s = (s.setWatch (watchKey part wp.val) {}).answer p .ok 0 [] := by
  unfold serveWatchRelease
  extract_lets k x
  rw [serveAs_operator ho hb]
  simp only [x, k, hw, hh, Bool.false_eq_true, false_and, and_false, if_false]
  rfl

/-- Settles O33: the three commands in the accepted state, and the end of a watch by `watchCopied_st`. -/
theorem watchesAndCounters : Obligations.WatchesAndCounters := by
  refine ⟨fun s h c hsig hs ho => ?read, fun s h w k hsig hs ho hon hk hstep hsel hown hdump => ?set, fun s h p k w hsig hs ho hw hh => ?release,
    fun s p k bytes w hw hst ha hh hp => ⟨_, congrArg done (if_neg (by rw [hp]; exact Bool.false_ne_true)), watchCopied_st hw hst ha hh bytes (Nat.le_refl 3)⟩,
    fun s p k bytes w hw hst ha hh => ⟨_, rfl, watchCopied_st hw hst ha hh bytes (by decide)⟩⟩
  case read =>
    have hserve := serveAs_operator (s := s.accepted h) (p := ⟨h, 0x60⟩) ho hs.operandsGood false (some c) fun t =>
      t.ok ⟨h, 0x60⟩ (((List.range 2).flatMap fun n => [BitVec.ofNat 32 (t.ctxSum n c), BitVec.ofNat 32 (t.ctxSum n c / 2 ^ 32)]) ++
        ((List.range 8).map fun r => BitVec.ofNat 32 (min (t.ctxSum (2 + r) c) (2 ^ 32 - 1))) ++ [BitVec.ofNat 32 (t.ctx c).commits])
    simp only [accepted_ctxSum, accepted_ctx] at hserve
    exact ⟨_, (exec_host (c := .obsCtxRead c) rfl hs).trans (congrArg done hserve), command_completes (.refl _ _) (accepted_regs s h) (fun _ hp => hp)
      (accepted_epoch s h) hsig (by decide) (by decide)⟩
  case set =>
    have hobs : (s.accepted h).freeWatch w.part = s.freeWatch w.part := by simp only [State.freeWatch, accepted_watch]
    have hregions : (s.accepted h).regions = s.regions := accepted_frame s h .regions (by decide)
    have hfn : (s.accepted h).fns = s.fns := accepted_frame s h .fns (by decide)
    have hserve := serveWatchSet_arms (s := s.accepted h) (p := ⟨h, 0x61⟩) (w := w) (k := k) ho hs.operandsGood
      (by rw [State.fnOn, State.fn, hfn]; exact hon) (hobs.trans hk) (by rw [accepted_ctx]; exact hstep)
      (by rw [State.fld, accepted_reg s h (by decide)]; exact hsel) (by rw [accepted_ownsRegion]; exact hown)
      (by rw [State.dumpOk, State.regionOf, hregions]; exact hdump)
    exact watchCommand_completes (c := .watchSet w) hsig rfl hs hserve
  case release =>
    have hserve := serveWatchRelease_frees (s := s.accepted h) (p := ⟨h, 0x62⟩) (part := p) (wp := k) (w := w) ho hs.operandsGood
      (by rw [accepted_watch]; exact hw) (by rw [accepted_ctx]; exact hh)
    exact watchCommand_completes (c := .watchRelease p k) hsig rfl hs hserve

end Sys2Proof.Machine
end
